-- ==== Sys2Proof/Word.lean ====
section
/-! DEFINITION. The word types of the model (R3: every multi-byte quantity is little-endian; bit 0 is the least
significant bit). -/

namespace Sys2Proof

abbrev Byte := BitVec 8
abbrev Half := BitVec 16
abbrev Word := BitVec 32
abbrev DWord := BitVec 64

end Sys2Proof
end

