-- ==== Sys2Proof/Message.lean ====
section
/-! DEFINITION. A fabric message (R357), the operand of the message commands. -/

namespace Sys2Proof.Machine

/-- A fabric message: its 16 B header fields (R357) and its data bytes. -/
structure FMsg where
  ty : Nat
  dstDev : Nat
  srcDev : Nat
  dstGuild : Nat
  srcGuild : Nat
  snap : Bool
  /-- Words 2 and 3 -/
  info : Nat
  data : List Byte
deriving DecidableEq, Repr

/-- A mesh flit with what its control word says (R337, R339). -/
structure MFlit where
  /-- destination router of the device, 0 to 287 -/
  dst : Nat
  /-- class: REQ 0, RSP 1, CTL 2, FAB 3 -/
  cls : Nat
  /-- head and tail marks -/
  head : Bool
  tail : Bool
  /-- 64 B of data -/
  data : List Byte
  /-- the entry of the flow table that its network interface finds for it, 0 to 63 (R345) -/
  flow : Nat
deriving DecidableEq, Repr

end Sys2Proof.Machine
end

