-- ==== Sys2Proof/Syntax.lean ====
section
/-! DEFINITION. The commands of the block: one constructor per row of the table of operations and events, with the
row's operands. Operand conventions: `fn` is a requester (0 PF0, 1 PF1, 1 + k VF k, 66 the SIDEBAND transport, 67 the
steward's firmware); `tag` names the request in its answer; `t` is a transport (0 PF1 or DOE, 1 SIDEBAND or MCTP);
`core` is a logical core, `vault` a physical vault, `q` an order queue; `noise` is the error pattern of a read, XORed
into the stored codeword (R315); `m` is a fabric message (R357). An order command names only the core: the clerk's own
arbitration names the queue (R131). -/

namespace Sys2Proof

/-- A command: a row of the table of operations and events. -/
inductive Instr where
  /-- REG_WRITE (R7): A host, steward or mailbox write to a register that has no row of its own stores the value, applies reserved-bit, RO, W1C and RWS rules, clamps it under R8, or refuses it where the page's chapter says so. -/
  | regWrite (fn off : Nat) (wide : Bool) (v : DWord)
  /-- REG_READ_LOW_LATCH (R502): A 4 B read of the low half of a 64-bit register latches the high half for the next high-half read by the same function. -/
  | regReadLowLatch (fn tag off : Nat) (wide : Bool)
  /-- BAD_ACCESS (R502): An access of illegal size or alignment has no effect, reads as zero, increments STW_BAD_ACCESS and sets bad_access. -/
  | badAccess (fn tag : Nat) (isRead : Bool)
  /-- CLEAR_COUNTS (R505): Writing BLK_CTL clear_counts sets the page's BLK_CLAMP and BLK_REFUSE to zero. -/
  | clearCounts (fn page : Nat)
  /-- INT_FORCE (R507): A write to BLK_INT_FORCE sets the matching BLK_INT_STS bits and raises the interrupt that the event would raise. -/
  | intForce (fn page : Nat) (v : Word)
  /-- LOOM_SHELF_WRITE (R82): A write to LOOM_SHELF checks the quotas under R88 and applies the new quotas as slots become FREE. -/
  | loomShelfWrite (fn core : Nat) (v : Word)
  /-- VLT_DISCARD (R192): A write to VLT_DISCARD is refused under R202 or clears the valid bits of a range of granules while it holds requests to that range. -/
  | vltDiscard (fn vault : Nat) (v : DWord)
  /-- RNG_ALM_DATA_WRITE (R310): A write to RNG_ALM_DATA stores A[index] in every core's almanac copy and advances the index, unless a partition is SERVING. -/
  | rngAlmDataWrite (fn : Nat) (v : Word)
  /-- PWR_SHED_TX (R405): A write to PWR_SHED_TX floods a SHED message with the next sequence number and applies the level to the writing device. -/
  | pwrShedTx (fn : Nat) (v : Word)
  /-- STW_CAST_REQ (R481): A write to STW_CAST_REQ is refused or starts a graceful castling of the named core. -/
  | stwCastReq (fn : Nat) (v : Word)
  /-- FAB_RESET_GUILD (R374): Writing GUILD to FAB_CTL reset on the guildmaster floods RESET through the guild; on any other device the write is refused. -/
  | fabResetGuild (fn : Nat)
  /-- FAB_RESET_MARKET (R374): Writing MARKET to FAB_CTL reset on the market master floods RESET through the market; on any other device the write is refused. -/
  | fabResetMarket (fn : Nat)
  /-- SESSION_OPEN (R494): Writing OPEN to SEC_SESSION op compares SEC_RESP with the expected HMAC in constant time, opens or fails the transport's session slot, and draws a new nonce. -/
  | sessionOpen (t : Nat)
  /-- SESSION_CLOSE (R496): Writing CLOSE to SEC_SESSION op closes the transport's session slot. -/
  | sessionClose (t : Nat)
  /-- SESSION_IDLE_TIMEOUT (R496): A session sees no admin command or SEC_ write for idle seconds and closes. -/
  | sessionIdleTimeout (t : Nat)
  /-- SVN_COMMIT_FIRMWARE (R488): SEC_SVN_COMMIT raises the FIRMWARE counter bit by bit, clamped to the running image's svn. -/
  | svnCommitFirmware (fn target : Nat)
  /-- SVN_COMMIT_IDENTITY (R488): SEC_SVN_COMMIT raises the IDENTITY counter, which invalidates the identity key at the next BOOT. -/
  | svnCommitIdentity (fn target : Nat)
  /-- SVN_COMMIT_OWNER (R488): SEC_SVN_COMMIT raises the OWNER counter, which makes the device unowned at once and closes every session. -/
  | svnCommitOwner (fn target : Nat)
  /-- SVN_COMMIT_GUILD (R488): SEC_SVN_COMMIT raises the GUILD counter, which invalidates the guild-key record. -/
  | svnCommitGuild (fn target : Nat)
  /-- REQUEST_DOORBELL (R257): A write of the request tail to the partition's BAR4 doorbell makes the foreman fetch and consume request records, with the tail clamped to head + 2^n. -/
  | requestDoorbell (fn part tail : Nat)
  /-- TOKEN_HEAD_DOORBELL (R260): A write of the token head acknowledges consumed token records, and a DONE stream whose end record is passed becomes FREE. -/
  | tokenHeadDoorbell (fn part head : Nat)
  /-- ADMIN_DOORBELL (R258): A write of the admin tail through PF1 BAR4 makes the foreman take admin commands one at a time, in ring order. -/
  | adminDoorbell (tail : Nat)
  /-- ADMIN_CQ_HEAD_DOORBELL (R258): A write of the admin completion head acknowledges consumed admin completions. -/
  | adminCqHeadDoorbell (head : Nat)
  /-- SUBMIT (R259): A SUBMIT request record takes the lowest FREE stream within quota and makes it ADMITTED, holds the ring head, or produces an error token record. -/
  | submit (part : Nat)
  /-- CONTINUE (R273): A CONTINUE request record adds prompt tokens to an idle DECODE or pinned PARKED stream and starts a new turn, or is refused with STATE_REFUSED. -/
  | continue (part : Nat)
  /-- CREATE_PARTITION (R448): The admin command places core groups, windows and quotas in a new partition, or completes with QUOTA_REFUSED. -/
  | createPartition (rec : List Nat)
  /-- LOAD_PATTERN (R296): The admin command reads and checks a manifest and copies every region from its golden copy into place, verifying page hashes. -/
  | loadPattern (rec : List Nat)
  /-- RESTORE_CONTEXT (R451): LOAD_PATTERN with restore set checks a saved context and writes its patterns, core records, stream-roll and ledger entries and granules into the partition. -/
  | restoreContext (rec : List Nat)
  /-- DROP_PATTERN (R264): The admin command unloads a pattern that no live stream uses. -/
  | dropPattern (rec : List Nat)
  /-- SET_POLICY (R263): The admin command writes the partition's FORE_ and PORT_ policy fields with clamps. -/
  | setPolicy (rec : List Nat)
  /-- SERVE (R264): The admin command moves a LOADED or QUIESCED partition to SERVING. -/
  | serve (rec : List Nat)
  /-- QUIESCE (R136): The admin command withholds the next step of a SERVING partition; it completes when the running step ends. -/
  | quiesce (rec : List Nat)
  /-- RESET_PARTITION (R266): The admin command stops the partition's steps, resets its cores, frees its streams and ledger entries, and clears its flags and counters. -/
  | resetPartition (rec : List Nat)
  /-- PARTITION_RESET_DONE (R266): A partition leaves RESETTING for LOADED or CONFIGURED within 25 ms. -/
  | partitionResetDone (part : Nat)
  /-- DESTROY_PARTITION (R263): The admin command releases the partition's cores and clears its vaults' valid bits. -/
  | destroyPartition (rec : List Nat)
  /-- OPEN_STREAM (R263): The admin command admits a stream from request-record fields and returns its stream number and gen. -/
  | openStream (rec : List Nat)
  /-- PARK_STREAM (R273): The admin command parks a PREFILL or DECODE stream after the running step, or sets the pin flag of a PARKED stream. -/
  | parkStream (rec : List Nat)
  /-- CANCEL_STREAM (R273): The admin command moves a stream to DRAINING, with an end record of CANCEL. -/
  | cancelStream (rec : List Nat)
  /-- SNAPSHOT (R371): The admin command raises the snapshot number and floods SNAP_MARK through the chosen scope. -/
  | snapshot (rec : List Nat)
  /-- JOIN_GUILD (R498): The admin command runs the mutual guild-key challenge, or forms the guild on the configured guildmaster. -/
  | joinGuild (rec : List Nat)
  /-- JOIN_TIMEOUT (R498): No guildmaster answers JOIN_CHAL within 100 ms, and JOIN_GUILD completes with AUTH_REFUSED. -/
  | joinTimeout
  /-- LEAVE_GUILD (R265): The admin command takes the device out of its guild, or is refused. -/
  | leaveGuild (rec : List Nat)
  /-- STEP_START (R274): When the partition is SERVING, every core meets R130, a stream is selectable and the stagger allows, the foreman selects the step set, writes the step tables and s56 to s63, and starts the queues. -/
  | stepStart (part : Nat)
  /-- DRAFT_SUBSTEP (R284): Before a main step the foreman runs n_gambit draft sub-steps of the paired draft pattern to sample gambits. -/
  | draftSubstep (part : Nat)
  /-- STEP_END (R278): When every core meets R130 again, the foreman writes history, advances stream-roll fields, checks stop tokens, writes token records and runs the parking round. -/
  | stepEnd (part : Nat)
  /-- STREAM_UNPARK (R272): A PARKED stream whose pages are all NEAR again returns to PREFILL or DECODE. -/
  | streamUnpark (stream : Nat)
  /-- STREAM_DRAIN_DONE (R272): A DRAINING stream whose end record is written and whose ledger entries are released becomes DONE. -/
  | streamDrainDone (stream : Nat)
  /-- TOKEN_MSIX (R262): The partition's token-ring MSI-X vector fires when the unacknowledged records reach count or the oldest reaches the delay. -/
  | tokenMsix (part : Nat)
  /-- PAGE_DEMOTE (R198): A parked page is copied to the far tier, and its near granules are cleared once the ledger names the far copy. -/
  | pageDemote (entry : Nat)
  /-- PAGE_PROMOTE (R198): A far page is copied back into whole near granules. -/
  | pagePromote (entry : Nat)
  /-- PAGE_MOVE_DONE (R244): A page's copy completes, and its MOVING entry takes its new state and location in one update. -/
  | pageMoveDone (entry : Nat)
  /-- LEDGER_PAGE_FREE (R243): A page whose refs reach zero is freed once every ATTEND, ATTEND_BACKWARD and BOOK_LOOKUP that started before has completed. -/
  | ledgerPageFree (entry : Nat)
  /-- RECOMPUTE_STEP (R327): The foreman runs a recompute step that re-prefills the positions of a RECOMPUTE page from the history buffer and returns the page to NEAR. -/
  | recomputeStep (stream : Nat)
  /-- ORDER_REFETCH (R152): A queue's head order not in the order buffer is fetched again, within 64 ARITH cycles plus any en passant hold. -/
  | orderRefetch (core q : Nat)
  /-- ORDER_COMPLETE (R143): An order completes, and the clerk writes status_sreg, signals err_ctr and sig_ctr, and records a non-OK status. -/
  | orderComplete (core flight : Nat)
  /-- CLERK_BUFFER_PARITY (R167): A parity error in an order buffer discards and refetches the entries, and an unrecoverable stream stops the queue and reports DATA_LOST. -/
  | clerkBufferParity (core q : Nat)
  /-- CLERK_REG_UE (R168): A double-bit error in an s-register or counter stops all four queues and reports DATA_LOST for the core's step set. -/
  | clerkRegUe (core : Nat)
  /-- REST_END (R165): A core's rest of d ARITH cycles elapses, and its queues may start orders again. -/
  | restEnd (core : Nat)
  /-- LOAD (R158): A LOAD copies rows into this core's stockroom and signals dst_ctr at the destination once the data is visible. -/
  | load (core : Nat)
  /-- STORE (R158): A STORE copies rows from this core's stockroom to a destination and signals on visibility. -/
  | store (core : Nat)
  /-- MOVE (R159): A MOVE copies rows between any address spaces, as a put, get or market send where the spaces say so. -/
  | move (core : Nat)
  /-- LOOM_GEMM (R72): A dense loom order is issued to a loom's running or pending place and waits for rows. -/
  | loomGemm (core : Nat)
  /-- LOOM_GEMM_SPARSE (R77): A sparse loom order is issued, with gathered activations and index-placed products. -/
  | loomGemmSparse (core : Nat)
  /-- LOOM_ORDER_START (R72): A loom order starts once rows present reach row_target, or its window has elapsed with at least one row, and takes its row group and writes row_out. -/
  | loomOrderStart (core loom : Nat)
  /-- FILL_WINDOW_EXPIRED (R72): A loom order's fill window elapses since issue. -/
  | fillWindowExpired (core loom place : Nat)
  /-- WEIGHT_TILE_ARRIVE (R67): A prefetched weight tile reaches the loom's weight stage from the vault or over the mesh. -/
  | weightTileArrive (core loom : Nat)
  /-- SHADOW_LOAD_DONE (R68): A tile's move from the weight stage to the shadow weight set completes, so the swap can occur. -/
  | shadowLoadDone (core loom : Nat)
  /-- LOOM_TILE_START (R80): A loom reserves a FREE shelf slot, or two, from its quota and begins an output tile. -/
  | loomTileStart (core loom : Nat)
  /-- BOUNDARY_PAUSE_END (R74): The pause after the last row of a 33-to-64-row output tile ends, 12 ARITH cycles after that row. -/
  | boundaryPauseEnd (core loom : Nat)
  /-- SHELF_SLOT_FULL (R81): A shelf slot becomes FULL 11 ARITH cycles after the last row of its output tile issued. -/
  | shelfSlotFull (core loom : Nat)
  /-- LOOM_RECOMPUTE (R87): An uncorrectable error in a loom store or an accumulator parity error discards the output tile, refetches its data and recomputes it. -/
  | loomRecompute (core loom cause : Nat)
  /-- TREADLE_WINDOW (R83): At each 256-cycle window a loom measures activity, updates its average and runs treadle cycles up to the band. -/
  | treadleWindow (core loom act : Nat)
  /-- TREADLE_GAP_EXPIRED (R83): A loom has issued no row for max_gap and lowers its treadle level at the governor's falling slew. -/
  | treadleGapExpired (core loom : Nat)
  /-- TREADLE (R157): A TREADLE order sets a fixed treadle level on the named looms and ends any older TREADLE order there. -/
  | treadle (core : Nat)
  /-- TREADLE_DURATION_END (R157): A TREADLE order's duration elapses, and the order completes. -/
  | treadleDurationEnd (core flight : Nat)
  /-- RECIPE (R97): A RECIPE order starts the element engine on its recipe, loading the station tables and latching scalars. -/
  | recipe (core : Nat)
  /-- ELEM_GROUP_ISSUE (R110): The engine issues one element group into station 1 once the stockroom ports can serve it whole. -/
  | elemGroupIssue (core fault : Nat)
  /-- SHELF_UNIT_START (R108): The engine starts a shelf unit once the head slot of every SHELF input is FULL, and frees each slot after its last row. -/
  | shelfUnitStart (core : Nat)
  /-- ELEM_PARITY_RELOAD (R126): A parity error in a station table or the recipe store stalls the group and reloads the store from the stockroom. -/
  | elemParityReload (core store : Nat)
  /-- UOP_MOV (R105): Station 1 MOV passes operand a. -/
  | uopMov (core : Nat)
  /-- UOP_ABS (R535): Station 1 ABS gives the FP32 magnitude of a. -/
  | uopAbs (core : Nat)
  /-- UOP_NEG (R535): Station 1 NEG gives the FP32 negation of a. -/
  | uopNeg (core : Nat)
  /-- UOP_I2F (R105): Station 1 I2F converts INT32 a to FP32. -/
  | uopI2f (core : Nat)
  /-- UOP_F2I (R105): Station 1 F2I converts FP32 a to INT32 under R47. -/
  | uopF2i (core : Nat)
  /-- UOP_IDX (R105): Station 1 IDX gives the element's logical index as INT32. -/
  | uopIdx (core : Nat)
  /-- UOP_ROW (R105): Station 1 ROW gives the element's row as INT32. -/
  | uopRow (core : Nat)
  /-- UOP_COL (R105): Station 1 COL gives the element's column as INT32. -/
  | uopCol (core : Nat)
  /-- UOP_ADD (R105): Station 2 or 3 ADD gives a + b. -/
  | uopAdd (core : Nat)
  /-- UOP_SUB (R105): Station 2 or 3 SUB gives a − b. -/
  | uopSub (core : Nat)
  /-- UOP_MUL (R105): Station 2 or 3 MUL gives a × b. -/
  | uopMul (core : Nat)
  /-- UOP_FMA (R105): Station 2 or 3 FMA gives a × b + c with one rounding. -/
  | uopFma (core : Nat)
  /-- UOP_FMS (R105): Station 2 or 3 FMS gives a × b − c with one rounding. -/
  | uopFms (core : Nat)
  /-- UOP_IADD (R105): Station 2 or 3 IADD gives the wrapping INT32 sum. -/
  | uopIadd (core : Nat)
  /-- UOP_ISUB (R105): Station 2 or 3 ISUB gives the wrapping INT32 difference. -/
  | uopIsub (core : Nat)
  /-- UOP_IMUL (R105): Station 2 or 3 IMUL gives the low 32 bits of the INT32 product. -/
  | uopImul (core : Nat)
  /-- UOP_EXP2 (R95): Station 4 EXP2 gives the correctly rounded 2^a. -/
  | uopExp2 (core : Nat)
  /-- UOP_LOG2 (R95): Station 4 LOG2 gives the correctly rounded log2 a. -/
  | uopLog2 (core : Nat)
  /-- UOP_RECIP (R95): Station 4 RECIP gives the correctly rounded 1/a. -/
  | uopRecip (core : Nat)
  /-- UOP_RSQRT (R95): Station 4 RSQRT gives the correctly rounded 1/√a. -/
  | uopRsqrt (core : Nat)
  /-- UOP_SIN (R95): Station 4 SIN gives the correctly rounded sine of a. -/
  | uopSin (core : Nat)
  /-- UOP_COS (R95): Station 4 COS gives the correctly rounded cosine of a. -/
  | uopCos (core : Nat)
  /-- UOP_BM_RAD (R304): Station 4 BM_RAD gives √(−2 ln u), taking u1 from the random word when a is RND. -/
  | uopBmRad (core : Nat)
  /-- UOP_BM_COS (R304): Station 4 BM_COS gives cos(2πu), taking u2 from the random word when a is RND. -/
  | uopBmCos (core : Nat)
  /-- UOP_BM_SIN (R304): Station 4 BM_SIN gives sin(2πu), taking u2 from the random word when a is RND. -/
  | uopBmSin (core : Nat)
  /-- UOP_MAX (R105): Station 5 MAX gives max(a, b). -/
  | uopMax (core : Nat)
  /-- UOP_MIN (R105): Station 5 MIN gives min(a, b). -/
  | uopMin (core : Nat)
  /-- UOP_CLAMP (R105): Station 5 CLAMP gives min(max(a, b), c). -/
  | uopClamp (core : Nat)
  /-- UOP_CMPLT (R105): Station 5 CMPLT sets a predicate to a < b. -/
  | uopCmplt (core : Nat)
  /-- UOP_CMPLE (R105): Station 5 CMPLE sets a predicate to a ≤ b. -/
  | uopCmple (core : Nat)
  /-- UOP_CMPEQ (R105): Station 5 CMPEQ sets a predicate to a = b. -/
  | uopCmpeq (core : Nat)
  /-- UOP_ISNAN (R105): Station 5 ISNAN sets a predicate when a is NaN. -/
  | uopIsnan (core : Nat)
  /-- UOP_SEL (R105): Station 5 SEL gives a where p0 is true and b otherwise. -/
  | uopSel (core : Nat)
  /-- UOP_MUL5 (R105): Station 5 MUL gives a × b. -/
  | uopMul5 (core : Nat)
  /-- UOP_LUT0 (R96): Station 6 LUT0 interpolates table T0 at a. -/
  | uopLut0 (core : Nat)
  /-- UOP_LUT1 (R96): Station 6 LUT1 interpolates table T1 at a. -/
  | uopLut1 (core : Nat)
  /-- UOP_RAND_U (R303): Station 7 RAND_U gives a uniform or table-normal FP32 from the selected random word. -/
  | uopRandU (core : Nat)
  /-- UOP_RAND_BITS (R302): Station 7 RAND_BITS gives the selected raw random word. -/
  | uopRandBits (core : Nat)
  /-- UOP_MASK (R105): Station 7 MASK sets a predicate to u < a. -/
  | uopMask (core : Nat)
  /-- UOP_DITHER (R105): Station 7 DITHER gives fp32_fma(u − 0.5, b, a). -/
  | uopDither (core : Nat)
  /-- UOP_COMPRESS (R99): Station 8 COMPRESS keeps the elements whose p0 is true, writes their index list and the kept count. -/
  | uopCompress (core : Nat)
  /-- UOP_EXPAND_FILL (R100): Station 8 EXPAND_FILL scatters dense elements to listed indices and fills every other position from operand c. -/
  | uopExpandFill (core : Nat)
  /-- UOP_EXPAND_KEEP (R100): Station 8 EXPAND_KEEP scatters dense elements to listed indices only. -/
  | uopExpandKeep (core : Nat)
  /-- UOP_CVT (R101): Station 9 CVT converts a to the output format, acting as QUANT for a block-scaled format. -/
  | uopCvt (core : Nat)
  /-- UOP_CVT_SR (R101): Station 9 CVT_SR converts a with stochastic rounding. -/
  | uopCvtSr (core : Nat)
  /-- UOP_QUANT (R48): Station 9 QUANT quantises a block of 32 values, acting as CVT for a format that is not block-scaled. -/
  | uopQuant (core : Nat)
  /-- UOP_QUANT_SR (R101): Station 9 QUANT_SR quantises a block with stochastic rounding. -/
  | uopQuantSr (core : Nat)
  /-- UOP_ROUTE (R103): Station 10 ROUTE writes its operand at the element's logical index in output 0 or 1. -/
  | uopRoute (core : Nat)
  /-- TALLY (R121): A TALLY order reads a stockroom operand as a STREAM input and runs the tally alone. -/
  | tally (core : Nat)
  /-- TALLY_SUM (R113): The tally sums each row in the canonical order, chained from a seed. -/
  | tallySum (core : Nat) (err : Nat)
  /-- TALLY_MAX (R115): The tally gives the highest-ranked element of each row. -/
  | tallyMax (core : Nat) (err : Nat)
  /-- TALLY_MIN (R115): The tally gives the lowest-ranked element of each row. -/
  | tallyMin (core : Nat) (err : Nat)
  /-- TALLY_ARGMAX (R115): The tally gives each row's highest-ranked value and its index. -/
  | tallyArgmax (core : Nat) (err : Nat)
  /-- TALLY_TOPK (R115): The tally gives each row's k highest-ranked values and their indices. -/
  | tallyTopk (core : Nat) (err : Nat)
  /-- TALLY_RMAXSUM (R114): The tally gives each row's base-2 running max and sum, as a PAIR or as LSE. -/
  | tallyRmaxsum (core : Nat) (err : Nat)
  /-- TALLY_HIST (R116): The tally counts each row's values into 256 bins plus a NaN count. -/
  | tallyHist (core : Nat) (err : Nat)
  /-- TALLY_COUNT (R117): The tally counts each row's non-zero values. -/
  | tallyCount (core : Nat) (err : Nat)
  /-- TALLY_SCAN (R118): The tally runs a linear recurrence down each column and writes every h. -/
  | tallyScan (core : Nat) (err : Nat)
  /-- TALLY_ROW_RESULT (R120): The tally writes a row's result within 16 ARITH cycles after the row's last element, or after the stream has passed an empty row. -/
  | tallyRowResult (core : Nat)
  /-- SCALAR_ADD (R149): SCALAR ADD writes a + b. -/
  | scalarAdd (core : Nat)
  /-- SCALAR_SUB (R149): SCALAR SUB writes a − b. -/
  | scalarSub (core : Nat)
  /-- SCALAR_MUL (R149): SCALAR MUL writes the low 64 bits of a × b. -/
  | scalarMul (core : Nat)
  /-- SCALAR_SHL (R149): SCALAR SHL shifts a left by b mod 64. -/
  | scalarShl (core : Nat)
  /-- SCALAR_SHR (R149): SCALAR SHR shifts a logically right by b mod 64. -/
  | scalarShr (core : Nat)
  /-- SCALAR_SAR (R149): SCALAR SAR shifts a arithmetically right by b mod 64. -/
  | scalarSar (core : Nat)
  /-- SCALAR_AND (R149): SCALAR AND writes the bitwise AND. -/
  | scalarAnd (core : Nat)
  /-- SCALAR_OR (R149): SCALAR OR writes the bitwise OR. -/
  | scalarOr (core : Nat)
  /-- SCALAR_XOR (R149): SCALAR XOR writes the bitwise XOR. -/
  | scalarXor (core : Nat)
  /-- SCALAR_MADD (R149): SCALAR MADD writes a + s[sb] × imm. -/
  | scalarMadd (core : Nat)
  /-- SCALAR_CMPEQ (R149): SCALAR CMPEQ writes 1 when a equals b. -/
  | scalarCmpeq (core : Nat)
  /-- SCALAR_CMPLT (R149): SCALAR CMPLT writes 1 when a < b, signed. -/
  | scalarCmplt (core : Nat)
  /-- SCALAR_CMPLTU (R149): SCALAR CMPLTU writes 1 when a < b, unsigned. -/
  | scalarCmpltu (core : Nat)
  /-- SCALAR_LI (R149): SCALAR LI writes imm. -/
  | scalarLi (core : Nat)
  /-- SCALAR_LDS (R149): SCALAR LDS loads 64 bits from the stockroom. -/
  | scalarLds (core : Nat)
  /-- SCALAR_STS (R149): SCALAR STS stores 64 bits to the stockroom. -/
  | scalarSts (core : Nat)
  /-- SCALAR_RDCTR (R149): SCALAR RDCTR copies a completion counter into an s-register. -/
  | scalarRdctr (core : Nat)
  /-- LOOP (R150): LOOP decrements its count register and jumps back, or clears it and falls through. -/
  | loop (core : Nat)
  /-- BRANCH_IF (R151): BRANCH_IF compares two values and continues at own index + offset when the condition holds. -/
  | branchIf (core : Nat)
  /-- SIGNAL_ADD (R153): SIGNAL in ADD mode increments a local or remote counter and completes at start. -/
  | signalAdd (core : Nat)
  /-- SIGNAL_SET (R153): SIGNAL in SET mode replaces a local or remote counter's value. -/
  | signalSet (core : Nat)
  /-- SIGNAL_DELIVER (R153): A remote SIGNAL reaches its counter after the earlier transfers to that core and the queue's earlier effects. -/
  | signalDeliver (core flight : Nat)
  /-- WAIT (R155): WAIT holds its queue until every enabled counter condition is satisfied. -/
  | wait (core : Nat)
  /-- FENCE (R154): FENCE holds its queue until earlier orders in scope complete and, with remote set, transfers are acknowledged. -/
  | fence (core : Nat)
  /-- BARRIER_JOIN (R156): BARRIER_JOIN enters the core into a partition, guild or market barrier and writes the epoch on completion. -/
  | barrierJoin (core : Nat)
  /-- ATTEND (R233): ATTEND computes exact FULL or SELECT attention for its listed streams and writes out and lse. -/
  | attend (core : Nat)
  /-- SELECTION_PROGRAM (R239): ATTEND's DOTMAX bank program scores shadow keys in each team vault, waiting until the vault can take it. -/
  | selectionProgram (core vault : Nat)
  /-- ATTEND_BACKWARD (R253): ATTEND_BACKWARD computes dQ and accumulates dK and dV for each listed row. -/
  | attendBackward (core : Nat)
  /-- KV_APPEND (R245): KV_APPEND writes the kept tokens' keys, values and shadow keys into their pages and updates both ledger copies. -/
  | kvAppend (core : Nat)
  /-- BOOK_MATCH (R251): BOOK_LOOKUP MATCH reports the number of matching prefix blocks. -/
  | bookMatch (core : Nat)
  /-- BOOK_ATTACH (R251): BOOK_LOOKUP ATTACH reports m and creates ALIAS ledger entries for the matched prefix pages. -/
  | bookAttach (core : Nat)
  /-- BOOK_INSERT (R251): BOOK_LOOKUP INSERT creates LIVE nodes for the stream's full blocks, evicting the oldest where needed. -/
  | bookInsert (core : Nat)
  /-- BOOK_PEEK (R251): BOOK_LOOKUP PEEK reports m and the hint of the last matched node. -/
  | bookPeek (core : Nat)
  /-- SAMPLE (R282): SAMPLE draws one token per row from FP32 logits, or writes draft candidates. -/
  | sample (core mism : Nat)
  /-- GAMBIT_VERIFY (R286): GAMBIT_VERIFY accepts or rejects each gambit by speculative sampling and emits a + 1 tokens. -/
  | gambitVerify (core mism : Nat)
  /-- DISPATCH (R288): DISPATCH ranks gates, grants capacity claims, handles overflows by policy and delivers inboxes to expert teams. -/
  | dispatch (core : Nat)
  /-- COLLECT_RETURN (R291): COLLECT RETURN sends each inbox row's segment sums back to its source core. -/
  | collectReturn (core : Nat)
  /-- COLLECT_GATHER (R291): COLLECT GATHER waits for every segment and forms the gated sum in canonical order. -/
  | collectGather (core : Nat)
  /-- ALLREDUCE (R368): COLLECTIVE ALLREDUCE reduces contributions in rank order into every participant's dst. -/
  | allreduce (core : Nat)
  /-- REDUCE (R368): COLLECTIVE REDUCE writes the rank-order reduction to the root only. -/
  | reduce (core : Nat)
  /-- BROADCAST (R368): COLLECTIVE BROADCAST writes the root's bytes to every participant. -/
  | broadcast (core : Nat)
  /-- ALLGATHER (R368): COLLECTIVE ALLGATHER places every participant's bytes at rank offsets in every dst. -/
  | allgather (core : Nat)
  /-- REDUCESCATTER (R368): COLLECTIVE REDUCESCATTER gives each rank its slice of the reduction. -/
  | reducescatter (core : Nat)
  /-- BANK_PROGRAM (R209): A BANK_PROGRAM order queues a bank program on the vault that the floor plan gives the core. -/
  | bankProgram (core : Nat)
  /-- BANK_PROGRAM_START (R210): A program at the front of its vault's order is refused, or materialises, drains and enters BANK_COMPUTE. -/
  | bankProgramStart (vault : Nat)
  /-- BANK_ITEM (R211): A bank with a token activates an item's row segment, runs its instructions and precharges. -/
  | bankItem (vault bank : Nat)
  /-- BANK_NOP (R205): The bank instruction NOP does nothing. -/
  | bankNop (vault bank : Nat)
  /-- BANK_MOV (R205): The bank instruction MOV writes b to dst for each chunk. -/
  | bankMov (vault bank : Nat)
  /-- BANK_ADD (R205): The bank instruction ADD adds lanes, wrapping or saturating. -/
  | bankAdd (vault bank : Nat)
  /-- BANK_MAX (R205): The bank instruction MAX takes the signed lane maximum. -/
  | bankMax (vault bank : Nat)
  /-- BANK_CMPGE (R205): The bank instruction CMPGE sets all ones in lanes where a ≥ b. -/
  | bankCmpge (vault bank : Nat)
  /-- BANK_DOT (R205): The bank instruction DOT accumulates lane products into an accumulator. -/
  | bankDot (vault bank : Nat)
  /-- BANK_DOTMAX (R206): The bank instruction DOTMAX keeps the largest key dot product in an accumulator. -/
  | bankDotmax (vault bank : Nat)
  /-- BANK_COPY (R205): The bank instruction COPY moves chunks within the open row segment. -/
  | bankCopy (vault bank : Nat)
  /-- BANK_EMITA (R205): The bank instruction EMITA appends an accumulator to the item's emit area. -/
  | bankEmita (vault bank : Nat)
  /-- BANK_CLRA (R205): The bank instruction CLRA sets an accumulator to imm. -/
  | bankClra (vault bank : Nat)
  /-- BANK_STEP_END (R213): A bank-compute step ends when step_budget elapses or no item can start. -/
  | bankStepEnd (vault : Nat)
  /-- RESEAL (R215): After a step with a non-empty change list, the listed line pairs are re-sealed with new check bytes; `err` is the error that the read of the list's SRAM word finds (0 none, 1 single-bit, 2 double-bit; R223). -/
  | reseal (vault err : Nat)
  /-- EN_PASSANT (R218): A step ends with guests waiting, and the vault switches to MEMORY, serves up to 64 guest requests, drains and returns. -/
  | enPassant (vault : Nat)
  /-- BANK_PAUSE (R212): A governor pause ends the current step at once, and the program runs no further item until resumed. -/
  | bankPause (vault : Nat)
  /-- BANK_ECC_PAUSE (R221): A non-zero syndrome pauses an item while the shell corrects and rewrites the line, and the item resumes. -/
  | bankEccPause (vault line : Nat) (noise : BitVec 576)
  /-- BANK_UE (R222): An uncorrectable line ends the step, re-seals, stops the program, and reruns it or completes with DATA_LOST. -/
  | bankUe (vault line : Nat) (noise : BitVec 576)
  /-- FLAG_SCAN (R223): A lost change list makes the vault scan every row segment's flags and re-seal flagged lines. -/
  | flagScan (vault : Nat)
  /-- WATCHMAN_TAKEOVER (R224): No command reaches a stack for 3.9 µs, and the watchman precharges and refreshes every vault in RETENTION. -/
  | watchmanTakeover (half : Nat)
  /-- WATCHMAN_HANDBACK (R224): The shell resumes, and the watchman hands back refresh debt and stops. -/
  | watchmanHandback (half : Nat)
  /-- VAULT_READ (R179): A vault serves a read from the write queue, merge buffer, zero granule or array, with syndrome check; `noise` is the error in the line as read, `err` the one in the shell's SRAM word (0 none, 1 single-bit, 2 double-bit; R200). -/
  | vaultRead (vault addr : Nat) (noise : BitVec 576) (err : Nat)
  /-- VAULT_WRITE (R183): A full-line write is accepted into the write queue, or a narrow one into the merge buffer. -/
  | vaultWrite (vault addr : Nat) (bs : List Byte)
  /-- WRITE_DRAIN (R183): The write queue reaches wr_high or its oldest write reaches flush_age, and the vault drains it; `err` is the error in the SRAM word of the oldest queued line (R200). -/
  | writeDrain (vault err : Nat)
  /-- MERGE_EVICT (R185): An incomplete merge entry is evicted by read-modify-write on age, pressure, a covering read or a mode change; `err` is the error in the entry's SRAM word (R200). -/
  | mergeEvict (vault line : Nat) (noise : BitVec 576) (err : Nat)
  /-- GRANULE_MATERIALISE (R189): The first write to an unwritten granule zero-fills the rest of the granule and sets its valid bit. -/
  | granuleMaterialise (vault granule : Nat)
  /-- REFRESH_COMMAND (R193): A bank's refresh falls due and is issued, forced when the bank would fall nine commands behind. -/
  | refreshCommand (vault bank : Nat)
  /-- INTERFACE_RECENTRE (R196): Every 16,384 VAULT cycles the vault interface re-centres for 48 cycles. -/
  | interfaceRecentre (vault : Nat)
  /-- REWRITE_VERIFY (R319): After the rewrite the line is read again, and a repeated error is hard and spares the row at once. -/
  | rewriteVerify (vault line : Nat) (noise : BitVec 576)
  /-- BUCKET_LEAK (R320): Every leak_period the vault's bucket level falls by 1. -/
  | bucketLeak (vault : Nat)
  /-- PATROL_SCRUB (R321): The scrubber reads the next valid line pair on schedule and audits mirrored tables. -/
  | patrolScrub (vault : Nat) (noise0 noise1 : BitVec 576)
  /-- ROW_SPARE (R323): A row segment is copied to a spare row and remapped once the vault is in MEMORY. -/
  | rowSpare (vault : Nat)
  /-- REMAP_RELOAD (R325): A double-bit error in a remap word reloads it from the reserve-vault copy; `words` are the words in which the error is found now, none once they are reloaded. -/
  | remapReload (vault : Nat) (words : List Nat)
  /-- PATTERN_RESTORE (R329): A lost pattern line's granule is restored from its verified golden page. -/
  | patternRestore (vault granule : Nat)
  /-- STOCKROOM_SCRUB (R333): Every 1,024 ARITH cycles the stockroom scrubber reads one line and corrects single-bit errors. -/
  | stockroomScrub (core : Nat) (errs : List (Nat × Nat))
  /-- MESH_FLIT (R340): A mesh flit crosses a link, and a CRC failure makes the sender replay it. `flit` is one that enters at the network
  interface of router `src`; without it the router itself chooses which of its flits goes on to `dst` (R339). -/
  | meshFlit (half src dst : Nat) (flit : Option Machine.MFlit) (ok : Bool)
  /-- MESH_PACKET (R338): A mesh packet is routed in dimension order and ejected, or discarded at a RESETTING destination. -/
  | meshPacket (half src dst : Nat) (bs : List Byte)
  /-- D2D_FLIT (R344): A die-to-die flit is accepted in sequence, or discarded with a NAK and replay. -/
  | d2dFlit (m half : Nat) (flit : BitVec 2048)
  /-- D2D_CLOCK_SILENCE (R346): A module's forwarded clock shows no edge for 32 LINK cycles, and the module is disabled. -/
  | d2dClockSilence (mods : BitVec 16) (half : Nat)
  /-- D2D_RETRAIN (R346): retrain_delay after disabling, the steward retrains a module and returns its flows or marks it FAILED. -/
  | d2dRetrain (m : Nat) (ok : Bool)
  /-- FAB_FRAME (R356): A Mioquin frame is FEC-decoded and accepted in sequence, or discarded and answered with a NAK. -/
  | fabFrame (port : Nat) (frame : BitVec 5120)
  /-- FAB_PORT_DOWN (R351): A port loses laser input, ring lock or decoding, or exceeds nak_limit, goes DOWN and starts training. -/
  | fabPortDown (port : Nat)
  /-- WAVELENGTH_FAIL (R352): A wavelength is failed, and the port retrains as UP_HALF on the good group. -/
  | wavelengthFail (port w : Nat)
  /-- RING_TUNE_TICK (R350): Every 1 µs the tuning loop adjusts each microring heater to hold lock. -/
  | ringTuneTick (port : Nat) (die lift : Int)
  /-- LASER_WAIT_DONE (R527): All 16 wavelengths have been in range for 1 ms, and the port moves to RING_LOCK. -/
  | laserWaitDone (port : Nat)
  /-- RING_LOCK_DONE (R350): The rings recapture or finish a heater sweep, and the port moves to ALIGN. -/
  | ringLockDone (port : Nat) (ok : Bool)
  /-- ALIGN_DONE (R351): ALIGN exchanges identities with the peer, and the port becomes UP or UP_HALF or is held DOWN as miscabled. -/
  | alignDone (port guild dev peer : Nat) (lanes : BitVec 16)
  /-- FAB_PORT_RETRY (R351): A FAILED port retries its training every 1 s. -/
  | fabPortRetry (port : Nat)
  /-- PUT (R365): A PUT message is written once into near memory, and ACK and dst_ctr follow when the transfer and order are complete. -/
  | put (m : Machine.FMsg)
  /-- GET_REQ (R366): A GET_REQ makes the target read data and return GET_RSP messages. -/
  | getReq (m : Machine.FMsg)
  /-- GET_RSP (R366): A GET_RSP message delivers data of a get to the initiator. -/
  | getRsp (m : Machine.FMsg)
  /-- ACK (R463): An ACK completes a transfer at the initiator, with refused, adopted and fenced bits handled. -/
  | ack (m : Machine.FMsg)
  /-- E2E_TIMEOUT (R360): A transfer has no ACK within e2e_timeout and is resent, or after 3 resends ends with DATA_LOST. -/
  | e2eTimeout (id : Nat)
  /-- COLL (R368): A COLL message carries a chunk of partial sums from rank to rank. -/
  | coll (m : Machine.FMsg)
  /-- BAR_JOIN (R369): A BAR_JOIN gathers up the barrier tree, and at the root the next epoch is assigned and released. -/
  | barJoin (m : Machine.FMsg)
  /-- BAR_RELEASE (R369): A BAR_RELEASE carries the barrier epoch down the tree and completes the barrier. -/
  | barRelease (m : Machine.FMsg)
  /-- SNAP_MARK (R372): The first marker or newly tagged message makes the device take its snapshot cut. -/
  | snapMark (m : Machine.FMsg)
  /-- SNAPSHOT_COPY (R373): The device copies an uncopied granule to the snapshot destination in the background, clearing copy_busy when done. -/
  | snapshotCopy
  /-- HEARTBEAT (R363): A HEARTBEAT carries the guildmaster's term to members. -/
  | heartbeat (m : Machine.FMsg)
  /-- HEARTBEAT_SEND (R363): Every hb_period the guildmaster sends HEARTBEAT. -/
  | heartbeatSend
  /-- HEARTBEAT_LOSS (R363): No heartbeat for hb_period × hb_loss makes the next reachable successor take office with a raised term. -/
  | heartbeatLoss
  /-- LINK_STATE (R359): A LINK_STATE flood reports a port change to every guild member. -/
  | linkState (m : Machine.FMsg)
  /-- ROUTE_TABLE_UPDATE (R359): Each steward recomputes its 64-entry route table within 1 ms of a port change. -/
  | routeTableUpdate
  /-- SHED (R405): A SHED message ahead in sequence sets or releases the message shed level. -/
  | shed (m : Machine.FMsg)
  /-- RESET (R374): A RESET message resets the device to READY, and the guild re-forms with epoch 0. -/
  | reset (m : Machine.FMsg)
  /-- MSG (R362): A market MSG writes data into a core's stockroom, signals dst_ctr and returns ACK, or ACK refused. -/
  | msg (m : Machine.FMsg)
  /-- MIRROR_ENTRY (R472): A MIRROR ENTRY updates the buddy's record of a stream's roll entry unless its epoch is not ahead. -/
  | mirrorEntry (m : Machine.FMsg)
  /-- MIRROR_TOKENS (R472): A MIRROR TOKENS stores tokens in the buddy's history pages. -/
  | mirrorTokens (m : Machine.FMsg)
  /-- MIRROR_RELEASE (R472): A MIRROR RELEASE frees a stream's mirror record and pages. -/
  | mirrorRelease (m : Machine.FMsg)
  /-- DEVICE_LOST (R475): A DEVICE_LOST makes accepting buddies adopt the named partition's mirrored streams, or makes a named device self-fence. -/
  | deviceLost (m : Machine.FMsg)
  /-- DEVICE_HOLD_EXPIRED (R474): The guildmaster has had no route to a member for device_hold and floods DEVICE_LOST for all its partitions. -/
  | deviceHoldExpired (dev : Nat)
  /-- ADOPT_TIMEOUT (R475): No stream can be taken within adopt_timeout, and the adopter writes an ERROR record and frees the mirror record. -/
  | adoptTimeout (part stream : Nat)
  /-- JOIN_CHAL (R498): A JOIN_CHAL makes the guildmaster answer with its nonce and proof. -/
  | joinChal (m : Machine.FMsg)
  /-- JOIN_RESP (R498): A JOIN_RESP is checked by the joiner, which answers with JOIN_DONE. -/
  | joinResp (m : Machine.FMsg)
  /-- JOIN_DONE (R498): A JOIN_DONE is checked by the guildmaster, which admits or ignores the joiner. -/
  | joinDone (m : Machine.FMsg)
  /-- HOST_CONFIG_REQUEST (R384): A PCIe configuration request receives Request Retry Status before the identity page is loaded and a completion afterwards. `bme`: the Bus Master Enable that it writes to the function, if it writes it. -/
  | hostConfigRequest (fn tag : Nat) (bme : Option Bool)
  /-- HOST_NEAR_READ (R23): A host read of BAR2 completes after earlier posted writes are visible, with Completer Abort for lost data. -/
  | hostNearRead (fn tag addr len : Nat)
  /-- HOST_NEAR_WRITE (R177): A posted host write to BAR2 is split at 4 KiB boundaries and sent to its vaults. -/
  | hostNearWrite (fn addr : Nat) (bs : List Byte)
  /-- HOST_READ_TIMEOUT (R383): An outbound read gets no completion in the timeout range and is retried once, then handled by its purpose. `how`: no completion 0, Unsupported Request 1, Completer Abort 2. -/
  | hostReadTimeout (part purpose id how : Nat)
  /-- FENCE_HOLD_EXPIRED (R387): A host read held for a fenced half reaches fence_hold and completes with Completer Abort. -/
  | fenceHoldExpired (fn tag : Nat)
  /-- HOST_LINK_LOSS (R385): PERST# assertion, hot reset or surprise link down resets the PCIe function state, quiesces SERVING partitions and closes the session. -/
  | hostLinkLoss
  /-- PERST_DEASSERT (R384): PERST# deasserts, and the PCIe link trains and configuration answers within 1 s. -/
  | perstDeassert (width rate : Nat) (flit : Bool)
  /-- FLR_VF (R386): A Function Level Reset of a VF runs RESET_PARTITION on its partition. -/
  | flrVf (vf : Nat)
  /-- FLR_PF0 (R386): A Function Level Reset of PF0 resets every partition that its VF does not own. -/
  | flrPf0
  /-- FLR_PF1 (R386): A Function Level Reset of PF1 clears PF1's ring enables and closes its session. -/
  | flrPf1
  /-- FAR_READ_FAIL (R391): A far read returns poison or fails, and the data is recomputed, refetched or lost by what it reads. `how`: poison 0, a failure as R383 describes 1. -/
  | farReadFail (port addr how : Nat)
  /-- FAR_HOLD_EXPIRED (R392): A read of a page on a DOWN far port waits far_hold and is then handled as poisoned. -/
  | farHoldExpired (port addr : Nat)
  /-- FAR_EVENT_POLL (R388): Every 1 s the steward reads each far device's event records and logs them. -/
  | farEventPoll (port : Nat) (events : List Nat)
  /-- FAR_PORT_DOWN (R390): A far port goes DOWN, and demotions move to the other port of the half. -/
  | farPortDown (port : Nat)
  /-- GOVERNOR_TICK (R397): Every 10 µs the governor estimates power, moves P_T, and sets θ, rests, bank grants and treadle limits. -/
  | governorTick (est demand : Nat)
  /-- HOUSEKEEPING_ROUND (R410): Every 1 ms the round reads all sensors and rails, updates sensor status, throttles, PREDICT and the power correction. -/
  | housekeepingRound (temps : List Int) (power : Nat)
  /-- GRID_SHED_ASSERT (R404): GRID_SHED_N has been low for 1 µs, SHED applies, and a SHED message is flooded where forward is set. -/
  | gridShedAssert
  /-- GRID_SHED_RELEASE (R404): GRID_SHED_N has been high for 1 ms, the pin shed is released, and level 0 is flooded. -/
  | gridShedRelease
  /-- COOLANT_FAULT (R419): COOLANT_FAULT_N has been low for 1 µs, and adjournment starts or bring-up halts. -/
  | coolantFault
  /-- COOLANT_FAULT_RELEASE (R425): COOLANT_FAULT_N is released, and the resume hold time begins. -/
  | coolantFaultRelease
  /-- SEALED_MOVE (R422): Each half writes its sealed move into its reserve vaults and floods LINK_STATE with every port down. -/
  | sealedMove (us : Nat)
  /-- SEAL_TIMEOUT (R422): A sealed move is not complete at 50 ms and becomes invalid. -/
  | sealTimeout
  /-- ADJOURN_PHASE3 (R423): The logic clocks stop, the rails are removed and the device becomes ADJOURNED. -/
  | adjournPhase3
  /-- RESUME (R425): After resume_hold with cool readings the device raises its rails, restores the sealed move and resumes steps. -/
  | resume
  /-- RAIL_FAULT (R524): A rail falls without a request, and the half is lost or, for a stack rail, lost with its vault contents. -/
  | railFault (rail : Nat)
  /-- AON_SUPPLY_GOOD (R430): The AON supply becomes good, and the device enters AON. -/
  | aonSupplyGood
  /-- AON_SUPPLY_LOSS (R430): The AON supply is lost, and the device goes OFF. -/
  | aonSupplyLoss
  /-- HUB_SUPPLY_SETTLED (R430): The hub supplies have been good for 1 ms, and the device enters BOOT. -/
  | hubSupplySettled
  /-- BOOT_DONE (R430): The mask ROM has verified an image, resolved the fuse map and configuration and loaded the identity page, and TRAINING begins. -/
  | bootDone
  /-- INTERFACE_TRAINED (R434): One interface passes or fails training, retraining cold once after a seed failure. -/
  | interfaceTrained (unit : Nat) (ok : Bool)
  /-- TRAINING_DONE (R434): Every interface has finished or its bound is reached, and CHECK begins. -/
  | trainingDone
  /-- START_UP_TEST_DONE (R438): The start-up test ends, and reconciliation, field fusing, floor plan, calibration and seed saving run. -/
  | startUpTestDone (logic vaults d2d far opt routers : List Nat) (treadle : Nat)
  /-- TOPOLOGY_DEADLINE (R447): 1,000 ms after CHECK began, named ports not yet agreed set topo_missing, and the device is declared. -/
  | topologyDeadline
  /-- DEVICE_RESET (R431): A device reset restarts bring-up at BOOT. -/
  | deviceReset
  /-- STEWARD_WATCHDOG (R512): The steward watchdog expires and causes a device reset recorded as WATCHDOG. -/
  | stewardWatchdog
  /-- ALIAS_CERT_READY (R491): After BOOT the device builds and signs the alias certificate, and alias_ready sets. -/
  | aliasCertReady
  /-- CLERK_HEARTBEAT_MISS (R455): The clerk misses two steward heartbeats, and an abrupt castling is triggered. -/
  | clerkHeartbeatMiss (core : Nat)
  /-- CASTLING_GRACEFUL (R457): At the step boundary the core's state is copied to its destination and the floor plan switches. -/
  | castlingGraceful (half : Nat)
  /-- CASTLING_ABRUPT (R458): The core's partition rolls back to its step marks and reruns the step on the destination. -/
  | castlingAbrupt (half : Nat)
  /-- CASTLE_SWITCH (R457): The new floor-plan entry reaches every network interface, the core becomes ACTIVE and the held step starts. -/
  | castleSwitch (half : Nat)
  /-- MIGRATE_GRANULE (R460): A granule migrates from the old vault to the new one, on demand or at migrate_rate, and a full bitmap ends the migration. -/
  | migrateGranule (logical granule : Nat) (demand : Bool)
  /-- OLD_SHELL_LOST (R461): The old vault shell stops answering, and every unmigrated granule is treated as uncorrectable. -/
  | oldShellLost (logical : Nat)
  /-- REJOIN_RESTART (R467): Rejoin stage 1 relocks the lost half's PLL, resets its core island and tests its routers. -/
  | rejoinRestart
  /-- REJOIN_TRAIN (R467): Rejoin stage 2 trains vault interfaces, modules and the host spur from saved settings. -/
  | rejoinTrain
  /-- REJOIN_SHELL_RESTORE (R467): Rejoin stage 3 drains write queues, re-seals and takes refresh back from the watchman. -/
  | rejoinShellRestore
  /-- REJOIN_REPLAY (R467): Rejoin stage 4 replays held flits, table updates, requests, host writes and fabric messages in order. -/
  | rejoinReplay
  /-- REJOIN_CORE_RESTORE (R467): Rejoin stage 5 restores cores from step marks and refetches stockroom placements. -/
  | rejoinCoreRestore
  /-- REJOIN_RESUME (R467): Rejoin stage 6 returns lead replicas and starts steps, with HALF_LOST_REPLAYED completions. -/
  | rejoinResume
  /-- HALF_ESCALATE (R468): rejoin_limit passes, or the lost half's SRAM is lost, and the survivor's copies become sole while streams are adopted or ended. -/
  | halfEscalate
  /-- HALF_RETRAIN (R468): An escalated lost half retrains every 1 s. -/
  | halfRetrain (ok : Bool)
  /-- GET_VERSION (R492): The SPDM responder returns its supported version. -/
  | getVersion (t : Nat) (req : List Byte)
  /-- GET_CAPABILITIES (R492): The SPDM responder returns its capabilities and sizes. -/
  | getCapabilities (t : Nat) (req : List Byte)
  /-- NEGOTIATE_ALGORITHMS (R539): The SPDM responder selects SHA-256 and the extended SLH-DSA algorithms from SEC_SPDM_ALG. -/
  | negotiateAlgorithms (t : Nat) (req : List Byte)
  /-- GET_DIGESTS (R492): The SPDM responder returns the digest of slot 0's chain. -/
  | getDigests (t : Nat) (req : List Byte)
  /-- GET_CERTIFICATE (R491): The SPDM responder returns part of the slot 0 certificate chain. -/
  | getCertificate (t : Nat) (req : List Byte)
  /-- CHALLENGE (R492): The SPDM responder signs a challenge response with the alias key, or answers Busy, NotReady or UnsupportedRequest. -/
  | challenge (t : Nat) (req : List Byte)
  /-- GET_MEASUREMENTS (R493): The SPDM responder returns measurement blocks taken at the request's last byte, signed or unsigned. -/
  | getMeasurements (t : Nat) (req : List Byte)
  /-- CHUNK_SEND (R492): The SPDM responder accepts a chunk of a large request. -/
  | chunkSend (t : Nat) (req : List Byte)
  /-- CHUNK_GET (R492): The SPDM responder returns a chunk of a large response. -/
  | chunkGet (t : Nat) (req : List Byte)
  /-- GET_INFO (R515): The mailbox returns the serial, order code, device state, FUSE_REASON and SEC_STATE. -/
  | getInfo (t tag : Nat)
  /-- RESET_DEVICE (R515): The mailbox command writes its completion and then begins a device reset. -/
  | resetDevice (t tag : Nat)
  /-- SET_OWNER (R497): The sideband mailbox writes an owner-key record into both configuration copies of an unowned device. -/
  | setOwner (t tag : Nat) (key : List Byte)
  /-- SET_GUILD_KEY (R497): The mailbox writes a guild-key record inside a session. -/
  | setGuildKey (t tag : Nat) (key : List Byte)
  /-- READ_REG (R515): The sideband mailbox reads a BAR0 register of 4 B or 8 B. -/
  | readReg (tag off : Nat) (wide : Bool)
  /-- WRITE_REG (R515): The sideband mailbox writes a BAR0 register as a PF1 write inside a session. -/
  | writeReg (tag off : Nat) (wide : Bool) (v : DWord)
  /-- READ_LOG (R515): The mailbox returns error-log entries held in the reserve vaults. -/
  | readLog (t tag first count : Nat)
  /-- WRITE_CONFIG (R515): The mailbox writes bytes into both configuration copies with the epoch advanced. -/
  | writeConfig (t tag off len : Nat) (bs : List Byte)
  /-- WRITE_IMAGE (R515): The mailbox writes bytes of a firmware image into SPI NOR A or B. -/
  | writeImage (t tag nor off len : Nat) (bs : List Byte)
  /-- DISCARD_DONE (R192): A running discard finishes clearing its granules' valid bits, discard_busy clears, and the requests held against the discarded range are served. -/
  | discardDone (vault : Nat)
  /-- WATCHMAN_BAND_SELECT (R224): Every 1 ms in RETENTION the watchman reads the stack's 128 DRAM-layer sensors and reselects the refresh band with 4 °C hysteresis. -/
  | watchmanBandSelect (half : Nat)
  /-- HOST_SPUR_DOWN (R16): The host spur loses its training, and host traffic to half B falls back to mesh A and the die-to-die link until the spur is trained again. -/
  | hostSpurDown
deriving DecidableEq, Repr

end Sys2Proof
end

