-- ==== Sys2Proof/Decode.lean ====
section
/-! DEFINITION. The command that a word spells. No row of the table of operations and events gives bits, so no word
spells a command (assumption 3). -/

namespace Sys2Proof

/-- The command that the word `w` of `nbits` bits spells: none, since the table gives its rows no bits. -/
def decodeTableWord (_nbits _w : Nat) : Option Instr := none

end Sys2Proof
end

