-- ==== Sys2Proof/Config.lean ====
section
/-! DEFINITION. The free values: what the spec leaves open and nothing in the model constrains. Each is an opaque
constant with no body, so a statement that holds of the model holds for every value of it. -/

namespace Sys2Proof.Config

/-- The n-th free 64-bit value. `State.freeCtr` counts how many have been used; its users name the value they leave
open in the assumption log. -/
opaque free : Nat → BitVec 64

/-- What operand selector RND reads at stations 1 and 10, where R98 and R302 give it no word: by station and e0. -/
opaque rndElsewhere : Nat → BitVec 32 → BitVec 32

/-- The sign of an exactly zero BM_COS or BM_SIN of a non-zero operand, which R95 does not state. -/
opaque zeroSign : BitVec 32 → Bool

/-- What the argument words of SET_POLICY give FORE_STEP_CFG (0), FORE_CLASS (1), FORE_STAGGER (2), FORE_POLICY (3) and
PORT_CFG (4): the spec gives the command's effect (R263) and no layout of its arguments. -/
opaque policyOf : List Nat → Nat → Nat

/-- The 8 B tag of an inbox row, which R290 says holds source core, row and choice slot: where in the 8 B they stand is not
stated. -/
opaque inboxTag : Nat → Nat → Nat → BitVec 64

/-- What the tag of an inbox row that came from another device names: source core 0, row 1, choice slot 2, the member of the
team that this core is 3, and the members of the team 4; the layout of the tag is not stated (R290). -/
opaque tagField : BitVec 64 → Nat → Nat

/-- The 256 bits that the entropy source gives for the n-th draw: session nonces, SPDM nonces and guild nonces
(R495, R492, R498). -/
opaque entropy : Nat → BitVec 256

/-- The layer of an attention slot of a pattern (R227 numbers the slots and does not say which layer each is of). -/
opaque slotLayer : Nat → Nat → Nat

/-- The SLH-DSA public key of a parameter set (SHA2-192s 0, SHA2-128f 1) for SK.seed, SK.prf and PK.seed joined (R489); the
algorithm stands in the standard, not in the spec. -/
opaque slhPublic : Nat → List (BitVec 8) → List (BitVec 8)

/-- The SLH-DSA signature of a message: parameter set, key material, number of the signature, message (R491, R492). Whether a
signature takes fresh randomness is not stated. -/
opaque slhSign : Nat → List (BitVec 8) → Nat → List (BitVec 8) → List (BitVec 8)

/-- Whether an SLH-DSA signature verifies under a public key (R484). -/
opaque slhVerify : List (BitVec 8) → List (BitVec 8) → List (BitVec 8) → Bool

/-- The fused serial of another device, by guild and device index: the spec gives no way in which this device learns it
(R498). -/
opaque peerSerial : Nat → Nat → BitVec 64

/-- Field k of the configuration image that its bytes hold; the spec gives the image's contents and no layout (R331, R446,
R539). Fields: 0 guild, 1 device index, 2 configured guildmaster, 3 far ports expected, 4 registry and algorithm identifiers
of SEC_SPDM_ALG, 8 market chart ([31] present, [15:0] guilds), 9 number of market links of this guild, 16 + n the peer that
the chart names for port n ([24] named, [20:18] port, [17:12] device, [11:0] guild), 64 + i market link i (the same). -/
opaque cfgField : List (Nat × BitVec 8) → Nat → Nat

/-- The format of saved seeds that a running firmware image uses, by its M (R435). -/
opaque seedFormat : List (BitVec 8) → Nat

/-- The DER encoding of the alias certificate: of its serial, its public key and its signature (R491). -/
opaque aliasCert : Nat → List (BitVec 8) → List (BitVec 8) → List (BitVec 8)

/-- The bytes of a configuration image, from its provisioned bytes and the records that the device keeps in it (R331, R493). -/
opaque cfgImage : List (Nat × BitVec 8) → List (List Nat) → List (BitVec 8)

/-- What a lost part of the fuse map counts as in the measurement of the map (R437, R493): factory region 0, slot j as
1 + j. -/
opaque lostFuses : Nat → List (BitVec 8)

/-- CTExponent of CAPABILITIES, which bounds the time of a signature and which the spec does not state (R492). -/
opaque ctExponent : BitVec 8

end Sys2Proof.Config
end

