-- ==== Sys2Proof/Machine/RegTable.lean ====
section
/-! DEFINITION. The register tables of every page, as the spec's chapters give them: offset, width, and for each field
its bits, access type, reset value and legal range (a field with no range of its own takes any value). The common
header (R505) stands in every page and is not repeated here. -/

namespace Sys2Proof.Machine

/-- Access types (the table of access types before R7). -/
inductive Access where
  | rw
  | ro
  | wo
  | w1c
deriving DecidableEq, Repr

/-- A register field. -/
structure RegField where
  hi : Nat
  lo : Nat
  acc : Access
  reset : Nat
  min : Nat
  max : Nat
deriving DecidableEq, Repr

/-- A register, or a run of `count` registers `stride` bytes apart. `banked`: it shows the partition that the page's
partition selector names. -/
structure RegDef where
  off : Nat
  stride : Nat
  count : Nat
  wide : Bool
  banked : Bool
  fields : List RegField
deriving DecidableEq, Repr

/-- A read-only 64-bit counter. -/
def counterReg (off : Nat) (banked : Bool) : RegDef := ⟨off, 8, 1, true, banked, [⟨63, 0, .ro, 0, 0, 0⟩]⟩

/-- Registers of the LOOM_ page. -/
def regsLoom : List RegDef :=
  [⟨0x040, 4, 1, false, false, [⟨22, 16, .rw, 32, 1, 64⟩, ⟨8, 0, .rw, 20, 1, 500⟩]⟩ /- LOOM_FILL -/,
   ⟨0x044, 4, 1, false, false, [⟨31, 31, .rw, 1, 0, 1⟩, ⟨20, 16, .rw, 5, 1, 25⟩, ⟨13, 8, .rw, 40, 1, 40⟩, ⟨6, 0, .rw, 16, 1, 64⟩]⟩ /- LOOM_TREADLE -/,
   ⟨0x048, 4, 1, false, false, [⟨15, 12, .rw, 4, 0, 15⟩, ⟨11, 8, .rw, 4, 0, 15⟩, ⟨7, 4, .rw, 4, 0, 15⟩, ⟨3, 0, .rw, 4, 0, 15⟩]⟩ /- LOOM_SHELF -/,
   ⟨0x04C, 4, 1, false, false, [⟨28, 24, .ro, 16, 0, 31⟩, ⟨15, 12, .ro, 0, 0, 15⟩, ⟨11, 8, .ro, 0, 0, 15⟩, ⟨7, 4, .ro, 0, 0, 15⟩, ⟨3, 0, .ro, 0, 0, 15⟩]⟩ /- LOOM_STATE -/,
   counterReg 0x080 false /- LOOM_ROWS -/,
   counterReg 0x088 false /- LOOM_BUSY -/,
   counterReg 0x090 false /- LOOM_STALL_WEIGHT -/,
   counterReg 0x098 false /- LOOM_STALL_SHELF -/,
   counterReg 0x0A0 false /- LOOM_FILL_EXPIRED -/,
   counterReg 0x0A8 false /- LOOM_SKIPPED_ROWS -/,
   counterReg 0x0B0 false /- LOOM_TREADLE_CYC -/,
   counterReg 0x0B8 false /- LOOM_TREADLE_UJ -/,
   counterReg 0x0C0 false /- LOOM_RECOMPUTE -/]

/-- Registers of the ELEM_ page. -/
def regsElem : List RegDef :=
  [⟨0x040, 4, 1, false, false, [⟨8, 8, .rw, 1, 0, 1⟩, ⟨0, 0, .rw, 0, 0, 1⟩]⟩ /- ELEM_CFG -/,
   ⟨0x044, 4, 1, false, false, [⟨24, 24, .ro, 0, 0, 1⟩, ⟨20, 16, .ro, 0, 0, 31⟩, ⟨15, 8, .ro, 0, 0, 255⟩, ⟨3, 0, .ro, 0, 0, 15⟩]⟩ /- ELEM_STATE -/,
   ⟨0x048, 4, 1, false, false, [⟨20, 0, .ro, 0, 0, 2097151⟩]⟩ /- ELEM_RECIPE_PC -/,
   counterReg 0x080 false /- ELEM_GROUPS -/,
   counterReg 0x088 false /- ELEM_BUSY -/,
   counterReg 0x090 false /- ELEM_STALL_IN -/,
   counterReg 0x098 false /- ELEM_STALL_OUT -/,
   counterReg 0x0A0 false /- ELEM_KEPT -/,
   counterReg 0x0A8 false /- ELEM_INDEX_DROP -/,
   counterReg 0x0B0 false /- ELEM_RELOAD -/]

/-- Registers of the TALLY_ page. -/
def regsTally : List RegDef :=
  [⟨0x040, 4, 1, false, false, [⟨14, 8, .ro, 0, 0, 127⟩, ⟨7, 4, .ro, 0, 0, 15⟩, ⟨3, 0, .ro, 0, 0, 15⟩]⟩ /- TALLY_STATE -/,
   counterReg 0x080 false /- TALLY_OPS -/,
   counterReg 0x088 false /- TALLY_ELEMS -/,
   counterReg 0x090 false /- TALLY_BUSY -/,
   counterReg 0x098 false /- TALLY_ORDER_FAULT -/]

/-- Registers of the CLERK_ page. -/
def regsClerk : List RegDef :=
  [⟨0x040, 4, 1, false, false, [⟨3, 0, .rw, 15, 0, 15⟩]⟩ /- CLERK_CFG -/,
   ⟨0x044, 4, 1, false, false, [⟨25, 24, .ro, 0, 0, 3⟩, ⟨23, 16, .ro, 0, 0, 255⟩, ⟨15, 12, .ro, 0, 0, 15⟩, ⟨11, 8, .ro, 0, 0, 15⟩, ⟨7, 4, .ro, 0, 0, 15⟩, ⟨3, 0, .ro, 0, 0, 15⟩]⟩ /- CLERK_STATE -/,
   ⟨0x048, 4, 1, false, false, [⟨31, 31, .w1c, 0, 0, 1⟩, ⟨30, 15, .ro, 0, 0, 65535⟩, ⟨14, 13, .ro, 0, 0, 3⟩, ⟨12, 5, .ro, 0, 0, 255⟩, ⟨3, 0, .ro, 0, 0, 15⟩]⟩ /- CLERK_LAST_FAULT -/,
   ⟨0x050, 8, 4, true, false, [⟨63, 60, .rw, 1, 0, 15⟩, ⟨29, 7, .rw, 0, 0, 8388607⟩]⟩ /- CLERK_Qn_BASE -/,
   ⟨0x070, 4, 4, false, false, [⟨31, 16, .rw, 0, 0, 65535⟩, ⟨15, 0, .rw, 0, 0, 65535⟩]⟩ /- CLERK_Qn_SPAN -/,
   ⟨0x080, 4, 4, false, false, [⟨15, 0, .ro, 0, 0, 65535⟩]⟩ /- CLERK_Qn_PTR -/,
   counterReg 0x090 false /- CLERK_ORDERS -/,
   counterReg 0x098 false /- CLERK_WAIT_CYC -/,
   counterReg 0x0A0 false /- CLERK_UNIT_FULL_CYC -/,
   counterReg 0x0A8 false /- CLERK_REST_CYC -/,
   counterReg 0x0B0 false /- CLERK_NONOK -/,
   ⟨0x100, 8, 64, true, false, [⟨63, 0, .rw, 0, 0, 18446744073709551615⟩]⟩ /- CLERK_SREGn -/,
   ⟨0x300, 4, 64, false, false, [⟨31, 0, .ro, 0, 0, 4294967295⟩]⟩ /- CLERK_CTRn -/]

/-- Registers of the VLT_ page. -/
def regsVlt : List RegDef :=
  [⟨0x040, 4, 1, false, false, [⟨23, 16, .rw, 20, 1, 200⟩, ⟨11, 8, .rw, 2, 1, 8⟩, ⟨6, 0, .rw, 48, 8, 64⟩]⟩ /- VLT_CFG -/,
   ⟨0x044, 4, 1, false, false, [⟨31, 30, .ro, 0, 0, 3⟩, ⟨29, 28, .ro, 0, 0, 3⟩, ⟨27, 27, .ro, 0, 0, 1⟩, ⟨26, 26, .ro, 0, 0, 1⟩, ⟨22, 16, .ro, 0, 0, 127⟩, ⟨14, 8, .ro, 0, 0, 127⟩, ⟨6, 0, .ro, 0, 0, 127⟩]⟩ /- VLT_STATE -/,
   ⟨0x048, 4, 1, false, false, [⟨31, 29, .ro, 4, 0, 7⟩, ⟨22, 22, .ro, 0, 0, 1⟩, ⟨21, 16, .ro, 0, 0, 63⟩, ⟨7, 0, .ro, 0, 0, 255⟩]⟩ /- VLT_MAP -/,
   ⟨0x04C, 4, 1, false, false, [⟨22, 16, .ro, 0, 0, 127⟩, ⟨15, 0, .ro, 0, 0, 65535⟩]⟩ /- VLT_TEMP -/,
   ⟨0x050, 4, 1, true, false, [⟨50, 32, .wo, 0, 1, 262144⟩, ⟨17, 0, .wo, 0, 0, 262143⟩]⟩ /- VLT_DISCARD -/,
   counterReg 0x080 false /- VLT_RD_LINES -/,
   counterReg 0x088 false /- VLT_WR_LINES -/,
   counterReg 0x090 false /- VLT_BUSY -/,
   counterReg 0x098 false /- VLT_TURNAROUND -/,
   counterReg 0x0A0 false /- VLT_RMW -/,
   counterReg 0x0A8 false /- VLT_ZERO_FILL -/,
   counterReg 0x0B0 false /- VLT_ZERO_READ -/,
   counterReg 0x0B8 false /- VLT_GUEST_LINES -/,
   counterReg 0x0C0 false /- VLT_REF_FORCED -/,
   ⟨0x100, 4, 1, false, false, [⟨31, 16, .rw, 64, 1, 65535⟩, ⟨13, 10, .rw, 3, 1, 15⟩, ⟨9, 0, .rw, 10, 1, 600⟩]⟩ /- VLT_ECC_CFG -/,
   ⟨0x104, 4, 1, false, false, [⟨31, 31, .rw, 1, 0, 1⟩, ⟨7, 0, .rw, 24, 1, 168⟩]⟩ /- VLT_SCRUB_CFG -/,
   ⟨0x108, 4, 1, false, false, [⟨31, 24, .ro, 0, 0, 255⟩, ⟨23, 12, .ro, 0, 0, 4095⟩, ⟨11, 0, .ro, 0, 0, 4095⟩]⟩ /- VLT_ECC_STATE -/,
   ⟨0x10C, 4, 1, false, false, [⟨31, 31, .ro, 0, 0, 1⟩, ⟨22, 0, .ro, 0, 0, 8388607⟩]⟩ /- VLT_SCRUB_PTR -/,
   ⟨0x110, 4, 1, true, false, [⟨63, 63, .w1c, 0, 0, 1⟩, ⟨29, 0, .ro, 0, 0, 1073741823⟩]⟩ /- VLT_LAST_UE -/,
   counterReg 0x118 false /- VLT_CE_LINES -/,
   counterReg 0x120 false /- VLT_CE_SYMBOLS -/,
   counterReg 0x128 false /- VLT_UE_LINES -/,
   counterReg 0x130 false /- VLT_REWRITES -/,
   counterReg 0x138 false /- VLT_REWRITE_DROPPED -/,
   counterReg 0x140 false /- VLT_ROWS_SPARED -/,
   counterReg 0x148 false /- VLT_SCRUB_PAIRS -/,
   counterReg 0x150 false /- VLT_CE_STORMS -/,
   counterReg 0x158 false /- VLT_RESTORED -/]

/-- Registers of the BANK_ page. -/
def regsBank : List RegDef :=
  [⟨0x040, 4, 1, false, false, [⟨16, 16, .rw, 0, 0, 1⟩, ⟨12, 8, .rw, 20, 1, 20⟩, ⟨5, 0, .rw, 32, 1, 32⟩]⟩ /- BANK_CFG -/,
   ⟨0x044, 4, 1, false, false, [⟨31, 31, .ro, 0, 0, 1⟩, ⟨30, 28, .ro, 0, 0, 7⟩, ⟨27, 16, .ro, 0, 0, 4095⟩, ⟨13, 8, .ro, 32, 0, 63⟩, ⟨5, 0, .ro, 0, 0, 63⟩]⟩ /- BANK_STATE -/,
   ⟨0x048, 4, 1, false, false, [⟨31, 24, .ro, 0, 0, 255⟩, ⟨23, 22, .ro, 0, 0, 3⟩, ⟨21, 20, .ro, 0, 0, 3⟩, ⟨18, 0, .ro, 0, 0, 524287⟩]⟩ /- BANK_PROG -/,
   ⟨0x04C, 4, 1, false, false, [⟨31, 0, .ro, 0, 0, 4294967295⟩]⟩ /- BANK_HOLD_MAX -/,
   counterReg 0x080 false /- BANK_PROGRAMS -/,
   counterReg 0x088 false /- BANK_STEPS -/,
   counterReg 0x090 false /- BANK_ITEMS -/,
   counterReg 0x098 false /- BANK_TOKEN_CYC -/,
   counterReg 0x0A0 false /- BANK_RESEAL_PAIRS -/,
   counterReg 0x0A8 false /- BANK_INTERVALS -/,
   counterReg 0x0B0 false /- BANK_GUEST_HELD -/,
   counterReg 0x0B8 false /- BANK_ECC_PAUSE -/,
   counterReg 0x0C0 false /- BANK_RERUN -/,
   counterReg 0x0C8 false /- BANK_WATCHMAN -/,
   counterReg 0x0D0 false /- BANK_EMIT_BYTES -/]

/-- Registers of the ATT_ page. -/
def regsAtt : List RegDef :=
  [⟨0x040, 4, 1, false, false, [⟨22, 0, .rw, 131072, 1, 4194304⟩]⟩ /- ATT_CFG -/,
   ⟨0x044, 4, 1, false, false, [⟨31, 16, .rw, 0, 0, 65535⟩, ⟨14, 0, .rw, 0, 0, 32767⟩]⟩ /- ATT_KVWIN -/,
   ⟨0x048, 4, 1, false, false, [⟨16, 8, .ro, 0, 0, 511⟩, ⟨3, 0, .ro, 0, 0, 15⟩]⟩ /- ATT_STATE -/,
   counterReg 0x080 false /- ATT_ORDERS -/,
   counterReg 0x088 false /- ATT_SLOTS_FULL -/,
   counterReg 0x090 false /- ATT_SLOTS_SEL -/,
   counterReg 0x098 false /- ATT_SEL_ITEMS -/,
   counterReg 0x0A0 false /- ATT_APPENDS -/,
   counterReg 0x0A8 false /- ATT_COW -/,
   counterReg 0x0B0 false /- ATT_BWD_ROWS -/]

/-- Registers of the LEDG_ page. -/
def regsLedg : List RegDef :=
  [⟨0x040, 4, 1, false, false, [⟨25, 0, .ro, 0, 0, 67108863⟩]⟩ /- LEDG_STATE -/,
   ⟨0x044, 4, 1, false, false, [⟨5, 0, .rw, 0, 0, 63⟩]⟩ /- LEDG_PART_SEL -/,
   ⟨0x048, 4, 1, false, true, [⟨25, 0, .rw, 33554432, 0, 33554432⟩]⟩ /- LEDG_PART_QUOTA -/,
   ⟨0x04C, 4, 1, false, true, [⟨25, 0, .ro, 0, 0, 67108863⟩]⟩ /- LEDG_PART_USED -/,
   counterReg 0x080 false /- LEDG_LOOKUPS -/,
   counterReg 0x088 false /- LEDG_ALLOCS -/,
   counterReg 0x090 false /- LEDG_FREES -/,
   counterReg 0x098 false /- LEDG_COW -/,
   counterReg 0x0A0 false /- LEDG_PROBE_FULL -/,
   counterReg 0x0A8 false /- LEDG_COPY_CONFLICT -/]

/-- Registers of the BOOK_ page. -/
def regsBook : List RegDef :=
  [⟨0x040, 4, 1, false, false, [⟨31, 31, .rw, 1, 0, 1⟩]⟩ /- BOOK_CFG -/,
   ⟨0x044, 4, 1, false, false, [⟨21, 0, .ro, 0, 0, 4194303⟩]⟩ /- BOOK_STATE -/,
   counterReg 0x080 false /- BOOK_LOOKUPS -/,
   counterReg 0x088 false /- BOOK_HIT_BLOCKS -/,
   counterReg 0x090 false /- BOOK_INSERTS -/,
   counterReg 0x098 false /- BOOK_EVICTS -/,
   counterReg 0x0A0 false /- BOOK_STALE -/]

/-- Registers of the FORE_ page. -/
def regsFore : List RegDef :=
  [⟨0x040, 4, 1, false, false, [⟨24, 24, .ro, 0, 0, 1⟩, ⟨6, 0, .ro, 0, 0, 127⟩]⟩ /- FORE_STATE -/,
   ⟨0x044, 4, 1, false, false, [⟨5, 0, .rw, 0, 0, 63⟩]⟩ /- FORE_PART_SEL -/,
   ⟨0x048, 4, 1, false, true, [⟨31, 29, .ro, 0, 0, 7⟩, ⟨28, 28, .ro, 0, 0, 1⟩, ⟨27, 27, .ro, 0, 0, 1⟩, ⟨13, 0, .ro, 0, 0, 16383⟩]⟩ /- FORE_PART_STS -/,
   ⟨0x04C, 4, 1, false, true, [⟨29, 16, .rw, 2048, 0, 8192⟩, ⟨13, 0, .rw, 8192, 1, 8192⟩]⟩ /- FORE_STEP_CFG -/,
   ⟨0x050, 4, 1, false, true, [⟨31, 24, .rw, 1, 1, 255⟩, ⟨23, 16, .rw, 2, 1, 255⟩, ⟨15, 8, .rw, 4, 1, 255⟩, ⟨7, 0, .rw, 8, 1, 255⟩]⟩ /- FORE_CLASS -/,
   ⟨0x054, 4, 1, false, true, [⟨31, 16, .rw, 0, 0, 65535⟩, ⟨15, 0, .rw, 0, 0, 65535⟩]⟩ /- FORE_STAGGER -/,
   ⟨0x058, 4, 1, false, true, [⟨27, 24, .rw, 3, 1, 15⟩, ⟨22, 16, .rw, 20, 1, 100⟩, ⟨14, 8, .rw, 8, 0, 99⟩, ⟨7, 0, .rw, 20, 0, 255⟩]⟩ /- FORE_POLICY -/,
   ⟨0x05C, 4, 1, false, true, [⟨18, 0, .rw, 262144, 0, 262144⟩]⟩ /- FORE_STREAM_QUOTA -/,
   ⟨0x060, 4, 1, true, true, [⟨63, 6, .rw, 0, 0, 288230376151711743⟩]⟩ /- FORE_REQ_BASE -/,
   ⟨0x068, 4, 1, false, true, [⟨31, 31, .rw, 0, 0, 1⟩, ⟨4, 0, .rw, 10, 4, 20⟩]⟩ /- FORE_REQ_CFG -/,
   ⟨0x06C, 4, 1, false, true, [⟨20, 0, .ro, 0, 0, 2097151⟩]⟩ /- FORE_REQ_PTR -/,
   ⟨0x070, 4, 1, true, true, [⟨63, 4, .rw, 0, 0, 1152921504606846975⟩]⟩ /- FORE_TOK_BASE -/,
   ⟨0x078, 4, 1, false, true, [⟨31, 31, .rw, 0, 0, 1⟩, ⟨4, 0, .rw, 10, 4, 22⟩]⟩ /- FORE_TOK_CFG -/,
   ⟨0x07C, 4, 1, false, true, [⟨22, 0, .ro, 0, 0, 8388607⟩]⟩ /- FORE_TOK_PTR -/,
   ⟨0x080, 4, 1, false, true, [⟨31, 16, .rw, 20, 1, 1000⟩, ⟨12, 0, .rw, 32, 1, 4096⟩]⟩ /- FORE_MSIX -/,
   ⟨0x084, 4, 1, false, true, [⟨20, 6, .rw, 30720, 0, 32767⟩]⟩ /- FORE_STEP_ADDR -/,
   ⟨0x088, 4, 1, true, false, [⟨63, 6, .rw, 0, 0, 288230376151711743⟩]⟩ /- FORE_ADM_BASE -/,
   ⟨0x090, 4, 1, true, false, [⟨63, 4, .rw, 0, 0, 1152921504606846975⟩]⟩ /- FORE_ACQ_BASE -/,
   ⟨0x098, 4, 1, false, false, [⟨31, 31, .rw, 0, 0, 1⟩, ⟨12, 8, .rw, 6, 4, 12⟩, ⟨4, 0, .rw, 6, 4, 12⟩]⟩ /- FORE_ADM_CFG -/,
   ⟨0x09C, 4, 1, false, false, [⟨28, 16, .ro, 0, 0, 8191⟩, ⟨12, 0, .ro, 0, 0, 8191⟩]⟩ /- FORE_ADM_PTR -/,
   ⟨0x0A0, 4, 1, true, false, [⟨63, 0, .ro, 0, 0, 18446744073709551615⟩]⟩ /- FORE_TIME -/,
   counterReg 0x0C0 true /- FORE_STEPS -/,
   counterReg 0x0C8 true /- FORE_ADMITS -/,
   counterReg 0x0D0 true /- FORE_TOKENS -/,
   counterReg 0x0D8 true /- FORE_PARKS -/,
   counterReg 0x0E0 true /- FORE_UNPARKS -/,
   counterReg 0x0E8 true /- FORE_VOIDED -/,
   counterReg 0x0F0 true /- FORE_DEADLINE_MISS -/,
   counterReg 0x0F8 true /- FORE_ADMIT_HELD -/,
   counterReg 0x100 true /- FORE_GAMBITS_OFFERED -/,
   counterReg 0x108 true /- FORE_GAMBITS_ACCEPTED -/]

/-- Registers of the PORT_ page. -/
def regsPort : List RegDef :=
  [⟨0x040, 4, 1, false, true, [⟨19, 16, .rw, 4, 0, 15⟩, ⟨15, 8, .rw, 20, 16, 64⟩, ⟨1, 0, .rw, 0, 0, 3⟩]⟩ /- PORT_CFG -/,
   ⟨0x044, 4, 1, false, true, [⟨31, 28, .ro, 0, 0, 15⟩, ⟨15, 0, .ro, 0, 0, 65535⟩]⟩ /- PORT_STATE -/,
   counterReg 0x080 true /- PORT_ROWS -/,
   counterReg 0x088 true /- PORT_OVERFLOW -/,
   counterReg 0x090 true /- PORT_REROUTED -/,
   counterReg 0x098 true /- PORT_SPILLED -/,
   counterReg 0x0A0 true /- PORT_STREAMED -/,
   counterReg 0x0A8 true /- PORT_BYTES -/]

/-- Registers of the RNG_ page. -/
def regsRng : List RegDef :=
  [⟨0x040, 4, 1, false, false, [⟨5, 0, .rw, 0, 0, 63⟩]⟩ /- RNG_PART_SEL -/,
   ⟨0x044, 4, 1, false, true, [⟨1, 1, .rw, 0, 0, 1⟩, ⟨0, 0, .rw, 0, 0, 1⟩]⟩ /- RNG_PART_CFG -/,
   ⟨0x048, 4, 1, false, false, [⟨13, 0, .rw, 0, 0, 16383⟩]⟩ /- RNG_ALM_ADDR -/,
   ⟨0x04C, 4, 1, false, false, [⟨31, 0, .rw, 0, 0, 4294967295⟩]⟩ /- RNG_ALM_DATA -/,
   ⟨0x050, 4, 1, false, false, [⟨9, 1, .ro, 0, 0, 511⟩, ⟨0, 0, .ro, 1, 0, 1⟩]⟩ /- RNG_STATE -/,
   ⟨0x060, 8, 4, true, false, [⟨63, 0, .ro, 0, 0, 18446744073709551615⟩]⟩ /- RNG_CG_FAILn -/,
   counterReg 0x080 false /- RNG_DRAWS -/,
   counterReg 0x088 false /- RNG_ALM_DRAWS -/,
   counterReg 0x090 false /- RNG_CG_MISMATCH -/]

/-- Registers of the MESH_ page. -/
def regsMesh : List RegDef :=
  [⟨0x040, 4, 1, false, false, [⟨5, 0, .rw, 0, 0, 63⟩]⟩ /- MESH_REG_SEL -/,
   ⟨0x044, 4, 1, false, true, [⟨31, 16, .rw, 0, 0, 1408⟩, ⟨15, 0, .rw, 64, 8, 4096⟩]⟩ /- MESH_REG -/,
   ⟨0x048, 4, 1, false, false, [⟨31, 31, .ro, 0, 0, 1⟩, ⟨7, 0, .ro, 0, 0, 255⟩]⟩ /- MESH_STATE -/,
   counterReg 0x080 false /- MESH_FLITS -/,
   counterReg 0x088 false /- MESH_REPLAYS -/,
   counterReg 0x090 false /- MESH_HELD_CYC -/,
   counterReg 0x098 false /- MESH_DISCARDED -/]

/-- Registers of the D2D_ page. -/
def regsD2d : List RegDef :=
  [⟨0x040, 4, 1, false, false, [⟨23, 16, .rw, 32, 1, 255⟩, ⟨15, 8, .rw, 10, 1, 255⟩]⟩ /- D2D_CFG -/,
   ⟨0x044, 4, 1, false, false, [⟨31, 0, .ro, 0, 0, 4294967295⟩]⟩ /- D2D_MOD -/,
   ⟨0x048, 4, 1, false, false, [⟨5, 0, .rw, 0, 0, 63⟩]⟩ /- D2D_REG_SEL -/,
   ⟨0x04C, 4, 1, false, true, [⟨31, 16, .rw, 0, 0, 65535⟩, ⟨15, 0, .rw, 64, 8, 4096⟩]⟩ /- D2D_REG -/,
   ⟨0x050, 4, 1, false, false, [⟨31, 31, .ro, 0, 0, 1⟩, ⟨4, 0, .ro, 0, 0, 31⟩]⟩ /- D2D_STATE -/,
   counterReg 0x080 false /- D2D_FLITS -/,
   counterReg 0x088 false /- D2D_RETRIES -/,
   counterReg 0x090 false /- D2D_DISABLES -/,
   counterReg 0x098 false /- D2D_HELD_CYC -/]

/-- Registers of the FAB_ page. -/
def regsFab : List RegDef :=
  [⟨0x040, 4, 1, false, false, [⟨31, 31, .ro, 0, 0, 1⟩, ⟨29, 24, .ro, 0, 0, 63⟩, ⟨23, 12, .ro, 0, 0, 4095⟩, ⟨11, 6, .rw, 0, 0, 63⟩, ⟨5, 0, .ro, 0, 0, 63⟩]⟩ /- FAB_GUILD -/,
   ⟨0x044, 4, 1, false, false, [⟨31, 0, .ro, 0, 0, 4294967295⟩]⟩ /- FAB_TERM -/,
   ⟨0x048, 4, 1, false, false, [⟨23, 16, .rw, 10, 1, 255⟩, ⟨15, 8, .rw, 10, 2, 255⟩, ⟨7, 0, .rw, 20, 1, 255⟩]⟩ /- FAB_CFG -/,
   ⟨0x050, 4, 1, true, false, [⟨63, 0, .ro, 0, 0, 18446744073709551615⟩]⟩ /- FAB_EPOCH -/,
   ⟨0x058, 4, 1, false, false, [⟨31, 31, .ro, 0, 0, 1⟩, ⟨15, 0, .ro, 0, 0, 65535⟩]⟩ /- FAB_SNAP -/,
   ⟨0x05C, 4, 1, false, false, [⟨1, 0, .wo, 0, 0, 3⟩]⟩ /- FAB_CTL -/,
   counterReg 0x080 false /- FAB_PUTS -/,
   counterReg 0x088 false /- FAB_GETS -/,
   counterReg 0x090 false /- FAB_DUPS -/,
   counterReg 0x098 false /- FAB_RESENDS -/,
   counterReg 0x0A0 false /- FAB_UNREACHABLE -/]

/-- Registers of the FABP_ page. -/
def regsFabp : List RegDef :=
  [⟨0x040, 4, 1, false, false, [⟨31, 28, .ro, 0, 0, 15⟩, ⟨27, 12, .ro, 0, 0, 65535⟩, ⟨11, 11, .ro, 0, 0, 1⟩, ⟨8, 6, .ro, 0, 0, 7⟩, ⟨5, 0, .ro, 0, 0, 63⟩]⟩ /- FAB_Pn_STATE -/,
   ⟨0x044, 4, 1, false, false, [⟨31, 24, .rw, 64, 1, 255⟩, ⟨15, 8, .rw, 118, 100, 125⟩, ⟨0, 0, .rw, 1, 0, 1⟩]⟩ /- FAB_Pn_CFG -/,
   ⟨0x048, 4, 1, false, false, [⟨31, 16, .ro, 0, 0, 65535⟩, ⟨15, 0, .ro, 0, 0, 65535⟩]⟩ /- FAB_Pn_TEMP -/,
   counterReg 0x080 false /- FAB_Pn_TX -/,
   counterReg 0x088 false /- FAB_Pn_RX -/,
   counterReg 0x090 false /- FAB_Pn_FEC_SYM -/,
   counterReg 0x098 false /- FAB_Pn_FEC_UE -/,
   counterReg 0x0A0 false /- FAB_Pn_REPLAYS -/,
   counterReg 0x0A8 false /- FAB_Pn_DOWNS -/]

/-- Registers of the HOST_ page. -/
def regsHost : List RegDef :=
  [⟨0x040, 4, 1, false, false, [⟨18, 18, .w1c, 0, 0, 1⟩, ⟨17, 17, .ro, 0, 0, 1⟩, ⟨16, 16, .ro, 0, 0, 1⟩, ⟨12, 8, .ro, 0, 0, 31⟩, ⟨2, 0, .ro, 0, 0, 7⟩]⟩ /- HOST_STATE -/,
   ⟨0x044, 4, 1, false, false, [⟨5, 0, .rw, 10, 1, 40⟩]⟩ /- HOST_CFG -/,
   ⟨0x048, 4, 1, false, false, [⟨5, 0, .rw, 0, 0, 63⟩]⟩ /- HOST_REG_SEL -/,
   ⟨0x04C, 4, 1, false, true, [⟨31, 16, .rw, 0, 0, 1210⟩, ⟨15, 0, .rw, 64, 8, 4096⟩]⟩ /- HOST_REG_OUT -/,
   ⟨0x050, 4, 1, false, true, [⟨31, 16, .rw, 0, 0, 1210⟩, ⟨15, 0, .rw, 64, 8, 4096⟩]⟩ /- HOST_REG_IN -/,
   counterReg 0x080 false /- HOST_TX_BYTES -/,
   counterReg 0x088 false /- HOST_RX_BYTES -/,
   counterReg 0x090 false /- HOST_CPL_TIMEOUT -/,
   counterReg 0x098 false /- HOST_UR -/,
   counterReg 0x0A0 false /- HOST_FENCE_CA -/,
   counterReg 0x0A8 false /- HOST_HELD_CYC -/,
   counterReg 0x0B0 false /- HOST_DMA_DISCARD -/,
   counterReg 0x0B8 false /- HOST_LINK_DOWNS -/]

/-- Registers of the FARP_ page. -/
def regsFarp : List RegDef :=
  [⟨0x040, 4, 1, false, false, [⟨31, 28, .ro, 5, 0, 15⟩, ⟨12, 8, .ro, 0, 0, 31⟩, ⟨0, 0, .ro, 0, 0, 1⟩]⟩ /- FAR_Pn_STATE -/,
   ⟨0x044, 4, 1, false, false, [⟨31, 31, .rw, 1, 0, 1⟩, ⟨9, 0, .rw, 100, 1, 1000⟩]⟩ /- FAR_Pn_CFG -/,
   ⟨0x048, 4, 1, false, false, [⟨12, 0, .ro, 0, 0, 8191⟩]⟩ /- FAR_Pn_CAP -/,
   ⟨0x04C, 4, 1, false, false, [⟨5, 0, .rw, 0, 0, 63⟩]⟩ /- FAR_Pn_REG_SEL -/,
   ⟨0x050, 4, 1, false, true, [⟨31, 16, .rw, 0, 0, 1210⟩, ⟨15, 0, .rw, 64, 8, 4096⟩]⟩ /- FAR_Pn_REG_OUT -/,
   ⟨0x054, 4, 1, false, true, [⟨31, 16, .rw, 0, 0, 1210⟩, ⟨15, 0, .rw, 64, 8, 4096⟩]⟩ /- FAR_Pn_REG_IN -/,
   counterReg 0x080 false /- FAR_Pn_RD_BYTES -/,
   counterReg 0x088 false /- FAR_Pn_WR_BYTES -/,
   counterReg 0x090 false /- FAR_Pn_POISON -/,
   counterReg 0x098 false /- FAR_Pn_TIMEOUT -/,
   counterReg 0x0A0 false /- FAR_Pn_DOWNS -/,
   counterReg 0x0A8 false /- FAR_Pn_HELD_CYC -/]

/-- Registers of the PWR_ page. -/
def regsPwr : List RegDef :=
  [⟨0x040, 4, 1, false, false, [⟨11, 0, .rw, 2400, 350, 2400⟩]⟩ /- PWR_CAP -/,
   ⟨0x044, 4, 1, false, false, [⟨23, 16, .rw, 40, 1, 200⟩, ⟨7, 0, .rw, 20, 1, 100⟩]⟩ /- PWR_SLEW -/,
   ⟨0x048, 4, 1, false, false, [⟨31, 31, .rw, 1, 0, 1⟩, ⟨30, 30, .rw, 1, 0, 1⟩, ⟨29, 29, .rw, 0, 0, 1⟩, ⟨24, 16, .rw, 400, 210, 400⟩, ⟨11, 0, .rw, 800, 350, 2400⟩]⟩ /- PWR_SHED -/,
   ⟨0x04C, 4, 1, false, false, [⟨11, 0, .wo, 0, 0, 4095⟩]⟩ /- PWR_SHED_TX -/,
   ⟨0x050, 4, 1, false, false, [⟨31, 31, .rw, 0, 0, 1⟩, ⟨23, 16, .rw, 5, 1, 20⟩, ⟨6, 0, .rw, 10, 1, 100⟩]⟩ /- PWR_FLAT -/,
   ⟨0x054, 4, 1, false, false, [⟨15, 0, .rw, 16, 0, 65535⟩]⟩ /- PWR_ROTATE -/,
   ⟨0x058, 4, 1, false, false, [⟨31, 28, .ro, 0, 0, 15⟩, ⟨27, 27, .ro, 0, 0, 1⟩, ⟨26, 26, .ro, 0, 0, 1⟩, ⟨25, 25, .ro, 0, 0, 1⟩, ⟨24, 24, .ro, 0, 0, 1⟩, ⟨23, 12, .ro, 0, 0, 4095⟩, ⟨11, 0, .ro, 2400, 0, 4095⟩]⟩ /- PWR_STATE -/,
   ⟨0x05C, 4, 1, false, false, [⟨27, 16, .ro, 0, 0, 4095⟩, ⟨11, 0, .ro, 0, 0, 4095⟩]⟩ /- PWR_NOW -/,
   ⟨0x060, 4, 1, false, false, [⟨23, 16, .ro, 100, 0, 255⟩, ⟨15, 8, .ro, 0, 0, 255⟩, ⟨5, 0, .ro, 0, 0, 63⟩]⟩ /- PWR_THROTTLE -/,
   ⟨0x064, 4, 1, false, false, [⟨31, 16, .ro, 0, 0, 65535⟩, ⟨11, 0, .ro, 0, 0, 4095⟩]⟩ /- PWR_SHED_RX -/,
   ⟨0x068, 4, 1, false, false, [⟨27, 16, .ro, 2400, 0, 4095⟩, ⟨11, 0, .ro, 0, 0, 4095⟩]⟩ /- PWR_INFO -/,
   counterReg 0x080 false /- PWR_ENERGY_MJ -/,
   counterReg 0x088 false /- PWR_TREADLE_MJ -/,
   counterReg 0x090 false /- PWR_REST_CYC -/,
   counterReg 0x098 false /- PWR_SHEDS -/,
   counterReg 0x0A0 false /- PWR_SLEW_SHORT_MS -/,
   counterReg 0x0A8 false /- PWR_OVER_MS -/,
   counterReg 0x0B0 false /- PWR_HOST_DROP -/]

/-- Registers of the THM_ page. -/
def regsThm : List RegDef :=
  [⟨0x040, 4, 1, false, false, [⟨31, 31, .rw, 1, 0, 1⟩, ⟨30, 30, .rw, 1, 0, 1⟩, ⟨29, 29, .rw, 1, 0, 1⟩, ⟨23, 16, .rw, 20, 5, 100⟩, ⟨12, 8, .rw, 3, 1, 31⟩, ⟨5, 0, .rw, 15, 5, 60⟩]⟩ /- THM_CFG -/,
   ⟨0x044, 4, 1, false, false, [⟨23, 16, .rw, 80, 60, 90⟩, ⟨7, 0, .rw, 10, 1, 255⟩]⟩ /- THM_RESUME -/,
   ⟨0x048, 4, 1, false, false, [⟨31, 28, .ro, 0, 0, 15⟩, ⟨27, 27, .ro, 0, 0, 1⟩, ⟨26, 26, .ro, 0, 0, 1⟩, ⟨25, 25, .ro, 0, 0, 1⟩, ⟨24, 24, .ro, 0, 0, 1⟩, ⟨15, 8, .ro, 0, 0, 255⟩, ⟨7, 0, .ro, 0, 0, 255⟩]⟩ /- THM_STATE -/,
   ⟨0x04C, 4, 1, false, false, [⟨31, 16, .ro, 0, 0, 65535⟩, ⟨15, 0, .ro, 0, 0, 65535⟩]⟩ /- THM_HOT -/,
   ⟨0x050, 4, 1, false, false, [⟨24, 16, .ro, 0, 0, 511⟩, ⟨8, 0, .ro, 0, 0, 511⟩]⟩ /- THM_HOT_ID -/,
   ⟨0x054, 4, 1, false, false, [⟨31, 16, .ro, 0, 0, 65535⟩, ⟨15, 0, .ro, 0, 0, 65535⟩]⟩ /- THM_RATE -/,
   ⟨0x058, 4, 1, false, false, [⟨8, 0, .rw, 0, 0, 351⟩]⟩ /- THM_SENS_SEL -/,
   ⟨0x05C, 4, 1, false, false, [⟨31, 30, .ro, 0, 0, 3⟩, ⟨16, 16, .ro, 0, 0, 1⟩, ⟨15, 0, .ro, 0, 0, 65535⟩]⟩ /- THM_SENS -/,
   ⟨0x060, 4, 1, false, false, [⟨31, 31, .ro, 0, 0, 1⟩, ⟨23, 0, .ro, 0, 0, 16777215⟩]⟩ /- THM_SEAL -/,
   counterReg 0x080 false /- THM_ROUNDS -/,
   counterReg 0x088 false /- THM_THROTTLE_MS -/,
   counterReg 0x090 false /- THM_PREDICT_MS -/,
   counterReg 0x098 false /- THM_ADJOURNS -/,
   counterReg 0x0A0 false /- THM_SUSPECTS -/,
   counterReg 0x0A8 false /- THM_BROKENS -/]

/-- Registers of the FUSE_ page. -/
def regsFuse : List RegDef :=
  [⟨0x040, 4, 1, false, false, [⟨31, 31, .ro, 0, 0, 1⟩, ⟨30, 30, .ro, 0, 0, 1⟩, ⟨29, 29, .ro, 0, 0, 1⟩, ⟨28, 28, .ro, 0, 0, 1⟩, ⟨27, 20, .ro, 0, 0, 255⟩, ⟨19, 12, .ro, 0, 0, 255⟩, ⟨6, 0, .ro, 0, 0, 127⟩]⟩ /- FUSE_STATE -/,
   ⟨0x044, 4, 1, false, false, [⟨9, 0, .ro, 0, 0, 1023⟩]⟩ /- FUSE_REASON -/,
   ⟨0x048, 4, 1, false, false, [⟨8, 0, .rw, 0, 0, 287⟩]⟩ /- FUSE_SITE_SEL -/,
   ⟨0x04C, 4, 1, false, false, [⟨31, 28, .ro, 0, 0, 15⟩, ⟨27, 27, .ro, 0, 0, 1⟩, ⟨26, 25, .ro, 0, 0, 3⟩, ⟨24, 23, .ro, 3, 0, 3⟩, ⟨22, 22, .ro, 0, 0, 1⟩, ⟨21, 14, .ro, 0, 0, 255⟩, ⟨8, 0, .ro, 511, 0, 511⟩]⟩ /- FUSE_SITE -/,
   ⟨0x050, 4, 1, false, false, [⟨31, 24, .ro, 0, 0, 255⟩, ⟨23, 16, .ro, 0, 0, 255⟩, ⟨15, 8, .ro, 0, 0, 255⟩, ⟨7, 0, .ro, 0, 0, 255⟩]⟩ /- FUSE_TOPO -/,
   ⟨0x058, 4, 1, true, false, [⟨63, 56, .ro, 0, 0, 255⟩, ⟨55, 48, .ro, 0, 0, 255⟩, ⟨47, 44, .ro, 0, 0, 15⟩, ⟨43, 40, .ro, 0, 0, 15⟩, ⟨31, 16, .ro, 0, 0, 65535⟩, ⟨15, 0, .ro, 0, 0, 65535⟩]⟩ /- FUSE_UNITS -/,
   ⟨0x060, 4, 1, true, false, [⟨63, 48, .ro, 0, 0, 65535⟩, ⟨47, 32, .ro, 0, 0, 65535⟩, ⟨31, 16, .ro, 0, 0, 65535⟩, ⟨15, 0, .ro, 0, 0, 65535⟩]⟩ /- FUSE_PHASE -/]

/-- Registers of the SEC_ page. -/
def regsSec : List RegDef :=
  [⟨0x040, 4, 1, false, false, [⟨31, 30, .ro, 0, 0, 3⟩, ⟨29, 29, .ro, 0, 0, 1⟩, ⟨28, 28, .ro, 0, 0, 1⟩, ⟨27, 27, .ro, 0, 0, 1⟩, ⟨26, 26, .ro, 0, 0, 1⟩, ⟨25, 25, .ro, 0, 0, 1⟩, ⟨11, 8, .ro, 0, 0, 15⟩]⟩ /- SEC_STATE -/,
   ⟨0x044, 4, 1, false, false, [⟨31, 24, .ro, 0, 0, 255⟩, ⟨23, 16, .ro, 0, 0, 255⟩, ⟨7, 4, .ro, 0, 0, 15⟩, ⟨3, 0, .ro, 0, 0, 15⟩]⟩ /- SEC_BOOT -/,
   ⟨0x048, 4, 1, false, false, [⟨31, 24, .ro, 0, 0, 255⟩, ⟨23, 16, .ro, 0, 0, 255⟩, ⟨15, 8, .ro, 0, 0, 255⟩, ⟨7, 0, .ro, 0, 0, 255⟩]⟩ /- SEC_SVN -/,
   ⟨0x04C, 4, 1, false, false, [⟨9, 8, .wo, 0, 0, 3⟩, ⟨6, 0, .wo, 0, 0, 64⟩]⟩ /- SEC_SVN_COMMIT -/,
   ⟨0x050, 4, 1, false, false, [⟨31, 16, .rw, 0, 0, 65535⟩, ⟨1, 0, .wo, 0, 0, 3⟩]⟩ /- SEC_SESSION -/,
   ⟨0x054, 4, 1, false, false, [⟨31, 24, .rw, 0, 0, 255⟩, ⟨23, 12, .rw, 0, 0, 4095⟩, ⟨11, 0, .rw, 0, 0, 4095⟩]⟩ /- SEC_SPDM_ALG -/,
   ⟨0x058, 4, 1, false, false, [⟨7, 0, .rw, 1, 0, 255⟩]⟩ /- SEC_MEAS_SEL -/,
   ⟨0x060, 4, 8, false, false, [⟨31, 0, .ro, 0, 0, 4294967295⟩]⟩ /- SEC_NONCEn -/,
   ⟨0x080, 4, 8, false, false, [⟨31, 0, .wo, 0, 0, 4294967295⟩]⟩ /- SEC_RESPn -/,
   ⟨0x0A0, 4, 8, false, false, [⟨31, 0, .ro, 0, 0, 4294967295⟩]⟩ /- SEC_MEASn -/,
   counterReg 0x100 false /- SEC_SESSIONS -/,
   counterReg 0x108 false /- SEC_AUTH_FAILS -/,
   counterReg 0x110 false /- SEC_SPDM_MSGS -/,
   counterReg 0x118 false /- SEC_QUOTES -/,
   counterReg 0x120 false /- SEC_BUSY -/]

/-- Registers of the STW_ page. -/
def regsStw : List RegDef :=
  [⟨0x040, 4, 1, false, false, [⟨7, 4, .ro, 0, 0, 15⟩, ⟨3, 0, .ro, 2, 0, 15⟩]⟩ /- STW_DEV_STATE -/,
   ⟨0x050, 4, 1, true, false, [⟨49, 49, .ro, 0, 0, 1⟩, ⟨48, 48, .ro, 0, 0, 1⟩, ⟨47, 0, .ro, 0, 0, 281474976710655⟩]⟩ /- STW_INT_SUM -/,
   ⟨0x060, 8, 4, true, false, [⟨63, 0, .ro, 0, 0, 18446744073709551615⟩]⟩ /- STW_INT_COREn -/,
   ⟨0x080, 8, 5, true, false, [⟨63, 0, .ro, 0, 0, 18446744073709551615⟩]⟩ /- STW_INT_VAULTn -/,
   ⟨0x0C0, 4, 1, false, false, [⟨31, 31, .wo, 0, 0, 1⟩, ⟨15, 8, .rw, 0, 0, 255⟩, ⟨7, 0, .rw, 0, 0, 255⟩]⟩ /- STW_MBOX_CMD -/,
   ⟨0x0C4, 4, 1, false, false, [⟨31, 31, .ro, 0, 0, 1⟩, ⟨27, 24, .ro, 0, 0, 15⟩, ⟨15, 8, .ro, 0, 0, 255⟩, ⟨7, 0, .ro, 0, 0, 255⟩]⟩ /- STW_MBOX_STS -/,
   ⟨0x0E0, 4, 8, false, false, [⟨31, 0, .rw, 0, 0, 4294967295⟩]⟩ /- STW_MBOX_ARGn -/,
   ⟨0x100, 4, 1, false, false, [⟨31, 31, .w1c, 0, 0, 1⟩, ⟨7, 0, .ro, 0, 0, 255⟩]⟩ /- STW_EVENT -/,
   counterReg 0x180 false /- STW_BAD_ACCESS -/,
   counterReg 0x188 false /- STW_MBOX_CMDS -/,
   ⟨0x200, 4, 1, true, false, [⟨63, 5, .rw, 0, 0, 576460752303423487⟩]⟩ /- STW_ELOG_BASE -/,
   ⟨0x208, 4, 1, false, false, [⟨31, 31, .rw, 0, 0, 1⟩, ⟨4, 0, .rw, 10, 6, 16⟩]⟩ /- STW_ELOG_CFG -/,
   ⟨0x20C, 4, 1, false, false, [⟨16, 0, .rw, 0, 0, 131071⟩]⟩ /- STW_ELOG_HEAD -/,
   ⟨0x210, 4, 1, false, false, [⟨16, 0, .ro, 0, 0, 131071⟩]⟩ /- STW_ELOG_TAIL -/,
   counterReg 0x218 false /- STW_ELOG_LOST -/,
   counterReg 0x220 false /- STW_SRAM_CE -/,
   counterReg 0x228 false /- STW_SRAM_UE -/,
   ⟨0x300, 4, 1, false, false, [⟨31, 24, .rw, 10, 1, 255⟩, ⟨23, 18, .rw, 50, 1, 50⟩, ⟨15, 8, .rw, 100, 1, 140⟩, ⟨3, 0, .rw, 8, 1, 15⟩]⟩ /- STW_ABS_CFG -/,
   ⟨0x304, 4, 1, false, false, [⟨31, 31, .ro, 0, 0, 1⟩, ⟨30, 30, .ro, 0, 0, 1⟩, ⟨29, 29, .ro, 0, 0, 1⟩, ⟨19, 0, .ro, 0, 0, 1048575⟩]⟩ /- STW_ABS_STATE -/,
   ⟨0x308, 4, 1, false, false, [⟨31, 31, .ro, 0, 0, 1⟩, ⟨30, 28, .ro, 0, 0, 7⟩, ⟨27, 26, .ro, 0, 0, 3⟩, ⟨25, 17, .ro, 0, 0, 511⟩, ⟨16, 8, .ro, 0, 0, 511⟩, ⟨7, 0, .ro, 0, 0, 255⟩]⟩ /- STW_CAST -/,
   ⟨0x30C, 4, 1, false, false, [⟨18, 0, .ro, 0, 0, 524287⟩]⟩ /- STW_CAST_PROG -/,
   ⟨0x310, 4, 1, false, false, [⟨8, 8, .wo, 0, 0, 1⟩, ⟨7, 0, .wo, 0, 0, 255⟩]⟩ /- STW_CAST_REQ -/,
   ⟨0x314, 4, 1, false, false, [⟨5, 0, .rw, 0, 0, 63⟩]⟩ /- STW_MIRROR_SEL -/,
   ⟨0x318, 4, 1, false, true, [⟨31, 31, .rw, 0, 0, 1⟩, ⟨13, 8, .rw, 0, 0, 63⟩, ⟨5, 0, .rw, 0, 0, 63⟩]⟩ /- STW_MIRROR_OUT -/,
   ⟨0x31C, 4, 1, false, true, [⟨31, 31, .rw, 0, 0, 1⟩, ⟨21, 16, .rw, 0, 0, 63⟩, ⟨13, 8, .rw, 0, 0, 63⟩, ⟨7, 0, .rw, 30, 1, 255⟩]⟩ /- STW_MIRROR_IN -/,
   ⟨0x320, 4, 1, true, true, [⟨41, 40, .rw, 0, 0, 3⟩, ⟨39, 16, .rw, 0, 0, 16777215⟩]⟩ /- STW_MIRROR_BASE -/,
   ⟨0x328, 4, 1, false, true, [⟨23, 0, .rw, 0, 0, 16777215⟩]⟩ /- STW_MIRROR_PAGES -/,
   counterReg 0x340 false /- STW_CASTLINGS -/,
   counterReg 0x348 false /- STW_MIGRATED -/,
   counterReg 0x350 false /- STW_FENCES -/,
   counterReg 0x358 false /- STW_ESCALATIONS -/,
   counterReg 0x360 false /- STW_MIRROR_MSGS -/,
   counterReg 0x368 false /- STW_ADOPTIONS -/,
   counterReg 0x370 false /- STW_ADOPT_FAILS -/,
   counterReg 0x378 false /- STW_SELF_FENCES -/,
   ⟨0x800, 4, 512, false, false, [⟨31, 0, .rw, 0, 0, 4294967295⟩]⟩ /- STW_MBOX_DATA -/]

/-- Registers of the IDENT_ page. -/
def regsIdent : List RegDef :=
  [⟨0x040, 4, 1, false, false, [⟨15, 8, .ro, 0, 0, 255⟩, ⟨7, 0, .ro, 0, 0, 255⟩]⟩ /- STW_ORDER -/,
   ⟨0x048, 4, 1, true, false, [⟨63, 0, .ro, 0, 0, 18446744073709551615⟩]⟩ /- STW_SERIAL -/,
   ⟨0x050, 4, 1, true, false, [⟨63, 0, .ro, 0, 0, 18446744073709551615⟩]⟩ /- STW_FW_VER -/,
   ⟨0x058, 4, 1, false, false, [⟨31, 0, .ro, 0, 0, 4294967295⟩]⟩ /- STW_ROM_VER -/,
   ⟨0x05C, 4, 1, false, false, [⟨15, 8, .ro, 0, 0, 255⟩, ⟨7, 0, .ro, 0, 0, 255⟩]⟩ /- STW_CORES -/]

/-- Registers of the DIR_ page. -/
def regsDir : List RegDef :=
  []

/-- The register table of a page type (R509); none for a type the spec does not list. -/
def regTable (code : Nat) : List RegDef :=
  match code with
  | 0x31 => regsLoom
  | 0x32 => regsElem
  | 0x33 => regsTally
  | 0x30 => regsClerk
  | 0x40 => regsVlt
  | 0x41 => regsBank
  | 0x34 => regsAtt
  | 0x10 => regsLedg
  | 0x11 => regsBook
  | 0x12 => regsFore
  | 0x13 => regsPort
  | 0x21 => regsRng
  | 0x14 => regsMesh
  | 0x15 => regsD2d
  | 0x22 => regsFab
  | 0x23 => regsFabp
  | 0x20 => regsHost
  | 0x24 => regsFarp
  | 0x04 => regsPwr
  | 0x05 => regsThm
  | 0x07 => regsFuse
  | 0x06 => regsSec
  | 0x03 => regsStw
  | 0x02 => regsIdent
  | 0x01 => regsDir
  | _ => []

/-- Page type codes (R509). -/
abbrev pgDir := 0x01
abbrev pgLoom := 0x31
abbrev pgElem := 0x32
abbrev pgTally := 0x33
abbrev pgClerk := 0x30
abbrev pgVlt := 0x40
abbrev pgBank := 0x41
abbrev pgAtt := 0x34
abbrev pgLedg := 0x10
abbrev pgBook := 0x11
abbrev pgFore := 0x12
abbrev pgPort := 0x13
abbrev pgRng := 0x21
abbrev pgMesh := 0x14
abbrev pgD2d := 0x15
abbrev pgFab := 0x22
abbrev pgFabp := 0x23
abbrev pgHost := 0x20
abbrev pgFarp := 0x24
abbrev pgPwr := 0x04
abbrev pgThm := 0x05
abbrev pgFuse := 0x07
abbrev pgSec := 0x06
abbrev pgStw := 0x03
abbrev pgIdent := 0x02

abbrev rLoomFill := 0x040
abbrev rLoomTreadle := 0x044
abbrev rLoomShelf := 0x048
abbrev rLoomState := 0x04C
abbrev rLoomRows := 0x080
abbrev rLoomBusy := 0x088
abbrev rLoomStallWeight := 0x090
abbrev rLoomStallShelf := 0x098
abbrev rLoomFillExpired := 0x0A0
abbrev rLoomSkippedRows := 0x0A8
abbrev rLoomTreadleCyc := 0x0B0
abbrev rLoomTreadleUj := 0x0B8
abbrev rLoomRecompute := 0x0C0
abbrev rElemCfg := 0x040
abbrev rElemState := 0x044
abbrev rElemRecipePc := 0x048
abbrev rElemGroups := 0x080
abbrev rElemBusy := 0x088
abbrev rElemStallIn := 0x090
abbrev rElemStallOut := 0x098
abbrev rElemKept := 0x0A0
abbrev rElemIndexDrop := 0x0A8
abbrev rElemReload := 0x0B0
abbrev rTallyState := 0x040
abbrev rTallyOps := 0x080
abbrev rTallyElems := 0x088
abbrev rTallyBusy := 0x090
abbrev rTallyOrderFault := 0x098
abbrev rClerkCfg := 0x040
abbrev rClerkState := 0x044
abbrev rClerkLastFault := 0x048
abbrev rClerkQBase := 0x050
abbrev rClerkQSpan := 0x070
abbrev rClerkQPtr := 0x080
abbrev rClerkOrders := 0x090
abbrev rClerkWaitCyc := 0x098
abbrev rClerkUnitFullCyc := 0x0A0
abbrev rClerkRestCyc := 0x0A8
abbrev rClerkNonok := 0x0B0
abbrev rClerkSregn := 0x100
abbrev rClerkCtrn := 0x300
abbrev rVltCfg := 0x040
abbrev rVltState := 0x044
abbrev rVltMap := 0x048
abbrev rVltTemp := 0x04C
abbrev rVltDiscard := 0x050
abbrev rVltRdLines := 0x080
abbrev rVltWrLines := 0x088
abbrev rVltBusy := 0x090
abbrev rVltTurnaround := 0x098
abbrev rVltRmw := 0x0A0
abbrev rVltZeroFill := 0x0A8
abbrev rVltZeroRead := 0x0B0
abbrev rVltGuestLines := 0x0B8
abbrev rVltRefForced := 0x0C0
abbrev rVltEccCfg := 0x100
abbrev rVltScrubCfg := 0x104
abbrev rVltEccState := 0x108
abbrev rVltScrubPtr := 0x10C
abbrev rVltLastUe := 0x110
abbrev rVltCeLines := 0x118
abbrev rVltCeSymbols := 0x120
abbrev rVltUeLines := 0x128
abbrev rVltRewrites := 0x130
abbrev rVltRewriteDropped := 0x138
abbrev rVltRowsSpared := 0x140
abbrev rVltScrubPairs := 0x148
abbrev rVltCeStorms := 0x150
abbrev rVltRestored := 0x158
abbrev rBankCfg := 0x040
abbrev rBankState := 0x044
abbrev rBankProg := 0x048
abbrev rBankHoldMax := 0x04C
abbrev rBankPrograms := 0x080
abbrev rBankSteps := 0x088
abbrev rBankItems := 0x090
abbrev rBankTokenCyc := 0x098
abbrev rBankResealPairs := 0x0A0
abbrev rBankIntervals := 0x0A8
abbrev rBankGuestHeld := 0x0B0
abbrev rBankEccPause := 0x0B8
abbrev rBankRerun := 0x0C0
abbrev rBankWatchman := 0x0C8
abbrev rBankEmitBytes := 0x0D0
abbrev rAttCfg := 0x040
abbrev rAttKvwin := 0x044
abbrev rAttState := 0x048
abbrev rAttOrders := 0x080
abbrev rAttSlotsFull := 0x088
abbrev rAttSlotsSel := 0x090
abbrev rAttSelItems := 0x098
abbrev rAttAppends := 0x0A0
abbrev rAttCow := 0x0A8
abbrev rAttBwdRows := 0x0B0
abbrev rLedgState := 0x040
abbrev rLedgPartSel := 0x044
abbrev rLedgPartQuota := 0x048
abbrev rLedgPartUsed := 0x04C
abbrev rLedgLookups := 0x080
abbrev rLedgAllocs := 0x088
abbrev rLedgFrees := 0x090
abbrev rLedgCow := 0x098
abbrev rLedgProbeFull := 0x0A0
abbrev rLedgCopyConflict := 0x0A8
abbrev rBookCfg := 0x040
abbrev rBookState := 0x044
abbrev rBookLookups := 0x080
abbrev rBookHitBlocks := 0x088
abbrev rBookInserts := 0x090
abbrev rBookEvicts := 0x098
abbrev rBookStale := 0x0A0
abbrev rForeState := 0x040
abbrev rForePartSel := 0x044
abbrev rForePartSts := 0x048
abbrev rForeStepCfg := 0x04C
abbrev rForeClass := 0x050
abbrev rForeStagger := 0x054
abbrev rForePolicy := 0x058
abbrev rForeStreamQuota := 0x05C
abbrev rForeReqBase := 0x060
abbrev rForeReqCfg := 0x068
abbrev rForeReqPtr := 0x06C
abbrev rForeTokBase := 0x070
abbrev rForeTokCfg := 0x078
abbrev rForeTokPtr := 0x07C
abbrev rForeMsix := 0x080
abbrev rForeStepAddr := 0x084
abbrev rForeAdmBase := 0x088
abbrev rForeAcqBase := 0x090
abbrev rForeAdmCfg := 0x098
abbrev rForeAdmPtr := 0x09C
abbrev rForeTime := 0x0A0
abbrev rForeSteps := 0x0C0
abbrev rForeAdmits := 0x0C8
abbrev rForeTokens := 0x0D0
abbrev rForeParks := 0x0D8
abbrev rForeUnparks := 0x0E0
abbrev rForeVoided := 0x0E8
abbrev rForeDeadlineMiss := 0x0F0
abbrev rForeAdmitHeld := 0x0F8
abbrev rForeGambitsOffered := 0x100
abbrev rForeGambitsAccepted := 0x108
abbrev rPortCfg := 0x040
abbrev rPortState := 0x044
abbrev rPortRows := 0x080
abbrev rPortOverflow := 0x088
abbrev rPortRerouted := 0x090
abbrev rPortSpilled := 0x098
abbrev rPortStreamed := 0x0A0
abbrev rPortBytes := 0x0A8
abbrev rRngPartSel := 0x040
abbrev rRngPartCfg := 0x044
abbrev rRngAlmAddr := 0x048
abbrev rRngAlmData := 0x04C
abbrev rRngState := 0x050
abbrev rRngCgFailn := 0x060
abbrev rRngDraws := 0x080
abbrev rRngAlmDraws := 0x088
abbrev rRngCgMismatch := 0x090
abbrev rMeshRegSel := 0x040
abbrev rMeshReg := 0x044
abbrev rMeshState := 0x048
abbrev rMeshFlits := 0x080
abbrev rMeshReplays := 0x088
abbrev rMeshHeldCyc := 0x090
abbrev rMeshDiscarded := 0x098
abbrev rD2dCfg := 0x040
abbrev rD2dMod := 0x044
abbrev rD2dRegSel := 0x048
abbrev rD2dReg := 0x04C
abbrev rD2dState := 0x050
abbrev rD2dFlits := 0x080
abbrev rD2dRetries := 0x088
abbrev rD2dDisables := 0x090
abbrev rD2dHeldCyc := 0x098
abbrev rFabGuild := 0x040
abbrev rFabTerm := 0x044
abbrev rFabCfg := 0x048
abbrev rFabEpoch := 0x050
abbrev rFabSnap := 0x058
abbrev rFabCtl := 0x05C
abbrev rFabPuts := 0x080
abbrev rFabGets := 0x088
abbrev rFabDups := 0x090
abbrev rFabResends := 0x098
abbrev rFabUnreachable := 0x0A0
abbrev rFabpState := 0x040
abbrev rFabpCfg := 0x044
abbrev rFabpTemp := 0x048
abbrev rFabpTx := 0x080
abbrev rFabpRx := 0x088
abbrev rFabpFecSym := 0x090
abbrev rFabpFecUe := 0x098
abbrev rFabpReplays := 0x0A0
abbrev rFabpDowns := 0x0A8
abbrev rHostState := 0x040
abbrev rHostCfg := 0x044
abbrev rHostRegSel := 0x048
abbrev rHostRegOut := 0x04C
abbrev rHostRegIn := 0x050
abbrev rHostTxBytes := 0x080
abbrev rHostRxBytes := 0x088
abbrev rHostCplTimeout := 0x090
abbrev rHostUr := 0x098
abbrev rHostFenceCa := 0x0A0
abbrev rHostHeldCyc := 0x0A8
abbrev rHostDmaDiscard := 0x0B0
abbrev rHostLinkDowns := 0x0B8
abbrev rFarpState := 0x040
abbrev rFarpCfg := 0x044
abbrev rFarpCap := 0x048
abbrev rFarpRegSel := 0x04C
abbrev rFarpRegOut := 0x050
abbrev rFarpRegIn := 0x054
abbrev rFarpRdBytes := 0x080
abbrev rFarpWrBytes := 0x088
abbrev rFarpPoison := 0x090
abbrev rFarpTimeout := 0x098
abbrev rFarpDowns := 0x0A0
abbrev rFarpHeldCyc := 0x0A8
abbrev rPwrCap := 0x040
abbrev rPwrSlew := 0x044
abbrev rPwrShed := 0x048
abbrev rPwrShedTx := 0x04C
abbrev rPwrFlat := 0x050
abbrev rPwrRotate := 0x054
abbrev rPwrState := 0x058
abbrev rPwrNow := 0x05C
abbrev rPwrThrottle := 0x060
abbrev rPwrShedRx := 0x064
abbrev rPwrInfo := 0x068
abbrev rPwrEnergyMj := 0x080
abbrev rPwrTreadleMj := 0x088
abbrev rPwrRestCyc := 0x090
abbrev rPwrSheds := 0x098
abbrev rPwrSlewShortMs := 0x0A0
abbrev rPwrOverMs := 0x0A8
abbrev rPwrHostDrop := 0x0B0
abbrev rThmCfg := 0x040
abbrev rThmResume := 0x044
abbrev rThmState := 0x048
abbrev rThmHot := 0x04C
abbrev rThmHotId := 0x050
abbrev rThmRate := 0x054
abbrev rThmSensSel := 0x058
abbrev rThmSens := 0x05C
abbrev rThmSeal := 0x060
abbrev rThmRounds := 0x080
abbrev rThmThrottleMs := 0x088
abbrev rThmPredictMs := 0x090
abbrev rThmAdjourns := 0x098
abbrev rThmSuspects := 0x0A0
abbrev rThmBrokens := 0x0A8
abbrev rFuseState := 0x040
abbrev rFuseReason := 0x044
abbrev rFuseSiteSel := 0x048
abbrev rFuseSite := 0x04C
abbrev rFuseTopo := 0x050
abbrev rFuseUnits := 0x058
abbrev rFusePhase := 0x060
abbrev rSecState := 0x040
abbrev rSecBoot := 0x044
abbrev rSecSvn := 0x048
abbrev rSecSvnCommit := 0x04C
abbrev rSecSession := 0x050
abbrev rSecSpdmAlg := 0x054
abbrev rSecMeasSel := 0x058
abbrev rSecNoncen := 0x060
abbrev rSecRespn := 0x080
abbrev rSecMeasn := 0x0A0
abbrev rSecSessions := 0x100
abbrev rSecAuthFails := 0x108
abbrev rSecSpdmMsgs := 0x110
abbrev rSecQuotes := 0x118
abbrev rSecBusy := 0x120
abbrev rStwDevState := 0x040
abbrev rStwIntSum := 0x050
abbrev rStwIntCoren := 0x060
abbrev rStwIntVaultn := 0x080
abbrev rStwMboxCmd := 0x0C0
abbrev rStwMboxSts := 0x0C4
abbrev rStwMboxArgn := 0x0E0
abbrev rStwEvent := 0x100
abbrev rStwBadAccess := 0x180
abbrev rStwMboxCmds := 0x188
abbrev rStwElogBase := 0x200
abbrev rStwElogCfg := 0x208
abbrev rStwElogHead := 0x20C
abbrev rStwElogTail := 0x210
abbrev rStwElogLost := 0x218
abbrev rStwSramCe := 0x220
abbrev rStwSramUe := 0x228
abbrev rStwAbsCfg := 0x300
abbrev rStwAbsState := 0x304
abbrev rStwCast := 0x308
abbrev rStwCastProg := 0x30C
abbrev rStwCastReq := 0x310
abbrev rStwMirrorSel := 0x314
abbrev rStwMirrorOut := 0x318
abbrev rStwMirrorIn := 0x31C
abbrev rStwMirrorBase := 0x320
abbrev rStwMirrorPages := 0x328
abbrev rStwCastlings := 0x340
abbrev rStwMigrated := 0x348
abbrev rStwFences := 0x350
abbrev rStwEscalations := 0x358
abbrev rStwMirrorMsgs := 0x360
abbrev rStwAdoptions := 0x368
abbrev rStwAdoptFails := 0x370
abbrev rStwSelfFences := 0x378
abbrev rStwMboxData := 0x800
abbrev rStwOrder := 0x040
abbrev rStwSerial := 0x048
abbrev rStwFwVer := 0x050
abbrev rStwRomVer := 0x058
abbrev rStwCores := 0x05C

end Sys2Proof.Machine
end

