-- ==== Sys2Proof/Machine/Map.lean ====
section
/-! DEFINITION. Sparse data by key: a list of key and value pairs in ONE canonical form, keys strictly rising and no
entry equal to what an unlisted key reads as. Byte memories (`Mem`) are maps of bytes whose unlisted key reads as 0. -/

namespace Sys2Proof.Machine

/-- A sparse map from natural-number keys. Every use names what an unlisted key reads as. -/
abbrev SMap (α : Type) := List (Nat × α)

variable {α : Type}

/-- The entry listed at `k`, if one is. -/
def smFind (m : SMap α) (k : Nat) : Option α :=
  match m with
  | [] => none
  | (j, v) :: r => if j = k then some v else smFind r k

/-- What key `k` reads as, where an unlisted key reads as `d`. -/
def smGet (d : α) (m : SMap α) (k : Nat) : α := (smFind m k).getD d

/-- The map with what is listed at `k` removed. -/
def smErase (m : SMap α) (k : Nat) : SMap α :=
  match m with
  | [] => []
  | (j, v) :: r => if j = k then smErase r k else (j, v) :: smErase r k

/-- The map with `v` listed at `k`. -/
def smPut (m : SMap α) (k : Nat) (v : α) : SMap α :=
  match m with
  | [] => [(k, v)]
  | (j, w) :: r => if j = k then (k, v) :: r else if k < j then (k, v) :: (j, w) :: r else (j, w) :: smPut r k v

/-- A write that keeps the canonical form: writing what an unlisted key reads as removes the entry. -/
def smSet [DecidableEq α] (d : α) (m : SMap α) (k : Nat) (v : α) : SMap α :=
  match m with
  | [] => if v = d then [] else [(k, v)]
  | (j, w) :: r =>
    if j = k then (if v = d then smErase r k else (k, v) :: r)
    else if k < j then (if v = d then (j, w) :: smErase r k else (k, v) :: (j, w) :: r)
    else (j, w) :: smSet d r k v

/-- Every key of the map is above `b`, the keys rise strictly, and no entry equals `d k`. -/
def smOrdered [DecidableEq α] (d : Nat → α) (m : SMap α) (b : Option Nat) : Bool :=
  match m with
  | [] => true
  | (j, v) :: r => (match b with | none => true | some x => decide (x < j)) && decide (v ≠ d j) && smOrdered d r (some j)

/-- The canonical form of a map whose key `k` reads as `d k` when unlisted. -/
def smWf [DecidableEq α] (d : Nat → α) (m : SMap α) : Bool := smOrdered d m none

/-- All entries whose key satisfies `p`, kept. -/
def smFilter (p : Nat → α → Bool) (m : SMap α) : SMap α := m.filter (fun e => p e.1 e.2)

/-- A byte memory: a list of (address, byte) cells (the form of Host.Cell), an unlisted address reading as 0. -/
abbrev Mem := List (Nat × BitVec 8)

/-- The byte at `a`. -/
def memByte (m : Mem) (a : Nat) : Byte := smGet 0 m a

/-- The memory with byte `v` at `a`. -/
def memSetByte (m : Mem) (a : Nat) (v : Byte) : Mem := smSet 0 m a v

/-- `n` bytes from `a` upward. -/
def memBytes (m : Mem) (a n : Nat) : List Byte := (List.range n).map (fun i => memByte m (a + i))

/-- Write the bytes of a list from `a` upward. -/
def memSetBytes (m : Mem) (a : Nat) (bs : List Byte) : Mem :=
  match bs with
  | [] => m
  | b :: r => memSetBytes (memSetByte m a b) (a + 1) r

/-- `n` bytes from `a`, the address wrapping in a space of `sz` bytes. -/
def memBytesWrap (sz : Nat) (m : Mem) (a n : Nat) : List Byte :=
  (List.range n).map (fun i => memByte m ((a + i) % sz))

/-- Write the bytes of a list from `a`, the address wrapping in a space of `sz` bytes. -/
def memSetBytesWrap (sz : Nat) (m : Mem) (a : Nat) (bs : List Byte) : Mem :=
  match bs with
  | [] => m
  | b :: r => memSetBytesWrap sz (memSetByte m (a % sz) b) (a + 1) r

/-- The canonical form of a byte memory. -/
def memWf (m : Mem) : Bool := smWf (fun _ => (0 : Byte)) m

/-- The value of a little-endian byte list (R3). -/
def leNat (bs : List Byte) : Nat :=
  match bs with
  | [] => 0
  | b :: r => b.toNat + 256 * leNat r

/-- The `n` little-endian bytes of `v` (R3). -/
def leBytes (n : Nat) (v : Nat) : List Byte :=
  match n with
  | 0 => []
  | k + 1 => BitVec.ofNat 8 v :: leBytes k (v / 256)

/-- Bits [hi:lo] of `v` as a number (R3). -/
def bits (v hi lo : Nat) : Nat := (v >>> lo) % 2 ^ (hi + 1 - lo)

/-- Bit `b` of `v`. -/
def bit (v b : Nat) : Bool := v.testBit b

/-- `v` with bits [hi:lo] replaced by `x`. -/
def setBits (v hi lo x : Nat) : Nat :=
  v - (bits v hi lo <<< lo) + ((x % 2 ^ (hi + 1 - lo)) <<< lo)

/-- The number clamped to the nearer bound of lo to hi (R8). -/
def clampNat (lo hi v : Nat) : Nat := if v < lo then lo else if v > hi then hi else v

/-- ⌈a ÷ b⌉. -/
def ceilDiv (a b : Nat) : Nat := (a + b - 1) / b

/-- Place `i` of a list of `n` places takes `v`; a place the list lacks holds `d`. -/
def fixSet {α : Type} (n : Nat) (d : α) (l : List α) (i : Nat) (v : α) : List α := (l ++ List.replicate (n - l.length) d).set i v

/-- Entry `i` of a list, or `d`. -/
def listGet {α : Type} (d : α) (l : List α) (i : Nat) : α := l.getD i d

/-- Fold a function over 0, 1, …, n − 1. -/
def foldN {σ : Type} (n : Nat) (f : Nat → σ → σ) (s : σ) : σ := (List.range n).foldl (fun acc i => f i acc) s

/-- A boolean as a number. -/
def b2n (b : Bool) : Nat := if b then 1 else 0

/-- The bit width of a number (0 for 0). -/
def bitLen (n : Nat) : Nat := if n = 0 then 0 else Nat.log2 n + 1

/-- ⌊√n⌋ by one result bit at a time, from bit `k` − 1 downward. -/
def isqrtAux (n : Nat) (k : Nat) (r : Nat) : Nat :=
  match k with
  | 0 => r
  | k + 1 =>
    let c := r + 2 ^ k
    isqrtAux n k (if c * c ≤ n then c else r)

/-- ⌊√n⌋. -/
def isqrt (n : Nat) : Nat := isqrtAux n (bitLen n / 2 + 1) 0

end Sys2Proof.Machine
end

