-- ==== Sys2Proof/Machine/Fp.lean ====
section
/-! DEFINITION. Floating-point values and FP32 arithmetic (R38 to R41, R46): every operation is computed exactly on
dyadic numbers and rounded once, to nearest with ties to even. -/

namespace Sys2Proof.Machine

/-- What a floating-point encoding stands for: (−1)^neg × m × 2^e when finite. -/
inductive FpVal where
  | nan
  | inf (neg : Bool)
  | fin (neg : Bool) (m : Nat) (e : Int)
deriving DecidableEq, Repr

/-- The infinity and NaN encodings a format has (R38): IEEE-like, E4M3's all-ones NaN only, or none. -/
inductive Specials where
  | ieee
  | allOnes
  | none
deriving DecidableEq, Repr

/-- A floating-point element format (R38). -/
structure FloatFmt where
  eb : Nat
  mb : Nat
  bias : Nat
  sp : Specials
deriving DecidableEq, Repr

def fmtFp32 : FloatFmt := ⟨8, 23, 127, .ieee⟩
def fmtBf16 : FloatFmt := ⟨8, 7, 127, .ieee⟩
def fmtFp16 : FloatFmt := ⟨5, 10, 15, .ieee⟩
def fmtE4M3 : FloatFmt := ⟨4, 3, 7, .allOnes⟩
def fmtE5M2 : FloatFmt := ⟨5, 2, 15, .ieee⟩
def fmtE3M2 : FloatFmt := ⟨3, 2, 3, .none⟩
def fmtE2M3 : FloatFmt := ⟨2, 3, 1, .none⟩
def fmtE2M1 : FloatFmt := ⟨2, 1, 1, .none⟩

/-- The width of an encoding. -/
def ffWidth (f : FloatFmt) : Nat := 1 + f.eb + f.mb

/-- The magnitude bits of the largest finite value (R38). -/
def ffMax (f : FloatFmt) : Nat :=
  match f.sp with
  | .ieee => (2 ^ f.eb - 1) * 2 ^ f.mb - 1
  | .allOnes => 2 ^ (f.eb + f.mb) - 2
  | .none => 2 ^ (f.eb + f.mb) - 1

/-- The encoding of the canonical NaN (R38, R40), for formats that have one; 0 otherwise (R47). -/
def ffNan (f : FloatFmt) : Nat :=
  match f.sp with
  | .ieee => (2 ^ f.eb - 1) * 2 ^ f.mb + 2 ^ (f.mb - 1)
  | .allOnes => 2 ^ (f.eb + f.mb) - 1
  | .none => 0

/-- The encoding of a magnitude with a sign. -/
def ffSign (f : FloatFmt) (neg : Bool) (mag : Nat) : Nat := mag + (if neg then 2 ^ (f.eb + f.mb) else 0)

/-- The value an encoding stands for (R38, R39). -/
def ffDecode (f : FloatFmt) (x : Nat) : FpVal :=
  let neg := x.testBit (f.eb + f.mb)
  let mag := x % 2 ^ (f.eb + f.mb)
  let ex := mag / 2 ^ f.mb
  let man := mag % 2 ^ f.mb
  if f.sp = .ieee ∧ ex = 2 ^ f.eb - 1 then (if man = 0 then .inf neg else .nan)
  else if f.sp = .allOnes ∧ mag = 2 ^ (f.eb + f.mb) - 1 then .nan
  else if ex = 0 then .fin neg man (1 - (f.bias : Int) - f.mb)
  else .fin neg (2 ^ f.mb + man) ((ex : Int) - f.bias - f.mb)

/-- m ÷ 2^k rounded to nearest, ties to even (R46). -/
def rneShift (m k : Nat) : Nat :=
  if k = 0 then m
  else
    let q := m >>> k
    let r := m % 1 <<< k
    let h := 1 <<< (k - 1)
    if r > h ∨ (r = h ∧ q % 2 = 1) then q + 1 else q

/-- m ÷ 2^d rounded stochastically with the word r (R50). -/
def srShift (m d : Nat) (r : Word) : Nat :=
  if d = 0 then m
  else
    let t := m >>> d
    let f := m % 2 ^ d
    let up := if d ≤ 32 then f + (r.toNat >>> (32 - d)) ≥ 2 ^ d else (f >>> (d - 32)) + r.toNat ≥ 2 ^ 32
    if up then t + 1 else t

/-- How a conversion rounds: to nearest even, or stochastically with a word (R46, R50). -/
inductive Rounding where
  | rne
  | sr (r : Word)
deriving DecidableEq, Repr

/-- m ÷ 2^k under a rounding. -/
def roundShift (rm : Rounding) (m k : Nat) : Nat :=
  match rm with
  | .rne => rneShift m k
  | .sr r => srShift m k r

/-- The magnitude bits of m × 2^e rounded to a format with an unbounded exponent above (R39, R46): a carry out of the
significand increments the exponent by itself. -/
def roundMag (rm : Rounding) (f : FloatFmt) (m : Nat) (e : Int) : Nat :=
  if m = 0 then 0
  else
    let top : Int := e + (bitLen m : Int) - 1
    let emin : Int := 1 - (f.bias : Int)
    let ec := max top emin
    let q := ec - (f.mb : Int)
    let r := if q ≤ e then m <<< (e - q).toNat else roundShift rm m (q - e).toNat
    (ec - emin).toNat * 2 ^ f.mb + r

/-- The conversion of a value to a float format under R47. -/
def ffEncode (rm : Rounding) (f : FloatFmt) (nonsat : Bool) (v : FpVal) : Nat :=
  match v with
  | .nan => ffNan f
  | .inf neg =>
    match f.sp with
    | .ieee => ffSign f neg ((2 ^ f.eb - 1) * 2 ^ f.mb)
    | .allOnes => if nonsat then ffNan f else ffSign f neg (ffMax f)
    | .none => ffSign f neg (ffMax f)
  | .fin neg m e =>
    let g := roundMag rm f m e
    if g ≤ ffMax f then ffSign f neg g
    else
      match f.sp with
      | .ieee =>
        if f.eb = 5 ∧ f.mb = 2 ∧ nonsat = false then ffSign f neg (ffMax f)
        else ffSign f neg ((2 ^ f.eb - 1) * 2 ^ f.mb)
      | .allOnes => if nonsat then ffNan f else ffSign f neg (ffMax f)
      | .none => ffSign f neg (ffMax f)

/-- The canonical FP32 NaN (R38). -/
def f32Nan : Word := 0x7FC00000#32
def f32One : Word := 0x3F800000#32
def f32PosInf : Word := 0x7F800000#32
def f32NegInf : Word := 0xFF800000#32

/-- The FP32 encoding of a value, rounded once (R46). -/
def f32Of (v : FpVal) : Word := BitVec.ofNat 32 (ffEncode .rne fmtFp32 false v)

/-- The value of an FP32 word. -/
def f32Val (w : Word) : FpVal := ffDecode fmtFp32 w.toNat

/-- Negation of a value; a NaN stays NaN. -/
def fpNeg (v : FpVal) : FpVal :=
  match v with
  | .nan => .nan
  | .inf n => .inf (!n)
  | .fin n m e => .fin (!n) m e

def fpAbs (v : FpVal) : FpVal :=
  match v with
  | .nan => .nan
  | .inf _ => .inf false
  | .fin _ m e => .fin false m e

def fpIsNan (v : FpVal) : Bool := match v with | .nan => true | _ => false
def fpIsInf (v : FpVal) : Bool := match v with | .inf _ => true | _ => false
def fpIsZero (v : FpVal) : Bool := match v with | .fin _ m _ => m == 0 | _ => false
def fpIsNeg (v : FpVal) : Bool := match v with | .inf n => n | .fin n m _ => n && m != 0 | .nan => false

/-- The exact product (R41). -/
def fpMul (a b : FpVal) : FpVal :=
  match a, b with
  | .nan, _ => .nan
  | _, .nan => .nan
  | .inf n, .inf k => .inf (n != k)
  | .inf n, .fin k m _ => if m = 0 then .nan else .inf (n != k)
  | .fin n m _, .inf k => if m = 0 then .nan else .inf (n != k)
  | .fin n m e, .fin k p f => .fin (n != k) (m * p) (e + f)

/-- The signed significand of a finite value at exponent `lo` ≤ e. -/
def fpAlign (neg : Bool) (m : Nat) (e lo : Int) : Int :=
  let x : Int := ((m <<< (e - lo).toNat : Nat) : Int)
  if neg then -x else x

/-- The exact sum (R41): −0 only if both addends are −0; an exact zero sum of non-zero addends is +0. -/
def fpAdd (a b : FpVal) : FpVal :=
  match a, b with
  | .nan, _ => .nan
  | _, .nan => .nan
  | .inf n, .inf k => if n = k then .inf n else .nan
  | .inf n, .fin _ _ _ => .inf n
  | .fin _ _ _, .inf k => .inf k
  | .fin n m e, .fin k p f =>
    if m = 0 ∧ p = 0 then .fin (n && k) 0 0
    else if m = 0 then .fin k p f
    else if p = 0 then .fin n m e
    else
      let lo := min e f
      let s := fpAlign n m e lo + fpAlign k p f lo
      .fin (decide (s < 0)) s.natAbs lo

/-- Numerical comparison of two values that are not NaN: a < b. -/
def fpLt (a b : FpVal) : Bool :=
  match a, b with
  | .nan, _ => false
  | _, .nan => false
  | .inf n, .inf k => n && !k
  | .inf n, .fin _ _ _ => n
  | .fin _ _ _, .inf k => !k
  | .fin n m e, .fin k p f =>
    let lo := min e f
    decide (fpAlign n m e lo < fpAlign k p f lo)

def fpEq (a b : FpVal) : Bool := !fpIsNan a && !fpIsNan b && !fpLt a b && !fpLt b a
def fpLe (a b : FpVal) : Bool := fpLt a b || fpEq a b

/-- FP32 addition under R41 and R46. -/
def f32Add (a b : Word) : Word := f32Of (fpAdd (f32Val a) (f32Val b))
def f32Sub (a b : Word) : Word := f32Of (fpAdd (f32Val a) (fpNeg (f32Val b)))
def f32Mul (a b : Word) : Word := f32Of (fpMul (f32Val a) (f32Val b))
/-- The fused multiply-add, rounded once (R46). -/
def f32Fma (a b c : Word) : Word := f32Of (fpAdd (fpMul (f32Val a) (f32Val b)) (f32Val c))
def f32Fms (a b c : Word) : Word := f32Of (fpAdd (fpMul (f32Val a) (f32Val b)) (fpNeg (f32Val c)))
def f32IsNan (a : Word) : Bool := fpIsNan (f32Val a)
def f32Lt (a b : Word) : Bool := fpLt (f32Val a) (f32Val b)
def f32Le (a b : Word) : Bool := fpLe (f32Val a) (f32Val b)
def f32Eq (a b : Word) : Bool := fpEq (f32Val a) (f32Val b)
def f32Abs (a : Word) : Word := f32Of (fpAbs (f32Val a))
def f32Neg (a : Word) : Word := f32Of (fpNeg (f32Val a))
def f32IsZero (a : Word) : Bool := fpIsZero (f32Val a)

/-- max(a, b): NaN if either is NaN; MAX(+0, −0) = +0 (R105). -/
def f32Max (a b : Word) : Word :=
  if f32IsNan a || f32IsNan b then f32Nan
  else if f32IsZero a && f32IsZero b then (if a.msb && b.msb then a else 0)
  else if f32Lt a b then b else a

/-- min(a, b): NaN if either is NaN; MIN(+0, −0) = −0 (R105). -/
def f32Min (a b : Word) : Word :=
  if f32IsNan a || f32IsNan b then f32Nan
  else if f32IsZero a && f32IsZero b then (if a.msb || b.msb then 0x80000000#32 else 0)
  else if f32Lt b a then b else a

/-- An integer as an exact value. -/
def fpOfInt (i : Int) : FpVal := .fin (decide (i < 0)) i.natAbs 0

/-- INT32 to FP32, ties to even (R47). -/
def f32OfInt (w : Word) : Word := f32Of (fpOfInt w.toInt)

/-- A value rounded to an integer, to nearest even, saturated to lo..hi; NaN gives 0 (R47). -/
def fpToInt (rm : Rounding) (lo hi : Int) (v : FpVal) : Int :=
  match v with
  | .nan => 0
  | .inf n => if n then lo else hi
  | .fin n m e =>
    let r : Int := if 0 ≤ e then (if e > 80 then (if m = 0 then 0 else (2 : Int) ^ 80) else ((m <<< e.toNat : Nat) : Int))
      else ((roundShift rm m (-e).toNat : Nat) : Int)
    let x := if n then -r else r
    if x < lo then lo else if x > hi then hi else x

/-- FP32 to INT32 under R47. -/
def f32ToInt32 (w : Word) : Word := BitVec.ofInt 32 (fpToInt .rne (-2147483648) 2147483647 (f32Val w))

/-- ⌊v⌋ of a finite value. -/
def fpFloor (v : FpVal) : Int :=
  match v with
  | .fin n m e =>
    if 0 ≤ e then (if n then -((m <<< e.toNat : Nat) : Int) else ((m <<< e.toNat : Nat) : Int))
    else
      let k := (-e).toNat
      if n then -((((m + 1 <<< k - 1) >>> k : Nat) : Int)) else ((m >>> k : Nat) : Int)
  | _ => 0

/-- ⌊log2 |v|⌋ of a finite non-zero value. -/
def fpLog2Floor (v : FpVal) : Int :=
  match v with
  | .fin _ m e => e + (bitLen m : Int) - 1
  | _ => 0

/-- v × 2^k, exactly. -/
def fpScale (v : FpVal) (k : Int) : FpVal :=
  match v with
  | .fin n m e => .fin n m (e + k)
  | x => x

/-- The fixed pairwise tree of R53 over a list whose length is a power of two, halved `k` times. -/
def pairUp (l : List Word) : List Word :=
  match l with
  | a :: b :: r => f32Add a b :: pairUp r
  | r => r

/-- k levels of the pairwise tree. -/
def treeLevels (k : Nat) (l : List Word) : List Word :=
  match k with
  | 0 => l
  | k + 1 => treeLevels k (pairUp l)

/-- tree32 of R53; a list shorter than 32 is padded with +0. -/
def tree32 (l : List Word) : Word :=
  (treeLevels 5 ((l ++ List.replicate (32 - l.length) 0).take 32)).getD 0 0

end Sys2Proof.Machine
end

