-- ==== Sys2Proof/Machine/Fmt.lean ====
section
/-! DEFINITION. Format codes, packing, block-scaled formats and conversions (R37, R42 to R50, R94, R101, R102). -/

namespace Sys2Proof.Machine

/-- Whether a format code is block-scaled (codes 0x6 to 0xC). -/
def fmtIsBlock (c : Nat) : Bool := decide (6 ≤ c) && decide (c ≤ 12)

/-- Whether a format code is an integer format that is not block-scaled (R45). -/
def fmtIsInt (c : Nat) : Bool := c == 13 || c == 14 || c == 15

/-- Bits of one element field (the table of format codes). -/
def fmtWidth (c : Nat) : Nat := [32, 16, 16, 8, 8, 4, 8, 8, 6, 6, 4, 8, 4, 8, 4, 32].getD c 32

/-- Bytes of one packed block of 32 elements (R43, R44). -/
def fmtBlockBytes (c : Nat) : Nat := 4 * fmtWidth c + (if c = 12 then 2 else 1)

/-- The floating-point element format of a code; MXINT8 and the integers have none. -/
def fmtFloat (c : Nat) : Option FloatFmt :=
  match c with
  | 0 => some fmtFp32
  | 1 => some fmtBf16
  | 2 => some fmtFp16
  | 3 => some fmtE4M3
  | 4 => some fmtE5M2
  | 5 => some fmtE2M1
  | 6 => some fmtE4M3
  | 7 => some fmtE5M2
  | 8 => some fmtE2M3
  | 9 => some fmtE3M2
  | 10 => some fmtE2M1
  | 12 => some fmtE2M1
  | _ => none

/-- The two's complement value of the low `w` bits of x. -/
def signedOf (w x : Nat) : Int :=
  let y := x % 2 ^ w
  if y < 2 ^ (w - 1) then (y : Int) else (y : Int) - (2 ^ w : Nat)

/-- The `w`-bit two's complement encoding of an integer. -/
def unsignedOf (w : Nat) (i : Int) : Nat := (i % ((2 ^ w : Nat) : Int)).toNat

/-- The value of an element field without its block scale (R38, R42, R45). -/
def elemVal (c x : Nat) : FpVal :=
  match fmtFloat c with
  | some f => ffDecode f (x % 2 ^ ffWidth f)
  | none =>
    if c = 11 then fpScale (fpOfInt (signedOf 8 x)) (-6)
    else fpOfInt (signedOf (fmtWidth c) x)

/-- The integer an INT8, INT4, INT32 or MXINT8 element field holds. -/
def elemInt (c x : Nat) : Int := signedOf (fmtWidth c) x

/-- An element of a tensor as stored: its field, its block's scale byte and its group's sub-shift. -/
structure RawElem where
  x : Nat
  scale : Nat
  sub : Nat
deriving DecidableEq, Repr

/-- The value of a stored element (R42, R44): a scale of 0xFF makes it NaN. -/
def rawVal (c : Nat) (r : RawElem) : FpVal :=
  if fmtIsBlock c then
    (if r.scale = 255 then .nan else fpScale (elemVal c r.x) ((r.scale : Int) - 127 - r.sub))
  else elemVal c r.x

/-- Bits [i, i + w) of a little-endian bit string given by its bytes. -/
def bitField (rd : Nat → Byte) (i w : Nat) : Nat :=
  let b := i / 8
  let n := (i + w + 7) / 8 - b
  (leNat ((List.range n).map (fun k => rd (b + k))) >>> (i % 8)) % 2 ^ w

/-- Element i of a tensor whose bytes `rd` gives (R43 to R45). -/
def tensorElem (c : Nat) (rd : Nat → Byte) (i : Nat) : RawElem :=
  let w := fmtWidth c
  if fmtIsBlock c then
    let base := (i / 32) * fmtBlockBytes c
    let x := bitField (fun k => rd (base + k)) ((i % 32) * w) w
    let sc := (rd (base + 4 * w)).toNat
    let sub := if c = 12 then (rd (base + 4 * w + 1)).toNat / 4 ^ ((i % 32) / 8) % 4 else 0
    ⟨x, sc, sub⟩
  else ⟨bitField rd (i * w) w, 127, 0⟩

/-- Station 1's decode of a stored element to 32 raw bits: FP32, or INT32 for the integer formats (R94, R535). -/
def rawDecode32 (c : Nat) (r : RawElem) : Word :=
  if fmtIsInt c then BitVec.ofInt 32 (elemInt c r.x) else f32Of (rawVal c r)

/-- Bytes of a packed tensor of n elements. -/
def tensorBytes (c n : Nat) : Nat :=
  if fmtIsBlock c then ceilDiv n 32 * fmtBlockBytes c else (n * fmtWidth c + 7) / 8

/-- emax of R48. -/
def fmtEmax (c : Nat) : Int :=
  match c with
  | 6 => 8
  | 7 => 15
  | 8 => 2
  | 9 => 4
  | 10 => 2
  | 12 => 2
  | _ => 0

/-- A value converted to an element of a block-scaled format after scaling: saturates at the largest finite element
(R47, R48 step 5, R49). -/
def blockElem (rm : Rounding) (c : Nat) (v : FpVal) : Nat :=
  match fmtFloat c with
  | some f =>
    match v with
    | .fin n m e => ffSign f n (min (roundMag rm f m e) (ffMax f))
    | _ => 0
  | none => unsignedOf 8 (fpToInt rm (-127) 127 (fpScale v 6))

/-- The largest of a list of values by magnitude. -/
def fpMaxAbs (l : List FpVal) : FpVal :=
  l.foldl (fun a v => if fpLt a (fpAbs v) then fpAbs v else a) (.fin false 0 0)

/-- Station 9's quantisation of a block of 32 values under R48; `rm` gives each position's rounding (R46, R50).
Answers the element fields with the scale and the sub-shift of each. The sub-shifts of a block with a NaN or an infinity are 0
(DESIGN CHOICE, assumption 125: step 1 of R48 gives the scale and the element fields only). -/
def quantBlock (c : Nat) (vals : List FpVal) (rm : List Rounding) : List RawElem :=
  let amax := fpMaxAbs vals
  if vals.any (fun v => fpIsNan v || fpIsInf v) then vals.map (fun _ => ⟨0, 255, 0⟩)
  else if fpIsZero amax then vals.map (fun _ => ⟨0, 0, 0⟩)
  else
    let la := fpLog2Floor amax
    let x := clampNat 0 254 (la - fmtEmax c + 127).toNat
    (vals.zip (rm ++ List.replicate (vals.length - rm.length) .rne)).mapIdx (fun i (v, r) =>
      let g := (vals.drop (i / 8 * 8)).take 8
      let gm := fpMaxAbs g
      let h : Nat := if c = 12 then (if fpIsZero gm then 0 else min 3 (la - fpLog2Floor gm).toNat) else 0
      ⟨blockElem r c (fpScale v (127 - (x : Int) + (h : Int))), x, h⟩)

/-- The packed bytes of a block (R43, R44) from its 32 stored elements. -/
def blockBytes (c : Nat) (es : List RawElem) : List Byte :=
  let w := fmtWidth c
  let pad : RawElem := ⟨0, (es.getD 0 ⟨0, 0, 0⟩).scale, 0⟩
  let full : List RawElem := (es ++ List.replicate (32 - es.length) pad).take 32
  let body := full.mapIdx (fun i e => (e.x % 2 ^ w) <<< (i * w))
  let n := body.foldl (· + ·) 0
  let sc := (full.getD 0 ⟨0, 0, 0⟩).scale
  let sub := (full.getD 0 ⟨0, 0, 0⟩).sub + 4 * (full.getD 8 ⟨0, 0, 0⟩).sub + 16 * (full.getD 16 ⟨0, 0, 0⟩).sub
    + 64 * (full.getD 24 ⟨0, 0, 0⟩).sub
  leBytes (4 * w) n ++ [BitVec.ofNat 8 sc] ++ (if c = 12 then [BitVec.ofNat 8 sub] else [])

/-- The 32-bit word an element conversion reads: INT32 for the integer formats, FP32 otherwise (R535). -/
def convScalar (rm : Rounding) (c : Nat) (nonsat : Bool) (w : Word) : Nat :=
  if fmtIsInt c then
    let n := fmtWidth c
    let lo : Int := -((2 ^ (n - 1) : Nat) : Int)
    let hi : Int := ((2 ^ (n - 1) : Nat) : Int) - 1
    unsignedOf n (if w.toInt < lo then lo else if w.toInt > hi then hi else w.toInt)
  else
    match fmtFloat c with
    | some f => ffEncode rm f nonsat (f32Val w)
    | none => 0

/-- Byte i of a memory with the bit field at bit position p, width w, replaced (4-bit elements share bytes, R45). -/
def writeField (m : Mem) (base p w x : Nat) : Mem :=
  let b := base + p / 8
  let n := (p % 8 + w + 7) / 8
  let old := leNat (memBytes m b n)
  memSetBytes m b (leBytes n (setBits old (p % 8 + w - 1) (p % 8) x))

end Sys2Proof.Machine
end

