-- ==== Sys2Proof/Machine/Fun.lean ====
section
/-! DEFINITION. The correctly rounded functions of station 4 (R95, R304) in fixed-point integer arithmetic, and the
table normal N[j] of R305. Every series keeps at least 200 correct bits below the rounding position of any FP32 result;
that no FP32 operand's exact result lies closer than that to a rounding boundary is DEDUCED (assumption 10). -/

namespace Sys2Proof.Machine

/-- Fraction bits of the fixed-point numbers of this file. -/
def fxF : Nat := 320

/-- 1 in fixed point. -/
def oneFx : Nat := 1 <<< fxF

/-- π × 2^640, truncated. -/
def piFx : Nat :=
  0x3243f6a8885a308d313198a2e03707344a4093822299f31d0082efa98ec4e6c89452821e638d01377be5466cf34e90c6cc0ac29b7c97c50dd3f84d5b5b54709179216d5d98979fb1bd1310ba698dfb5ac

/-- ln 2 × 2^640, truncated. -/
def ln2Fx : Nat :=
  0xb17217f7d1cf79abc9e3b39803f2f6af40f343267298b62d8a0d175b8baafa2be7b876206debac98559552fb4afa1b10ed2eae35c138214427573b291169b8253e96ca16224ae8c51acbda11317c387e

/-- The FP32 word of a positive fixed-point number x ÷ 2^fxF, with a sign. -/
def f32OfFx (neg : Bool) (x : Nat) : Word := f32Of (.fin neg x (-(fxF : Int)))

/-- Σ t_n of an exponential series from term `t` = y^(n−1)/(n−1)!: adds t·y/n for n, n + 1, …, for `k` terms. -/
def expTerms (y : Nat) (k n t acc : Nat) : Nat :=
  match k with
  | 0 => acc
  | k + 1 =>
    let t' := (t * y) >>> fxF
    let t'' := t' / n
    expTerms y k (n + 1) t'' (acc + t'')

/-- exp(y ÷ 2^fxF) × 2^fxF for 0 ≤ y < 2^fxF. -/
def expFx (y : Nat) : Nat := expTerms y 80 1 (oneFx) (oneFx)

/-- 2^v correctly rounded (R95). -/
def funExp2 (w : Word) : Word :=
  match f32Val w with
  | .nan => f32Nan
  | .inf n => if n then 0 else f32PosInf
  | .fin n m e =>
    let v : FpVal := .fin n m e
    if fpLt v (fpOfInt (-200)) then 0
    else if fpLe (fpOfInt 200) v then f32PosInf
    else
      let fl := fpFloor v
      -- the fraction of v, exactly, in fixed point: |e| ≤ 149 < fxF
      let fx : Int := (if e ≥ 0 then ((m <<< (e.toNat + fxF) : Nat) : Int) else ((m <<< (fxF - (-e).toNat) : Nat) : Int))
      let sx : Int := if n then -fx else fx
      let fr := (sx - fl * ((oneFx : Nat) : Int)).toNat
      f32Of (.fin false (expFx ((fr * (ln2Fx >>> (640 - fxF))) >>> fxF)) (fl - (fxF : Int)))

/-- Σ z^(2i+1)/(2i+1): `t` is the current odd power of z. -/
def atanhTerms (z2 k n t acc : Nat) : Nat :=
  match k with
  | 0 => acc
  | k + 1 => atanhTerms z2 k (n + 2) ((t * z2) >>> fxF) (acc + t / n)

/-- ln(m ÷ 2^(bitLen m − 1)) × 2^fxF, for m > 0: the logarithm of the significand in [1, 2). -/
def lnSigFx (m : Nat) : Nat :=
  let one := 2 ^ (bitLen m - 1)
  let z := ((m - one) <<< fxF) / (m + one)
  2 * atanhTerms ((z * z) >>> fxF) 110 1 z 0

/-- log2 v correctly rounded (R95). -/
def funLog2 (w : Word) : Word :=
  match f32Val w with
  | .nan => f32Nan
  | .inf n => if n then f32Nan else f32PosInf
  | .fin n m e =>
    if m = 0 then f32NegInf
    else if n then f32Nan
    else
      let k : Int := e + (bitLen m : Int) - 1
      if m = 2 ^ (bitLen m - 1) then f32Of (fpOfInt k)
      else
        let l := (lnSigFx m <<< fxF) / (ln2Fx >>> (640 - fxF))
        let s : Int := k * ((oneFx : Nat) : Int) + (l : Int)
        f32OfFx (decide (s < 0)) s.natAbs

/-- 1/v correctly rounded (R95). -/
def funRecip (w : Word) : Word :=
  match f32Val w with
  | .nan => f32Nan
  | .inf n => if n then 0x80000000#32 else 0
  | .fin n m e =>
    if m = 0 then (if n then f32NegInf else f32PosInf)
    else
      let q := (1 <<< 200) / m
      let st := b2n ((1 <<< 200) % m != 0)
      f32Of (.fin n (2 * q + st) (-e - 201))

/-- 1/√v correctly rounded (R95). -/
def funRsqrt (w : Word) : Word :=
  match f32Val w with
  | .nan => f32Nan
  | .inf n => if n then f32Nan else 0
  | .fin n m e =>
    if m = 0 then (if n then f32NegInf else f32PosInf)
    else if n then f32Nan
    else
      let m2 := if e % 2 = 0 then m else 2 * m
      let e2 := if e % 2 = 0 then e else e - 1
      let q := isqrt ((1 <<< 300) / m2)
      let st := b2n (q * q * m2 != (1 <<< 300))
      f32Of (.fin false (2 * q + st) (-(e2 / 2) - 151))

/-- Σ of the alternating series of sine or cosine: `t` is the current term, divided by n(n+1) at each turn. -/
def sinCosTerms (r2 k n t : Nat) (plus : Bool) (pos neg : Nat) : Nat :=
  match k with
  | 0 => pos - neg
  | k + 1 =>
    let t' := ((t * r2) >>> fxF) / (n * (n + 1))
    if plus then sinCosTerms r2 k (n + 2) t' false (pos + t) neg
    else sinCosTerms r2 k (n + 2) t' true pos (neg + t)

/-- sin(r ÷ 2^fxF) × 2^fxF for r in [0, π/2). -/
def sinFx (r : Nat) : Nat := sinCosTerms ((r * r) >>> fxF) 50 2 r true 0 0

/-- cos(r ÷ 2^fxF) × 2^fxF for r in [0, π/2). -/
def cosFx (r : Nat) : Nat := sinCosTerms ((r * r) >>> fxF) 50 1 (oneFx) true 0 0

/-- sin or cos by quadrant: quadrant q of the angle and the rest r in [0, π/2). Answers sign and magnitude. -/
def quadSin (q r : Nat) : Bool × Nat :=
  match q % 4 with
  | 0 => (false, sinFx r)
  | 1 => (false, cosFx r)
  | 2 => (true, sinFx r)
  | _ => (true, cosFx r)

/-- |v| ÷ (π/2): the quadrant and the rest in fixed point. -/
def reduceRad (m : Nat) (e : Int) : Nat × Nat :=
  let x := if e ≥ 0 then m <<< (640 + e.toNat) else (m <<< 640) >>> (-e).toNat
  let hp := piFx >>> 1
  let k := x / hp
  (k, (x - k * hp) >>> (640 - fxF))

/-- sin v correctly rounded; SIN(±0) = ±0 (R95). -/
def funSin (w : Word) : Word :=
  match f32Val w with
  | .nan => f32Nan
  | .inf _ => f32Nan
  | .fin n m e =>
    if m = 0 then w
    else
      let (k, r) := reduceRad m e
      let (s, x) := quadSin k r
      f32OfFx (n != s) x

/-- cos v correctly rounded; COS(±0) = 1.0 (R95). -/
def funCos (w : Word) : Word :=
  match f32Val w with
  | .nan => f32Nan
  | .inf _ => f32Nan
  | .fin _ m e =>
    if m = 0 then f32One
    else
      let (k, r) := reduceRad m e
      let (s, x) := quadSin (k + 1) r
      f32OfFx s x

/-- The fraction of |u| in fixed point, in units of a whole turn (exact: fxF ≥ 149). -/
def turnFrac (m : Nat) (e : Int) : Nat :=
  if e ≥ 0 then 0 else (m <<< (fxF - (-e).toNat)) % oneFx

/-- sin of 2π × (t ÷ 2^fxF) with the sign and magnitude apart; exact at the quarter turns. -/
def turnSin (t : Nat) : Bool × Nat :=
  let q := (4 * t) >>> fxF
  let r := (4 * t) % oneFx
  quadSin q ((r * (piFx >>> (641 - fxF))) >>> fxF)

/-- sin(2πu) correctly rounded; BM_SIN(±0) = ±0 (R95). The sign of a zero result at a non-zero u is a free value. -/
def funBmSin (w : Word) : Word :=
  match f32Val w with
  | .nan => f32Nan
  | .inf _ => f32Nan
  | .fin n m e =>
    if m = 0 then w
    else
      let (s, x) := turnSin (turnFrac m e)
      if x = 0 then (if Config.zeroSign w then 0x80000000#32 else 0) else f32OfFx (n != s) x

/-- cos(2πu) correctly rounded; BM_COS(±0) = 1.0 (R95). The sign of a zero result is a free value. -/
def funBmCos (w : Word) : Word :=
  match f32Val w with
  | .nan => f32Nan
  | .inf _ => f32Nan
  | .fin _ m e =>
    if m = 0 then f32One
    else
      let (s, x) := turnSin ((turnFrac m e + (1 <<< (fxF - 2))) % oneFx)
      if x = 0 then (if Config.zeroSign w then 0x80000000#32 else 0) else f32OfFx s x

/-- √(−2 ln u) correctly rounded; NaN for u ≤ 0 or u > 1, +0 for 1.0 (R95). -/
def funBmRad (w : Word) : Word :=
  match f32Val w with
  | .nan => f32Nan
  | .inf _ => f32Nan
  | .fin n m e =>
    if m = 0 ∨ n then f32Nan
    else
      let k : Int := e + (bitLen m : Int) - 1
      if k > 0 ∨ (k = 0 ∧ m ≠ 2 ^ (bitLen m - 1)) then f32Nan
      else if k = 0 then 0
      else
        -- −2 ln u = −2 (k ln 2 + ln sig)
        let a := (-k).toNat * (ln2Fx >>> (640 - fxF))
        let y := 2 * (a - lnSigFx m)
        f32OfFx false (isqrt (y <<< fxF))

/-- Σ (−1)^n x^(2n+1) ÷ (2^n n! (2n+1)): `t` = x^(2n+1) ÷ (2^n n!). -/
def phiTerms (x2 k n t : Nat) (plus : Bool) (pos neg : Nat) : Nat :=
  match k with
  | 0 => pos - neg
  | k + 1 =>
    let u := t / (2 * n + 1)
    let t' := ((t * x2) >>> fxF) / (2 * (n + 1))
    if plus then phiTerms x2 k (n + 1) t' false (pos + u) neg else phiTerms x2 k (n + 1) t' true pos (neg + u)

/-- Whether Φ(x) < p for x = x ÷ 2^fxF in [0, 4] and p = 1/2 + num ÷ 8,192: the series of (Φ(x) − 1/2) √(2π)
compared with num ÷ 8,192 × √(2π). -/
def phiBelow (x num : Nat) : Bool :=
  let s := phiTerms ((x * x) >>> fxF) 140 0 x true 0 0
  let r2p := isqrt (2 * (piFx >>> (640 - fxF)) <<< fxF)
  decide (s * 8192 < num * r2p)

/-- The largest FP32 pattern, of those with the bits of `b` set from bit k − 1 downward, whose Φ is below the target. -/
def normBisect (num k b : Nat) : Nat :=
  match k with
  | 0 => b
  | k + 1 =>
    let c := b + 2 ^ k
    let below := match ffDecode fmtFp32 c with
      | .fin _ m e => decide (c < 0x40800000) && phiBelow (m <<< ((fxF : Int) + e).toNat) num
      | _ => false
    normBisect num k (if below then c else b)

/-- N[j] for j ≥ 2,048: the FP32 value nearest Φ^−1((2j + 1) ÷ 8,192). -/
def normUpper (j : Nat) : Word :=
  let num := 2 * j + 1 - 4096
  let b := normBisect num 31 0
  -- the midpoint between pattern b and the next one decides the rounding
  match ffDecode fmtFp32 b with
  | .fin _ m e =>
    if phiBelow ((2 * m + 1) <<< ((fxF : Int) + e - 1).toNat) num then BitVec.ofNat 32 (b + 1) else BitVec.ofNat 32 b
  | _ => BitVec.ofNat 32 b

/-- N[j] of R305; N[4,095 − j] = −N[j]. -/
def normTable (j : Nat) : Word :=
  if 2048 ≤ j then normUpper j else normUpper (4095 - j) ^^^ 0x80000000#32

end Sys2Proof.Machine
end

