-- ==== Sys2Proof/Machine/Rng.lean ====
section
/-! DEFINITION. The counter generator and the almanac (R298 to R310). -/

namespace Sys2Proof.Machine

def rotlW (v : Word) (s : Nat) : Word := v.rotateLeft (s % 32)
def rotrW (v : Word) (s : Nat) : Word := v.rotateRight (s % 32)

/-- Four 32-bit words, y0 least significant (R298). -/
structure Draw where
  y0 : Word
  y1 : Word
  y2 : Word
  y3 : Word
deriving DecidableEq, Repr

/-- Word k of a draw. -/
def drawWord (d : Draw) (k : Nat) : Word :=
  match k % 4 with
  | 0 => d.y0
  | 1 => d.y1
  | 2 => d.y2
  | _ => d.y3

/-- W0 and W1 of R299. -/
def cgW0 : Word := 0x6C3A9F27#32
def cgW1 : Word := 0xE41D58B3#32
/-- The rotation amounts of R299. -/
def cgRot : List (Nat × Nat) := [(13, 19), (7, 24), (17, 11), (29, 5), (9, 21), (15, 26), (3, 14), (22, 8), (12, 27), (6, 18)]

/-- The rounds of R298 over the remaining rotation pairs. -/
def cgRounds (l : List (Nat × Nat)) (k0 k1 : Word) (d : Draw) : Draw :=
  match l with
  | [] => ⟨d.y0 + k0, d.y1, d.y2 + k1, d.y3⟩
  | (a, b) :: r =>
    let x0 := d.y0 + k0 + d.y1
    let x2 := d.y2 + k1 + d.y3
    cgRounds r (k0 + cgW0) (k1 + cgW1) ⟨x0, rotlW d.y3 b ^^^ x2, x2, rotlW d.y1 a ^^^ x0⟩

/-- cg(σ, n, P, i) of R298. -/
def cg (sigma : DWord) (n : Word) (p : DWord) (i : Word) : Draw :=
  cgRounds cgRot (sigma.extractLsb' 0 32) (sigma.extractLsb' 32 32)
    ⟨p.extractLsb' 0 32, p.extractLsb' 32 32, n, i⟩

/-- The almanac as filled at device reset: A[4u + k] = y_k of cg(0, 0, u, 0) (R310). -/
def almDefault (a : Nat) : Word := drawWord (cg 0 0 (BitVec.ofNat 64 (a / 4)) 0) (a % 4)

/-- An almanac draw under counter m (R309). `tbl` is the table. -/
def almDraw (tbl : Nat → Word) (sigma : DWord) (n : Word) (p : DWord) (i m : Word) : Draw :=
  let h := sigma.extractLsb' 0 32 ^^^ sigma.extractLsb' 32 32 ^^^ n ^^^ p.extractLsb' 0 32 ^^^ p.extractLsb' 32 32 ^^^ i ^^^ m
  let hn := h.toNat
  let w (k : Nat) : Word :=
    let a := (bits hn 13 0 + 4099 * k) % 16384
    let c := (bits hn 31 18 + 7 * k) % 16384
    let s := (bits hn 18 14 + 8 * k) % 32
    rotlW (tbl a) s ^^^ tbl c
  ⟨w 0, w 1, w 2, w 3⟩

/-- e_k = rotr(y_k, j × 32 ÷ f) (R301). -/
def drawShare (d : Draw) (j f : Nat) : Draw :=
  let s := j * 32 / f
  ⟨rotrW d.y0 s, rotrW d.y1 s, rotrW d.y2 s, rotrW d.y3 s⟩

/-- v × 2^−24 as FP32, exact for v ≤ 2^24. -/
def f32Of24 (v : Nat) : Word := f32Of (.fin false v (-24))

/-- RAND_U of a word under a distribution code (R303); code 3 is taken as code 0. -/
def randU (dist : Nat) (e : Word) : Word :=
  let v := e.toNat >>> 8
  match dist with
  | 1 => f32Of24 (v + 1)
  | 2 =>
    let j := v / 4096
    let f := f32Of (.fin false (v % 4096) (-12))
    let nj := normTable j
    let n1 := if j < 4095 then normTable (j + 1) else normTable 4095
    f32Fma f (f32Sub n1 nj) nj
  | _ => f32Of24 v

end Sys2Proof.Machine
end

