-- ==== Sys2Proof/Machine/StCore.lean ====
section
/-! DEFINITION. The state of a core and of a vault (the data types only; their reset values stand beside them).
Each field's docstring gives its width or range, the rule that names it and its reset value; DC marks a reset value the
spec does not give (assumption 1). -/

namespace Sys2Proof.Machine

/-- One order queue of a clerk (R129, R130). -/
structure OrderQ where
  /-- 1 bit; RUNNING since the last step start (R130); reset 0 -/
  running : Bool := false
  /-- 1 bit; stopped by R167 or R168 (R538); reset 0 -/
  stopped : Bool := false
  /-- 16 bits; the fetch index, CLERK_Qn_PTR (R129); reset 0 -/
  index : Nat := 0
  /-- up to 32 copies of 1,024-bit orders by index; the order buffer (R129); reset empty -/
  buf : SMap Nat := []
deriving DecidableEq, Repr

/-- A started order that has not completed (R132, R143). -/
structure Flight where
  /-- unique number of the started order within its core; model's own -/
  id : Nat
  /-- queue 0 to 3 -/
  q : Nat
  /-- queue index of the order -/
  idx : Nat
  /-- the 1,024-bit descriptor after patches (R142) -/
  ord : Nat
  /-- 8-bit opcode after R146 -/
  op : Nat
  /-- a clamp was applied (R8) -/
  clamped : Bool
  /-- 4-bit completion status so far (R9) -/
  status : Nat
  /-- every effect is done: the order may complete -/
  done : Bool
  /-- the request was replayed after a half loss (R467) -/
  replayed : Bool := false
  /-- streams whose listed entries lost data (R144) -/
  lost : List Nat := []
  /-- clamps that are counted when the order completes without a refusal: page, instance, number (R10); none where the order
  can be refused only at its start -/
  owed : List (Nat × Nat × Nat) := []
  /-- rows present base, loom index, transfer numbers and the like, as the order's unit uses them -/
  aux : List Nat := []
deriving DecidableEq, Repr

/-- The accumulator entry of one row and output (R64): block stack of (level, FP32), running accumulator, and the
48-bit integer equivalents. -/
structure LaneAcc where
  stack : List (Nat × Word) := []
  acc : Option Word := none
  iseg : BitVec 48 := 0
  iacc : Option (BitVec 48) := none
deriving DecidableEq, Repr

/-- A loom order in the running or pending place (R72). -/
structure LoomOrd where
  flight : Nat
  /-- value of row_ctr at issue (R72) -/
  base : Word
  /-- the fill window has elapsed (R72) -/
  expired : Bool
  /-- the row group, once started (R72) -/
  rows : Option Nat
  /-- output tile, and K tile within it, that issues next -/
  tile : Nat
  kt : Nat
  /-- output and K tile that the weight stage fetches next -/
  fTile : Nat
  fKt : Nat
  /-- shelf slots reserved for the output tile (or K-segment) in progress (R80) -/
  begun : Bool
  /-- waiting for the boundary pause to end (R74) -/
  pause : Bool
  /-- the activation store's copy of the stockroom: of the whole K range where it fits, else of one window (R70) -/
  acts : Option Mem
  /-- the window of 256 dense K that the copy holds, with its output tile (tile × 2^16 + window); none for the whole range (R70) -/
  win : Option Nat := none
  /-- zero map bytes fetched ahead of the tiles (R78) -/
  zmap : List Byte
  /-- accumulators by row × 32 + output (R64) -/
  accs : SMap LaneAcc
  /-- an error in a loom store asks for a recompute of the output tile (R87) -/
  bad : Bool
deriving DecidableEq, Repr

/-- One loom (R62 to R68, R83). -/
structure Loom where
  /-- orders held: running first, then pending (R132); reset none -/
  ords : List LoomOrd := []
  /-- tiles in the 24 KiB weight stage, oldest first (R66); reset empty -/
  stage : List (List Byte) := []
  /-- the shadow weight set (R68); reset empty -/
  shadow : Option (List Byte) := none
  /-- the active weight set (R68); reset empty -/
  active : Option (List Byte) := none
  /-- running average of the activity, ppm (R83); reset 0 DC -/
  avg : Nat := 0
  /-- treadle level applied, percent (R83); reset 0 DC -/
  level : Nat := 0
  /-- max_gap has passed since the last row (R83); reset no -/
  gap : Bool := false
  /-- active TREADLE order: flight and its level (R157); reset none -/
  fixedBy : Option (Nat × Nat) := none
deriving DecidableEq, Repr

/-- A shelf slot in a loom's queue (R79 to R81, R107). -/
structure Slot where
  /-- FULL (1) or still being filled (0) -/
  full : Bool
  /-- the last row issued: the slot becomes FULL at SHELF_SLOT_FULL -/
  issued : Bool
  flight : Nat
  /-- output-tile number within its loom order (R107) -/
  tile : Nat
  /-- row_base 0 or 32 (R107) -/
  rowBase : Nat
  /-- valid rows 1 to 32 (R80) -/
  valid : Nat
  /-- 32 × 32 FP32 by row × 32 + output; an unlisted place reads as +0 (R80) -/
  data : SMap Word
deriving DecidableEq, Repr

/-- What station 9 made of an element: the stored fields, and what is needed to form its block later. -/
inductive Enc where
  | none
  /-- an encoding of its own (not block-scaled) -/
  | plain (x : Nat)
  /-- an element of a block formed by this station 9 micro-op -/
  | block (e : RawElem)
  /-- the block is not yet whole: the operand and its rounding -/
  | wait (w : Word) (r : Rounding)
deriving DecidableEq, Repr

/-- One element in flight between stations 1 and 10 (R91, R104). -/
structure ElemLane where
  /-- logical index as the current station sees it (R99, R100) -/
  idx : Nat
  in0 : Word
  in1 : Word
  in2 : Word
  /-- lane registers v0 to v7 (R104) -/
  v : List Word
  p0 : Bool
  p1 : Bool
  /-- the draw of the element's logical index (R300, R301) -/
  rnd : Draw
  /-- the last station 9 micro-op's encoding: its output, register and encoding (R103) -/
  enc0 : Option Nat × Enc
  enc1 : Option Nat × Enc
  /-- lane number within its group (R91) -/
  lane : Nat
  /-- input unit of the element (R91) -/
  unit : Nat
deriving DecidableEq, Repr

/-- A RECIPE in the element engine (R97, R132). -/
structure RecipeRun where
  flight : Nat
  /-- micro-ops of the shortened list (R105), 64 bits each -/
  uops : List Nat
  carryEn : Bool
  /-- tables T0 and T1, lo and sc (R96, R97) -/
  t0 : List Word
  t1 : List Word
  lo0 : Word
  sc0 : Word
  lo1 : Word
  sc1 : Word
  /-- s-registers latched at start -/
  scal : List DWord
  /-- dense count of an EXPAND (R100) -/
  mexp : Nat
  /-- input kinds after R107, and output destinations after R109 -/
  kinds : List Nat
  dests : List Nat
  /-- tally_op and tap_station after their clamps -/
  tOp : Nat
  tapSt : Nat
  /-- some micro-op takes a random value -/
  draws : Bool
  /-- next element of the unit to issue, units issued, elements in the unit, and units of the order -/
  next : Nat
  unit : Nat
  unitLen : Nat
  units : Nat
  /-- the shelf unit has started, and its row count (R108) -/
  unitOn : Bool
  unitRows : Nat
  /-- elements in flight, and the number of micro-ops they have passed -/
  lanes : List ElemLane
  pc : Nat
  /-- with carry_en: elements that wait before station 9 for their blocks to be whole, and that they go on now (R102) -/
  parked : List ElemLane
  unparked : Bool
  /-- COMPRESS: kept so far (R99) -/
  kept : Nat
  /-- values routed to block-scaled outputs 0 and 1: logical index, 32-bit value, encoding (R103, R536) -/
  out0 : List (Nat × Word × Enc)
  out1 : List (Nat × Word × Enc)
  /-- the elements in flight have been tapped already -/
  tapped : Bool
  /-- highest logical index of the stream at the tap plus 1, for a SHELF input (R537) -/
  tapEnd : Nat
  /-- the same-group reissue after a CG mismatch (R308) -/
  missed : Bool
deriving DecidableEq, Repr

/-- The element engine (R90, R125, R132). -/
structure ElemEng where
  /-- RECIPEs held, running first (R132); reset none -/
  runs : List RecipeRun := []
  /-- carry registers v6 and v7 by lane (R125); reset +0 -/
  carry6 : SMap Word := []
  carry7 : SMap Word := []
  /-- carry_live (R125); reset 0 -/
  carryLive : Bool := false
deriving DecidableEq, Repr

/-- One reduction in the tally (R113 to R121). -/
structure TallyRun where
  flight : Nat
  /-- a TALLY order, or a RECIPE tap -/
  isOrder : Bool
  op : Nat
  /-- s0 as latched at start -/
  s0 : Word
  /-- next element of a TALLY order's operand -/
  next : Nat
  /-- tapped elements not taken yet: logical index, tap_a, tap_b -/
  inbox : List (Nat × Word × Word)
  /-- row states: row number ↦ the elements taken, (index in row, tap_a, tap_b) oldest first (R119) -/
  rows : SMap (List (Nat × Word × Word))
  /-- highest logical index taken per row plus 1 (R119) -/
  last : SMap Nat
  /-- rows whose result is written -/
  written : Nat
  /-- SCAN: the running h by column (R118) -/
  h : SMap Word
  /-- every element of the stream has reached the tally, and how many the stream has (R537) -/
  closed : Bool
  total : Nat
  /-- ended with DATA_LOST and no result (R128) -/
  lost : Bool
  /-- the RECIPE's outputs are written as well -/
  outsDone : Bool
deriving DecidableEq, Repr

/-- A bank-sequencer, attention, serving, porter or collective order's private progress. -/
structure UnitJob where
  flight : Nat
  /-- 0 waiting for bank programs, and so on, as the order's meaning states -/
  phase : Nat
  /-- vaults or entries still to be done -/
  todo : List Nat
  /-- block numbers selected, per entry (R240) -/
  chosen : List (List Nat)
deriving DecidableEq, Repr

/-- A row of an inbox that the porter has delivered: source core, row and choice slot, and the receiving core's place in
its team of `u` cores (R290, R291). -/
structure InboxRow where
  core : Nat
  row : Nat
  slot : Nat
  j : Nat
  u : Nat
deriving DecidableEq, Repr

/-- A remote SIGNAL on its way (R153): the flights it is delivered after. -/
structure RemSig where
  id : Nat
  core : Nat
  ctr : Nat
  set : Bool
  value : Word
  after : List Nat
deriving DecidableEq, Repr

/-- A step mark (R420). -/
structure StepMark where
  sregs : SMap DWord := []
  ctrs : SMap Word := []
  idx : List Nat := [0, 0, 0, 0]
  rot : Nat := 0
  last : Nat := 3
  alm : Word := 0
deriving DecidableEq, Repr

/-- A logical core (R12). -/
structure Core where
  /-- s0 to s63, 64 bits each; R137; reset 0 -/
  sregs : SMap DWord := []
  /-- c0 to c63, 32 bits each; R139; reset 0 -/
  ctrs : SMap Word := []
  /-- the four order queues; R129; reset IDLE -/
  qs : List OrderQ := [{}, {}, {}, {}]
  /-- started, incomplete orders, oldest first; R132; reset none -/
  flights : List Flight := []
  /-- remote SIGNALs not delivered yet; R153; reset none -/
  sigs : List RemSig := []
  /-- number the next started order takes; model's own; reset 0 DC -/
  nextId : Nat := 0
  /-- 2 bits; ANY rotation pointer; R163; reset 0 -/
  rot : Nat := 0
  /-- 2 bits; queue served last; R131; reset 3 -/
  lastQ : Nat := 3
  /-- 8 bits; opcode of the last order started, CLERK_STATE; reset 0 -/
  lastOp : Nat := 0
  /-- rest in force: its length in ARITH cycles, and the device time at which it was granted; R165; reset 0 -/
  rest : Nat := 0
  restAt : Nat := 0
  /-- 2 MiB of bytes; R12; reset 0 DC -/
  stock : Mem := []
  /-- stockroom 64-bit words holding a double-bit error (by word index); R333; reset none -/
  stockBad : List Nat := []
  /-- 15 bits; the scrubber's next 64 B line; R333; reset 0 DC -/
  stockPtr : Nat := 0
  /-- the four looms; R12; reset idle -/
  looms : List Loom := [{}, {}, {}, {}]
  /-- the four loom queues of the shelf, head first; R79; reset empty -/
  shelf : List (List Slot) := [[], [], [], []]
  /-- the element engine; R90; reset idle -/
  eng : ElemEng := {}
  /-- tally reductions held, running first; R132; reset none -/
  tally : List TallyRun := []
  /-- attention, bank, serving, porter and collective orders' progress; R132; reset none -/
  jobs : List UnitJob := []
  /-- the porter's record of the inboxes delivered here, by inbox address; R290; reset none -/
  inbox : SMap (List InboxRow) := []
  /-- returned segments that have arrived here: ret_addr and segment number; R291; reset none -/
  retIn : List (Nat × Nat) := []
  /-- stockroom ranges that messages from other devices have filled for DISPATCH and COLLECT: place, length, source device
  (R290, R291, R362); reset none -/
  msgIn : List (Nat × Nat × Nat) := []
  /-- contributions that team members have written here as the lead of a slot: slot and member; R234; reset none -/
  partsIn : List (Nat × Nat) := []
  /-- 32 bits; the almanac counter m; R309; reset core × 2^24 (held as an offset from it) -/
  alm : Word := 0
  /-- 1 bit; the core's CG is marked failed; R308; reset 0 -/
  cgFailed : Bool := false
  /-- the step mark; R420; reset zeros -/
  mark : StepMark := {}
deriving DecidableEq, Repr

/-- Vault modes (the table of vault modes, VLT_STATE mode). -/
inductive VMode where
  | memory
  | bankCompute
  | resealing
  | retention
deriving DecidableEq, Repr

/-- Roles of a physical vault (VLT_MAP). -/
inductive VRole where
  | logical
  | reserve
  | orphan
  | borrowed
  | disabled
deriving DecidableEq, Repr

/-- A merge-buffer entry: line, and its 64 bytes, unwritten ones none (R184). -/
structure MergeEnt where
  line : Nat
  data : List (Option Byte)
  /-- held until a restore of its line completes (R330) -/
  held : Bool
  /-- its granule was unwritten when it was allocated: its unwritten bytes are zero (R189) -/
  fresh : Bool := false
deriving DecidableEq, Repr

/-- A request in the guest queue (R217). -/
inductive GuestReq where
  | hostRead (fn tag addr len : Nat)
  /-- a host read of a logical vault that waits for earlier posted writes here (R23) -/
  | hostNext (fn tag logical addr len : Nat)
  | line (addr : Nat)
  /-- a write: a posted one of a host function (R23), or one of another source -/
  | write (fn : Option Nat) (addr : Nat) (data : List Byte)
  | transfer (core flight : Nat)
  /-- a PUT or GET_RSP message -/
  | fab (m : FMsg)
deriving DecidableEq, Repr

/-- A row segment under suspicion (R322). -/
structure Suspect where
  seg : Nat
  hits : Nat
deriving DecidableEq, Repr

/-- Who issued a bank program (BANK_PROG source). -/
inductive ProgSrc where
  | order
  | kvAppend
  | attend
deriving DecidableEq, Repr

/-- A bank program queued on a vault or running (R207 to R211). -/
structure BankProg where
  core : Nat
  flight : Nat
  queue : Nat
  src : ProgSrc
  idem : Bool
  instrs : List Nat
  q : List Byte
  /-- items in ascending index: (index, bank, row, arg) -/
  items : List (Nat × Nat × Nat × Nat)
  tokens : Nat
  emitCore : Nat
  emitOff : Nat
  emitStride : Nat
  /-- started again by R222 or R225 -/
  again : Bool
  /-- KV_APPEND: what is written, by bank, row and offset in the row segment (R248) -/
  pay : List (Nat × Nat × Nat × List Byte)
deriving DecidableEq, Repr

/-- A bank unit at work on an item (R203). -/
structure BankUnit where
  bank : Nat
  item : Nat
  row : Nat
  arg : Nat
  /-- instruction that runs next -/
  pc : Nat
  w : List Nat
  a : List Word
  /-- bytes emitted so far -/
  emitted : Nat
  writes : Bool
deriving DecidableEq, Repr

/-- The running program of a vault (R213). -/
structure BankRun where
  prog : BankProg
  /-- items not started -/
  left : List (Nat × Nat × Nat × Nat)
  units : List BankUnit
  done : Nat
  /-- a step has ended and no item of the next has started (R213, R218) -/
  stepOver : Bool
  /-- stopped by the watchman in the middle of an item (R225) -/
  stopped : Bool
deriving DecidableEq, Repr

/-- A physical vault and its shell. A line is numbered by its local address ÷ 64, a row segment by its local address
÷ 2,048 (row × 128 + bank k, k = layer × 16 + bank); spare row i of bank k is row segment 2^19 + 32k + i. -/
structure Vault where
  /-- 72 stored bytes per line at key line × 72 + byte; R314; reset zero codewords DC -/
  arr : Mem := []
  /-- lines whose change flag is set; R214; reset none DC -/
  flags : List Nat := []
  /-- granules whose valid bit is set, 262,144 bits; R188; reset none (R191) -/
  valid : List Nat := []
  /-- write queue, up to 64 lines, oldest first; R183; reset empty -/
  wq : List (Nat × List Byte) := []
  /-- merge buffer, up to 64 entries, oldest first; R184; reset empty -/
  mb : List MergeEnt := []
  /-- corrected lines waiting for their rewrite; R318; reset none -/
  rewrites : List (Nat × List Byte) := []
  /-- guest queue, up to 64; R217; reset empty -/
  guests : List GuestReq := []
  /-- requests held against a discard or a materialisation; R192, R189; reset none -/
  held : List GuestReq := []
  /-- remap table: row segment ↦ spare row; R323; reset none -/
  remap : SMap Nat := []
  /-- row segments waiting to be spared; R323; reset none -/
  toSpare : List Nat := []
  /-- remap words with a double-bit error; R325; reset none -/
  remapBad : List Nat := []
  /-- the reserve vaults' copy of this vault's remap table; R325; reset none -/
  remapCopy : SMap Nat := []
  /-- suspect table, most recently hit first, up to 16; R322; reset empty -/
  suspects : List Suspect := []
  /-- 16 bits; bucket level; R320; reset 0 -/
  bucket : Nat := 0
  /-- 23 bits; next line pair of the scrubber; R321; reset 0 -/
  scrub : Nat := 0
  scrubWrapped : Bool := false
  /-- 2 bits; R187 table; reset MEMORY -/
  mode : VMode := .memory
  /-- 2 bits; R194; reset 0 -/
  band : Nat := 0
  /-- refresh commands owed per bank; R193; reset 0 -/
  debt : SMap Nat := []
  /-- a discard in progress: first granule, count; R192; reset none -/
  discard : Option (Nat × Nat) := none
  /-- granules that wait for their restore; R189, R329; reset none -/
  filling : List Nat := []
  /-- valid-bit clears of the ledger that wait for MEMORY: first granule, count; R212; reset none -/
  clears : List (Nat × Nat) := []
  /-- programs waiting, front first; R209; reset none -/
  progs : List BankProg := []
  /-- the running program; R210; reset none -/
  run : Option BankRun := none
  /-- change list: line pairs; R214; reset empty -/
  change : List Nat := []
  /-- change list lost; R223; reset 0 -/
  changeLost : Bool := false
  /-- 6 bits; the governor's token grant; BANK_STATE; reset 32 -/
  grant : Nat := 32
  /-- a pause is requested; R212; reset 0 -/
  paused : Bool := false
  /-- bank rotation pointer; R220; reset 0 DC -/
  rot : Nat := 0
  /-- the watchman holds the stack: its band; R224; reset none -/
  watchman : Option Nat := none
  /-- role, logical vault and partition; VLT_MAP; reset DISABLED, 0, none -/
  role : VRole := .disabled
  logical : Nat := 0
  part : Option Nat := none
  /-- VLT_TEMP: governing temperature (1/16 °C, 16 bits) and sensor; reset 0 -/
  temp : BitVec 16 := 0
  sensor : Nat := 0
  /-- uncorrectable lines handed to recovery and not yet restored: line, class; R326; reset none -/
  lostLines : List (Nat × Nat) := []
deriving DecidableEq, Repr

end Sys2Proof.Machine
end

