-- ==== Sys2Proof/Machine/StServe.lean ====
section
/-! DEFINITION. The state of the serving engine: partitions, streams, patterns, the ledger, the opening book. Each
field's docstring gives its width or range, the rule that names it and its reset value (DC: not given by the spec). -/

namespace Sys2Proof.Machine

/-- Partition states (R264; FORE_PART_STS codes 0 to 5). -/
inductive PState where
  | empty
  | configured
  | loaded
  | serving
  | quiesced
  | resetting
deriving DecidableEq, Repr

/-- A loaded region of a pattern (R292, R295). -/
structure Region where
  kind : Nat
  core : Nat
  queue : Nat
  entry : Bool
  orders : Nat
  start : Nat
  /-- destination: 0 STOCK or 1 VAULT_OWN, and the offset -/
  space : Nat
  off : Nat
  len : Nat
  /-- golden copy: an order address -/
  golden : Nat
  /-- SHA-256 of each 64 KiB golden page -/
  hashes : List (List Byte)
  regionHash : List Byte
deriving DecidableEq, Repr

/-- A loaded pattern (R293, R296). -/
structure Pattern where
  id : Nat
  draft : Bool
  draftEn : Bool
  draftId : Nat
  hash : List Byte
  regions : List Region
  /-- the LOAD_PATTERN record's words, saved in contexts (R450) -/
  record : List Nat
deriving DecidableEq, Repr

/-- An entry of the running step's step table (R276). -/
structure StepEntry where
  stream : Nat
  rows : Nat
  pos : Nat
  firstRow : Nat
  gambits : Nat
  /-- DECODE 0, PREFILL 1, LAST_PREFILL 2, a recompute step 3 (shown as PREFILL, R327) -/
  kind : Nat
  /-- tokens the step produced for the stream so far: token, and whether it is an accepted gambit -/
  tokens : List (Nat × Bool)
  /-- voided by R281 -/
  voided : Bool
  /-- this voiding does not count toward retry_limit (R280, R327) -/
  uncounted : Bool
  /-- an order completed with HALF_LOST_REPLAYED for it (R278) -/
  replayed : Bool
  /-- last_token and last_step before the step, for a voided step (R281) -/
  old : Nat
  oldStep : Nat
  /-- the gambits of a stream with gsrc BOOK (R284) -/
  gtoks : List Nat
deriving DecidableEq, Repr

/-- The command that waits for the running step to end (R136, R273). -/
inductive AfterStep where
  | quiesce (tag : Option Nat)
  | park (stream : Nat) (pin : Bool)
  | cancel (stream : Nat)
  | castle (core : Nat)
deriving DecidableEq, Repr

/-- A partition (R264, R448, R449). -/
structure Part where
  /-- partition state; R264; reset EMPTY -/
  st : PState := .empty
  /-- its logical cores, ascending; R448; reset none -/
  cores : List Nat := []
  /-- far windows: base and length in bytes for ports 0 to 3; R448; reset none -/
  far : List (Nat × Nat) := [(0, 0), (0, 0), (0, 0), (0, 0)]
  /-- host window: base and length in bytes; R448; reset none -/
  host : Nat × Nat := (0, 0)
  /-- loaded patterns, ascending id; R296; reset none -/
  patterns : List Pattern := []
  /-- ids of the loaded patterns, in load order (R493); reset none -/
  loads : List Nat := []
  /-- the pattern whose turn was last (R296); reset none -/
  lastPattern : Option Nat := none
  /-- 64 bits; step count; R274; reset 0 -/
  steps : Nat := 0
  /-- a step is running; R278; reset no -/
  running : Bool := false
  /-- the step's pattern, and whether it is a draft sub-step (R284) -/
  stepPattern : Nat := 0
  draftPhase : Bool := false
  /-- draft sub-steps of the step, and those still due before the main step (R284) -/
  drafts : Nat := 0
  draftsLeft : Nat := 0
  /-- the running step is abandoned, and the cores are to return to their step marks (R421, R458, R465); reset no -/
  rolledBack : Bool := false
  /-- the running step's set; R275; reset empty -/
  set : List StepEntry := []
  /-- set apart for after the running step; R273; reset none -/
  after : List AfterStep := []
  /-- NONREPRODUCIBLE and ROUTE_DEPENDENT; R311, R288; reset 0 -/
  nonrepro : Bool := false
  routeDep : Bool := false
  /-- request ring head and tail, token ring tail and head, modulo 2^(n+1); R257, R260; reset 0 -/
  reqHead : Nat := 0
  reqTail : Nat := 0
  tokTail : Nat := 0
  tokHead : Nat := 0
  /-- device times at which the unacknowledged records were written, oldest first; R262; reset none -/
  tokTimes : List Nat := []
  /-- device time of the last token interrupt, from which the delay counts again; R262; reset none -/
  msixAt : Option Nat := none
  /-- the ring head is held: a SUBMIT record waits (R259); reset no -/
  admitHeld : Bool := false
  /-- a KV_APPEND of the step found no room: streams parked first (R280); reset none -/
  parkFirst : List Nat := []
  /-- stream ↦ lowest position that ran in SELECT (R328); the device's bookkeeping, reset none -/
  selFrom : SMap Nat := []
  /-- demotion found no far room in this step (R280); reset no -/
  farFull : Bool := false
  /-- barrier joins waiting: (scope, barrier_id) with the joined (core, flight) (R156); reset none -/
  joins : List (Nat × Nat × List (Nat × Nat)) := []
  /-- the step in which FORE_ADMIT_HELD was last counted (R259); reset none -/
  heldAt : Option Nat := none
  /-- streams whose pages are being fetched back (R279); reset none -/
  unpark : List Nat := []
deriving DecidableEq, Repr

/-- Stream states (R272, codes 0 to 6). -/
inductive SState where
  | free
  | admitted
  | prefill
  | decode
  | parked
  | draining
  | done
deriving DecidableEq, Repr

/-- A stream-roll entry (the 256 B entry of Streams). Every field's reset value is 0 DC. -/
structure Stream where
  st : SState := .free
  /-- 4 bits; Word 0 [6:3] -/
  gen : Nat := 0
  part : Nat := 0
  pinned : Bool := false
  inStep : Bool := false
  rebuilt : Bool := false
  cls : Nat := 0
  tag : Nat := 0
  pattern : Nat := 0
  nPrompt : Nat := 0
  pos : Nat := 0
  emitted : Nat := 0
  maxNew : Nat := 0
  hist : Nat := 0
  seed : DWord := 0
  rng : Word := 0
  temp : Word := 0
  topP : Word := 0
  minP : Word := 0
  /-- request Word 12 -/
  opts : Nat := 0
  stop : Nat := 0
  ttft : Nat := 0
  tbt : Nat := 0
  lastStep : Nat := 0
  deadline : DWord := 0
  voided : Nat := 0
  lastTok : Nat := 0
  bookM : Nat := 0
  epoch : Word := 0
  offered : Nat := 0
  accepted : Nat := 0
  /-- Words 32 to 47, pattern-private -/
  priv : SMap Word := []
  /-- admitted with max_new above 0 (R270): what the turn's end does -/
  admittedMax : Bool := false
  /-- a clamp at admission, reported by the first token record (R258) -/
  clampNote : Bool := false
  /-- capacity of the history buffer in tokens (R271) -/
  cap : Nat := 0
  /-- PARKED: the stream was in DECODE -/
  wasDecode : Bool := false
  /-- a first record of the turn has been written, which carries the clamp note (R258) -/
  noted : Bool := false
  /-- end code and status of the end record still to be written, when DRAINING -/
  endCode : Nat := 0
  endStatus : Nat := 0
  endDone : Bool := false
  /-- token-ring index of the end record (R260) -/
  endAt : Nat := 0
  /-- an adopted stream (R475): positions whose pages are to be rebuilt, and those rebuilt so far -/
  rebuildTo : Nat := 0
  rebuildAt : Nat := 0
  /-- an adopted stream: the mirrored stream was in DECODE -/
  wasRunning : Bool := false
deriving DecidableEq, Repr

/-- Ledger entry states (R241, codes 0 to 5). -/
inductive LState where
  | free
  | near
  | far
  | moving
  | alias_
  | recompute
deriving DecidableEq, Repr

/-- A ledger entry (R241). Every field's reset value is 0 DC. -/
structure LEntry where
  st : LState := .free
  refs : Nat := 0
  held : Bool := false
  z : Nat := 0
  fill : Nat := 0
  page : Nat := 0
  slot : Nat := 0
  gen : Nat := 0
  stream : Nat := 0
  epoch : Nat := 0
  /-- Word 3: logical vault and frame, far port and frame, or target id -/
  vault : Nat := 0
  frame : Nat := 0
  /-- where a MOVING page goes: 0 near, 1 far; and its destination -/
  toFar : Bool := false
  toVault : Nat := 0
  toFrame : Nat := 0
  /-- RECOMPUTE: tokens of the page already rewritten (R327) -/
  rebuilt : Nat := 0
  /-- logical vault of the page's team core (R228), where a far page is fetched back to -/
  home : Nat := 0
  /-- T of the page's slot, as the appending order gave it (R229) -/
  geo : Nat := 0
  /-- the page's epoch of the last ATTEND-family order at refs 0 (R243): orders that must complete first -/
  waits : List (Nat × Nat) := []
deriving DecidableEq, Repr

/-- An opening-book node (R249). Every field's reset value is 0 DC. -/
structure BookNode where
  live : Bool := false
  h : DWord := 0
  check : Word := 0
  parent : Nat := 0
  child : Nat := 0
  gen : Nat := 0
  stream : Nat := 0
  j : Nat := 0
  lastUse : Nat := 0
  hint : List Nat := []
deriving DecidableEq, Repr

end Sys2Proof.Machine
end

