-- ==== Sys2Proof/Machine/StFab.lean ====
section
/-! DEFINITION. The state of the mesh, the die-to-die link, the Mioquin fabric, the host link and the far ports. Each
field's docstring gives its width or range, the rule that names it and its reset value (DC: not given by the spec). -/

namespace Sys2Proof.Machine

/-- A frame held for replay: its bytes as a 5,120-bit number and its sequence (R353, R356). -/
structure FFrame where
  seq : Nat
  lane : Nat
  bits : Nat
deriving DecidableEq, Repr

/-- States of a Mioquin port (FAB_Pn_STATE codes 0 to 6). -/
inductive PortSt where
  | down
  | laserWait
  | ringLock
  | align
  | up
  | upHalf
  | failed
deriving DecidableEq, Repr

/-- A Mioquin port (R349 to R356). -/
structure FPort where
  /-- R351; reset DOWN -/
  st : PortSt := .down
  /-- 16 bits, wavelength w good; reset 0 -/
  lanes : BitVec 16 := 0
  /-- 16 bits, failed wavelengths (R352); reset 0 -/
  failed : BitVec 16 := 0
  /-- cold (R350); reset 0 -/
  cold : Bool := false
  /-- from ALIGN; reset 0 -/
  peerPort : Nat := 0
  peerDev : Nat := 0
  peerGuild : Nat := 0
  /-- miscabled: held DOWN (R351, R447); reset no -/
  miscabled : Bool := false
  /-- consecutive trainings failed (R351); reset 0 -/
  fails : Nat := 0
  /-- next sequence to send, next expected, last acknowledged, 12 bits each (R356); reset 0 DC -/
  txSeq : Nat := 0
  rxSeq : Nat := 0
  acked : Nat := 0
  /-- frames in the replay buffer, up to 1,024, oldest first (R356); reset empty -/
  replay : List FFrame := []
  /-- credits held for the 8 VC lanes of the peer (R355); reset 64 each -/
  credits : List Nat := [64, 64, 64, 64, 64, 64, 64, 64]
  /-- credits to return for each VC lane (R354); reset 0 -/
  owed : List Nat := [0, 0, 0, 0, 0, 0, 0, 0]
  /-- a NAK is to be sent (R356) -/
  nakDue : Bool := false
  /-- NAKs in this 1 ms, and decode failures in a row (R351); reset 0 -/
  naks : Nat := 0
  bad : Nat := 0
  /-- corrected symbols in this 1 ms per wavelength (R352); reset 0 -/
  symErr : SMap Nat := []
  /-- die temperature and largest heater lift, 16 bits, 1/16 °C; reset 0 -/
  die : BitVec 16 := 0
  lift : BitVec 16 := 0
  /-- the ring temperature saved at the last lock, 1/16 °C (R350); reset none -/
  saved : Option Int := none
deriving DecidableEq, Repr

/-- Kinds of open transfer at an initiator (R364 to R366, R362). -/
inductive XKind where
  | put
  | get
  | msg
  | mirror
deriving DecidableEq, Repr

/-- An open transfer at this device as initiator (R360, R364). -/
structure XferOut where
  id : Nat
  kind : XKind
  guild : Nat
  dev : Nat
  core : Nat
  flight : Nat
  /-- its messages, for a resend -/
  msgs : List FMsg
  resends : Nat
  /-- GET: destination space, core, offset and bytes; message indices that have arrived -/
  dst : Nat
  bytes : Nat
  got : List Nat
  /-- the last sending was answered with fenced (R463) -/
  fenced : Bool
deriving DecidableEq, Repr

/-- An open transfer at this device as target (R360, R365). -/
structure XferIn where
  guild : Nat
  dev : Nat
  id : Nat
  /-- message indices received, and how many of them have been made visible -/
  got : List Nat
  seen : Nat
  total : Nat
  acked : Bool
deriving DecidableEq, Repr

/-- An order tag at the target: transfers acknowledged so far (R365). -/
structure TagIn where
  guild : Nat
  dev : Nat
  tag : Nat
  acked : List Nat
  total : Nat
deriving DecidableEq, Repr

/-- A guild or market barrier in progress at this device (R369, R370). -/
structure BarSt where
  id : Nat
  /-- GUILD 1, MARKET 2 -/
  scope : Nat
  /-- devices that have joined below, and guilds below as 64 + guild -/
  children : List Nat
  /-- this device has joined -/
  self : Bool
  /-- this device has passed the barrier on, up its tree -/
  passed : Bool
  /-- the joining orders: core and flight -/
  waiting : List (Nat × Nat)
  /-- the largest guild epoch gathered so far (R370) -/
  top : Nat
deriving DecidableEq, Repr

/-- A collective in progress at this device (R367, R368). -/
structure CollSt where
  id : Nat
  /-- PARTITION 0, GUILD 1 -/
  scope : Nat
  op : Nat
  fn : Nat
  len : Nat
  fmt : Nat
  root : Nat
  /-- participants: logical cores or device indices, ascending -/
  members : List Nat
  /-- PARTITION: the partition -/
  part : Nat
  /-- joined orders: core, flight, src_addr, dst_addr -/
  joined : List (Nat × Nat × Nat × Nat)
  /-- PARTITION: a participant differs; every one is refused -/
  bad : Bool
  /-- GUILD: this device's contribution -/
  own : List Byte
  /-- GUILD: chunks of partial sums that this device has passed on -/
  sent : List Nat
  /-- GUILD: chunks that have come for this device's destination, as contributor × 2^16 + chunk -/
  came : List Nat
  /-- GUILD: what stands ready for the destination, by stockroom address, until all of it has come: a collective that is
  refused writes no dst (R367) -/
  held : List (Nat × List Byte) := []
deriving DecidableEq, Repr

/-- The fabric state of the device (R357 to R374). -/
structure Fabric where
  /-- 8 ports; R349 -/
  ports : List FPort := List.replicate 8 {}
  /-- R363, FAB_GUILD; reset not a member, 0, 0, 0 -/
  isMember : Bool := false
  device : Nat := 0
  guild : Nat := 0
  master : Nat := 0
  /-- 32 bits; FAB_TERM; reset 0 -/
  term : Nat := 0
  /-- 64 bits; FAB_EPOCH; reset 0 -/
  epoch : Nat := 0
  /-- members and their fused serials (R363); reset none -/
  members : SMap Nat := []
  /-- port-up bits and sequence of each guild device (R359); reset none -/
  links : SMap (Nat × Nat) := []
  /-- this device's LINK_STATE sequence (R359); reset 0 DC -/
  linkSeq : Nat := 0
  /-- route table: device ↦ first port, and an intermediate device if one is used (R359); reset dimension order -/
  routes : SMap (Option Nat × Option Nat) := []
  /-- configured market chart: number of guilds, and whether this device holds a chart (R361, R362); reset none -/
  market : Option Nat := none
  /-- market tree links of this guild: (peer guild, device, port) (R361); reset none -/
  marketLinks : List (Nat × Nat × Nat) := []
  /-- open transfers as initiator and as target; order tags; R360, R364; reset none -/
  outs : List XferOut := []
  ins : List XferIn := []
  tags : List TagIn := []
  /-- next transfer id (12 bits) and order tag (12 bits); reset 0 DC -/
  nextXfer : Nat := 0
  nextTag : Nat := 0
  /-- barriers and collectives open; R369, R367; reset none -/
  bars : List BarSt := []
  colls : List CollSt := []
  /-- chunks of a guild collective that arrive before this device joins it; R367; reset none -/
  early : List FMsg := []
  /-- 16 bits; last snapshot number; FAB_SNAP; reset 0 -/
  snapNum : Nat := 0
  /-- snap tag; R372; reset 0 DC -/
  snapTag : Bool := false
  /-- snap tag last seen from each device, by guild × 64 + device; R372; the device's bookkeeping, reset none -/
  seenTags : SMap Bool := []
  /-- messages waiting for a route (R359) or a credit (R355): message, virtual channel, the port it came in by, whether on a HIGH
  lane; reset none -/
  waiting : List (FMsg × Nat × Option Nat × Bool) := []
  /-- JOIN_GUILD in progress: admin tag, own nonce, state; R498; reset none -/
  joining : Option (Nat × List Byte) := none
  /-- the guild goes on without this device, which has left it: it has formed (R498); the device's bookkeeping, reset no -/
  formed : Bool := false
  /-- as guildmaster: joiners challenged, device ↦ (serial, joiner nonce, own nonce); R498; reset none -/
  challenged : SMap (Nat × List Byte × List Byte) := []
deriving DecidableEq, Repr

/-- The snapshot in progress (R372, R373). -/
structure Snap where
  number : Nat
  part : Nat
  /-- destination order address -/
  dest : Nat
  /-- granules not copied yet: vault × 2^18 + granule -/
  uncopied : List Nat
  /-- the image's header -/
  head : List Byte
  /-- next free byte of the destination image -/
  fill : Nat
  /-- where each copied granule stands in the image, by vault × 2^18 + granule -/
  placed : SMap Nat
deriving DecidableEq, Repr

/-- States of a die-to-die module (D2D_MOD codes). -/
inductive ModSt where
  | up
  | disabled
  | training
  | failed
deriving DecidableEq, Repr

/-- A die-to-die module (R343 to R346), with both directions' sequences. -/
structure D2dMod where
  /-- R346; reset UP -/
  st : ModSt := .up
  /-- expected and next sent sequence, 10 bits, per receiving half; R344; reset 0 DC -/
  rx : List Nat := [0, 0]
  tx : List Nat := [0, 0]
  /-- replay buffers per sending half: flits not yet acknowledged (sequence, flow-table entry, the data of its up to three mesh
  flits); the first 64 have been sent; R344; reset empty -/
  replay : List (List (Nat × Nat × List (List Byte))) := [[], []]
  /-- a NAK is outstanding, per receiving half; R344 -/
  nak : List Bool := [false, false]
  /-- retries in this 1 ms; R346; reset 0 -/
  retries : Nat := 0
  /-- consecutive failed trainings; R346; reset 0 -/
  fails : Nat := 0
  /-- device time when disabled; R346; reset 0 -/
  since : Nat := 0
deriving DecidableEq, Repr

/-- The routers of a half, and the packets that they hold (R337 to R340). Router inputs: 0 the tile's network interface, 1 and 2
the neighbours along the rank below and above in file, 3 and 4 those along the file below and above in rank. -/
structure MeshHalf where
  /-- packets held for a fenced half, oldest first: (source router, destination router, payload); R348 -/
  packets : List (Nat × Nat × List Byte) := []
  /-- consecutive replays of each link, by source router × 144 + destination router; R340; reset 0 -/
  replays : SMap Nat := []
  /-- router fault and its site; MESH_STATE; reset 0 -/
  fault : Bool := false
  site : Nat := 0
  /-- class buffers of up to 4 flits, oldest first, by router, input and class; R339; reset empty -/
  bufs : SMap (List MFlit) := []
  /-- round-robin pointer over inputs and classes, by router and output; R339; reset 0 DC -/
  turn : SMap Nat := []
  /-- the input whose packet an output carries until its tail flit, plus 1, by router, output and class; reset none -/
  hold : SMap Nat := []
  /-- the flow table of the half as sender, entry ↦ module; R345; reset entry mod 16 DC -/
  flows : SMap Nat := []
deriving DecidableEq, Repr

/-- The host link (R376 to R387). -/
structure HostLink where
  /-- PERST# asserted; R384; reset asserted DC -/
  perst : Bool := true
  /-- link trained: width 0 to 16, rate code 0 to 5, flit mode; HOST_STATE; reset 0 -/
  width : Nat := 0
  rate : Nat := 0
  flit : Bool := false
  /-- host spur trained; R16; reset no DC -/
  spur : Bool := false
  /-- Bus Master Enable of PF0, PF1 and VF 1 to 64, by function number 0, 1, 1 + k; R381; reset 0 -/
  bme : List Nat := []
  /-- posted writes buffered for a half that is fenced or out of reach, oldest first: (logical vault, or 1000 for a register page, address,
  bytes, snap tag at acceptance, function); R16, R387; reset none -/
  posted : List (Nat × Nat × List Byte × Bool × Nat) := []
  /-- reads held for a half that is fenced or out of reach, or behind the function's buffered writes: (function, tag, logical vault, or 1000
  for a register page, address, length, time of arrival, µs); R16, R23, R387; reset none -/
  reads : List (Nat × Nat × Nat × Nat × Nat × Nat) := []
  /-- doorbell writes that the foreman has not observed, because earlier posted writes of their function still wait: (function, partition, 0
  request tail or 1 token head, value), oldest first; R23; reset none -/
  bells : List (Nat × Nat × Nat × Nat) := []
  /-- outbound reads without a completion that were issued again: tag; R383; reset none -/
  retried : List Nat := []
  /-- host memory, the environment's; reset 0 DC -/
  mem : Mem := []
deriving DecidableEq, Repr

/-- States of a far port (FAR_Pn_STATE codes 0 to 5). -/
inductive FarSt where
  | down
  | training
  | up
  | upDegraded
  | failed
  | absent
deriving DecidableEq, Repr

/-- A far port and the memory device behind it (R388 to R392). -/
structure FarPort where
  /-- R388; reset ABSENT -/
  st : FarSt := .absent
  /-- lanes and 256 B flit mode; reset 0 -/
  width : Nat := 0
  flit256 : Bool := false
  /-- decoded capacity, units of 256 MiB; FAR_Pn_CAP; reset 0 -/
  cap : Nat := 0
  /-- far memory bytes, the device's; reset 0 DC -/
  mem : Mem := []
  /-- 64 B lines that return poison; R391; reset none -/
  poison : List Nat := []
deriving DecidableEq, Repr

end Sys2Proof.Machine
end

