-- ==== Sys2Proof/Machine/StDev.lean ====
section
/-! DEFINITION. The state of the hub: device states and bring-up, floor plan, power governor, thermal system, castling,
half loss, mirroring, security, SPDM, mailboxes, error log, and what leaves the device. Each field's docstring gives its
width or range, the rule that names it and its reset value (DC: not given by the spec, assumption 1). -/

namespace Sys2Proof.Machine

/-- Device states (R512). -/
inductive DevState where
  | off
  | aon
  | boot
  | training
  | check
  | ready
  | degraded
  | adjourned
  | halted
deriving DecidableEq, Repr

/-- What asked for a device reset (R431): the steward watchdog and a fabric RESET leave a trace of their own. -/
inductive ResetKind where
  | plain
  | watchdog
  | fabric
deriving DecidableEq, Repr

/-- The power governor (R396 to R408, R415). Powers in units of 5 mW where the docstring says so. -/
structure Power where
  /-- P_T, units of 5 mW; R397; reset 0 -/
  target : Nat := 0
  /-- last 10 µs estimate and last 1 ms average, W; PWR_NOW; reset 0 -/
  est : Nat := 0
  avg : Nat := 0
  /-- averages of the last 1,000 rounds, W, newest first (A_1s of R418); reset none -/
  avgs : List Nat := []
  /-- θ, 0 to 63; R400; reset 0 -/
  theta : Nat := 0
  /-- treadle floor and ceiling, percent; R401; reset 0 and 100 -/
  tf : Nat := 0
  tc : Nat := 100
  /-- GRID_SHED_N asserted; R404; reset no -/
  pinShed : Bool := false
  /-- message shed level in force, W, 0 none; R405; reset 0 -/
  msgShed : Nat := 0
  /-- last SHED sequence accepted and last sent, 16 bits; R405; reset 0 -/
  shedRx : Nat := 0
  shedTx : Nat := 0
  /-- SHED active at the last tick; R406; reset no -/
  shedding : Bool := false
  /-- L of the last tick, W; PWR_STATE limit; reset 2,400 -/
  limit : Nat := 2400
  /-- the limiter shown: 0 NONE to 7 FALL; PWR_STATE; reset 0 -/
  limiter : Nat := 0
  /-- flat_active and floor_short of the last tick; R407, R402; reset 0 -/
  flatActive : Bool := false
  floorShort : Bool := false
  /-- running average A, units of 5 mW; R407; reset 0 DC -/
  flatAvg : Nat := 0
  /-- a millisecond holds a floor shortfall, or an estimate above L + 400 W; R402, R398; reset no -/
  msShort : Bool := false
  msOver : Bool := false
  /-- energy below one mJ carried over, µJ; R408; reset 0 DC -/
  fracUj : Nat := 0
  /-- treadle_max, W; PWR_INFO; reset 0 -/
  treadleMax : Nat := 0
  /-- slews halved, and rounds since the rate was last above 5 °C/s; R399; reset no -/
  halved : Bool := false
  slowRounds : Nat := 0
  /-- lrot per partition (0 to 63), and its step starts since it last advanced; R415; reset 0 DC -/
  lrot : SMap Nat := []
  rotSteps : SMap Nat := []
deriving DecidableEq, Repr

/-- What a half's sealed move holds (R422). -/
structure Sealed where
  cores : SMap Core
  valids : SMap (List Nat)
  suspects : SMap (List Suspect)
  buckets : SMap Nat
  alm : SMap Word
deriving DecidableEq, Repr

/-- The thermal system (R409 to R429). Temperatures are integers in units of 1/16 °C. -/
structure Thermal where
  /-- readings of the last 257 rounds, newest first, each 352 readings by device sensor number; R410; reset none -/
  hist : List (List Int) := []
  /-- sensor status GOOD 0, SUSPECT 1, BROKEN 2, by device number; R411; reset GOOD -/
  status : SMap Nat := []
  /-- rounds in a row a pair has differed by more than 6 °C, and within 2 °C; R411; reset 0 -/
  apart : SMap Nat := []
  near : SMap Nat := []
  /-- φ by physical site, 0 to 48; R413; reset 0 -/
  phi : SMap Nat := []
  /-- a reading stands at its warning threshold, hysteresis applied; R414; reset no -/
  warn : Bool := false
  /-- predictive limit, W, while PREDICT is active; R418; reset none -/
  predict : Option Nat := none
  /-- rounds for which every T_p has been low enough to release PREDICT; R418; reset 0 -/
  predictLow : Nat := 0
  /-- highest T_p and highest 32-round column rate (1/16 °C/s); THM_RATE; reset 0 -/
  projected : Int := 0
  rate : Int := 0
  /-- COOLANT_FAULT_N asserted; R419; reset no -/
  coolant : Bool := false
  /-- half_cap_a, half_cap_b; R412; reset no -/
  capA : Bool := false
  capB : Bool := false
  /-- adjournment phase: 0 none, 1, 2, 3, 4 resuming; R421 to R425; reset 0 -/
  phase : Nat := 0
  /-- device time of the trigger; R422; reset 0 -/
  since : Nat := 0
  /-- device time from which resume_hold counts; R425; reset 0 -/
  holdFrom : Nat := 0
  /-- sealed moves of halves A and B, and their validity; R422; reset none -/
  sealA : Option Sealed := none
  sealB : Option Sealed := none
  sealedOk : Bool := false
  /-- duration of the last sealed move, µs, 24 bits; THM_SEAL; reset 0 -/
  sealUs : Nat := 0
  /-- bring-up halted by a coolant fault; R419; reset no -/
  bringupHeld : Bool := false
  /-- an armed trip: HALTED through R426 or R427; THERM_TRIP_N; reset no -/
  trip : Bool := false
  /-- a device reset is held until readings fall, and what asked for it; R428; reset no -/
  resetHeld : Bool := false
  heldAs : ResetKind := .plain
deriving DecidableEq, Repr

/-- A site of the floor plan (R439, R443, FUSE_SITE). -/
structure Site where
  fuseLogicBad : Bool := false
  fuseVaultBad : Bool := false
  testLogicFail : Bool := false
  testVaultFail : Bool := false
  fieldFused : Bool := false
  /-- G 0, L 1, V 2, X 3 -/
  cls : Nat := 0
  /-- ACTIVE 0, CASTLING 1, SPARE 2, DISABLED 3 -/
  core : Nat := 3
  valid : Bool := false
  logical : Nat := 0
  /-- 0x1FF if none -/
  partner : Nat := 511
deriving DecidableEq, Repr

/-- A copy of the configuration image (R331, R435, R441, R446, R497). Its layout is not given by the spec: the records
the device itself writes are named fields, and what the provisioner writes is `bytes` (assumption 12). -/
structure Cfg where
  /-- the copy's CRC-32 passes; reset no DC -/
  intact : Bool := false
  /-- epoch; reset 0 DC -/
  epoch : Nat := 0
  /-- the image's bytes, 4 MiB; reset 0 DC -/
  bytes : Mem := []
  /-- saved seeds: serial and firmware format; reset none DC -/
  seeds : Option (Nat × Nat) := none
  /-- test history: failed units, kind × 512 + unit; reset none DC -/
  history : List Nat := []
  /-- owner record and guild-key record: masked key, tag; reset none DC -/
  owner : Option (List Byte × List Byte) := none
  guild : Option (List Byte × List Byte) := none
  /-- remap tables by vault; R325; reset none DC -/
  remaps : SMap (SMap Nat) := []
deriving DecidableEq, Repr

/-- An SPI NOR device (R482). -/
structure Nor where
  /-- firmware image, 8 MiB; reset 0 DC -/
  image : Mem := []
  cfg : Cfg := {}
  /-- certificate area: vendor root, intermediate, device certificate; R491; reset empty DC -/
  certs : List (List Byte) := []
  /-- the device certificate's public key, as it stands in the certificate; reset empty DC -/
  certKey : List Byte := []
deriving DecidableEq, Repr

/-- Bring-up (R430 to R447). -/
structure Boot where
  /-- R512; reset BOOT -/
  state : DevState := .boot
  /-- R512: the state left, in ADJOURNED or HALTED; reset BOOT, shown as 0 -/
  prior : DevState := .off
  /-- AON supply good, hub supplies good; R430; reset good -/
  aonGood : Bool := true
  hubGood : Bool := true
  /-- three fuse-map copies of 352 B; R436; reset 0 DC -/
  fuses : List (List Byte) := [[], [], []]
  /-- the resolved factory region (none: lost) and field slots; R437; reset none -/
  factory : Option (List Byte) := none
  slots : List (Option Nat) := []
  /-- serial of R437, lanes 128 or 96, stepping and ROM version; R511; reset all ones, 96, 1, 0 DC -/
  serial : Nat := 0xFFFFFFFFFFFFFFFF
  lanes : Nat := 96
  stepping : Nat := 1
  romVer : Nat := 0
  /-- the identity page is loaded; R511; reset no -/
  idLoaded : Bool := false
  fwVer : Nat := 0
  /-- n of R443 for halves A and B; STW_CORES; reset 0 -/
  coresA : Nat := 0
  coresB : Nat := 0
  /-- interface outcomes: interface number ↦ 1 failed from its seed, 2 passed, 3 failed; R434; reset none -/
  trained : SMap Nat := []
  seedsValid : Bool := false
  /-- FUSE_REASON, 10 bits; R445; reset 0 -/
  reason : BitVec 10 := 0
  driftA : Bool := false
  driftB : Bool := false
  fuseLost : Bool := false
  /-- sites by physical number; R443; reset DISABLED -/
  sites : SMap Site := []
  /-- logical core ↦ site; R443; reset none -/
  coreSite : SMap Nat := []
  /-- units: d2d, far and optical failed tests and fuse marks (bitmaps); FUSE_UNITS; reset 0 -/
  d2dTest : Nat := 0
  d2dFused : Nat := 0
  farTest : Nat := 0
  farFused : Nat := 0
  optTest : Nat := 0
  optFused : Nat := 0
  /-- topology: ports missing, miscabled, named, agreed (bitmaps); FUSE_TOPO; reset 0 -/
  missing : Nat := 0
  miscabled : Nat := 0
  named : Nat := 0
  agreed : Nat := 0
  /-- the guild chart: own guild and index, expected peers (guild, device, port) by port,
  far ports expected (bitmap); R446; reset none -/
  chartGuild : Nat := 0
  chartDevice : Nat := 0
  chart : SMap (Nat × Nat × Nat) := []
  farExpected : Nat := 0
  /-- durations of the last bring-up, ms, and entry time of the present state, µs; FUSE_PHASE; reset 0 -/
  aonMs : Nat := 0
  bootMs : Nat := 0
  trainingMs : Nat := 0
  checkMs : Nat := 0
  entered : Nat := 0
  /-- steps 1 to 5 of CHECK are done; R438; reset no -/
  tested : Bool := false
  /-- the topology check is over and the device has been declared; R447; reset no -/
  declared : Bool := false
  /-- mesh routers that failed their test: half A, half B; R340; reset no -/
  routerA : Bool := false
  routerB : Bool := false
  /-- a device reset has been requested; R432; reset no -/
  resetRequested : Bool := false
  /-- rails on: core A, core B, mesh A, mesh B, stack A, stack B; R523; reset on -/
  rails : List Bool := [true, true, true, true, true, true]
deriving DecidableEq, Repr

/-- A castling trigger (R455). -/
structure CastReq where
  logical : Nat
  cause : Nat
  abrupt : Bool
  vault : Bool
deriving DecidableEq, Repr

/-- A castling that runs in a half (R456 to R461). -/
structure CastRun where
  req : CastReq
  /-- SPARE 0, LEND 1, BORROW 2, NONE 3 -/
  kind : Nat
  fromSite : Nat
  toSite : Nat
  /-- state copied to the destination; the switch is next -/
  copied : Bool
  /-- the switch is done; only the migration remains -/
  switched : Bool
deriving DecidableEq, Repr

/-- A migration of a logical vault (R460): the old and new physical vaults, the granules not yet migrated, the role the
old vault takes. -/
structure Migrate where
  logical : Nat
  old : Nat
  new : Nat
  left : List Nat
  roleAfter : VRole
  /-- where the destination of an earlier castling of the core has failed: the earlier vaults, the granules that still lie in
  each, and the role it takes (R480) -/
  srcs : List (Nat × List Nat × VRole)
  /-- the old shell stopped answering (R461) -/
  oldLost : Bool
deriving DecidableEq, Repr

/-- The fence of a lost half (R465 to R468). -/
structure Fence where
  /-- A 0, B 1 -/
  half : Nat
  since : Nat
  /-- rejoin stages done: 0 to 6 (R467) -/
  stage : Nat
  escalated : Bool
  /-- the half's SRAM was lost -/
  sramLost : Bool
  /-- partitions with a core in the lost half whose step was abandoned -/
  parts : List Nat
  /-- held fabric messages, oldest first, up to 8 MiB -/
  msgs : List FMsg
  /-- orders that wait for the lost half: (core, flight) -/
  orders : List (Nat × Nat)
deriving DecidableEq, Repr

/-- A restart of the partition's step that the device still owes (R458, R465). -/
structure Absorb where
  /-- the fence; R465; reset none -/
  fence : Option Fence := none
  /-- duration of the current or last fence, µs, 20 bits; STW_ABS_STATE; reset 0 -/
  fenceUs : Nat := 0
  lastHalf : Nat := 0
  /-- the castling of each half, and the triggers that wait; R455; reset none -/
  castA : Option CastRun := none
  castB : Option CastRun := none
  castWait : List CastReq := []
  /-- STW_CAST as last shown; reset 0 -/
  castShown : Nat := 0
  /-- migrations running; R460; reset none -/
  migs : List Migrate := []
  /-- partitions held until a castling or a rejoin; R457, R458; reset none -/
  heldParts : List Nat := []
  /-- step-mark copies of each core in the other half; R459; reset none -/
  marks : SMap StepMark := []
  /-- tile correction events of each core within the running second, and their second; R455; reset 0 -/
  tileCe : SMap Nat := []
  tileCeAt : Nat := 0
  /-- LINE_UE times of each logical vault, µs, within the last hour; R455; reset none -/
  ueTimes : SMap (List Nat) := []
  /-- mirror source: streams refused by the buddy until DONE; R473; reset none -/
  mirrorOff : List Nat := []
  /-- token records waiting for a stream's mirrors: (partition, stream, records); R471; reset none -/
  heldRecs : List (Nat × Nat × List (List Byte)) := []
  /-- adopter: history pages in use, by partition (R472); reset none -/
  mirPages : SMap (List Nat) := []
  /-- adopter: sources with a live record, by partition (R472); reset none -/
  mirLive : SMap (List Nat) := []
  /-- adopter: adopted sources (device, partition); R475; reset none -/
  adopted : List (Nat × Nat) := []
  /-- records waiting for a stream: (partition, source stream, device, deadline µs); R475; reset none -/
  adoptWait : List (Nat × Nat × Nat × Nat) := []
deriving DecidableEq, Repr

/-- A transport's SPDM responder state (R492). Transports: DOE 0, MCTP 1. -/
structure Spdm where
  /-- GET_VERSION, GET_CAPABILITIES and NEGOTIATE_ALGORITHMS answered so far: 0 to 3; reset 0 DC -/
  stage : Nat := 0
  /-- SLH-DSA-SHA2-128f selected; reset no DC -/
  algSel : Bool := false
  /-- SEC_SPDM_ALG as it stood at the last NEGOTIATE_ALGORITHMS; R539; reset 0 DC -/
  alg : Nat := 0
  /-- the requester's DataTransferSize; reset 0 DC: none stated -/
  peerSize : Nat := 0
  /-- a large request's chunks so far: handle, next sequence, bytes; reset none DC -/
  chunkIn : Option (Nat × Nat × List Byte) := none
  /-- a large response: handle, next sequence, bytes not yet sent; reset none DC -/
  chunkOut : Option (Nat × Nat × List Byte) := none
  handle : Nat := 0
  /-- message transcripts that signatures cover: version, capabilities and algorithms; certificates; measurements; reset empty DC -/
  vca : List Byte := []
  msgB : List Byte := []
  msgL : List Byte := []
deriving DecidableEq, Repr

/-- A management-session slot (R494 to R496). -/
structure Session where
  opened : Bool := false
  /-- device time of its last admin command or SEC_ write, µs; reset 0 DC -/
  last : Nat := 0
deriving DecidableEq, Repr

/-- The SECURE block (R482 to R500). -/
structure Secure where
  norA : Nor := {}
  norB : Nor := {}
  /-- key hash slots 0 and 1, three copies of 32 B each; R484; reset empty DC -/
  keys : List (List (List Byte)) := [[[], [], []], [[], [], []]]
  revoked0 : Bool := false
  /-- anti-rollback counters FIRMWARE, IDENTITY, OWNER, GUILD: three copies of 64 fuse bits each; R487; reset 0 DC -/
  svn : List (List (BitVec 64)) := [[0, 0, 0], [0, 0, 0], [0, 0, 0], [0, 0, 0]]
  /-- the fused device seed, 32 B; R489; reset 0 DC -/
  seed : List Byte := []
  /-- boot_image A 0, B 1, NONE 2; SEC_STATE; reset 0 -/
  image : Nat := 0
  /-- SEC_BOOT: reasons and svn of each image; reset 0 -/
  reasonA : Nat := 0
  reasonB : Nat := 0
  svnA : Nat := 0
  svnB : Nat := 0
  /-- M of the running image, 96 B; R483; reset none -/
  runM : List Byte := []
  /-- svn of the running image; reset 0 -/
  runSvn : Nat := 0
  /-- the mask ROM's bytes' digest input is fixed; R493; reset empty DC -/
  rom : List Byte := []
  aliasReady : Bool := false
  /-- the configuration image as resolved at BOOT; R493; reset none DC -/
  cfgRun : Cfg := {}
  /-- the alias certificate; R491; reset none -/
  aliasCert : List Byte := []
  /-- the identity counter from which the identity key was derived; R490; reset 0 -/
  idCounter : Nat := 0
  /-- resolved owner key and guild key; R497; reset none -/
  owner : Option (List Byte) := none
  guildKey : Option (List Byte) := none
  /-- sessions PF1 and SIDEBAND; R494; reset closed -/
  pf1 : Session := {}
  sb : Session := {}
  /-- the nonce, 256 bits, and the number of entropy draws; R494; reset 0, and 0 DC -/
  nonce : BitVec 256 := 0
  draws : Nat := 0
  /-- consecutive failed OPENs, and the device time until which OPENs fail; R495; reset 0 -/
  fails : Nat := 0
  lockUntil : Nat := 0
  /-- a signature is being made until this device time; R493; reset 0 -/
  signUntil : Nat := 0
  doe : Spdm := {}
  mctp : Spdm := {}
  /-- SIDEBAND mailbox: ARG0 to ARG7 and status word of its last command; R516; reset 0 -/
  sbArgs : List Word := [0, 0, 0, 0, 0, 0, 0, 0]
  sbSts : Word := 0
deriving DecidableEq, Repr

/-- The error log (R335). -/
structure ELog where
  /-- 16 bits; next sequence; reset 0 DC -/
  seq : Nat := 0
  /-- 17 bits; host ring tail; STW_ELOG_TAIL; reset 0 -/
  tail : Nat := 0
  /-- the most recent 4,096 entries, newest first: 32 B as a 256-bit number; reset none -/
  recent : List Nat := []
deriving DecidableEq, Repr

/-- What leaves the device: answers to commands, interrupts and messages. -/
inductive Out where
  /-- register or memory read data: function, tag, value -/
  | data (fn tag : Nat) (v : DWord)
  | bytes (fn tag : Nat) (bs : List Byte)
  /-- what a vault returns for a read of one line: physical vault, local address; nothing where it is uncorrectable -/
  | line (vault addr : Nat) (bs : Option (List Byte))
  /-- completion without data: 0 Successful, 1 Unsupported Request, 2 Completer Abort, 3 Request Retry Status -/
  | cpl (fn tag st : Nat)
  /-- MSI-X of a function (0 PF0, 1 PF1, 1 + k VF k) and vector -/
  | msix (fn vec : Nat)
  /-- a fabric message to a device of the guild, or toward a guild -/
  | fab (m : FMsg)
  /-- a frame sent on a Mioquin port -/
  | frame (port : Nat) (f : FFrame)
  | fabAck (port seq : Nat) (nak : Bool)
  /-- a mesh packet ejected at a router: half, router, payload -/
  | eject (half router : Nat) (bs : List Byte)
  /-- a die-to-die flit: module, sending half, sequence, the data of its mesh flits -/
  | d2dFlit (m half seq : Nat) (slots : List (List Byte))
  /-- a die-to-die acknowledgement: module, receiving half, sequence, NAK -/
  | d2dAck (m half seq : Nat) (nak : Bool)
  /-- a response on DOE 0 or MCTP 1 -/
  | spdm (t : Nat) (bs : List Byte)
  /-- a sideband message: status word, ARG0 to ARG7, data -/
  | sideband (sts : Word) (args : List Word) (bs : List Byte)
deriving DecidableEq, Repr

end Sys2Proof.Machine
end

