-- ==== Sys2Proof/Machine/State.lean ====
section
/-! DEFINITION. The state of the block, its faults and refusals, and the state right after device reset. Each field's
docstring gives its width or range, the rule that names it and its reset value (DC: not given by the spec,
assumption 1). -/

namespace Sys2Proof.Machine

/-- The state of the device (one part), the host memory and far memories it reaches, its outputs, and the queue of
commands that wait. Every field is plain data. -/
structure State where
  /-- every stored register of every page, the common header's counts and sticky bits among them, by page type,
  instance, bank (partition) and offset; an unlisted register holds the reset value of its table; R501 to R507 -/
  regs : SMap DWord := []
  /-- 4 B read latch by function and page: offset of the high half, and its value; R502; reset none -/
  latch : SMap (Nat × DWord) := []
  /-- staged low halves by page and offset; R502; reset none -/
  staged : SMap DWord := []
  /-- logical cores 0 to 255; R12; reset idle -/
  cores : SMap Core := []
  /-- physical vaults 0 to 287; R12; reset empty -/
  vaults : SMap Vault := []
  /-- partitions 0 to 63; R264; reset EMPTY -/
  parts : SMap Part := []
  /-- the two copies of the stream roll, by stream number 0 to 262,143; R25, R268; reset FREE -/
  rollA : SMap Stream := []
  rollB : SMap Stream := []
  /-- the two copies of the ledger, by entry number; R241; reset FREE -/
  ledgA : SMap LEntry := []
  ledgB : SMap LEntry := []
  /-- opening-book nodes; R249; reset not live -/
  book : SMap BookNode := []
  /-- A, the almanac table, 16,384 words; R310; an unlisted word is its default -/
  alm : SMap Word := []
  /-- admin ring: head, tail, completion head and tail, modulo 2^(n+1); R258; reset 0 -/
  admHead : Nat := 0
  admTail : Nat := 0
  acqHead : Nat := 0
  acqTail : Nat := 0
  /-- admin commands taken and not completed: tag, opcode, partition or stream; R263; reset none -/
  admOpen : List (Nat × Nat × Nat) := []
  /-- admin commands that came while another was open: code and words; R263; reset none -/
  admWait : List (Nat × List Nat) := []
  /-- the Mioquin fabric; R349 to R374 -/
  fab : Fabric := {}
  /-- the snapshot in progress; R372; reset none -/
  snap : Option Snap := none
  /-- 16 die-to-die modules; R343; reset UP -/
  d2d : List D2dMod := List.replicate 16 {}
  /-- the meshes of halves A and B; R337 -/
  meshA : MeshHalf := {}
  meshB : MeshHalf := {}
  /-- token buckets of the regulators, by partition and regulator: bytes below their capacity when they last charged, and that time, µs; an
  unlisted bucket is full; R24, R342, R393; reset full DC -/
  gates : SMap (Nat × Nat) := []
  /-- the host link and host memory; R376 -/
  host : HostLink := {}
  /-- four far ports; R388 -/
  far : List FarPort := List.replicate 4 {}
  /-- power and heat; R396 to R429 -/
  pwr : Power := {}
  thm : Thermal := {}
  /-- device state, fuses, floor plan; R430 to R447 -/
  boot : Boot := {}
  /-- fault absorption; R455 to R478 -/
  abs : Absorb := {}
  /-- the SECURE block; R482 to R500 -/
  sec : Secure := {}
  /-- the error log; R335 -/
  elog : ELog := {}
  /-- 64 bits; device time, µs; R256; reset 0 -/
  timeUs : Nat := 0
  /-- number of free values used so far; the model's own field; reset 0 DC (assumption 2) -/
  freeCtr : Nat := 0
  /-- what has left the device, newest first; the model's own field; reset none -/
  sent : List Out := []
  /-- commands waiting, front first; the model's own field; reset empty -/
  pending : List Instr := []
deriving DecidableEq, Repr

/-- Why a step stops: no meaning of this block ends in a fault, so there is no reason to name. -/
inductive Fault where
deriving DecidableEq, Repr

/-- Why a command is refused. -/
inductive Refusal where
  /-- Raised by `exec` for a command whose meaning is not written. Safe: the model stops. -/
  | notModelled (mnemonic : String)
deriving DecidableEq, Repr

/-- The device right after a device reset: every field at the value its docstring gives. -/
def State.reset : State := {}

end Sys2Proof.Machine
end

