-- ==== Sys2Proof/Machine/Regs.lean ====
section
/-! DEFINITION. Registers as stored state, the common header's counts and interrupts (R505 to R513), the reach of every
part of the state by number, host memory and the error log. -/

namespace Sys2Proof.Machine

/-- Something leaves the device. -/
def State.emit (s : State) (o : Out) : State := { s with sent := o :: s.sent }

/-- The next free value. -/
def State.freeVal (s : State) : DWord := Config.free s.freeCtr

/-- One free value has been used. -/
def State.freeUsed (s : State) : State := { s with freeCtr := s.freeCtr + 1 }

/-- n free bytes: what a destination holds where the spec says unspecified. -/
def State.freeBytes (s : State) (n : Nat) : State × List Byte :=
  ({ s with freeCtr := s.freeCtr + ceilDiv n 8 },
   (List.range n).map (fun i => (Config.free (s.freeCtr + i / 8)).extractLsb' (8 * (i % 8)) 8))

/-! ### Parts of the state by number -/

def State.core (s : State) (c : Nat) : Core := smGet {} s.cores c
def State.setCore (s : State) (c : Nat) (v : Core) : State := { s with cores := smSet {} s.cores c v }
def State.modCore (s : State) (c : Nat) (f : Core → Core) : State := s.setCore c (f (s.core c))
def State.vault (s : State) (p : Nat) : Vault := smGet {} s.vaults p
def State.setVault (s : State) (p : Nat) (v : Vault) : State := { s with vaults := smSet {} s.vaults p v }
def State.modVault (s : State) (p : Nat) (f : Vault → Vault) : State := s.setVault p (f (s.vault p))
def State.part (s : State) (p : Nat) : Part := smGet {} s.parts p
def State.setPart (s : State) (p : Nat) (v : Part) : State := { s with parts := smSet {} s.parts p v }
def State.modPart (s : State) (p : Nat) (f : Part → Part) : State := s.setPart p (f (s.part p))
def State.farPort (s : State) (n : Nat) : FarPort := s.far.getD n {}
def State.modFar (s : State) (n : Nat) (f : FarPort → FarPort) : State := { s with far := fixSet 4 {} s.far n (f (s.farPort n)) }
def State.fport (s : State) (n : Nat) : FPort := s.fab.ports.getD n {}
def State.modFport (s : State) (n : Nat) (f : FPort → FPort) : State :=
  { s with fab := { s.fab with ports := fixSet 8 {} s.fab.ports n (f (s.fport n)) } }
def State.mesh (s : State) (h : Nat) : MeshHalf := if h = 0 then s.meshA else s.meshB
/-- A mesh island loses its supply: its routers forget what they hold (R15). -/
def MeshHalf.supplyLost (x : MeshHalf) : MeshHalf :=
  { x with bufs := [], turn := [], hold := [], replays := [], fault := false, site := 0 }
def State.setMesh (s : State) (h : Nat) (m : MeshHalf) : State := if h = 0 then { s with meshA := m } else { s with meshB := m }
def State.site (s : State) (n : Nat) : Site := smGet {} s.boot.sites n
def State.setSite (s : State) (n : Nat) (v : Site) : State :=
  { s with boot := { s.boot with sites := smSet {} s.boot.sites n v } }

/-- The half that a logical core lies in (R6). -/
def coreHalf (c : Nat) : Nat := c / 128

/-- The half that a physical site or vault lies in (R5). -/
def siteHalf (p : Nat) : Nat := p / 144

/-- The half that is fenced and not yet rejoined, if one is (R465). -/
def State.fencedHalf (s : State) : Option Nat := s.abs.fence.map (·.half)

/-- The host reaches half B over neither the spur, nor mesh A and the die-to-die link (R16): the spur is down, and half A is
fenced. -/
def State.spurCut (s : State) : Bool :=
  !s.host.spur && (match s.abs.fence with | some f => f.half = 0 && decide (f.stage < 4) | none => false)

/-- The partition that holds a logical core. -/
def State.partOfCore (s : State) (c : Nat) : Option Nat := (s.parts.find? (fun e => e.2.cores.contains c)).map (·.1)

/-- The physical vault that serves a logical vault (VLT_MAP roles LOGICAL and BORROWED). -/
def State.vaultOf (s : State) (l : Nat) : Option Nat :=
  (s.vaults.find? (fun e => (e.2.role = .logical || e.2.role = .borrowed) && e.2.logical = l)).map (·.1)

/-! ### Stored registers -/

/-- The key of a stored register. -/
def regKey (code inst bank off : Nat) : Nat := ((code * 512 + inst) * 64 + bank) * 4096 + off

/-- Whether a register definition covers an offset. -/
def RegDef.covers (d : RegDef) (off : Nat) : Bool :=
  decide (d.off ≤ off) && (off - d.off) % d.stride = 0 && decide ((off - d.off) / d.stride < d.count)

/-- The definition of the register that starts at an offset of a page. -/
def regFind (code off : Nat) : Option RegDef := (regTable code).find? (·.covers off)

/-- The value after device reset (R7). -/
def RegDef.resetVal (d : RegDef) : Nat := d.fields.foldl (fun a f => a + f.reset <<< f.lo) 0

/-- The value of a register right after device reset; header registers are 0. -/
def regReset (code off : Nat) : DWord :=
  match regFind code off with
  | some d => BitVec.ofNat 64 d.resetVal
  | none => 0

/-- Both FORE_ pages, and both PORT_ pages, show the same registers (R255). -/
def regInst (code inst : Nat) : Nat := if code = pgFore || code = pgPort then 0 else inst

def State.reg (s : State) (code inst bank off : Nat) : DWord :=
  smGet (regReset code off) s.regs (regKey code (regInst code inst) bank off)

def State.setReg (s : State) (code inst bank off : Nat) (v : DWord) : State :=
  { s with regs := smSet (regReset code off) s.regs (regKey code (regInst code inst) bank off) v }

/-- Field [hi:lo] of a stored register. -/
def State.fld (s : State) (code inst bank off hi lo : Nat) : Nat := bits (s.reg code inst bank off).toNat hi lo

/-- Field [hi:lo] of a stored register takes the value `x`. -/
def State.setFld (s : State) (code inst bank off hi lo x : Nat) : State :=
  s.setReg code inst bank off (BitVec.ofNat 64 (setBits (s.reg code inst bank off).toNat hi lo x))

/-- A 64-bit counter rises by n, wrapping at 2^64. -/
def State.bump (s : State) (code inst bank off n : Nat) : State :=
  s.setReg code inst bank off (s.reg code inst bank off + BitVec.ofNat 64 n)

/-- Offsets of the common header (R505). -/
abbrev hId := 0x000
abbrev hVer := 0x004
abbrev hCap := 0x008
abbrev hCtl := 0x00C
abbrev hSts := 0x010
abbrev hErr := 0x014
abbrev hClamp := 0x018
abbrev hRefuse := 0x01C
abbrev hIntEn := 0x020
abbrev hIntSts := 0x024
abbrev hIntForce := 0x028

/-- A saturating 32-bit header count rises by n (R507). -/
def State.bumpSat (s : State) (code inst off n : Nat) : State :=
  s.setReg code inst 0 off (BitVec.ofNat 64 (min 0xFFFFFFFF ((s.reg code inst 0 off).toNat + n)))

/-- n clamps are counted in a page, and its sticky clamped bit is set (R8, R505). -/
def State.noteClamps (s : State) (code inst n : Nat) : State :=
  if n = 0 then s else (s.bumpSat code inst hClamp n).setFld code inst 0 hSts 31 31 1

/-- A refusal is counted in a page, and its sticky refused bit is set (R10, R505). -/
def State.noteRefuse (s : State) (code inst : Nat) : State :=
  (s.bumpSat code inst hRefuse 1).setFld code inst 0 hSts 30 30 1

/-- A sticky BLK_ERR bit is set. -/
def State.setErr (s : State) (code inst b : Nat) : State := s.setFld code inst 0 hErr b b 1

/-- Whether a page type is a core page (R509). -/
def isCorePage (code : Nat) : Bool := decide (0x30 ≤ code) && decide (code ≤ 0x34)

/-- Whether a page type is a vault page (R509). -/
def isVaultPage (code : Nat) : Bool := code = 0x40 || code = 0x41

/-- The interrupt of a page (R513). -/
def State.raiseInt (s : State) (code inst : Nat) : State :=
  let ev : Out :=
    if isCorePage code then
      match s.partOfCore inst with
      | some p => if s.host.bme.contains (p + 2) then .msix (p + 2) 1 else .msix 0 64
      | none => .msix 0 64
    else .msix 0 64
  (s.emit ev).emit (.msix 1 2)

/-- BLK_INT_STS and BLK_INT_EN of a page take new values; int_pending that rises or gains a bit raises one interrupt
(R513). -/
def State.setIntRegs (s : State) (code inst : Nat) (sts en : Nat) : State :=
  let old := (s.reg code inst 0 hIntSts).toNat &&& (s.reg code inst 0 hIntEn).toNat
  let s' := (s.setReg code inst 0 hIntSts (BitVec.ofNat 64 sts)).setReg code inst 0 hIntEn (BitVec.ofNat 64 en)
  if (sts &&& en) &&& old = (sts &&& en) then s' else s'.raiseInt code inst

/-- Interrupt bits of a page are set by their events (R507). -/
def State.setInt (s : State) (code inst m : Nat) : State :=
  s.setIntRegs code inst ((s.reg code inst 0 hIntSts).toNat ||| m) (s.reg code inst 0 hIntEn).toNat

/-! ### Host memory (R382, R385) -/

/-- Functions 0 to 65 are those of the host link. -/
def isHostFn (fn : Nat) : Bool := decide (fn ≤ 65)
def isVf (fn : Nat) : Bool := decide (2 ≤ fn) && decide (fn ≤ 65)

/-- The host link is up. -/
def State.hostUp (s : State) : Bool := s.host.width != 0

/-- A posted write to host memory; while the link is down it is discarded and counted (R385). -/
def State.hostWrite (s : State) (a : Nat) (bs : List Byte) : State :=
  if s.hostUp then
    ({ s with host := { s.host with mem := memSetBytes s.host.mem a bs } }).bump pgHost 0 0 rHostTxBytes bs.length
  else s.bump pgHost 0 0 rHostDmaDiscard 1

/-- Bytes of host memory. -/
def State.hostBytes (s : State) (a n : Nat) : List Byte := memBytes s.host.mem a n

/-! ### The error log (R335, R336) -/

/-- What an entry of the error log says besides its event, sequence, phase and time. -/
structure LogInfo where
  status : Nat := 0
  cls : Nat := 0
  vault : Nat := 0x1FF
  core : Nat := 0xFF
  part : Nat := 0
  addr : Nat := 0
  count : Nat := 0
  syms : Nat := 0
  bank : Nat := 0
  stream : Option (Nat × Nat) := none
deriving DecidableEq, Repr

/-- The 32 B entry as a number. -/
def logEntry (ev seq phase time : Nat) (i : LogInfo) : Nat :=
  let w0 := phase <<< 31 + (ev % 256) <<< 16 + seq % 65536
  let w1 := (i.status % 16) <<< 28 + (i.cls % 8) <<< 25 + (i.vault % 512) <<< 16 + (i.core % 256) <<< 8 + i.part % 64
  let w4 := (i.count % 65536) <<< 16 + (i.syms % 256) <<< 8 + i.bank % 256
  let w5 := match i.stream with
    | some (g, n) => 1 <<< 31 + (g % 16) <<< 18 + n % 262144
    | none => 0
  w0 + w1 <<< 32 + (i.addr % 1 <<< 64) <<< 64 + w4 <<< 128 + w5 <<< 160 + (time % 1 <<< 64) <<< 192

/-- The steward logs an event (R335). -/
def State.log (s : State) (ev : Nat) (i : LogInfo) : State :=
  let n := s.fld pgStw 0 0 rStwElogCfg 4 0
  let en := s.fld pgStw 0 0 rStwElogCfg 31 31 = 1
  let tail := s.elog.tail
  let phase := 1 - (tail >>> n) % 2
  let e := logEntry ev s.elog.seq phase s.timeUs i
  let s1 := { s with elog := { s.elog with seq := (s.elog.seq + 1) % 65536, recent := (e :: s.elog.recent).take 4096 } }
  let head := s.fld pgStw 0 0 rStwElogHead 16 0
  let used := (tail + 2 * 1 <<< n - head % (2 * 1 <<< n)) % (2 * 1 <<< n)
  if en then
    if used ≥ 1 <<< n then s1.bump pgStw 0 0 rStwElogLost 1
    else
      let a := s.fld pgStw 0 0 rStwElogBase 63 5 * 32 + (tail % 1 <<< n) * 32
      let s2 := s1.hostWrite a (leBytes 32 e)
      let s3 := { s2 with elog := { s2.elog with tail := (tail + 1) % (2 * 1 <<< n) } }
      s3.emit (.msix 1 1)
  else s1.bump pgStw 0 0 rStwElogLost 1

end Sys2Proof.Machine
end

