-- ==== Sys2Proof/Machine/Gate.lean ====
section
/-! DEFINITION. The token-bucket regulators of a partition (R24, R342, R393): how they hold traffic at injection. -/

namespace Sys2Proof.Machine

/-- A regulator of a partition. -/
inductive Gate where
  /-- mesh injection at the network interface of core `agent`, at a foreman (256 + half) or at a porter (258 + half) -/
  | mesh (part agent : Nat)
  /-- the module distributor of the sending half -/
  | d2d (part half : Nat)
  /-- the host link, toward the host or from it -/
  | host (part : Nat) (out : Bool)
  /-- a far port, toward its memory or from it -/
  | far (part port : Nat) (out : Bool)
deriving DecidableEq, Repr

/-- The number under which `State.gates` lists a regulator. -/
def Gate.key (g : Gate) : Nat :=
  match g with
  | .mesh p a => p * 1024 + a % 512
  | .d2d p h => p * 1024 + 512 + h % 2
  | .host p o => p * 1024 + 514 + b2n o
  | .far p f o => p * 1024 + 516 + f % 4 * 2 + b2n o

/-- The register of a regulator: page, instance, bank, offset. -/
def Gate.reg (g : Gate) : Nat × Nat × Nat × Nat :=
  match g with
  | .mesh p a => (pgMesh, if a < 256 then coreHalf a else a % 2, p, rMeshReg)
  | .d2d p h => (pgD2d, h, p, rD2dReg)
  | .host p o => (pgHost, 0, p, if o then rHostRegOut else rHostRegIn)
  | .far p f o => (pgFarp, f, p, if o then rFarpRegOut else rFarpRegIn)

/-- The rate of a regulator, B/µs; 0 is no limit. Its field is in units of 0.1 GB/s. -/
def State.gateRate (s : State) (g : Gate) : Nat := 100 * s.fld g.reg.1 g.reg.2.1 g.reg.2.2.1 g.reg.2.2.2 31 16

/-- The capacity of a regulator's bucket, B. Its field is in KiB. -/
def State.gateCap (s : State) (g : Gate) : Nat := 1024 * s.fld g.reg.1 g.reg.2.1 g.reg.2.2.1 g.reg.2.2.2 15 0

/-- Bytes by which a bucket is below its capacity now; its level rises at the rate (R342). A bucket that has charged nothing
is full (DESIGN CHOICE, assumption 115). -/
def State.gateDebt (s : State) (g : Gate) : Nat :=
  let x := smGet (0, 0) s.gates g.key
  x.1 - s.gateRate g * (s.timeUs - x.2)

/-- A bucket lets n bytes in: its level is at least n, or full where n is more than its capacity (R342; traffic that the model
moves in one command passes as one, DESIGN CHOICE, assumption 115). -/
def State.gateOpen (s : State) (g : Gate) (n : Nat) : Bool :=
  s.gateRate g = 0 || decide (s.gateDebt g + min n (s.gateCap g) ≤ s.gateCap g)

/-- n bytes are injected: the level falls by n (R342). -/
def State.gateTake (s : State) (g : Gate) (n : Nat) : State :=
  if n = 0 || s.gateRate g = 0 then s
  else { s with gates := smSet (0, 0) s.gates g.key (s.gateDebt g + n, s.timeUs) }

/-- The hold counter of a regulator can have counted: cycles do not pass in the model (assumption 70). -/
def State.gateHeld (s : State) (g : Gate) : State :=
  match g with
  | .mesh _ _ => s.setReg pgMesh g.reg.2.1 0 rMeshHeldCyc 1
  | .d2d _ h => s.setReg pgD2d h 0 rD2dHeldCyc 1
  | .far _ f _ => s.setReg pgFarp f 0 rFarpHeldCyc 1
  | .host _ _ => s

/-- Costs at regulators, those of one regulator added up. -/
def addCost (l : List (Gate × Nat)) (e : Gate × Nat) : List (Gate × Nat) :=
  if l.any (fun x => x.1 = e.1) then l.map (fun x => if x.1 = e.1 then (x.1, x.2 + e.2) else x) else l ++ [e]

/-- Every regulator lets its cost in. -/
def State.gatesOpen (s : State) (l : List (Gate × Nat)) : Bool := l.all (fun e => s.gateOpen e.1 e.2)

/-- The costs are charged. -/
def State.gatesTake (s : State) (l : List (Gate × Nat)) : State := l.foldl (fun s e => s.gateTake e.1 e.2) s

/-- The regulators without the tokens hold the traffic. -/
def State.gatesHeld (s : State) (l : List (Gate × Nat)) : State :=
  l.foldl (fun s e => if s.gateOpen e.1 e.2 then s else s.gateHeld e.1) s

/-- Traffic is injected, or held until the buckets have filled (R24): it is never dropped. -/
def State.gated (s : State) (l : List (Gate × Nat)) (go wait : State → State) : State :=
  if s.gatesOpen l then go (s.gatesTake l) else wait (s.gatesHeld l)

end Sys2Proof.Machine
end

