-- ==== Sys2Proof/Machine/Gf.lean ====
section
/-! DEFINITION. Reed–Solomon codes over GF(2^w) (R313 to R316, R355) by bounded-distance decoding, and the cyclic
redundancy checks. Field elements are numbers below 2^w. -/

namespace Sys2Proof.Machine

/-- A binary field: its width and its primitive polynomial. -/
structure GField where
  w : Nat
  poly : Nat
deriving DecidableEq, Repr

/-- x × α. -/
def gfDouble (f : GField) (x : Nat) : Nat :=
  let y := 2 * x
  if y < 2 ^ f.w then y else y ^^^ f.poly

/-- Carry-less product of `a` with the low `k` bits of `b`, from the top bit down. -/
def gfMulAux (f : GField) (a b k acc : Nat) : Nat :=
  match k with
  | 0 => acc
  | k + 1 => gfMulAux f a b k (gfDouble f acc ^^^ (if b.testBit k then a else 0))

/-- The field product. -/
def gfMul (f : GField) (a b : Nat) : Nat := if b = 0 then 0 else gfMulAux f a b f.w 0

/-- a^(2^k − 1) × a^… : the inverse is a^(2^w − 2), by w − 1 squarings. -/
def gfInvAux (f : GField) (k sq acc : Nat) : Nat :=
  match k with
  | 0 => acc
  | k + 1 =>
    let s := gfMul f sq sq
    gfInvAux f k s (gfMul f acc s)

/-- The inverse of a non-zero element. -/
def gfInv (f : GField) (a : Nat) : Nat := gfInvAux f (f.w - 1) a 1

/-- α^0, α^1, …, α^(n−1). -/
def gfPowers (f : GField) (n : Nat) (x : Nat) : List Nat :=
  match n with
  | 0 => []
  | n + 1 => x :: gfPowers f n (gfDouble f x)

/-- The value at x of a polynomial given by its coefficients, lowest first. -/
def polyEval (f : GField) (p : List Nat) (x : Nat) : Nat :=
  p.foldr (fun c acc => c ^^^ gfMul f x acc) 0

/-- Coefficientwise sum. -/
def polyAdd (p q : List Nat) : List Nat :=
  match p, q with
  | [], q => q
  | p, [] => p
  | a :: p, b :: q => (a ^^^ b) :: polyAdd p q

def polyScale (f : GField) (c : Nat) (p : List Nat) : List Nat := p.map (gfMul f c)

def polyMul (f : GField) (p q : List Nat) : List Nat :=
  match p with
  | [] => []
  | a :: p => polyAdd (polyScale f a q) (0 :: polyMul f p q)

/-- The degree of a polynomial (0 for the zero polynomial). -/
def polyDeg (p : List Nat) : Nat :=
  match p with
  | [] => 0
  | _ :: r => if r.all (· == 0) then 0 else polyDeg r + 1

/-- A Reed–Solomon code: field, length n, check symbols r; roots α^0 to α^(r−1). -/
structure RsCode where
  f : GField
  n : Nat
  r : Nat
deriving DecidableEq, Repr

/-- RS(72,64) over GF(2^8) with polynomial 0x11D (R313). -/
def rsLine : RsCode := ⟨⟨8, 0x11D⟩, 72, 8⟩

/-- g(x) = Π (x − α^i), lowest coefficient first. -/
def rsGen (c : RsCode) : List Nat :=
  (gfPowers c.f c.r 1).foldl (fun g a => polyMul c.f [a, 1] g) [1]

/-- One step of the division by g: the remainder `rem` (r coefficients, lowest first) takes in symbol `d`. -/
def rsShift (c : RsCode) (g rem : List Nat) (d : Nat) : List Nat :=
  let fb := (rem.getD (c.r - 1) 0) ^^^ d
  (polyAdd (0 :: rem.take (c.r - 1)) (polyScale c.f fb (g.take c.r)))

/-- The check symbols of data symbols d0, d1, … (data symbol b at position b + r), lowest first (R314). -/
def rsCheck (c : RsCode) (data : List Nat) : List Nat :=
  let g := rsGen c
  data.reverse.foldl (rsShift c g) (List.replicate c.r 0)

/-- The syndromes S_0 to S_(r−1) of a word given by position (R316). -/
def rsSyn (c : RsCode) (word : List Nat) : List Nat := (gfPowers c.f c.r 1).map (polyEval c.f word)

/-- Berlekamp–Massey over the remaining syndromes. `n` counts those taken, `lam` and `b` are the locators, `l` the
length, `m` the shift and `bd` the last discrepancy. -/
def bmLoop (f : GField) (syn : List Nat) (k n : Nat) (lam b : List Nat) (l m bd : Nat) : List Nat × Nat :=
  match k with
  | 0 => (lam, l)
  | k + 1 =>
    let d := (List.range (l + 1)).foldl (fun acc i => acc ^^^ gfMul f (lam.getD i 0) (syn.getD (n - i) 0)) 0
    if d = 0 then bmLoop f syn k (n + 1) lam b l (m + 1) bd
    else
      let t := polyAdd lam (polyScale f (gfMul f d (gfInv f bd)) (List.replicate m 0 ++ b))
      if 2 * l ≤ n then bmLoop f syn k (n + 1) t lam (n + 1 - l) 1 d
      else bmLoop f syn k (n + 1) t b l (m + 1) bd

/-- What a bounded-distance decode answers: the corrected word and the number of symbols corrected, or nothing when the
word is uncorrectable (R316). -/
def rsDecode (c : RsCode) (word : List Nat) : Option (List Nat × Nat) :=
  let syn := rsSyn c word
  if syn.all (· == 0) then some (word, 0)
  else
    let (lam, l) := bmLoop c.f syn c.r 0 [1] [1] 0 1 1
    if l > c.r / 2 ∨ polyDeg lam ≠ l then none
    else
      -- the error evaluator Ω = S Λ mod x^r and the formal derivative of Λ
      let om := (polyMul c.f syn lam).take c.r
      let dl := lam.mapIdx (fun i x => if i % 2 = 1 then x else 0)
      let pos := gfPowers c.f c.n 1
      let errs := pos.map (fun x =>
        let xi := gfInv c.f x
        if polyEval c.f lam xi = 0 then
          -- e = X^(1−b) Ω(X⁻¹) ÷ Λ'(X⁻¹) with first root α^0: X Ω ÷ (X Σ odd terms)
          gfMul c.f (gfMul c.f x (polyEval c.f om xi)) (gfInv c.f (gfMul c.f x (polyEval c.f dl xi)))
        else 0)
      let cnt := (errs.filter (· != 0)).length
      let fixd := polyAdd word errs
      if cnt = l ∧ (rsSyn c fixd).all (· == 0) then some (fixd, cnt) else none

/-- The 72 stored bytes of a line: data bytes first, then the check bytes (R314). -/
def lineEncode (data : List Byte) : List Byte :=
  data ++ (rsCheck rsLine (data.map BitVec.toNat)).map (BitVec.ofNat 8)

/-- The outcome of reading a stored line (R316). -/
inductive LineRead where
  | clean (data : List Byte)
  | fixed (data : List Byte) (symbols : Nat)
  | lost
deriving DecidableEq, Repr

/-- Decode the 72 stored bytes of a line (R316). -/
def lineDecode (st : List Byte) : LineRead :=
  let word := (st.drop 64 ++ st.take 64).map BitVec.toNat
  match rsDecode rsLine word with
  | none => .lost
  | some (w, k) =>
    let d := (w.drop 8).map (BitVec.ofNat 8)
    if k = 0 then .clean d else .fixed d k

/-- One bit step of a CRC register of width `w` with polynomial `p` (most significant bit first). -/
def crcBit (w p : Nat) (reg : Nat) (b : Bool) : Nat :=
  let top := reg.testBit (w - 1) != b
  let s := (2 * reg) % 2 ^ w
  if top then s ^^^ p else s

/-- CRC of a list of bits, first bit first. The register is matched on at each bit, so that it is evaluated bit by bit; it is
the left fold of `crcBit`. -/
def crcBits (w p reg : Nat) (bs : List Bool) : Nat :=
  match bs with
  | [] => reg
  | b :: r =>
    match crcBit w p reg b with
    | 0 => crcBits w p 0 r
    | n + 1 => crcBits w p (n + 1) r

/-- The bits of a byte list, most significant bit of each byte first. -/
def bitsMsb (bs : List Byte) : List Bool := bs.flatMap (fun b => (List.range 8).map (fun i => b.getLsbD (7 - i)))

/-- The bits of a byte list, least significant bit of each byte first. -/
def bitsLsb (bs : List Byte) : List Bool := bs.flatMap (fun b => (List.range 8).map (fun i => b.getLsbD i))

end Sys2Proof.Machine
end

