-- ==== Sys2Proof/Machine/Ops.lean ====
section
/-! DEFINITION. The named operations over vaults and memories: the line read with its check, corrections and losses
(R179, R188, R316 to R330), writes through the write queue and the merge buffer (R183 to R189), the ledger and roll
updates (R241, R268), and order addresses (R147, R173). -/

namespace Sys2Proof.Machine

/-- Insert a number in a rising list without repeats. -/
def insNat (l : List Nat) (x : Nat) : List Nat :=
  match l with
  | [] => [x]
  | y :: r => if x = y then l else if x < y then x :: l else y :: insNat r x

/-! ### Ledger and stream roll (R25, R241, R268) -/

/-- The copy that serves lookups: half A's, or half B's while half A is fenced. -/
def State.ledg (s : State) (i : Nat) : LEntry :=
  if s.fencedHalf = some 0 then smGet {} s.ledgB i else smGet {} s.ledgA i

/-- The state as a reader in a core's half looks the ledger up: the copy of the reader's half serves it (R241), half B's
while half A is fenced. For lookups only. -/
def State.ledgView (s : State) (core : Nat) : State :=
  if core < 128 || s.fencedHalf = some 1 then s else { s with ledgA := s.ledgB }

/-- The whole copy that serves lookups. -/
def State.ledgAll (s : State) : SMap LEntry := if s.fencedHalf = some 0 then s.ledgB else s.ledgA

/-- One update of an entry: the epoch advances by 1 modulo 2^14 and both copies are written; a fenced half's copy is
written when the replay reaches it (R241, R465). -/
def State.setLedg (s : State) (i : Nat) (e : LEntry) : State :=
  let e' := { e with epoch := ((s.ledg i).epoch + 1) % 16384 }
  let s1 := if s.fencedHalf = some 0 then s else { s with ledgA := smSet {} s.ledgA i e' }
  if s.fencedHalf = some 1 then s1 else { s1 with ledgB := smSet {} s1.ledgB i e' }

def State.stream (s : State) (n : Nat) : Stream :=
  if s.fencedHalf = some 0 then smGet {} s.rollB n else smGet {} s.rollA n

/-- The whole roll copy that serves lookups. -/
def State.rollAll (s : State) : SMap Stream := if s.fencedHalf = some 0 then s.rollB else s.rollA

/-- One update of a stream-roll entry: its epoch advances by 1 modulo 2^32 and both copies are written (R268). -/
def State.setStream (s : State) (n : Nat) (e : Stream) : State :=
  let e' := { e with epoch := (s.stream n).epoch + 1 }
  let s1 := if s.fencedHalf = some 0 then s else { s with rollA := smSet {} s.rollA n e' }
  if s.fencedHalf = some 1 then s1 else { s1 with rollB := smSet {} s1.rollB n e' }

def State.modStream (s : State) (n : Nat) (f : Stream → Stream) : State := s.setStream n (f (s.stream n))

/-! ### Castling triggers (R455) -/

/-- A castling trigger arises; one that already waits for the core is not repeated, but an abrupt one takes its place. -/
def State.castTrigger (s : State) (r : CastReq) : State :=
  if s.abs.castWait.any (fun q => q.logical = r.logical && q.vault = r.vault) then
    let up (q : CastReq) : CastReq := if q.logical = r.logical && q.vault = r.vault && r.abrupt then r else q
    { s with abs := { s.abs with castWait := s.abs.castWait.map up } }
  else { s with abs := { s.abs with castWait := s.abs.castWait ++ [r] } }

/-- A correction event of a tile: a LOOM_RECOMPUTE, an ELEM_RELOAD or a stockroom correction; more than tile_ce_limit
within one second castle the core (R455). -/
def State.tileError (s : State) (c : Nat) : State :=
  let sec := s.timeUs / 1000000
  let old := if s.abs.tileCeAt = sec then s.abs.tileCe else []
  let n := smGet 0 old c + 1
  let s1 := { s with abs := { s.abs with tileCe := smSet 0 old c n, tileCeAt := sec } }
  if n > s.fld pgStw 0 0 rStwAbsCfg 3 0 then s1.castTrigger ⟨c, 4, false, false⟩ else s1

/-! ### The array of a vault -/

/-- Bytes of a page of size code z (the table of page geometry). -/
def pageBytes (z : Nat) : Nat := 32768 * 2 ^ (z % 4)

/-- The line that the array holds for a line address, after row sparing (R323). -/
def Vault.physLine (v : Vault) (l : Nat) : Nat :=
  match smFind v.remap (l / 32) with
  | some sp => (524288 + sp) * 32 + l % 32
  | none => l

/-- The 72 stored bytes of a line. -/
def Vault.stored (v : Vault) (l : Nat) : List Byte := memBytes v.arr (v.physLine l * 72) 72

/-- Store 72 bytes of a line. -/
def Vault.store (v : Vault) (l : Nat) (cw : List Byte) : Vault :=
  { v with arr := memSetBytes v.arr (v.physLine l * 72) (cw.take 72) }

/-- Whether a granule's valid bit is set (R188). -/
def Vault.isValid (v : Vault) (g : Nat) : Bool := v.valid.contains g

/-- Clear the valid bits of a range of granules, with their merge entries and queued writes, and what recovery had to do
for them (R191). -/
def Vault.clearValid (v : Vault) (first count : Nat) : Vault :=
  let hit (g : Nat) : Bool := decide (first ≤ g) && decide (g < first + count)
  { v with
    valid := v.valid.filter (fun g => !hit g)
    mb := v.mb.filter (fun e => !hit (e.line / 64))
    wq := v.wq.filter (fun e => !hit (e.1 / 64))
    rewrites := v.rewrites.filter (fun e => !hit (e.1 / 64))
    lostLines := v.lostLines.filter (fun e => !hit (e.1 / 64))
    filling := v.filling.filter (fun g => !hit g) }

/-- A stored word that no codeword lies near: what a line holds whose data is gone (assumption 112). -/
def lostWord : List Byte := (List.range 72).map (fun i => if i < 5 then 0xFF else 0)

/-- A stored codeword as read with an error pattern: bit w of the pattern is bit (w mod 8) of codeword byte ⌊w ÷ 8⌋
(R315). -/
def noisy (cw : List Byte) (noise : BitVec 576) : List Byte :=
  cw.mapIdx (fun i b => b ^^^ noise.extractLsb' (8 * i) 8)

/-- The entry's page lies in the near frame of its word 3: NEAR, RECOMPUTE, or MOVING away from it. -/
def LEntry.isNear (e : LEntry) : Bool := e.st = .near || e.st = .recompute || (e.st = .moving && e.toFar)

/-- Classes of a line (R326): KV 1, PATTERN 2, TABLE 3, OTHER 4. -/
def State.lineClass (s : State) (p l : Nat) : Nat :=
  let v := s.vault p
  let a := l * 64
  if v.role = .reserve then 3
  else if s.ledgAll.any (fun e => e.2.isNear && e.2.vault = v.logical
      && decide (e.2.frame * 32768 ≤ a) && decide (a < e.2.frame * 32768 + pageBytes e.2.z)) then 1
  else if s.parts.any (fun pt => pt.2.patterns.any (fun q => q.regions.any (fun r => r.core = v.logical && r.space = 1
      && decide (r.off ≤ a) && decide (a < r.off + r.len)))) then 2
  else 4

/-- Every ledger entry that names the page of a line becomes RECOMPUTE in one update (R327). -/
def State.kvLost (s : State) (p l : Nat) : State :=
  let v := s.vault p
  let a := l * 64
  let hits := s.ledgAll.filter (fun e => e.2.isNear
    && e.2.vault = v.logical && decide (e.2.frame * 32768 ≤ a) && decide (a < e.2.frame * 32768 + pageBytes e.2.z))
  hits.foldl (fun s e => s.setLedg e.1 { e.2 with st := .recompute, rebuilt := 0 }) s

/-- n corrected codewords enter the bucket one at a time (R320). -/
def State.bucketAdd (s : State) (p n : Nat) : State :=
  foldN n (fun _ s =>
    let lev := (s.vault p).bucket + 1
    if lev > s.fld pgVlt p 0 rVltEccCfg 31 16 then
      let s1 := ((s.setErr pgVlt p 11).setInt pgVlt p 1).log 0x01 { vault := p, count := lev }
      (s1.bump pgVlt p 0 rVltCeStorms 1).modVault p (fun v => { v with bucket := 0 })
    else s.modVault p (fun v => { v with bucket := lev })) s

/-- A correction in a row segment enters the suspect table; spare_hits hits spare the segment (R322). -/
def State.suspectAdd (s : State) (p seg : Nat) : State :=
  let v := s.vault p
  let hits := match v.suspects.find? (fun e => e.seg = seg) with | some e => e.hits + 1 | none => 1
  let others := v.suspects.filter (fun e => e.seg != seg)
  if hits ≥ s.fld pgVlt p 0 rVltEccCfg 13 10 then
    s.setVault p { v with suspects := others, toSpare := if v.toSpare.contains seg then v.toSpare else v.toSpare ++ [seg] }
  else
    -- a full table gives up the entry with the fewest hits, among equals the least recently hit (the last in the list)
    let room := if others.length < 16 then others else
      let m := others.foldl (fun m e => min m e.hits) 65536
      let victim := (others.filter (fun e => e.hits = m)).getLast?
      others.filter (fun e => some e != victim)
    s.setVault p { v with suspects := ⟨seg, hits⟩ :: room }

/-- A corrected codeword is counted, and enters the bucket (R320). -/
def State.countCorrected (s : State) (p k : Nat) : State :=
  (((s.setErr pgVlt p 8).bump pgVlt p 0 rVltCeLines 1).bump pgVlt p 0 rVltCeSymbols k).bucketAdd p 1

/-- What a correction of a read does (R318, R320, R322). -/
def State.lineCorrected (s : State) (p l k : Nat) (data : List Byte) : State :=
  let s1 := s.modVault p (fun v => { v with rewrites := v.rewrites.filter (fun e => e.1 != l) ++ [(l, data)] })
  (s1.countCorrected p k).suspectAdd p (l / 32)

/-- What finding an uncorrectable line does (R326): counts, records, logs and hands it to recovery. The granule of a lost
PATTERN line waits for its restore from then on (R329). -/
def State.lineUe (s : State) (p l : Nat) : State :=
  let c := s.lineClass p l
  let v := s.vault p
  let s1 := s.bump pgVlt p 0 rVltUeLines 1
  let s2 := if s1.fld pgVlt p 0 rVltLastUe 63 63 = 1 then s1
    else s1.setReg pgVlt p 0 rVltLastUe (BitVec.ofNat 64 (1 <<< 63 + l * 64))
  let s3 := (s2.setInt pgVlt p 2).log 0x02 { cls := c, vault := p, addr := l * 64, syms := 0xFF, bank := (l / 32) % 128 }
  let s4 := if c = 1 then s3.kvLost p l else if c = 4 then s3.setErr pgVlt p 13 else s3
  let s5 := s4.modVault p (fun v => { v with
    lostLines := v.lostLines.filter (fun e => e.1 != l) ++ (if c = 2 then [(l, 2)] else [])
    filling := if c = 2 then insNat v.filling (l / 64) else v.filling })
  -- 4 LINE_UE events in a core's vault within 1 h start a castling (R455)
  if v.role = .logical || v.role = .borrowed then
    let ts := ((smGet [] s5.abs.ueTimes v.logical).filter (fun t => s5.timeUs < t + 3600000000)) ++ [s5.timeUs]
    let s6 := { s5 with abs := { s5.abs with ueTimes := smSet [] s5.abs.ueTimes v.logical ts } }
    if ts.length ≥ 4 then s6.castTrigger ⟨v.logical, 7, false, true⟩ else s6
  else s5

/-- The reserve vault of the other half with a reserve vault's rank among its half's. -/
def State.tableTwin (s : State) (p : Nat) : Option Nat :=
  let res (h : Nat) : List Nat := ((List.range 144).map (fun i => 144 * h + i)).filter (fun q => (s.vault q).role = .reserve)
  let rank := ((res (siteHalf p)).filter (fun q => decide (q < p))).length
  (res (1 - siteHalf p))[rank]?

/-- The live opening-book nodes of a half, which one copy holds (R249). -/
def State.liveNodes (s : State) (h : Nat) : List Nat :=
  (s.book.filter (fun e => e.2.live && e.1 / 2097152 = h)).map (·.1)

/-- An opening-book node that an error loses is freed (R252, R331). -/
def State.dropNode (s : State) (i : Nat) : State :=
  ({ s with book := smSet {} s.book i {} }).setErr pgBook (i / 2097152) 0

/-- A lost TABLE line is rewritten from the other half's copy, and the read goes on with it (R326, R331). Which structure a
line holds is not stated: it is a free value whether it holds a node of the book, which is freed in place of it (R252). With
no intact copy the line waits for the rebuild of its structure, class 3 of the lost lines. -/
def State.tableLine (s : State) (p l : Nat) : State × Option (List Byte) :=
  if (s.vault p).role != .reserve then (s, none)
  else
    let put (s : State) (d : List Byte) : State × Option (List Byte) := (s.modVault p (fun v => v.store l (lineEncode d)), some d)
    let won (s : State) (d : List Byte) : State × Option (List Byte) :=
      put (s.log 0x0B { cls := 3, vault := p, addr := l * 64 }) d
    let lost : State × Option (List Byte) :=
      (s.freeUsed.modVault p (fun v => { v with lostLines := v.lostLines.filter (fun e => e.1 != l) ++ [(l, 3)] }), none)
    let x := s.freeVal.toNat
    let nodes := s.liveNodes (siteHalf p)
    if x % 2 = 1 && !nodes.isEmpty then put (s.freeUsed.dropNode (nodes.getD (x / 2 % nodes.length) 0)) (List.replicate 64 0)
    else match s.tableTwin p with
    | none => lost
    | some q =>
      if s.fencedHalf = some (siteHalf q) then lost
      else if !(s.vault q).isValid (l / 64) then won s.freeUsed (List.replicate 64 0)
      else match lineDecode ((s.vault q).stored l) with
        | .clean d => won s.freeUsed d
        | .fixed d k => won (s.freeUsed.lineCorrected q l k d) d
        | .lost => lost

/-- The data of a line is gone with the SRAM word that held it: the line counts as uncorrectable at its address, and
recovers as such (R200). -/
def State.lineGone (s : State) (p l : Nat) : State :=
  (((s.modVault p (fun v => { v.store l lostWord with
      flags := v.flags.filter (· != l), wq := v.wq.filter (fun e => e.1 != l), mb := v.mb.filter (fun e => e.line != l),
      rewrites := v.rewrites.filter (fun e => e.1 != l) })).lineUe p l).tableLine p l).1

/-- A granule whose valid bit is gone: an uncorrectable error in it (R200). Each of its lines reports the loss. -/
def State.granuleGone (s : State) (p g : Nat) : State :=
  let s1 := s.modVault p (fun v =>
    { foldN 64 (fun i v => v.store (g * 64 + i) lostWord) v with
      valid := insNat v.valid g
      flags := v.flags.filter (fun l => l / 64 != g)
      mb := v.mb.map (fun e => if e.line / 64 = g then { e with fresh := false } else e)
      rewrites := v.rewrites.filter (fun e => e.1 / 64 != g) })
  ((s1.lineUe p (g * 64)).tableLine p (g * 64)).1

/-- An error in the shell's SRAM word that an access to a line reads: its write-queue line or merge entry, or, where there is
none, the valid-bit word of its granule (R200). `err`: 1 a single-bit error, 2 a double-bit error, else none. -/
def State.shellErr (s : State) (p l err : Nat) : State :=
  if err = 1 then s.setErr pgVlt p 0
  else if err = 2 then
    if (s.vault p).wq.any (fun e => e.1 = l) || (s.vault p).mb.any (fun e => e.line = l) then (s.setErr pgVlt p 1).lineGone p l
    else foldN 64 (fun i s => s.granuleGone p (l / 4096 * 64 + i)) (s.setErr pgVlt p 2)
  else s

/-- A read of a line from the array (R188, R216, R316). Nothing when it is uncorrectable. -/
def State.arrayRead (s : State) (p l : Nat) (noise : BitVec 576) : State × Option (List Byte) :=
  let v := s.vault p
  if !v.isValid (l / 64) then (s.bump pgVlt p 0 rVltZeroRead 1, some (List.replicate 64 0))
  else if v.flags.contains l then
    let d := (v.stored l).take 64
    let v' := v.store l (lineEncode d)
    (((s.setVault p { v' with flags := v'.flags.filter (· != l) }).setErr pgBank p 4).bump pgVlt p 0 rVltRdLines 1, some d)
  else
    let s1 := s.bump pgVlt p 0 rVltRdLines 1
    match lineDecode (noisy (v.stored l) noise) with
    | .clean d => (s1, some d)
    | .fixed d k => (s1.lineCorrected p l k d, some d)
    | .lost => (s1.lineUe p l).tableLine p l

/-- The write queue is drained, oldest first, each line behind a rewrite of it that waits (R183, R318); a line of a granule
that waits for its restore stays (R329). A drain turns the interface round twice (R182). -/
def State.drainWq (s : State) (p : Nat) : State :=
  let v := s.vault p
  let stays (l : Nat) : Bool := v.filling.contains (l / 64)
  let go := v.wq.filter (fun e => !stays e.1)
  let hit (l : Nat) : Bool := go.any (fun e => e.1 = l)
  let again := (v.rewrites.filter (fun r => hit r.1)).length
  if go.isEmpty then s
  else
    let v' := go.foldl (fun v e => v.store e.1 (lineEncode e.2)) v
    (((s.setVault p { v' with wq := v.wq.filter (fun e => stays e.1), rewrites := v.rewrites.filter (fun r => !hit r.1) }).bump
      pgVlt p 0 rVltWrLines (go.length + again)).bump pgVlt p 0 rVltRewrites again).bump pgVlt p 0 rVltTurnaround 2

/-- A rewrite of a line that waits is dropped for a newer write, and counted (R318). -/
def State.dropRewrite (s : State) (p l : Nat) : State :=
  if (s.vault p).rewrites.any (fun e => e.1 = l) then
    (s.modVault p (fun v => { v with rewrites := v.rewrites.filter (fun e => e.1 != l) })).bump pgVlt p 0 rVltRewriteDropped 1
  else s

/-- A full-line write is accepted: it replaces any merge entry and queued write of the line, and drops a rewrite that
waits (R186, R318). A queue that has reached wr_high is drained (R183). -/
def State.acceptLine (s : State) (p l : Nat) (d : List Byte) : State :=
  let s2 := (s.dropRewrite p l).modVault p (fun v => { v with
    mb := v.mb.filter (fun e => e.line != l)
    flags := v.flags.filter (· != l)
    lostLines := v.lostLines.filter (fun e => e.1 != l || e.2 = 2)
    wq := v.wq.filter (fun e => e.1 != l) ++ [(l, d)] })
  if (s2.vault p).wq.length ≥ s2.fld pgVlt p 0 rVltCfg 6 0 then s2.drainWq p else s2

/-- A merge entry's bytes over a line. -/
def overlay (data : List (Option Byte)) (base : List Byte) : List Byte :=
  (List.range 64).map (fun i => match data.getD i none with | some b => b | none => base.getD i 0)

/-- An incomplete merge entry is evicted by read-modify-write (R185, R330). The line is read from the write queue where an
older write of it waits there, and its bytes are zero where the entry's granule was unwritten (R189). Answers the merged line;
nothing where the line is lost. -/
def State.evictLine (s : State) (p l : Nat) (noise : BitVec 576) : State × Option (List Byte) :=
  match (s.vault p).mb.find? (fun e => e.line = l) with
  | none => (s, none)
  | some e =>
    let (s1, r) := match (s.vault p).wq.find? (fun q => q.1 = l) with
      | some q => (s, some q.2)
      | none => if e.fresh then (s, some (List.replicate 64 0)) else s.arrayRead p l noise
    let s2 := s1.bump pgVlt p 0 rVltRmw 1
    match r with
    | some base => (s2.acceptLine p l (overlay e.data base), some (overlay e.data base))
    | none =>
      if s2.lineClass p l = 1 || s2.lineClass p l = 2 then
        (s2.modVault p (fun v => { v with mb := v.mb.map (fun x => if x.line = l then { x with held := true } else x) }), none)
      else
        ((s2.modVault p (fun v => { v with mb := v.mb.filter (fun x => x.line != l) })).log 0x0F
          { cls := s2.lineClass p l, vault := p, addr := l * 64 }, none)

def State.evict (s : State) (p l : Nat) (noise : BitVec 576) : State := (s.evictLine p l noise).1

/-- A read of one line of a vault (R179, R185): the merge buffer, whose entry it evicts, then the write queue, then the
array. -/
def State.readLine (s : State) (p l : Nat) (noise : BitVec 576) : State × Option (List Byte) :=
  if (s.vault p).mb.any (fun e => e.line = l) then s.evictLine p l noise
  else match (s.vault p).wq.find? (fun e => e.1 = l) with
  | some e => (s, some e.2)
  | none => s.arrayRead p l noise

/-- The granule of an unwritten granule's first write is materialised: encoded zeros, of which n lines are written because
the write does not cover their pair whole, and the valid bit set (R189). -/
def State.materialise (s : State) (p g n : Nat) : State :=
  let v := s.vault p
  if v.isValid g then s
  else
    let v1 := foldN 64 (fun i v => v.store (g * 64 + i) (List.replicate 72 0)) v
    ((s.setVault p { v1 with valid := insNat v1.valid g
                             flags := v1.flags.filter (fun l => l / 64 != g) }).bump pgVlt p 0 rVltZeroFill 1).bump
      pgVlt p 0 rVltWrLines n

/-- A write to a part of one line enters the merge buffer (R184); with all 64 entries in use the oldest that is not held is
evicted for it (R185), and with all of them held it waits for a restore (R330). `fresh`: the line's granule was unwritten. -/
def State.acceptNarrow (s : State) (p l i : Nat) (bs : List Byte) (fresh : Bool) : State :=
  let new (old : List (Option Byte)) : List (Option Byte) :=
    (List.range 64).map (fun k => if i ≤ k ∧ k < i + bs.length then some (bs.getD (k - i) 0) else old.getD k none)
  let s := s.dropRewrite p l
  match (s.vault p).mb.find? (fun e => e.line = l) with
  | some e =>
    let d := new e.data
    if d.all Option.isSome then s.acceptLine p l (overlay d [])
    else s.modVault p (fun v => { v with mb := v.mb.map (fun x => if x.line = l then { x with data := d } else x) })
  | none =>
    let s1 := ((s.vault p).mb.filter (fun e => !e.held)).foldl
      (fun s e => if (s.vault p).mb.length < 64 then s else s.evict p e.line 0) s
    if (s1.vault p).mb.length < 64 then s1.modVault p (fun v => { v with mb := v.mb ++ [⟨l, new [], false, fresh⟩] })
    else s1.modVault p (fun v => { v with held := v.held ++ [.write none (l * 64 + i) bs] })

/-- A write of bytes within one line (R183, R184, R189). `fresh`: its granule was unwritten when the whole write came; `n`:
the lines that a materialisation writes. -/
def State.putLine (s : State) (p l i : Nat) (bs : List Byte) (fresh : Bool) (n : Nat) : State :=
  let s1 := s.materialise p (l / 64) n
  if i = 0 ∧ bs.length = 64 then s1.acceptLine p l bs
  else s1.acceptNarrow p l i bs (fresh || !(s.vault p).isValid (l / 64))

/-- Lines of granule g that are in no line pair which a write of n bytes from a covers whole (R189). -/
def fillLines (a n g : Nat) : Nat :=
  64 - 2 * (min (a + n) ((g + 1) * 4096) / 128 - ceilDiv (max a (g * 4096)) 128)

/-- Merge entries evicted and the write queue drained, before the vault leaves MEMORY (R187). -/
def State.drainVault (s : State) (p : Nat) : State :=
  let s1 := (s.vault p).mb.foldl (fun s e => if e.held then s else s.evict p e.line 0) s
  s1.drainWq p

/-! ### Ranges of a logical vault, with migration (R460) -/

/-- The vault from which an unmigrated granule comes (R460, R480). -/
def Migrate.src (m : Migrate) (g : Nat) : Nat :=
  match m.srcs.find? (fun x => x.2.1.contains g) with
  | some x => x.1
  | none => m.old

/-- The physical vault that holds a granule of a logical vault now. -/
def State.holder (s : State) (l g : Nat) : Option Nat :=
  match s.abs.migs.find? (fun m => m.logical = l) with
  | some m => if m.left.contains g && !m.oldLost then some (m.src g) else some m.new
  | none => s.vaultOf l

/-- One granule migrates (R460, R461): its lines go to the new vault as stored, and its new valid bit is set. -/
def State.migrateGranule (s : State) (l g : Nat) : State :=
  match s.abs.migs.find? (fun m => m.logical = l) with
  | none => s
  | some m =>
    if !m.left.contains g then s
    else
      let gone (x : Migrate) : Migrate := if x.logical = l then { x with left := x.left.filter (· != g) } else x
      let drop (s : State) : State := { s with abs := { s.abs with migs := s.abs.migs.map gone } }
      if m.oldLost then
        -- R461: every unmigrated granule is uncorrectable
        let s0 := drop (s.materialise m.new g 0)
        let c := s0.lineClass m.new (g * 64)
        let s1 := s0.modVault m.new (fun v => foldN 64 (fun i v => v.store (g * 64 + i) lostWord) v)
        if c = 1 then s1.kvLost m.new (g * 64) else s1
      else if !(s.vault (m.src g)).isValid g then drop s
      else
        let s1 := s.materialise m.new g 0
        let s2 := foldN 64 (fun i s =>
          let ln := g * 64 + i
          let (s', r) := s.readLine (m.src g) ln 0
          match r with
          | some d => s'.modVault m.new (fun v => v.store ln (lineEncode d))
          | none => s'.modVault m.new (fun v => v.store ln ((s'.vault (m.src g)).stored ln))) s1
        (drop s2).bump pgStw 0 0 rStwMigrated 1

/-- n bytes from local address a of a logical vault; nothing when a line is lost or no vault serves it. -/
def State.vaultBytes (s : State) (l a n : Nat) : State × Option (List Byte) :=
  if n = 0 then (s, some []) else
  let first := a / 64
  let cnt := (a + n - 1) / 64 - first + 1
  let (s', bs, ok) := (List.range cnt).foldl (fun (acc : State × List Byte × Bool) i =>
    let (s, bs, ok) := acc
    let ln := (first + i) % 16777216
    match s.holder l (ln / 64) with
    | none => (s, bs ++ List.replicate 64 0, false)
    | some p =>
      let (s1, r) := s.readLine p ln 0
      match r with
      | some d => (s1, bs ++ d, ok)
      | none => (s1, bs ++ List.replicate 64 0, false)) (s, [], true)
  (s', if ok then some ((bs.drop (a % 64)).take n) else none)

/-- Write bytes from local address a of a logical vault, line by line; an unmigrated granule migrates first. -/
def State.vaultPut (s : State) (l a : Nat) (bs : List Byte) : State :=
  if bs.isEmpty then s else
  let first := a / 64
  let cnt := (a + bs.length - 1) / 64 - first + 1
  let fresh (g : Nat) : Bool := match s.holder l g with | some p => !(s.vault p).isValid g | none => false
  (List.range cnt).foldl (fun s i =>
    let ln := (first + i) % 16777216
    let lo := if i = 0 then a % 64 else 0
    let from_ := (first + i) * 64 + lo - a
    let seg := (bs.drop from_).take (64 - lo)
    let s1 := s.migrateGranule l (ln / 64)
    match s1.holder l (ln / 64) with
    | none => s1
    | some p => s1.putLine p ln lo seg (seg.length != 64 && fresh (ln / 64)) (fillLines a bs.length ((first + i) / 64))) s

/-! ### The near aperture (R173, R174) -/

/-- R173: the logical vault and local address of an aperture offset. -/
def nearSplit (o : Nat) : Nat × Nat :=
  (bits o 19 12 ^^^ bits o 27 20 ^^^ bits o 35 28, bits o 37 20 * 4096 + bits o 11 0)

/-- R174: the aperture offset of a local address of a logical vault. -/
def nearJoin (v a : Nat) : Nat :=
  bits a 29 12 <<< 20 + (v % 256 ^^^ bits a 19 12 ^^^ bits a 27 20) <<< 12 + bits a 11 0

/-- Cut n bytes from offset o at 4 KiB boundaries: (offset, length, distance from the start) (R177). -/
def pieces (o n : Nat) : List (Nat × Nat × Nat) :=
  if n = 0 then [] else
  (List.range ((o + n - 1) / 4096 - o / 4096 + 1)).map (fun i =>
    let b := if i = 0 then o else (o / 4096 + i) * 4096
    let e := min (o + n) ((o / 4096 + i + 1) * 4096)
    (b, e - b, b - o))

/-! ### Order addresses (R147) -/

/-- Where an order address points. -/
inductive Loc where
  | stock (core off : Nat)
  | vault (logical off : Nat)
  | near (o : Nat)
  | far (port off : Nat)
  | host (a : Nat)
  | guild (dev o : Nat)
  | market (guild dev core off : Nat)
deriving DecidableEq, Repr

/-- The space code of an order address. -/
def spaceOf (a : Nat) : Nat := bits a 63 60

/-- The place an order address names for a core's orders, a code from 0x9 up taken as STOCK (R147). -/
def locOf (core a : Nat) : Loc :=
  match spaceOf a with
  | 1 => .vault core (bits a 29 0)
  | 2 => .stock (bits a 37 30) (bits a 20 0)
  | 3 => .vault (bits a 37 30) (bits a 29 0)
  | 4 => .near (bits a 37 0)
  | 5 => .far (bits a 41 40) (bits a 39 0)
  | 6 => .host (bits a 56 0)
  | 7 => .guild (bits a 43 38) (bits a 37 0)
  | 8 => .market (bits a 55 44) (bits a 43 38) (bits a 37 30) (bits a 20 0)
  | _ => .stock core (bits a 20 0)

/-- A place n bytes further, wrapping in its space (R147). -/
def Loc.plus (x : Loc) (n : Nat) : Loc :=
  match x with
  | .stock c o => .stock c ((o + n) % 2097152)
  | .vault l o => .vault l ((o + n) % 1073741824)
  | .near o => .near ((o + n) % 274877906944)
  | .far p o => .far p ((o + n) % 1099511627776)
  | .host a => .host ((a + n) % 2 ^ 57)
  | .guild d o => .guild d ((o + n) % 274877906944)
  | .market g d c o => .market g d c ((o + n) % 2097152)

/-- The stockroom words that a byte range covers. -/
def stockWords (a n : Nat) : List Nat :=
  if n = 0 then [] else (List.range ((a % 2097152 + n - 1) / 8 - (a % 2097152) / 8 + 1)).map
    (fun i => ((a % 2097152) / 8 + i) % 262144)

/-- n bytes of a stockroom. -/
def State.stockBytes (s : State) (c a n : Nat) : List Byte := memBytesWrap 2097152 (s.core c).stock (a % 2097152) n

/-- A double-bit error in the words of a range (R333). -/
def State.stockLost (s : State) (c a n : Nat) : Bool :=
  !(s.core c).stockBad.isEmpty && (stockWords a n).any (fun w => (s.core c).stockBad.contains w)

/-- A read of a stockroom word with a double-bit error: it is counted and logged, and the tile castles (R333, R455). -/
def State.sramUe (s : State) (c a : Nat) : State :=
  ((s.bump pgStw 0 0 rStwSramUe 1).log 0x0D { core := c, addr := a }).castTrigger ⟨c, 5, false, false⟩

/-- Write bytes of a stockroom; a word written whole is whole again. -/
def State.stockWrite (s : State) (c a : Nat) (bs : List Byte) : State :=
  s.modCore c (fun k => { k with
    stock := memSetBytesWrap 2097152 k.stock (a % 2097152) bs
    stockBad := k.stockBad.filter (fun w => !(decide (a % 2097152 ≤ 8 * w) && decide (8 * w + 8 ≤ a % 2097152 + bs.length))) })

/-! ### The snapshot copy (R372, R373) -/

/-- Write bytes of an image at its destination. -/
def State.imagePut (s : State) (x : Loc) (bs : List Byte) : State :=
  match x with
  | .stock c o => s.stockWrite c o bs
  | .vault l o => s.vaultPut l o bs
  | .near o => (pieces o bs.length).foldl (fun s q =>
      let (v, a) := nearSplit (q.1 % 274877906944)
      s.vaultPut v a ((bs.drop q.2.2).take q.2.1)) s
  | .far p o =>
    let f := s.farPort p
    if f.st = .up || f.st = .upDegraded then
      (s.modFar p (fun f => { f with mem := memSetBytesWrap 1099511627776 f.mem o bs
                                     poison := f.poison.filter (fun l => !(decide (o ≤ 64 * l) && decide (64 * l + 64 ≤ o + bs.length))) })).bump
        pgFarp p 0 rFarpWrBytes bs.length
    else s
  | .host a => s.hostWrite a bs
  | .guild _ _ => s
  | .market _ _ _ _ => s

/-- Bytes that a partition's DMA moves over the host link or a far port are charged (R393). They are part of a longer command,
which the model does not hold (DESIGN CHOICE, assumption 115). -/
def State.dmaCharge (s : State) (p : Nat) (x : Loc) (out : Bool) (n : Nat) : State :=
  match x with
  | .host _ => s.gateTake (.host p out) n
  | .far f _ => s.gateTake (.far p f out) n
  | _ => s

/-- The key of a granule of a logical vault. -/
def granuleKey (l g : Nat) : Nat := l * 262144 + g

/-- A granule of a logical vault that is still uncopied goes into the image: its place, and its 4 KiB (R373, R450). -/
def State.snapGranule (s : State) (l g : Nat) : State :=
  match s.snap with
  | none => s
  | some x =>
    if !x.uncopied.contains (granuleKey l g) then s
    else
      let (s1, b) := s.vaultBytes l (g * 4096) 4096
      let (s2, bs) := match b with | some bs => (s1, bs) | none => s1.freeBytes 4096
      let s3 := (s2.dmaCharge x.part (locOf 0 x.dest) true 4104).imagePut ((locOf 0 x.dest).plus x.fill) (leBytes 8 (l <<< 30 + g * 4096) ++ bs)
      { s3 with snap := some { x with
          uncopied := x.uncopied.filter (· != granuleKey l g)
          placed := smPut x.placed (granuleKey l g) x.fill
          fill := x.fill + 4104 } }

/-- A write within one line of a physical vault, a piece of a write of n bytes from a: a granule that the snapshot still
needs is copied first (R373). -/
def State.writeLine (s : State) (p ln i : Nat) (bs : List Byte) (fresh : Bool) (a n : Nat) : State :=
  (s.snapGranule (s.vault p).logical (ln / 64)).putLine p ln i bs fresh (fillLines a n (ln / 64))

/-- The granules of a range that the snapshot still needs are copied. -/
def State.snapRange (s : State) (l first count : Nat) : State :=
  match s.snap with
  | none => s
  | some x => (x.uncopied.filter (fun k => decide (granuleKey l first ≤ k) && decide (k < granuleKey l first + count))).foldl
      (fun s k => s.snapGranule l (k % 262144)) s

/-- Write bytes from local address a of a logical vault. -/
def State.vaultWrite (s : State) (l a : Nat) (bs : List Byte) : State :=
  (s.snapRange l (a / 4096) (if bs.isEmpty then 0 else (a + bs.length - 1) / 4096 - a / 4096 + 1)).vaultPut l a bs

/-- The valid bits of a range of granules of a physical vault are cleared (R191). While its logical vault migrates they are
cleared in the new vault as well, and have no need to migrate. -/
def State.clearRange (s : State) (p first count : Nat) : State :=
  let l := (s.vault p).logical
  let s1 := (s.snapRange l first count).modVault p (fun v => v.clearValid first count)
  if s1.abs.migs.any (fun m => m.logical = l && (m.new = p || m.old = p)) then
    let gone (m : Migrate) : Migrate := if m.logical = l && (m.new = p || m.old = p) then
      { m with left := m.left.filter (fun g => !(decide (first ≤ g) && decide (g < first + count))) } else m
    let s2 := s1.abs.migs.foldl (fun s m => if m.logical = l && m.old = p then s.modVault m.new (fun v => v.clearValid first count) else s) s1
    { s2 with abs := { s2.abs with migs := s2.abs.migs.map gone } }
  else s1

/-- A clear that the ledger asks for: at once in MEMORY, and otherwise when the vault is next in MEMORY (R191, R212). -/
def State.clearPage (s : State) (p first count : Nat) : State :=
  if (s.vault p).mode = .memory then s.clearRange p first count
  else s.modVault p (fun v => { v with clears := v.clears ++ [(first, count)] })

/-- A vault goes to MEMORY: the clears that waited for it are done (R212). -/
def State.toMemory (s : State) (p : Nat) : State :=
  let s1 := s.modVault p (fun v => { v with mode := .memory, clears := [] })
  (s.vault p).clears.foldl (fun s r => s.clearRange p r.1 r.2) s1

/-- A granule of a vault is under discard (R192), waits for its restore (R329), or lies in a bank one of whose remap words is
being reloaded (R325). -/
def Vault.discarding (v : Vault) (g : Nat) : Bool :=
  match v.discard with | some (a, n) => decide (a ≤ g) && decide (g < a + n) | none => false
def Vault.reloading (v : Vault) (g : Nat) : Bool := v.remapBad.any (fun seg => seg % 128 / 2 = g % 64)
def Vault.busyAt (v : Vault) (g : Nat) : Bool := v.discarding g || v.filling.contains g || v.reloading g

/-- Some granule of a range is busy. -/
def Vault.busyIn (v : Vault) (first count : Nat) : Bool :=
  (match v.discard with | some (a, n) => decide (a < first + count) && decide (first < a + n) | none => false)
  || v.filling.any (fun g => decide (first ≤ g) && decide (g < first + count))
  || (!v.remapBad.isEmpty && (List.range (min count 64)).any (fun i => v.reloading (first + i)))

/-- What a far read reads (R391): a page of the ledger, KV 1; a golden copy, PATTERN 2; anything else, OTHER 4. -/
def State.farClass (s : State) (p o : Nat) : Nat :=
  if s.ledgAll.any (fun e => (e.2.st = .far || (e.2.st = .moving && !e.2.toFar)) && e.2.vault = p
      && decide (e.2.frame * 32768 ≤ o) && decide (o < e.2.frame * 32768 + pageBytes e.2.z)) then 1
  else if s.parts.any (fun pt => pt.2.patterns.any (fun q => q.regions.any (fun r => spaceOf r.golden = 5
      && bits r.golden 41 40 = p && decide (bits r.golden 39 0 ≤ o) && decide (o < bits r.golden 39 0 + r.len)))) then 2
  else 4

/-- Bytes at a place: nothing where they are lost. A GUILD or MARKET place is read by messages, not here. -/
def State.readLoc (s : State) (x : Loc) (n : Nat) : State × Option (List Byte) :=
  match x with
  | .stock c o =>
    if s.stockLost c o n then
      (s.sramUe c o, none)
    else (s, some (s.stockBytes c o n))
  | .vault l o => s.vaultBytes l o n
  | .near o =>
    let (s', bs, ok) := (pieces o n).foldl (fun (acc : State × List Byte × Bool) q =>
      let (s, bs, ok) := acc
      let (v, a) := nearSplit (q.1 % 274877906944)
      let (s1, r) := s.vaultBytes v a q.2.1
      match r with
      | some d => (s1, bs ++ d, ok)
      | none => (s1, bs ++ List.replicate q.2.1 0, false)) (s, [], true)
    (s', if ok then some bs else none)
  | .far p o =>
    let f := s.farPort p
    let s1 := s.bump pgFarp p 0 rFarpRdBytes n
    if f.st = .up || f.st = .upDegraded then
      if f.poison.any (fun l => decide (o / 64 ≤ l) && decide (l ≤ (o + n - 1) / 64)) then
        (((s1.bump pgFarp p 0 rFarpPoison 1).setErr pgFarp p 2).log 0x02 { cls := s.farClass p o, addr := o, status := 4 }, none)
      else (s1, some (memBytesWrap 1099511627776 f.mem o n))
    else (((s1.bump pgFarp p 0 rFarpTimeout 1).setErr pgFarp p 1).log 0x02 { cls := s.farClass p o, addr := o, status := 4 }, none)
  | .host a =>
    if s.hostUp then (s.bump pgHost 0 0 rHostRxBytes n, some (s.hostBytes a n))
    else ((s.bump pgHost 0 0 rHostCplTimeout 1).setErr pgHost 0 1, none)
  | .guild _ _ => (s, none)
  | .market _ _ _ _ => (s, none)

/-- Write bytes at a place of this device. -/
def State.writeLoc (s : State) (x : Loc) (bs : List Byte) : State :=
  match x with
  | .vault l o => s.vaultWrite l o bs
  | .near o => (pieces o bs.length).foldl (fun s q =>
      let (v, a) := nearSplit (q.1 % 274877906944)
      s.vaultWrite v a ((bs.drop q.2.2).take q.2.1)) s
  | _ => s.imagePut x bs

/-- The pieces of n bytes at a place that lie in vaults: logical vault, local address, length. -/
def Loc.parts (x : Loc) (n : Nat) : List (Nat × Nat × Nat) :=
  match x with
  | .vault l o => [(l, o, n)]
  | .near o => (pieces o n).map (fun q => let y := nearSplit (q.1 % 274877906944); (y.1, y.2, q.2.1))
  | _ => []

/-- The logical vaults that n bytes at a place lie in. -/
def Loc.vaults (x : Loc) (n : Nat) : List Nat := (x.parts n).map (·.1)

/-- Granules that n bytes from local address a touch. -/
def granulesOf (a n : Nat) : Nat := if n = 0 then 0 else (a + n - 1) / 4096 - a / 4096 + 1

/-- Every vault of a place is in MEMORY, and none of its granules there is busy (R160, R189, R192, R212, R325, R329). -/
def State.locReady (s : State) (x : Loc) (n : Nat) : Bool :=
  (x.parts n).all (fun q => match s.vaultOf q.1 with
    | some p => (s.vault p).mode = .memory && !(s.vault p).busyIn (q.2.1 / 4096) (granulesOf q.2.1 q.2.2)
    | none => true)

/-- Lines of a place served to GUEST: those in vaults that are not the own vault of the core that asks (R178, R202). -/
def State.guestLines (s : State) (own : Option Nat) (x : Loc) (n : Nat) : State :=
  (x.parts n).foldl (fun s q => match s.vaultOf q.1 with
    | some p => if own = some q.1 || q.2.2 = 0 then s else s.bump pgVlt p 0 rVltGuestLines (ceilDiv (q.2.1 % 64 + q.2.2) 64)
    | none => s) s

/-- Whether n bytes at a place lie inside a partition's windows and cores (R148, R449). -/
def State.inWindows (s : State) (p : Nat) (x : Loc) (n : Nat) : Bool :=
  let pt := s.part p
  match x with
  | .stock c _ => pt.cores.contains c
  | .vault l _ => pt.cores.contains l
  | .near o => (pieces o n).all (fun q => pt.cores.contains (nearSplit (q.1 % 274877906944)).1)
  | .far f o => let w := pt.far.getD f (0, 0); decide (w.1 ≤ o) && decide (o + n ≤ w.1 + w.2)
  | .host a => decide (pt.host.1 ≤ a) && decide (a + n ≤ pt.host.1 + pt.host.2)
  | .guild _ _ => true
  | .market _ _ _ _ => true

end Sys2Proof.Machine
end

