-- ==== Sys2Proof/Machine/Flags.lean ====
section
/-! DEFINITION. Completion statuses (R9 to R11), counters (R139, R140) and the clamp bookkeeping of an order (R8). -/

namespace Sys2Proof.Machine

/-- Status codes (R9). -/
abbrev stOk := 0
abbrev stClamped := 1
abbrev stState := 2
abbrev stQuota := 3
abbrev stLost := 4
abbrev stLane := 5
abbrev stReplayed := 6
abbrev stAuth := 7

/-- The place of a status in the order of R11; the smallest applies. -/
def statusRank (st : Nat) : Nat :=
  match st with
  | 7 => 1
  | 5 => 2
  | 2 => 3
  | 3 => 4
  | 4 => 5
  | 6 => 6
  | 1 => 7
  | _ => 8

/-- The status reported when two apply (R11). -/
def statusJoin (a b : Nat) : Nat := if statusRank b < statusRank a then b else a

/-- The first status that applies among a list (R11). -/
def statusOf (l : List Nat) : Nat := l.foldl statusJoin stOk

/-- Whether a status's result is valid (the table of completion statuses). -/
def statusValid (st : Nat) : Bool := st = 0 || st = 1 || st = 6

/-- A completion counter's value. -/
def State.ctr (s : State) (c k : Nat) : Word := smGet 0 (s.core c).ctrs (k % 64)

/-- A completion counter takes a value. -/
def State.setCtr (s : State) (c k : Nat) (v : Word) : State :=
  s.modCore c (fun x => { x with ctrs := smSet 0 x.ctrs (k % 64) v })

/-- A completion counter rises by n modulo 2^32 (R139). -/
def State.signal (s : State) (c k n : Nat) : State := s.setCtr c k (s.ctr c k + BitVec.ofNat 32 n)

/-- R140: a counter value satisfies a target. -/
def ctrSatisfies (v t : Word) : Bool := decide ((v - t).toNat < 2147483648)

def State.sreg (s : State) (c k : Nat) : DWord := smGet 0 (s.core c).sregs (k % 64)
def State.setSreg (s : State) (c k : Nat) (v : DWord) : State :=
  s.modCore c (fun x => { x with sregs := smSet 0 x.sregs (k % 64) v })

/-- A field value with the number of clamps that it took (0 or 1, R8). -/
abbrev Clamped := Nat × Nat

/-- Clamp to the nearer bound. -/
def clampTo (lo hi v : Nat) : Clamped := (clampNat lo hi v, b2n (v < lo || v > hi))

/-- An enumerated value above the last listed takes `d` (R8). -/
def clampEnum (last d v : Nat) : Clamped := if v > last then (d, 1) else (v, 0)

end Sys2Proof.Machine
end

