-- ==== Sys2Proof/Machine/Frame.lean ====
section
/-! DEFINITION. Mioquin frames (R353, R354), messages in bytes (R357), routing (R358, R359, R361) and the sending of a
message on a port with its credits and replay buffer (R355, R356). -/

namespace Sys2Proof.Machine

/-- The FEC of frames (R354). -/
def rsFec : RsCode := ⟨⟨10, 0x409⟩, 512, 16⟩

/-- CRC-32 as R343 defines it. -/
def crc32 (bs : List Byte) : Nat :=
  let r := crcBits 32 0x04C11DB7 0xFFFFFFFF (bitsLsb bs)
  -- the register is reflected and inverted at the end
  (BitVec.ofNat 32 r).reverse.toNat ^^^ 0xFFFFFFFF

/-- Symbol s of a little-endian bit string in symbols of 10 bits. -/
def sym10 (v s : Nat) : Nat := (v >>> (10 * s)) % 1024

/-- The number whose symbols of 10 bits these are, lowest first. -/
def symsNat (l : List Nat) : Nat := l.foldr (fun x v => x + 1024 * v) 0

/-- The 640 bytes of a frame, as a number, from its first 616 bytes (R353, R354). -/
def frameSeal (body : List Byte) : Nat :=
  let b := body ++ leBytes 4 (crc32 body)
  let v := leNat b
  let par := rsCheck rsFec ((List.range 496).map (sym10 v))
  v + symsNat par <<< 4960

/-- The positions, from i on, at which two lists differ. -/
def symDiffs (i : Nat) (a b : List Nat) : List Nat :=
  match a, b with
  | x :: a, y :: b => if x = y then symDiffs (i + 1) a b else i :: symDiffs (i + 1) a b
  | _, _ => []

/-- What a receiver makes of a frame: its first 616 bytes and the positions of the corrected symbols, or nothing (R354). -/
def frameOpen (f : BitVec 5120) : Option (List Byte × List Nat) :=
  let v := f.toNat
  let word := ((List.range 16).map (fun j => sym10 v (496 + j))) ++ ((List.range 496).map (sym10 v))
  match rsDecode rsFec word with
  | none => none
  | some (w, _) =>
    let d := symsNat (w.drop 16)
    let bs := leBytes 620 d
    if leNat (bs.drop 616) = crc32 (bs.take 616) then
      some (bs.take 616, symDiffs 0 w word)
    else none

/-- Bytes of a message (R357). -/
def msgBytes (m : FMsg) : List Byte :=
  let n := ceilDiv m.data.length 8
  leBytes 4 (m.ty % 256 + (n % 128) <<< 8 + (m.dstDev % 64) <<< 15 + (m.srcDev % 64) <<< 21)
    ++ leBytes 4 (m.dstGuild % 4096 + (m.srcGuild % 4096) <<< 12 + b2n m.snap <<< 24)
    ++ leBytes 8 m.info ++ m.data ++ List.replicate (8 * n - m.data.length) 0

/-- The messages of a message area, at most k of them (R357). -/
def areaMsgs (k : Nat) (bs : List Byte) : List FMsg :=
  match k with
  | 0 => []
  | k + 1 =>
    let w0 := leNat (bs.take 4)
    let w1 := leNat ((bs.drop 4).take 4)
    if bs.length < 16 ∨ bits w0 7 0 = 0 then []
    else
      let n := 8 * bits w0 14 8
      { ty := bits w0 7 0, dstDev := bits w0 20 15, srcDev := bits w0 26 21, dstGuild := bits w1 11 0,
        srcGuild := bits w1 23 12, snap := bit w1 24, info := leNat ((bs.drop 8).take 8),
        data := (bs.drop 16).take n } :: areaMsgs k (bs.drop (16 + n))

/-- The virtual channel that the type of a message decides (R357, R362): REQ 0, RSP 1, CTL 2, MKT 3. An ACK that leaves the
guild is a market ACK. -/
def msgVc (m : FMsg) : Nat :=
  match m.ty with
  | 0x01 => 0
  | 0x02 => 0
  | 0x03 => 1
  | 0x04 => if m.dstGuild = m.srcGuild then 1 else 3
  | 0x0D => 3
  | 0x0F => 0
  | _ => 2

/-! ### Routing -/

def State.portUp (s : State) (n : Nat) : Bool := (s.fport n).st = .up || (s.fport n).st = .upHalf

/-- Coordinate i (0 X, 1 Y, 2 Z) of a device (R358). -/
def torusAt (d i : Nat) : Nat := (d / 4 ^ i) % 4

/-- The first dimension in which two devices differ. -/
def torusDim (a b : Nat) : Option Nat := [0, 1, 2].find? (fun i => torusAt a i != torusAt b i)

/-- The port of the shorter way around a ring, the positive one when both take 2 hops (R358). -/
def torusPort (a b i : Nat) : Nat := if (torusAt b i + 4 - torusAt a i) % 4 ≤ 2 then 2 * i else 2 * i + 1

/-- The other port of a dimension. -/
def otherPort (p : Nat) : Nat := if p % 2 = 0 then p + 1 else p - 1

/-- The port on which a message for a device of the guild leaves (R358, R359): the route table's, or that of dimension
order; the other way around the ring while the port is DOWN; nothing while both are. -/
def State.portFor (s : State) (dst : Nat) : Option Nat :=
  let own := s.fab.device
  let goal := match smFind s.fab.routes dst with | some (_, some via) => if via = own then dst else via | _ => dst
  let first : Option Nat :=
    match smFind s.fab.routes dst with
    | some (some p, _) => some p
    | some (none, none) => none
    | _ => (torusDim own goal).map (torusPort own goal)
  match first with
  | none => none
  | some p => if s.portUp p then some p else if s.portUp (otherPort p) then some (otherPort p) else none

/-- Whether the link out of a port crosses the dateline of its ring, between coordinates 3 and 0 (R358). -/
def crossesDateline (dev p : Nat) : Bool :=
  if p % 2 = 0 then torusAt dev (p / 2) = 3 else torusAt dev (p / 2) = 0

/-- The next guild on the market tree from guild `own` toward guild g (R361). -/
def marketNext (own : Nat) (k g : Nat) : Nat :=
  match k with
  | 0 => (own - 1) / 64
  | k + 1 => if g = 0 then (own - 1) / 64 else if (g - 1) / 64 = own then g else marketNext own k ((g - 1) / 64)

/-- The tree link toward a guild: device and port of the first link of the pair that is up (R361). A link that another
device holds is up unless its link state says otherwise. -/
def State.marketLink (s : State) (g : Nat) : Option (Nat × Nat) :=
  let next := marketNext s.fab.guild 3 g
  (s.fab.marketLinks.find? (fun l => l.1 = next &&
    (if l.2.1 = s.fab.device then s.portUp l.2.2
     else match smFind s.fab.links l.2.1 with | some (up, _) => bit up l.2.2 | none => true))).map (·.2)

/-- The port on which a message leaves this device. -/
def State.msgPort (s : State) (m : FMsg) : Option Nat :=
  if m.dstGuild = s.fab.guild then s.portFor m.dstDev
  else match s.marketLink m.dstGuild with
    | some (d, p) => if d = s.fab.device then some p else s.portFor d
    | none => none

/-- A message is for this device. -/
def State.isMine (s : State) (m : FMsg) : Bool := m.dstGuild = s.fab.guild && m.dstDev = s.fab.device

/-! ### Sending -/

/-- Credits for up to eight VC lanes as two header words (R354). -/
def creditWords (l : List Nat) : Nat := (l.mapIdx (fun i n => min 255 n <<< (8 * i))).foldl (· + ·) 0

/-- The 16 header bytes of a frame (R354). -/
def State.linkHeader (s : State) (port seq vc lane : Nat) (idle replay : Bool) : List Byte :=
  let p := s.fport port
  leBytes 4 (seq % 4096 + b2n idle <<< 12 + b2n replay <<< 13 + ((p.rxSeq + 4095) % 4096) <<< 14 + 1 <<< 26
      + b2n p.nakDue <<< 27 + (vc % 4) <<< 28 + (lane % 2) <<< 30)
    ++ leBytes 8 (creditWords p.owed)
    ++ leBytes 4 (s.fab.device % 64 + (port % 8) <<< 6 + (s.fab.guild % 4096) <<< 9)

/-- One frame with one message leaves a port: it takes the next sequence number, spends a credit of its VC lane, enters
the replay buffer and carries the credits owed (R355, R356). -/
def State.transmit (s : State) (port vc lane : Nat) (m : FMsg) : State :=
  let p := s.fport port
  let k := vc + 4 * lane
  let area := msgBytes m
  let body := s.linkHeader port p.txSeq vc lane false false ++ area ++ List.replicate (600 - area.length) 0
  let f : FFrame := ⟨p.txSeq, k, frameSeal body⟩
  let s1 := s.modFport port (fun p => { p with
    txSeq := (p.txSeq + 1) % 4096
    credits := p.credits.set k (p.credits.getD k 0 - 1)
    owed := List.replicate 8 0
    nakDue := false
    replay := (p.replay ++ [f]).drop (p.replay.length + 1 - 1024) })
  (s1.bump pgFabp port 0 rFabpTx 1).emit (.frame port f)

/-- A message is sent on its way on a virtual channel: on its port if that has a credit of the message's lane, else it waits
(R355, R359). `inPort` and `inHigh` say where a message in transit came from (R358). -/
def State.forwardMsg (s : State) (m : FMsg) (vc : Nat) (inPort : Option Nat) (inHigh : Bool) : State :=
  let waits : State := { s with fab := { s.fab with waiting := s.fab.waiting ++ [(m, vc, inPort, inHigh)] } }
  match s.msgPort m with
  | none => waits
  | some p =>
    let same := match inPort with | some q => decide (q / 2 = p / 2) | none => false
    let lane := b2n ((decide (p < 6) && crossesDateline s.fab.device p) || (same && inHigh))
    if (s.fport p).credits.getD (vc + 4 * lane) 0 = 0 then waits else s.transmit p vc lane m

/-- This device sends a message on a virtual channel: it carries this device's numbers and the snap tag in force (R357,
R372). -/
def State.sendOn (s : State) (vc : Nat) (m : FMsg) : State :=
  let m' := { m with srcDev := s.fab.device, srcGuild := s.fab.guild, snap := s.fab.snapTag }
  (s.emit (.fab m')).forwardMsg m' vc none false

/-- This device sends a message on the virtual channel that its type decides. -/
def State.sendMsg (s : State) (m : FMsg) : State := s.sendOn (msgVc { m with srcGuild := s.fab.guild }) m

/-- A message to every other member of the guild. -/
def State.flood (s : State) (ty info : Nat) (data : List Byte) : State :=
  (s.fab.members.filter (fun e => e.1 != s.fab.device)).foldl (fun s e =>
    s.sendMsg ⟨ty, e.1, 0, s.fab.guild, 0, false, info, data⟩) s

/-- Messages that wait are tried again, oldest first. -/
def State.retryWaiting (s : State) : State :=
  let l := s.fab.waiting
  l.foldl (fun s w => s.forwardMsg w.1 w.2.1 w.2.2.1 w.2.2.2) { s with fab := { s.fab with waiting := [] } }

end Sys2Proof.Machine
end

