-- ==== Sys2Proof/Machine/Reach.lean ====
section
/-! DEFINITION. Reaches: the parts of the state that a group of commands can change. A meaning computes its whole effect
and answers `f.take s w`: the parts of `f` from the effect `w`, every other part from `s`. The waiting queue, and the fused keys, seed and mask ROM of
the SECURE block, are never in a reach; its anti-rollback counters are where `fuse` says so. -/

namespace Sys2Proof.Machine

/-- Which parts of the state a group of commands can change. -/
structure Reach where
  regs : Bool := false
  cores : Bool := false
  vaults : Bool := false
  parts : Bool := false
  roll : Bool := false
  ledg : Bool := false
  book : Bool := false
  alm : Bool := false
  adm : Bool := false
  fab : Bool := false
  snap : Bool := false
  d2d : Bool := false
  mesh : Bool := false
  host : Bool := false
  far : Bool := false
  pwr : Bool := false
  thm : Bool := false
  boot : Bool := false
  abs : Bool := false
  sec : Bool := false
  fuse : Bool := false
  elog : Bool := false
  time : Bool := false
  free : Bool := false
  sent : Bool := false
deriving DecidableEq, Repr

/-- The parts of a reach from `w`, every other part from `s`. -/
def Reach.take (f : Reach) (s w : State) : State where
  regs := if f.regs then w.regs else s.regs
  latch := if f.regs then w.latch else s.latch
  staged := if f.regs then w.staged else s.staged
  cores := if f.cores then w.cores else s.cores
  vaults := if f.vaults then w.vaults else s.vaults
  parts := if f.parts then w.parts else s.parts
  rollA := if f.roll then w.rollA else s.rollA
  rollB := if f.roll then w.rollB else s.rollB
  ledgA := if f.ledg then w.ledgA else s.ledgA
  ledgB := if f.ledg then w.ledgB else s.ledgB
  book := if f.book then w.book else s.book
  alm := if f.alm then w.alm else s.alm
  admHead := if f.adm then w.admHead else s.admHead
  admTail := if f.adm then w.admTail else s.admTail
  acqHead := if f.adm then w.acqHead else s.acqHead
  acqTail := if f.adm then w.acqTail else s.acqTail
  admOpen := if f.adm then w.admOpen else s.admOpen
  admWait := if f.adm then w.admWait else s.admWait
  fab := if f.fab then w.fab else s.fab
  snap := if f.snap then w.snap else s.snap
  d2d := if f.d2d then w.d2d else s.d2d
  meshA := if f.mesh then w.meshA else s.meshA
  meshB := if f.mesh then w.meshB else s.meshB
  gates := if f.mesh then w.gates else s.gates
  host := if f.host then w.host else s.host
  far := if f.far then w.far else s.far
  pwr := if f.pwr then w.pwr else s.pwr
  thm := if f.thm then w.thm else s.thm
  boot := if f.boot then w.boot else s.boot
  abs := if f.abs then w.abs else s.abs
  sec := if f.sec then { w.sec with
      svn := if f.fuse then w.sec.svn else s.sec.svn
      keys := s.sec.keys, revoked0 := s.sec.revoked0, seed := s.sec.seed, rom := s.sec.rom } else s.sec
  elog := if f.elog then w.elog else s.elog
  timeUs := if f.time then w.timeUs else s.timeUs
  freeCtr := if f.free then w.freeCtr else s.freeCtr
  sent := if f.sent then w.sent else s.sent
  pending := s.pending

/-- A core, its registers and the free values. -/
def reachCore : Reach := { regs := true, cores := true, free := true }

/-- Vaults, with what their events tell the foreman, recovery and the error log. -/
def reachVault : Reach := { regs := true, cores := true, vaults := true, parts := true, ledg := true, roll := true, book := true, fab := true, d2d := true, mesh := true, abs := true, elog := true, host := true, snap := true, far := true, free := true, sent := true }

/-- What a work order can reach: everything but device control (bring-up, heat, power, security, time, the admin rings and the almanac). -/
def reachOrder : Reach := { regs := true, cores := true, vaults := true, parts := true, roll := true, ledg := true, book := true, fab := true, snap := true, d2d := true, mesh := true, host := true, far := true, abs := true, elog := true, free := true, sent := true }

/-- What the foreman, an admin command or a message can reach: everything but bring-up, heat, power, the fused counters and sessions, and time. -/
def reachServe : Reach := { regs := true, cores := true, vaults := true, parts := true, roll := true, ledg := true, book := true, alm := true, adm := true, fab := true, snap := true, d2d := true, mesh := true, host := true, far := true, abs := true, elog := true, free := true, sent := true }

/-- The links and what their loss sets going. -/
def reachLink : Reach := { regs := true, cores := true, vaults := true, parts := true, roll := true, ledg := true, book := true, alm := true, adm := true, fab := true, snap := true, d2d := true, mesh := true, host := true, far := true, boot := true, abs := true, elog := true, free := true, sent := true }

/-- The SECURE block, its registers and answers. -/
def reachSec : Reach := { regs := true, sec := true, free := true, sent := true, elog := true, host := true }

/-- Everything but the queue and the fused bits of the SECURE block. -/
def reachDev : Reach := { regs := true, cores := true, vaults := true, parts := true, roll := true, ledg := true, book := true, alm := true, adm := true, fab := true, snap := true, d2d := true, mesh := true, host := true, far := true, pwr := true, thm := true, boot := true, abs := true, sec := true, elog := true, time := true, free := true, sent := true }

/-- Everything that a command can change. -/
def reachAll : Reach := { reachDev with fuse := true }

/-- What the rise of an anti-rollback counter reaches. -/
def reachSvn : Reach := { reachSec with fuse := true }

end Sys2Proof.Machine
end

