-- ==== Sys2Proof/Machine/Sha.lean ====
section
/-! DEFINITION. SHA-256 and HMAC-SHA-256. The spec cites the standards by name; the functions are taken from them
(PRESUMED, assumption 11). -/

namespace Sys2Proof.Machine

/-- The 64 round constants of SHA-256. -/
def shaK : List Nat := [
  0x428A2F98, 0x71374491, 0xB5C0FBCF, 0xE9B5DBA5, 0x3956C25B, 0x59F111F1, 0x923F82A4, 0xAB1C5ED5,
  0xD807AA98, 0x12835B01, 0x243185BE, 0x550C7DC3, 0x72BE5D74, 0x80DEB1FE, 0x9BDC06A7, 0xC19BF174,
  0xE49B69C1, 0xEFBE4786, 0x0FC19DC6, 0x240CA1CC, 0x2DE92C6F, 0x4A7484AA, 0x5CB0A9DC, 0x76F988DA,
  0x983E5152, 0xA831C66D, 0xB00327C8, 0xBF597FC7, 0xC6E00BF3, 0xD5A79147, 0x06CA6351, 0x14292967,
  0x27B70A85, 0x2E1B2138, 0x4D2C6DFC, 0x53380D13, 0x650A7354, 0x766A0ABB, 0x81C2C92E, 0x92722C85,
  0xA2BFE8A1, 0xA81A664B, 0xC24B8B70, 0xC76C51A3, 0xD192E819, 0xD6990624, 0xF40E3585, 0x106AA070,
  0x19A4C116, 0x1E376C08, 0x2748774C, 0x34B0BCB5, 0x391C0CB3, 0x4ED8AA4A, 0x5B9CCA4F, 0x682E6FF3,
  0x748F82EE, 0x78A5636F, 0x84C87814, 0x8CC70208, 0x90BEFFFA, 0xA4506CEB, 0xBEF9A3F7, 0xC67178F2]

/-- The initial hash value of SHA-256. -/
def shaH0 : List Word := [0x6A09E667#32, 0xBB67AE85#32, 0x3C6EF372#32, 0xA54FF53A#32, 0x510E527F#32, 0x9B05688C#32, 0x1F83D9AB#32, 0x5BE0CD19#32]

def shaRotr (x : Word) (n : Nat) : Word := x.rotateRight n

/-- The next word of the message schedule from the last sixteen, newest first. -/
def shaNext (l : List Word) : Word :=
  let w2 := l.getD 1 0
  let w15 := l.getD 14 0
  let s1 := shaRotr w2 17 ^^^ shaRotr w2 19 ^^^ (w2 >>> 10)
  let s0 := shaRotr w15 7 ^^^ shaRotr w15 18 ^^^ (w15 >>> 3)
  s1 + l.getD 6 0 + s0 + l.getD 15 0

/-- Extend a reversed schedule by `k` words. -/
def shaSchedule (k : Nat) (l : List Word) : List Word :=
  match k with
  | 0 => l
  | k + 1 => shaSchedule k (shaNext l :: l)

/-- One round over the state a to h. -/
def shaRound (st : List Word) (kw : Word) : List Word :=
  match st with
  | [a, b, c, d, e, f, g, h] =>
    let t1 := h + (shaRotr e 6 ^^^ shaRotr e 11 ^^^ shaRotr e 25) + ((e &&& f) ^^^ (~~~e &&& g)) + kw
    let t2 := (shaRotr a 2 ^^^ shaRotr a 13 ^^^ shaRotr a 22) + ((a &&& b) ^^^ (a &&& c) ^^^ (b &&& c))
    [t1 + t2, a, b, c, d + t1, e, f, g]
  | s => s

/-- Compress one 64-byte block. -/
def shaBlock (h : List Word) (blk : List Byte) : List Word :=
  let m := (List.range 16).map (fun i => BitVec.ofNat 32 (leNat ((blk.drop (4 * i)).take 4).reverse))
  let w := (shaSchedule 48 m.reverse).reverse
  let r := (w.zip (shaK.map (BitVec.ofNat 32))).foldl (fun st (x, k) => shaRound st (x + k)) h
  (h.zip r).map (fun (x, y) => x + y)

/-- Compress `n` blocks. -/
def shaBlocks (n : Nat) (h : List Word) (m : List Byte) : List Word :=
  match n with
  | 0 => h
  | n + 1 => shaBlocks n (shaBlock h (m.take 64)) (m.drop 64)

/-- SHA-256 of a byte string: 32 bytes. -/
def sha256 (msg : List Byte) : List Byte :=
  let l := msg.length
  let z := (119 - l % 64) % 64
  let m := msg ++ [0x80#8] ++ List.replicate z 0 ++ (leBytes 8 (8 * l)).reverse
  (shaBlocks (m.length / 64) shaH0 m).flatMap (fun w => (leBytes 4 w.toNat).reverse)

/-- The bytes of an ASCII label. -/
def asciiBytes (s : String) : List Byte := s.toList.map (fun c => BitVec.ofNat 8 c.toNat)

/-- HMAC-SHA-256. -/
def hmac256 (key msg : List Byte) : List Byte :=
  let k0 := if key.length > 64 then sha256 key else key
  let k := k0 ++ List.replicate (64 - k0.length) 0
  sha256 (k.map (· ^^^ 0x5C#8) ++ sha256 (k.map (· ^^^ 0x36#8) ++ msg))

end Sys2Proof.Machine
end

