-- ==== Sys2Proof/Machine/Restore.lean ====
section
/-! DEFINITION. Golden copies (R292) and the restore of a lost pattern granule from its golden page (R329). -/

namespace Sys2Proof.Machine

/-- Read golden page i of a region and check it against its page hash (R292, R296). -/
def State.goldenPage (s : State) (core : Nat) (r : Region) (i : Nat) : State × Option (List Byte) :=
  let n := min 65536 (r.len - i * 65536)
  let (s1, b) := s.readLoc ((locOf core r.golden).plus (i * 65536)) n
  match b with
  | some bs => if sha256 bs = r.hashes.getD i [] then (s1, some bs) else (s1, none)
  | none => (s1, none)

/-- A golden read failed or did not match: GOLDEN_FAIL is logged and the FORE_ page's golden_fail is set (R292, R329). -/
def State.goldenFail (s : State) (p g : Nat) : State :=
  (s.log 0x0E { cls := 2, vault := p, addr := g * 4096 }).setErr pgFore 0 3

/-- The region of a loaded pattern that holds a byte of a logical vault. -/
def State.regionAt (s : State) (l a : Nat) : Option Region :=
  s.parts.findSome? (fun pt => pt.2.patterns.findSome? (fun q => q.regions.find? (fun r =>
    r.core = l && r.space = 1 && decide (r.off ≤ a) && decide (a < r.off + r.len))))

/-- A granule waits for no restore any more. -/
def State.restoreOver (s : State) (p g : Nat) : State :=
  s.modVault p (fun v => { v with
    lostLines := v.lostLines.filter (fun e => e.1 / 64 != g)
    filling := v.filling.filter (· != g)
    mb := v.mb.map (fun e => if e.line / 64 = g then { e with held := false } else e) })

/-- R329: the whole 4 KiB granule is rewritten from its verified golden page, and what waited for it goes on. Answers
whether the restore succeeded; where it did not, its lines stay lost. -/
def State.patternRestore (s : State) (p g : Nat) : State × Bool :=
  let l := (s.vault p).logical
  match s.regionAt l (g * 4096) with
  | none => (s.restoreOver p g, false)
  | some r =>
    let rel := g * 4096 - r.off
    let (s1, b) := s.goldenPage r.core r (rel / 65536)
    match b with
    | none => ((s1.goldenFail p g).restoreOver p g, false)
    | some bs =>
      let part := (bs.drop (rel % 65536)).take 4096
      -- what lies in the granule behind the region's end is not stated
      let (s1, tail) := s1.freeBytes (4096 - part.length)
      let data := part ++ tail
      let s2 := s1.modVault p (fun v =>
        let v1 := foldN 64 (fun i v => v.store (g * 64 + i) (lineEncode ((data.drop (64 * i)).take 64))) v
        { v1 with flags := v1.flags.filter (fun x => x / 64 != g), valid := insNat v1.valid g })
      -- held merge entries of the granule are merged into the restored lines
      let held := (s2.vault p).mb.filter (fun e => e.held && e.line / 64 = g)
      let s3 := held.foldl (fun s e => s.evict p e.line 0) (s2.restoreOver p g)
      (((s3.bump pgVlt p 0 rVltRestored 1).setErr pgVlt p 12).log 0x07 { cls := 2, vault := p, addr := g * 4096 }, true)

/-- Bytes of a logical vault, a PATTERN line among them restored first (R326: the order waits, then goes on). -/
def State.vaultBytesRestored (s : State) (l a n : Nat) : State × Option (List Byte) :=
  match s.vaultBytes l a n with
  | (s1, some bs) => (s1, some bs)
  | (s1, none) =>
    match s1.vaultOf l with
    | none => (s1, none)
    | some p =>
      let gs := ((s1.vault p).lostLines.filter (fun e => e.2 = 2)).map (fun e => e.1 / 64)
      let s2 := gs.foldl (fun s g => if (s.vault p).lostLines.any (fun e => e.1 / 64 = g) then (s.patternRestore p g).1 else s) s1
      s2.vaultBytes l a n

/-- Bytes at a place, a lost PATTERN line among them restored first (R326, R329). -/
def State.readRestored (s : State) (x : Loc) (n : Nat) : State × Option (List Byte) :=
  match x with
  | .vault l o => s.vaultBytesRestored l o n
  | .near o =>
    let (s', bs, ok) := (pieces o n).foldl (fun (acc : State × List Byte × Bool) q =>
      let (s, bs, ok) := acc
      let (v, a) := nearSplit (q.1 % 274877906944)
      let (s1, r) := s.vaultBytesRestored v a q.2.1
      match r with
      | some d => (s1, bs ++ d, ok)
      | none => (s1, bs ++ List.replicate q.2.1 0, false)) (s, [], true)
    (s', if ok then some bs else none)
  | _ => s.readLoc x n

end Sys2Proof.Machine
end

