-- ==== Sys2Proof/Machine/Status.lean ====
section
/-! DEFINITION. The reasons for DEGRADED and the device state that follows from them (R445). -/

namespace Sys2Proof.Machine

/-- Modules of the die-to-die link that are UP. -/
def State.modsUp (s : State) : Nat := (s.d2d.filter (fun m => m.st = .up)).length

/-- Fewer than 15 modules are UP (R347). While a half is fenced the device state does not change (R465). -/
def State.d2dReason (s : State) : Bool :=
  match s.abs.fence with
  | some f => if f.escalated then decide (s.modsUp < 15) else s.boot.reason.getLsbD 2
  | none => decide (s.modsUp < 15)

/-- Bits 0 to 9 of FUSE_REASON as they stand now (R445). -/
def State.reasons (s : State) : List Bool :=
  [decide (s.boot.coresA < 128), decide (s.boot.coresB < 128), s.d2dReason, s.boot.routerA || s.boot.routerB,
   !s.host.spur, decide (s.boot.missing != 0), decide (s.boot.miscabled != 0),
   (List.range 4).any (fun q => bit s.boot.farExpected q && (s.farPort q).st != .up && (s.farPort q).st != .upDegraded),
   s.boot.fuseLost, match s.abs.fence with | some f => f.escalated | none => false]

/-- The order of FUSE_REASON's bits: cores_a, cores_b, d2d, train, router, topo_missing, topo_miscabled, far, fuse_lost,
half_lost. -/
def State.reasonBits (s : State) : BitVec 10 :=
  let r := s.reasons
  let b (i : Nat) : Bool := r.getD i false
  BitVec.ofNat 10 (b2n (b 0) + b2n (b 1) <<< 1 + b2n (b 2) <<< 2 + b2n (b 4) <<< 3 + b2n (b 3) <<< 4 + b2n (b 5) <<< 5
    + b2n (b 6) <<< 6 + b2n (b 7) <<< 7 + b2n (b 8) <<< 8 + b2n (b 9) <<< 9)

/-- A device state is entered. -/
def State.enter (s : State) (d : DevState) : State :=
  if s.boot.state = d then s else { s with boot := { s.boot with state := d, entered := s.timeUs } }

/-- The reasons are shown, and a READY or DEGRADED device takes the state that they give it (R445). -/
def State.checkState (s : State) : State :=
  let r := s.reasonBits
  let s1 := { s with boot := { s.boot with reason := r } }
  if s.boot.state = .ready || s.boot.state = .degraded then s1.enter (if r = 0 then .ready else .degraded) else s1

/-! ### Far ports that go DOWN (R390, R392) -/

/-- FAR_Pn_CFG enable: 0 holds the port DOWN. -/
def State.farEnabled (s : State) (q : Nat) : Bool := s.fld pgFarp q 0 rFarpCfg 31 31 = 1

/-- A far port goes DOWN; it may train again, and the pages on it wait for it (R390, R392). -/
def State.farDown (s : State) (q : Nat) : State :=
  if (s.farPort q).st = .absent || (s.farPort q).st = .down then s
  else
    let s1 := ((s.modFar q (fun f => { f with st := .down, width := 0 })).bump pgFarp q 0 rFarpDowns 1).setErr pgFarp q 0
    ({ s1 with boot := { s1.boot with trained := smSet 0 s1.boot.trained (305 + q) 0 } }).checkState

/-- FAR_Pn_CFG has been written: enable 0 holds the port DOWN, and a port that was held trains once it is 1. -/
def State.farWritten (s : State) (q : Nat) (was : Bool) : State :=
  if !s.farEnabled q then s.farDown q
  else if !was && (s.farPort q).st = .down then s.modFar q (fun f => { f with st := .training })
  else s

/-- The device is declared READY or DEGRADED (R445, R447): CHECK ends. -/
def State.declare (s : State) : State :=
  let s1 := { s with boot := { s.boot with declared := true, checkMs := (s.timeUs - s.boot.entered) / 1000 % 65536 } }
  (s1.enter .ready).checkState

/-- CHECK ends once every port that the chart names has agreed (R447), unless bring-up is held (R419). -/
def State.declareIf (s : State) : State :=
  if s.boot.state = .check && s.boot.tested && !s.boot.declared && !s.thm.bringupHeld && s.boot.agreed &&& s.boot.named = s.boot.named then s.declare
  else s

end Sys2Proof.Machine
end

