-- ==== Sys2Proof/Machine/Port.lean ====
section
/-! DEFINITION. Mioquin ports (R349 to R356, R359, R447): frames, their acknowledgement and replay, loss and training of a
port, LINK_STATE and the route table. -/

namespace Sys2Proof.Machine

/-! ### Link state and routes (R359) -/

/-- This device's port up bits. -/
def State.upBits (s : State) : Nat := (List.range 8).foldl (fun a n => a + b2n (s.portUp n) <<< n) 0

/-- A port change is flooded as LINK_STATE (R359). -/
def State.linkChange (s : State) : State :=
  if !s.fab.isMember then s
  else
    let q := (s.fab.linkSeq + 1) % 262144
    let s1 := { s with fab := { s.fab with linkSeq := q, links := smPut s.fab.links s.fab.device (s.upBits, q) } }
    s1.flood 0x0A (s.fab.device % 64 + s.upBits <<< 6 + q <<< 14) []

/-- A link of a device of the guild is up, as far as its link state says. -/
def State.linkUp (s : State) (d p : Nat) : Bool :=
  if d = s.fab.device then s.portUp p
  else match smFind s.fab.links d with | some (up, _) => bit up p | none => true

/-- The neighbour of a device behind torus port p. -/
def torusNext (d p : Nat) : Nat :=
  let i := p / 2
  let c := torusAt d i
  let c' := if p % 2 = 0 then (c + 1) % 4 else (c + 3) % 4
  d - c * 4 ^ i + c' * 4 ^ i

/-- k hops from a device by one port, every link of them up at both ends. -/
def State.ringPath (s : State) (k p d : Nat) : Option Nat :=
  match k with
  | 0 => some d
  | k + 1 => if s.linkUp d p && s.linkUp (torusNext d p) (otherPort p) then s.ringPath k p (torusNext d p) else none

/-- A dimension-ordered path over links that are up: the first port, where one exists. Each dimension takes its shorter way,
or the other way around. `k` counts the dimensions left. -/
def State.dimPath (s : State) (k a b : Nat) : Option (Option Nat) :=
  match k with
  | 0 => if a = b then some none else none
  | k + 1 =>
    match torusDim a b with
    | none => some none
    | some i =>
      let p := torusPort a b i
      let n := if p % 2 = 0 then (torusAt b i + 4 - torusAt a i) % 4 else (torusAt a i + 4 - torusAt b i) % 4
      let go (p n : Nat) : Option (Option Nat) :=
        match s.ringPath n p a with
        | some m => (match s.dimPath k m b with | some _ => some (some p) | none => none)
        | none => none
      match go p n with
      | some r => some r
      | none => go (otherPort p) (4 - n)

/-- The route to a device: dimension-ordered if one exists, else through the lowest intermediate device that gives one. -/
def State.routeTo (s : State) (d : Nat) : Option Nat × Option Nat :=
  match s.dimPath 3 s.fab.device d with
  | some p => (p, none)
  | none =>
    match (List.range 64).find? (fun v => v != s.fab.device && v != d && (s.dimPath 3 s.fab.device v).isSome && (s.dimPath 3 v d).isSome) with
    | some v => (((s.dimPath 3 s.fab.device v).getD none), some v)
    | none => (none, none)

/-- The steward recomputes the route table; messages that waited for a route are tried again. -/
def State.routeUpdate (s : State) : State :=
  if !s.fab.isMember then s
  else
    let r := (List.range 64).foldl (fun m d => if d = s.fab.device then m else smPut m d (s.routeTo d)) []
    ({ s with fab := { s.fab with routes := r } }).retryWaiting

/-- No route leads to a device of the guild. -/
def State.unreachable (s : State) (guild dev : Nat) : Bool :=
  guild = s.fab.guild && dev != s.fab.device && smFind s.fab.routes dev = some (none, none)

def execRouteTableUpdate (s : State) : Host.Outcome State Fault Refusal := .next (reachLink.take s s.routeUpdate)

/-- The fused serial of a device of this device's guild. -/
def State.serialOf (s : State) (d : Nat) : Nat :=
  if d = s.fab.device then s.boot.serial else (Config.peerSerial s.fab.guild d).toNat

/-- A LINK_STATE whose sequence is ahead is kept (R359). It shows a member the other members (DESIGN CHOICE, assumption 42); a
guildmaster ignores a device that has not joined (R498). -/
def execLinkState (m : FMsg) (s : State) : Host.Outcome State Fault Refusal :=
  .next (reachLink.take s (
    let d := bits m.info 5 0
    let up := bits m.info 13 6
    let q := bits m.info 31 14
    let old := smFind s.fab.links d
    let ahead := match old with | some (_, o) => decide ((q + 262144 - o) % 262144 ≥ 1) && decide ((q + 262144 - o) % 262144 < 131072) | none => true
    let known := (smFind s.fab.members d).isSome
    if !s.isMine m || !ahead || d = s.fab.device || (s.fab.isMember && s.fab.master = s.fab.device && !known) then s
    else
      let ms := if s.fab.isMember && !known then smPut s.fab.members d (s.serialOf d) else s.fab.members
      { s with fab := { s.fab with links := smPut s.fab.links d (up, q), members := ms } }))

/-! ### Loss of a port (R351, R359) -/

def State.portEnabled (s : State) (n : Nat) : Bool := s.fld pgFabp n 0 rFabpCfg 0 0 = 1

/-- The half that carries a port. -/
def portHalf (n : Nat) : Nat := n % 2

/-- A port may train now: it is enabled, not held as miscabled, and its half runs. -/
def State.portTrains (s : State) (n : Nat) : Bool :=
  s.portEnabled n && !(s.fport n).miscabled && s.thm.phase = 0 && s.fencedHalf != some (portHalf n)

/-- The message area of a frame of the replay buffer. -/
def FFrame.area (f : FFrame) : List Byte := ((leBytes 640 f.bits).drop 16).take 600

/-- The messages of a frame of the replay buffer. -/
def FFrame.msgs (f : FFrame) : List FMsg := areaMsgs 38 f.area

/-- A port goes DOWN and starts training; its unacknowledged frames take the other way (R351, R359). -/
def State.portDown (s : State) (n : Nat) : State :=
  let p := s.fport n
  if p.st = .down then s
  else
    let high (f : FFrame) : Bool := decide (4 ≤ f.lane) && !(decide (n < 6) && crossesDateline s.fab.device n)
    let held := p.replay.flatMap (fun f => f.msgs.map (fun m => (m, f.lane % 4, high f)))
    let wasUp := s.portUp n
    let fresh : FPort := { st := .down, lanes := p.lanes, failed := p.failed, miscabled := p.miscabled, fails := p.fails, die := p.die,
                           lift := p.lift, saved := p.saved }
    let s1 := (s.modFport n (fun _ => fresh)).modFport n (fun p => { p with st := if s.portTrains n then .laserWait else .down })
    let s2 := (s1.bump pgFabp n 0 rFabpDowns 1).setErr pgFabp n 1
    if wasUp then (held.foldl (fun s m => s.forwardMsg m.1 m.2.1 (some n) m.2.2) s2).linkChange else s2

def execFabPortDown (port : Nat) (s : State) : Host.Outcome State Fault Refusal :=
  .next (reachLink.take s (if port < 8 then s.portDown port else s))

/-- A wavelength fails; the port goes DOWN and retrains (R352). -/
def State.waveFail (s : State) (n w : Nat) : State :=
  let keep : BitVec 16 := ~~~((1#16) <<< w)
  let s1 := s.modFport n (fun p => { p with failed := p.failed ||| ((1#16) <<< w), lanes := p.lanes &&& keep })
  (s1.setErr pgFabp n 2).portDown n

def execWavelengthFail (port w : Nat) (s : State) : Host.Outcome State Fault Refusal :=
  .next (reachLink.take s (if port < 8 && w < 16 then s.waveFail port w else s))

/-! ### Training (R350, R351, R447) -/

/-- The bounds of the lock range in 1/16 °C. -/
def State.lockLow (s : State) (n : Nat) : Int := 16 * ((s.fld pgFabp n 0 rFabpCfg 15 8 : Nat) : Int) - 1520
def State.lockHigh (s : State) (n : Nat) : Int := 16 * ((s.fld pgFabp n 0 rFabpCfg 15 8 : Nat) : Int) - 32

/-- The tuning loop reads the ring temperature: cold is shown while a port waits below its lower bound, and a port outside
its lock range loses lock. -/
def execRingTuneTick (port : Nat) (die lift : Int) (s : State) : Host.Outcome State Fault Refusal :=
  .next (reachLink.take s (
    if port ≥ 8 then s
    else
      let s1 := s.modFport port (fun p => { p with
        die := BitVec.ofInt 16 die, lift := BitVec.ofInt 16 lift, cold := p.st = .ringLock && decide (die < s.lockLow port) })
      let p := s1.fport port
      let held := p.st = .align || p.st = .up || p.st = .upHalf
      if held && (decide (die < s.lockLow port) || decide (die > s.lockHigh port)) then s1.portDown port else s1))

def execLaserWaitDone (port : Nat) (s : State) : Host.Outcome State Fault Refusal :=
  .next (reachLink.take s (
    let p := s.fport port
    if port < 8 && (p.st = .laserWait || p.st = .down) && s.portTrains port then
      s.modFport port (fun p => { p with st := .ringLock, cold := decide (p.die.toInt < s.lockLow port) })
    else s))

/-- A training fails; the third in a row leaves the port FAILED. -/
def State.trainFail (s : State) (n : Nat) : State :=
  s.modFport n (fun p => { p with fails := p.fails + 1, st := if p.fails + 1 ≥ 3 then .failed else .laserWait })

/-- The rings have locked, or not; a cold port goes on waiting. -/
def execRingLockDone (port : Nat) (ok : Bool) (s : State) : Host.Outcome State Fault Refusal :=
  .next (reachLink.take s (
    let p := s.fport port
    if port ≥ 8 || p.st != .ringLock || p.cold then s
    else if ok then s.modFport port (fun p => { p with st := .align, saved := some (p.die.toInt + p.lift.toInt) })
    else s.trainFail port))

/-- The topology bits of a port that has come up (R447): agreed, or held DOWN as miscabled. -/
def State.topology (s : State) (n guild dev peer : Nat) : State × Bool :=
  match smFind s.boot.chart n with
  | none => (s, true)
  | some e =>
    let b := s.boot
    if e = (guild, dev, peer) then
      (({ s with boot := { b with agreed := b.agreed ||| 1 <<< n, missing := setBits b.missing n n 0, miscabled := setBits b.miscabled n n 0 } }).checkState, true)
    else
      (({ s with boot := { b with agreed := setBits b.agreed n n 0, miscabled := b.miscabled ||| 1 <<< n } }).checkState, false)

/-- ALIGN is over: the port is UP with all wavelengths good, UP_HALF on a group without a failed one, or held DOWN. -/
def execAlignDone (port guild dev peer : Nat) (lanes : BitVec 16) (s : State) : Host.Outcome State Fault Refusal :=
  .next (reachLink.take s (
    if port ≥ 8 || (s.fport port).st != .align then s
    else
      let low := lanes.extractLsb' 0 8 = 0xFF#8
      let high := lanes.extractLsb' 8 8 = 0xFF#8
      let s1 := s.modFport port (fun p => { p with
        lanes := lanes, failed := ~~~lanes, peerGuild := guild % 4096, peerDev := dev % 64, peerPort := peer % 8 })
      if !low && !high then s1.trainFail port
      else
        let (s2, ok) := s1.topology port (guild % 4096) (dev % 64) (peer % 8)
        if !ok then s2.modFport port (fun p => { p with st := .down, miscabled := true })
        else
          ((s2.modFport port (fun p => { p with st := if low && high then .up else .upHalf, fails := 0 })).linkChange).retryWaiting.declareIf))

def execFabPortRetry (port : Nat) (s : State) : Host.Outcome State Fault Refusal :=
  .next (reachLink.take s (
    if port < 8 && (s.fport port).st = .failed && s.portTrains port then s.modFport port (fun p => { p with st := .laserWait }) else s))

/-! ### Frames (R353 to R356) -/

/-- The wavelength that carries the first bit of a codeword symbol (R353, R354). -/
def symbolWave (half : Bool) (lanes : BitVec 16) (i : Nat) : Nat :=
  let b := if i < 16 then 4960 + 10 * i else 10 * (i - 16)
  if half then (b % 512) / 64 + (if lanes.extractLsb' 0 8 = 0xFF#8 then 0 else 8) else (b % 1024) / 64

/-- Corrected symbols are counted against their wavelengths; one that has more than half of the port's and more than 4,096
of them fails (R352). -/
def State.countSymbols (s : State) (n : Nat) (at_ : List Nat) : State :=
  let p := s.fport n
  let e := at_.foldl (fun m i => let w := symbolWave (p.st = .upHalf) p.lanes i; smSet 0 m w (smGet 0 m w + 1)) p.symErr
  let s1 := (s.bump pgFabp n 0 rFabpFecSym at_.length).modFport n (fun p => { p with symErr := e })
  let total := (e.map (·.2)).foldl (· + ·) 0
  match e.find? (fun x => decide (x.2 > 4096) && decide (2 * x.2 > total)) with
  | some x => s1.waveFail n x.1
  | none => s1

/-- A NAK is sent for a frame that is not accepted; more than nak_limit in 1 ms take the port DOWN (R351, R356). -/
def State.sendNak (s : State) (n : Nat) : State :=
  let s1 := (s.modFport n (fun p => { p with nakDue := true, naks := p.naks + 1 })).emit (.fabAck n (((s.fport n).rxSeq + 4095) % 4096) true)
  if (s1.fport n).naks > s.fld pgFabp n 0 rFabpCfg 31 24 then s1.portDown n else s1

/-- A frame of the replay buffer leaves again: marked as a replay, with the acknowledgement and the credits of now (R356). -/
def State.replayFrame (s : State) (n : Nat) (f : FFrame) : State :=
  let g : FFrame := { f with bits := frameSeal (s.linkHeader n f.seq (f.lane % 4) (f.lane / 4) false true ++ f.area) }
  (s.modFport n (fun p => { p with owed := List.replicate 8 0, nakDue := false })).emit (.frame n g)

/-- The acknowledgement, NAK and credits of a decoded frame (R355, R356). -/
def State.takeLink (s : State) (n w0 w1 w2 : Nat) : State :=
  let ack := bits w0 25 14
  let s1 := s.modFport n (fun p =>
    let behind (f : FFrame) : Bool := decide ((ack + 4096 - f.seq) % 4096 < 2048)
    let credits := (List.range 8).map (fun k =>
      let c := if k < 4 then bits w1 (8 * k + 7) (8 * k) else bits w2 (8 * (k - 4) + 7) (8 * (k - 4))
      min 64 (p.credits.getD k 0 + c))
    if bit w0 26 || bit w0 27 then { p with acked := ack, credits := credits, replay := p.replay.filter (fun f => !behind f) } else { p with credits := credits })
  if bit w0 27 then
    -- the sender goes back: every frame after ack_seq leaves again, its credit restored and spent again
    let fs := (s1.fport n).replay
    if fs.isEmpty then s1
    else fs.foldl (fun s f => s.replayFrame n f) ((s1.bump pgFabp n 0 rFabpReplays fs.length).setErr pgFabp n 0)
  else s1

/-- A frame in sequence is accepted: its messages for other devices go on, and its credit goes back when it is freed. -/
def State.acceptFrame (s : State) (n w0 : Nat) (ms : List FMsg) : State :=
  let k := bits w0 29 28 + 4 * b2n (bit w0 30)
  let s1 := (s.modFport n (fun p => { p with
    rxSeq := (p.rxSeq + 1) % 4096, nakDue := false, owed := p.owed.set k (p.owed.getD k 0 + 1) })).bump pgFabp n 0 rFabpRx 1
  let s2 := s1.emit (.fabAck n (bits w0 11 0) false)
  (ms.filter (fun m => !s.isMine m)).foldl (fun s m => s.forwardMsg m (bits w0 29 28) (some n) (bit w0 30)) s2

/-- A frame arrives on a port (R354, R356). Messages of an accepted frame that are for this device arrive as their own
commands. -/
def State.frameArrives (s : State) (n : Nat) (frame : BitVec 5120) : State :=
  if n ≥ 8 || !s.portUp n then s
  else match frameOpen frame with
  | none =>
    let s1 := (s.bump pgFabp n 0 rFabpFecUe 1).modFport n (fun p => { p with bad := p.bad + 1 })
    if (s1.fport n).bad ≥ 64 then s1.portDown n else s1.sendNak n
  | some (bs, at_) =>
    let w (i : Nat) : Nat := leNat ((bs.drop (4 * i)).take 4)
    let s1 := (s.modFport n (fun p => { p with bad := 0 })).countSymbols n at_
    if !s1.portUp n then s1
    else
      let s2 := s1.takeLink n (w 0) (w 1) (w 2)
      if bit (w 0) 12 then s2
      else if bits (w 0) 11 0 = (s2.fport n).rxSeq then (s2.acceptFrame n (w 0) (areaMsgs 38 (bs.drop 16))).retryWaiting
      else s2.sendNak n

def execFabFrame (port : Nat) (frame : BitVec 5120) (s : State) : Host.Outcome State Fault Refusal :=
  .next (reachLink.take s (s.frameArrives port frame))

end Sys2Proof.Machine
end

