-- ==== Sys2Proof/Machine/Operands.lean ====
section
/-! DEFINITION. The common words of a work order, its patches (R142) and the operand words of each order type. -/

namespace Sys2Proof.Machine

/-- Word i of a descriptor. -/
def ordW (o i : Nat) : Nat := bits o (32 * i + 31) (32 * i)

/-- Words i and i + 1 as one little-endian value. -/
def ordW64 (o i : Nat) : Nat := bits o (32 * i + 63) (32 * i)

/-- Field [hi:lo] of word i. -/
def ordF (o i hi lo : Nat) : Nat := bits (ordW o i) hi lo

/-- The opcodes of R145. -/
def opListed (op : Nat) : Bool :=
  [0x01, 0x02, 0x03, 0x10, 0x11, 0x18, 0x19, 0x20, 0x21, 0x28, 0x30, 0x31, 0x38, 0x39, 0x40, 0x41, 0x48, 0x50, 0x51,
   0x58, 0x59, 0x5A, 0x5B, 0x60, 0x61].contains op

/-- One patch (R142): words w and w + 1 plus an s-register modulo 2^64; at w = 31, word 31 alone plus its low 32 bits.
The first word is clamped to 4 or above. -/
def patchOne (s : State) (c o en sreg word : Nat) : Nat × Nat :=
  if en = 0 then (o, 0)
  else
    let w := if word < 4 then 4 else word
    let r := (s.sreg c sreg).toNat
    let o' := if w = 31 then setBits o 1023 992 (ordW o 31 + r) else setBits o (32 * w + 63) (32 * w) (ordW64 o w + r)
    (o', b2n (word < 4))

/-- A descriptor copied at start: both patches applied, the common words clamped (R142, R146). Answers the descriptor,
its opcode and the clamps counted in the CLERK_ page. -/
def prepOrder (s : State) (c o : Nat) : Nat × Nat × Nat :=
  let w3 := ordW o 3
  let (o1, k1) := patchOne s c o (bits w3 11 11) (bits w3 10 5) (bits w3 4 0)
  let (o2, k2) := patchOne s c o1 (bits w3 23 23) (bits w3 22 17) (bits w3 16 12)
  let k3 := b2n (bit o 10 && ordF o 2 7 0 = 0)
  let o3 := if bit o 10 && ordF o 2 7 0 = 0 then setBits o2 71 64 1 else o2
  let op := bits o 7 0
  if opListed op then (o3, op, k1 + k2 + k3) else (o3 % 2 ^ 128, 0x50, k1 + k2 + k3 + 1)

/-- Units of R132. -/
inductive OUnit where
  | control
  | transfer
  | loom
  | elem
  | tally
  | attention
  | bank
  | serving
  | porter
  | collective
  | treadle
deriving DecidableEq, Repr

/-- The unit that executes an opcode (R132). -/
def opUnit (op : Nat) : OUnit :=
  match op with
  | 0x01 => .transfer
  | 0x02 => .transfer
  | 0x03 => .transfer
  | 0x10 => .loom
  | 0x11 => .loom
  | 0x18 => .elem
  | 0x19 => .tally
  | 0x20 => .attention
  | 0x21 => .attention
  | 0x28 => .bank
  | 0x30 => .bank
  | 0x31 => .serving
  | 0x38 => .serving
  | 0x39 => .serving
  | 0x40 => .porter
  | 0x41 => .porter
  | 0x48 => .collective
  | 0x61 => .collective
  | 0x60 => .treadle
  | _ => .control

/-- Started, incomplete orders a unit holds (R132); loom orders are counted by loom, TREADLE is never held back. -/
def unitCap (u : OUnit) : Nat :=
  match u with
  | .transfer => 32
  | .elem => 2
  | .tally => 2
  | .attention => 2
  | .bank => 4
  | .serving => 4
  | .porter => 4
  | .collective => 8
  | _ => 4294967296

/-- The loom a loom order names: 0 to 3, or ANY, the loom of the rotation pointer (R163). A loom_sel above ANY is
clamped with the order's other fields. -/
def orderLoom (s : State) (c o : Nat) : Nat := let v := ordF o 11 2 0; if v < 4 then v else (s.core c).rot % 4

end Sys2Proof.Machine
end

