-- ==== Sys2Proof/Machine/Clerk.lean ====
section
/-! DEFINITION. The clerk: order queues and their buffers (R129), queue states (R538), which order starts next (R18,
R131 to R136), starting an order (R142) and completing one (R143, R144). -/

namespace Sys2Proof.Machine

def State.queue (s : State) (c q : Nat) : OrderQ := (s.core c).qs.getD q {}
def State.modQueue (s : State) (c q : Nat) (f : OrderQ → OrderQ) : State :=
  s.modCore c (fun x => { x with qs := fixSet 4 {} x.qs q (f (x.qs.getD q {})) })

/-- Where order i of a queue lies (R129). -/
def State.orderLoc (s : State) (c q i : Nat) : Loc :=
  (locOf c (s.reg pgClerk c 0 (rClerkQBase + 8 * q)).toNat).plus (128 * i)

def State.queueLen (s : State) (c q : Nat) : Nat := s.fld pgClerk c 0 (rClerkQSpan + 4 * q) 15 0
def State.queueStart (s : State) (c q : Nat) : Nat := s.fld pgClerk c 0 (rClerkQSpan + 4 * q) 31 16

/-- The first index of the buffer's window (R129). -/
def windowLo (h : Nat) : Nat := h - 16

/-- The buffer keeps only what its window holds (R129, R152). -/
def OrderQ.trim (x : OrderQ) (len : Nat) : OrderQ :=
  let w := windowLo x.index
  { x with buf := x.buf.filter (fun e => decide (w ≤ e.1) && decide (e.1 < w + 32) && decide (e.1 < len)) }

/-- One order is fetched into the buffer, a lost PATTERN line restored from its golden copy; nothing when its bytes stay
lost (R129, R167). -/
def State.fetchOne (s : State) (c q i : Nat) : State × Bool :=
  let (s1, b) := s.readRestored (s.orderLoc c q i) 128
  match b with
  | some bs => (s1.modQueue c q (fun x => { x with buf := smPut x.buf i (leNat bs) }), true)
  | none => (s1, false)

/-- The window is fetched from its head on, in ascending order, and then behind its head, until an order's bytes are lost (R129,
R152, R167). The answer names the first order that could not be fetched. -/
def State.fetchWindow (s : State) (c q : Nat) : State × Option Nat :=
  let len := s.queueLen c q
  let s1 := s.modQueue c q (·.trim len)
  let h := (s1.queue c q).index
  let w := windowLo h
  ((List.range (w + 32 - h)).map (· + h) ++ (List.range (h - w)).map (· + w)).foldl (fun (acc : State × Option Nat) i =>
    if i ≥ len ∨ acc.2.isSome ∨ (smFind (acc.1.queue c q).buf i).isSome then acc
    else
      let (s2, ok) := acc.1.fetchOne c q i
      (s2, if ok then none else some i)) (s1, none)

/-- The head order of a queue, if it is present. -/
def State.headOrd (s : State) (c q : Nat) : Option Nat := smFind (s.queue c q).buf (s.queue c q).index

/-- A core is ACTIVE (the floor plan's core state, FUSE_SITE). -/
def State.coreActive (s : State) (c : Nat) : Bool :=
  match smFind s.boot.coreSite c with
  | some p => decide ((s.site p).core = 0)
  | none => false

/-- A core's queues may start orders (R136): it is ACTIVE, its partition is SERVING and not held by a castling or a
rejoin (R457, R467), no adjournment is in progress (R421) and its half is not lost (R465). -/
def State.coreRuns (s : State) (c : Nat) : Bool :=
  match s.partOfCore c with
  | none => false
  | some p => (s.part p).st = .serving && s.coreActive c && !s.abs.heldParts.contains p && s.thm.phase = 0
      && s.fencedHalf != some (coreHalf c)

/-- What an order's s-register adds to the thresholds of its waits (R140, R155). -/
def State.waitBase (s : State) (c o : Nat) : Word := if bit (ordW o 2) 30 then (s.sreg c (ordF o 2 29 24)).truncate 32 else 0

/-- R140 for the header wait of an order. -/
def State.headerWaitAt (s : State) (c o : Nat) (base : Word) : Bool :=
  !bit o 9 || ctrSatisfies (s.ctr c (ordF o 0 17 12)) (BitVec.ofNat 32 (ordW o 1) + base)
def State.headerWait (s : State) (c o : Nat) : Bool := s.headerWaitAt c o (s.waitBase c o)

/-- The opcode after R146. -/
def orderOp (o : Nat) : Nat := if opListed (bits o 7 0) then bits o 7 0 else 0x50

def Core.countUnit (x : Core) (u : OUnit) : Nat := (x.flights.filter (fun f => opUnit f.op = u)).length

/-- Started, incomplete orders of one loom. -/
def Core.countLoom (x : Core) (l : Nat) : Nat :=
  (x.flights.filter (fun f => opUnit f.op = .loom && f.aux.getD 0 0 = l)).length

/-- An incomplete ATTEND that occupies loom l, or (l = 4) the element engine and the tally (R236). -/
def Core.attends (x : Core) (l : Nat) : Bool :=
  x.flights.any (fun f => f.op = 0x20 && (l = 4 || bit (f.aux.getD 0 0) l))

/-- loom_mask of an ATTEND order, 0 becoming 0xF (R236). -/
def attendMask (o : Nat) : Nat := if ordF o 5 23 20 = 0 then 15 else ordF o 5 23 20

/-- R132, R236: the unit of a prepared order can accept it. -/
def State.unitFree (s : State) (c o : Nat) : Bool :=
  let x := s.core c
  let u := opUnit (orderOp o)
  match u with
  | .loom => decide (x.countLoom (orderLoom s c o) < 2) && !x.attends (orderLoom s c o)
  | .elem => decide (x.countUnit .elem < 2) && !x.attends 4
  | .tally => decide (x.countUnit .tally < 2) && !x.attends 4
  | .attention =>
    decide (x.countUnit .attention < 2) &&
      (orderOp o != 0x20 || (!x.attends 4 && x.countUnit .elem = 0 && x.countUnit .tally = 0
        && (List.range 4).all (fun l => !bit (attendMask o) l || x.countLoom l = 0)))
  | _ => decide (x.countUnit u < unitCap u)

/-- Whether a rest holds an order (R165): every order but control orders and BARRIER_JOIN. -/
def restHolds (o : Nat) : Bool := opUnit (orderOp o) != .control && orderOp o != 0x61

/-- Queue states (R538). -/
abbrev qIdle := 0
abbrev qRunning := 1
abbrev qWait := 2
abbrev qUnitFull := 3
abbrev qRest := 4
abbrev qStopped := 5
abbrev qRefetch := 6

/-- The state a queue shows, the first that applies (R538). A queue that no step start has set RUNNING is IDLE. -/
def State.queueState (s : State) (c q : Nat) : Nat :=
  let x := s.queue c q
  let quiet := match s.partOfCore c with | some p => decide ((s.part p).st = .quiesced) | none => false
  if x.stopped || quiet then qStopped
  else if !x.running || decide (x.index ≥ s.queueLen c q) then qIdle
  else match s.headOrd c q with
  | none => qRefetch
  | some raw =>
    let o := (prepOrder s c raw).1
    let op := orderOp o
    let mine := (s.core c).flights.filter (fun f => f.q = q)
    if decide ((s.core c).rest > 0) && restHolds o then qRest
    else if mine.any (fun f => f.op = 0x51 || f.op = 0x5B) || !s.headerWait c o
        || ((!bit o 8 || op = 0x5B) && !mine.isEmpty) then qWait
    else if !s.unitFree c o then qUnitFull
    else qRunning

/-- An order about to start: its queue and index, the descriptor after patches and common clamps, its opcode, and the
clamps counted in the CLERK_ page so far. -/
structure Start where
  q : Nat
  idx : Nat
  ord : Nat
  op : Nat
  clamps : Nat
deriving DecidableEq, Repr

/-- The order that the clerk starts next: round robin from the queue after the one served last, passing over queues
whose head cannot start (R131). -/
def State.pick (s : State) (c : Nat) : Option Start :=
  if !s.coreRuns c then none
  else
    match (((List.range 4).map (fun k => ((s.core c).lastQ + 1 + k) % 4)).find? (fun q => s.queueState c q = qRunning)) with
    | none => none
    | some q =>
      match s.headOrd c q with
      | none => none
      | some raw =>
        let (o, op, k) := prepOrder s c raw
        some ⟨q, (s.queue c q).index, o, op, k⟩

/-! ### Flights -/

def Core.flight (x : Core) (id : Nat) : Option Flight := x.flights.find? (fun f => f.id = id)

def State.modFlight (s : State) (c id : Nat) (f : Flight → Flight) : State :=
  s.modCore c (fun x => { x with flights := x.flights.map (fun y => if y.id = id then f y else y) })

/-- Every effect of an order is done, with a status joined to its own (R11). -/
def State.finish (s : State) (c id st : Nat) : State :=
  s.modFlight c id (fun f => { f with done := true, status := statusJoin f.status st })

/-- n clamps of an order are counted in a page (R8). -/
def State.orderClamps (s : State) (c id code inst n : Nat) : State :=
  if n = 0 then s else (s.noteClamps code inst n).modFlight c id (fun f => { f with clamped := true })

/-- The number of the next started order of a core: above the number of every order held. -/
def Core.freshId (x : Core) : Nat := x.flights.foldl (fun m f => max m (f.id + 1)) x.nextId

/-- An order starts (R131, R142): the fetch index moves past it, the round robin and the ANY pointer advance, and the
order is held as started. Answers the number of the started order. -/
def State.startOrder (s : State) (c : Nat) (st : Start) : State × Nat :=
  let x := s.core c
  let id := x.freshId
  let s1 := s.setCore c { x with
    nextId := id + 1
    lastQ := st.q
    lastOp := st.op
    rot := if opUnit st.op = .loom && decide (ordF st.ord 11 2 0 ≥ 4) then (x.rot + 1) % 4 else x.rot
    flights := x.flights ++ [{ id := id, q := st.q, idx := st.idx, ord := st.ord, op := st.op, clamped := decide (st.clamps > 0),
                               status := stOk, done := false }]
    qs := fixSet 4 {} x.qs st.q (({ (x.qs.getD st.q {}) with index := st.idx + 1 } : OrderQ).trim (s.queueLen c st.q)) }
  ((s1.bump pgClerk c 0 rClerkOrders 1).noteClamps pgClerk c st.clamps, id)

/-- The streams whose lost data a completion reports (R144): the order's own list, or the whole step set (none). -/
def listsStreams (op : Nat) : Bool := op = 0x20 || op = 0x21 || op = 0x30 || op = 0x38 || op = 0x39

/-- R281: the steps of the listed streams (none: of every stream of the step set) are voided. -/
def Part.void (x : Part) (streams : Option (List Nat)) (uncounted : Bool) : Part :=
  { x with set := x.set.map (fun e =>
      match streams with
      | none => { e with voided := true }
      | some l => if l.contains e.stream then { e with voided := true, uncounted := e.uncounted || uncounted } else e) }

/-- DATA_LOST is reported to the foreman for the partition of a core (R144, R281). -/
def State.reportLost (s : State) (c : Nat) (streams : Option (List Nat)) : State :=
  match s.partOfCore c with
  | some p => s.modPart p (fun x => x.void streams false)
  | none => s

/-- An order completes (R143, R144): status_sreg, err_ctr, sig_ctr, then the record of a status other than OK and
CLAMPED and the report of lost data. -/
def State.complete (s : State) (c id : Nat) : State :=
  match (s.core c).flight id with
  | none => s
  | some f =>
    let st0 := if f.status = stState || f.status = stQuota then f.status
      else statusOf [f.status, if f.replayed then stReplayed else stOk, if f.clamped || !f.owed.isEmpty then stClamped else stOk]
    let w2 := ordW f.ord 2
    let s0 := if st0 = stState || st0 = stQuota then s else f.owed.foldl (fun s k => s.noteClamps k.1 k.2.1 k.2.2) s
    let s1 := s0.modCore c (fun x => { x with flights := x.flights.filter (fun y => y.id != id) })
    let s2 := if bit w2 14 then s1.setSreg c (bits w2 13 8) (BitVec.ofNat 64 st0) else s1
    let s3 := if bit w2 22 && !statusValid st0 then s2.signal c (bits w2 21 16) 1 else s2
    let s4 := if bit f.ord 10 then s3.signal c (ordF f.ord 0 23 18) (bits w2 7 0) else s3
    let s5 :=
      if st0 = stOk || st0 = stClamped then s4
      else
        let s' := s4.bump pgClerk c 0 rClerkNonok 1
        if s'.fld pgClerk c 0 rClerkLastFault 31 31 = 1 then s'
        else s'.setReg pgClerk c 0 rClerkLastFault
          (BitVec.ofNat 64 (1 <<< 31 + f.idx <<< 15 + f.q <<< 13 + f.op <<< 5 + st0))
    let own := if listsStreams f.op then some f.lost else none
    let s6 := if st0 = stLost then s5.reportLost c own else s5
    if st0 = stReplayed then
      match s6.partOfCore c with
      | some p => s6.modPart p (fun x => { x with set := x.set.map (fun e =>
          if listsStreams f.op && !f.lost.contains e.stream && !f.lost.isEmpty then e else { e with replayed := true }) })
      | none => s6
    else s6

/-- The page that counts a refusal of an order (R10): the page of the unit that refused it, the CLERK_ page for the
transfer engine and the control orders, which have none of their own. -/
def refusePage (op : Nat) : Nat :=
  match op with
  | 0x10 => pgLoom
  | 0x11 => pgLoom
  | 0x18 => pgElem
  | 0x19 => pgTally
  | 0x20 => pgAtt
  | 0x21 => pgAtt
  | 0x28 => pgBank
  | 0x30 => pgAtt
  | 0x31 => pgBook
  | 0x38 => pgFore
  | 0x39 => pgFore
  | 0x40 => pgPort
  | 0x41 => pgPort
  | 0x48 => pgFab
  | _ => pgClerk

/-- The instance of that page for a core's order: the core's own, its vault's, its half's, or the device's. -/
def State.refuseInst (s : State) (c op : Nat) : Nat :=
  if op = 0x28 then (s.vaultOf c).getD 0
  else if op = 0x31 then coreHalf c
  else if op = 0x38 || op = 0x39 || op = 0x40 || op = 0x41 || op = 0x48 then 0
  else c

/-- A refused order starts and will complete with its refusal: no clamp is applied or counted (R10, R143). -/
def State.refuseOrder (s : State) (c : Nat) (st : Start) (status : Nat) : State :=
  let (s0, id) := s.startOrder c { st with clamps := 0 }
  let s1 := s0.modCore c (fun x => { x with rot := (s.core c).rot })
  (s1.noteRefuse (refusePage st.op) (s.refuseInst c st.op)).finish c id status

/-- Clamps of an order that may still be refused: they are counted at its completion (R10). -/
def State.oweClamps (s : State) (c id code inst n : Nat) : State :=
  if n = 0 then s else s.modFlight c id (fun f => { f with owed := f.owed ++ [(code, inst, n)] })

/-- Some entry of an order's list runs, so the order's own clamps are applied: they are counted now. (Whether they count when
another entry makes the order complete with a refusal is not stated: assumption 130.) -/
def State.payClamps (s : State) (c id : Nat) : State :=
  match (s.core c).flight id with
  | none => s
  | some f =>
    if f.owed.isEmpty then s
    else (f.owed.foldl (fun s k => s.noteClamps k.1 k.2.1 k.2.2) s).modFlight c id (fun f => { f with owed := [], clamped := true })

/-- An order that may be refused after its start begins: the clamps of its common words wait with the others (R10). -/
def State.startLate (s : State) (c : Nat) (st : Start) : State × Nat :=
  let (s1, id) := s.startOrder c { st with clamps := 0 }
  (s1.oweClamps c id pgClerk c st.clamps, id)

/-- The next order of a core starts if it is of the wanted kind; otherwise nothing happens: the command stands for the
start of such an order, and no such order starts. -/
def State.runOrder (s : State) (c : Nat) (want : Start → Bool) (run : State → Start → State) : State :=
  match s.pick c with
  | some st => if want st then run s st else s
  | none => s

/-- A jump of a queue (R152): the target clamps to the stream and the window moves. -/
def State.jump (s : State) (c q : Nat) (target : Int) : State :=
  let len := s.queueLen c q
  let i := if target < 0 then 0 else if target.toNat > len then len else target.toNat
  s.modQueue c q (fun x => ({ x with index := i } : OrderQ).trim len)

/-! ### Errors in the clerk (R167, R168) and the queue's own commands -/

/-- An order stream cannot be recovered: the queue stops and the foreman is told (R167). -/
def State.streamLost (s : State) (c q i : Nat) : State :=
  let s1 := s.modQueue c q (fun x => { x with stopped := true })
  let s2 := (s1.setErr pgClerk c 1).reportLost c none
  if s2.fld pgClerk c 0 rClerkLastFault 31 31 = 1 then s2
  else s2.setReg pgClerk c 0 rClerkLastFault (BitVec.ofNat 64 (1 <<< 31 + i <<< 15 + q <<< 13 + stLost))

end Sys2Proof.Machine
end

