-- ==== Sys2Proof/Machine/Control.lean ====
section
/-! DEFINITION. The control orders (R135, R149 to R155, R157) and the clerk's own events (R152, R165, R167, R168). -/

namespace Sys2Proof.Machine

/-- s[sa], s[sb], imm and b of a SCALAR or BRANCH_IF order (R149, R151); `i` is the word of the immediate. -/
def State.opA (s : State) (c o hi lo : Nat) : DWord := s.sreg c (ordF o 4 hi lo)
def ordImm (o i : Nat) : DWord := BitVec.ofNat 64 (ordW64 o i)

/-- The SCALAR operation code; 0x11 to 0xFF become ADD (R149). -/
def scalarOp (o : Nat) : Nat := if ordF o 4 7 0 > 0x10 then 0 else ordF o 4 7 0

/-- Operands of a SCALAR order: a, b, s[sb], imm and the counter that sb names. -/
structure ScalarIn where
  a : DWord
  b : DWord
  sb : DWord
  imm : DWord
  ctr : Word
deriving DecidableEq, Repr

def State.scalarIn (s : State) (c o : Nat) : ScalarIn :=
  let imm := ordImm o 5
  let sb := s.sreg c (ordF o 4 29 24)
  ⟨s.sreg c (ordF o 4 21 16), if bit (ordW o 4) 31 then imm else sb, sb, imm, s.ctr c (ordF o 4 29 24)⟩

/-- A SCALAR order of operation k starts, completes in its start cycle and then writes dst (R135, R138, R149). -/
def State.scalar (s : State) (c k : Nat) (f : ScalarIn → DWord) : State :=
  s.runOrder c (fun st => st.op = 0x58 && scalarOp st.ord = k) (fun s st =>
    let v := f (s.scalarIn c st.ord)
    let (s1, id) := s.startOrder c { st with clamps := st.clamps + b2n (ordF st.ord 4 7 0 > 0x10) }
    (s1.complete c id).setSreg c (ordF st.ord 4 13 8) v)

def execScalarAdd (core : Nat) (s : State) : Host.Outcome State Fault Refusal :=
  .next (reachCore.take s (s.scalar core 0x00 (fun x => x.a + x.b)))

def execScalarSub (core : Nat) (s : State) : Host.Outcome State Fault Refusal :=
  .next (reachCore.take s (s.scalar core 0x01 (fun x => x.a - x.b)))

def execScalarMul (core : Nat) (s : State) : Host.Outcome State Fault Refusal :=
  .next (reachCore.take s (s.scalar core 0x02 (fun x => x.a * x.b)))

def execScalarShl (core : Nat) (s : State) : Host.Outcome State Fault Refusal :=
  .next (reachCore.take s (s.scalar core 0x03 (fun x => x.a <<< (x.b.toNat % 64))))

def execScalarShr (core : Nat) (s : State) : Host.Outcome State Fault Refusal :=
  .next (reachCore.take s (s.scalar core 0x04 (fun x => x.a >>> (x.b.toNat % 64))))

def execScalarSar (core : Nat) (s : State) : Host.Outcome State Fault Refusal :=
  .next (reachCore.take s (s.scalar core 0x05 (fun x => x.a.sshiftRight (x.b.toNat % 64))))

def execScalarAnd (core : Nat) (s : State) : Host.Outcome State Fault Refusal :=
  .next (reachCore.take s (s.scalar core 0x06 (fun x => x.a &&& x.b)))

def execScalarOr (core : Nat) (s : State) : Host.Outcome State Fault Refusal :=
  .next (reachCore.take s (s.scalar core 0x07 (fun x => x.a ||| x.b)))

def execScalarXor (core : Nat) (s : State) : Host.Outcome State Fault Refusal :=
  .next (reachCore.take s (s.scalar core 0x08 (fun x => x.a ^^^ x.b)))

def execScalarMadd (core : Nat) (s : State) : Host.Outcome State Fault Refusal :=
  .next (reachCore.take s (s.scalar core 0x09 (fun x => x.a + x.sb * x.imm)))

def execScalarCmpeq (core : Nat) (s : State) : Host.Outcome State Fault Refusal :=
  .next (reachCore.take s (s.scalar core 0x0A (fun x => if x.a = x.b then 1 else 0)))

def execScalarCmplt (core : Nat) (s : State) : Host.Outcome State Fault Refusal :=
  .next (reachCore.take s (s.scalar core 0x0B (fun x => if x.a.slt x.b then 1 else 0)))

def execScalarCmpltu (core : Nat) (s : State) : Host.Outcome State Fault Refusal :=
  .next (reachCore.take s (s.scalar core 0x0C (fun x => if x.a.ult x.b then 1 else 0)))

def execScalarLi (core : Nat) (s : State) : Host.Outcome State Fault Refusal :=
  .next (reachCore.take s (s.scalar core 0x0D (fun x => x.imm)))

def execScalarRdctr (core : Nat) (s : State) : Host.Outcome State Fault Refusal :=
  .next (reachCore.take s (s.scalar core 0x10 (fun x => x.ctr.zeroExtend 64)))

/-- The stockroom address of LDS and STS (R149). -/
def ScalarIn.addr (x : ScalarIn) : Nat := ((x.a + x.imm).toNat % 2097152) / 8 * 8

/-- LDS (R149). A word with a double-bit error loads a free value (R333). R145 lists no DATA_LOST for SCALAR: the order completes
without that status, and the loss is reported to the foreman as R144 reports one (DESIGN CHOICE, assumption 128). -/
def execScalarLds (core : Nat) (s : State) : Host.Outcome State Fault Refusal :=
  .next (reachOrder.take s (s.runOrder core (fun st => st.op = 0x58 && scalarOp st.ord = 0x0E) (fun s st =>
    let a := (s.scalarIn core st.ord).addr
    let (s1, id) := s.startOrder core st
    let (s2, b) := s1.readLoc (.stock core a) 8
    match b with
    | some bs => (s2.setSreg core (ordF st.ord 4 13 8) (BitVec.ofNat 64 (leNat bs))).complete core id
    | none => (((s2.setSreg core (ordF st.ord 4 13 8) s2.freeVal).freeUsed).complete core id).reportLost core none)))

/-- STS (R149). -/
def execScalarSts (core : Nat) (s : State) : Host.Outcome State Fault Refusal :=
  .next (reachCore.take s (s.runOrder core (fun st => st.op = 0x58 && scalarOp st.ord = 0x0F) (fun s st =>
    let x := s.scalarIn core st.ord
    let (s1, id) := s.startOrder core st
    (s1.stockWrite core x.addr (leBytes 8 x.b.toNat)).complete core id)))

/-- LOOP (R150, R152). -/
def execLoop (core : Nat) (s : State) : Host.Outcome State Fault Refusal :=
  .next (reachCore.take s (s.runOrder core (fun st => st.op = 0x59) (fun s st =>
    let r := ordF st.ord 4 5 0
    let n := (s.sreg core r).toNat
    let back := if ordF st.ord 5 15 0 = 0 then 1 else ordF st.ord 5 15 0
    let (s1, id) := s.startOrder core { st with clamps := st.clamps + b2n (ordF st.ord 5 15 0 = 0) }
    let s2 := s1.complete core id
    if n > 1 then
      (s2.setSreg core r (BitVec.ofNat 64 (n - 1))).jump core st.q ((st.idx : Int) - back)
    else s2.setSreg core r 0)))

/-- The condition of a BRANCH_IF (R151); 6 and 7 are EQ. -/
def branchTaken (cond : Nat) (a b : DWord) : Bool :=
  match cond with
  | 1 => decide (a ≠ b)
  | 2 => a.slt b
  | 3 => !a.slt b
  | 4 => a.ult b
  | 5 => !a.ult b
  | _ => decide (a = b)

/-- BRANCH_IF (R151, R152). -/
def execBranchIf (core : Nat) (s : State) : Host.Outcome State Fault Refusal :=
  .next (reachCore.take s (s.runOrder core (fun st => st.op = 0x5A) (fun s st =>
    let o := st.ord
    let a := s.sreg core (ordF o 4 5 0)
    let b := if bit (ordW o 4) 14 then ordImm o 6 else s.sreg core (ordF o 4 13 8)
    let off := if ordW o 5 = 0 then (1 : Int) else (BitVec.ofNat 32 (ordW o 5)).toInt
    let k := b2n (ordF o 4 18 16 > 5) + b2n (ordW o 5 = 0)
    let (s1, id) := s.startOrder core { st with clamps := st.clamps + k }
    let s2 := s1.complete core id
    if branchTaken (ordF o 4 18 16) a b then s2.jump core st.q ((st.idx : Int) + off) else s2)))

/-- Whether a core is in the partition of another (R148). -/
def State.samePart (s : State) (c d : Nat) : Bool := (s.partOfCore c).isSome && s.partOfCore c = s.partOfCore d

/-- R155: the header wait and every enabled condition hold at once, with the order's s-register as it stood at the beginning of
the order's start cycle (R138). -/
def State.waitMet (s : State) (c o : Nat) (base : Word) : Bool :=
  let ok (en hi lo w : Nat) : Bool :=
    !bit (ordW o 4) en || ctrSatisfies (s.ctr c (ordF o 4 hi lo)) (BitVec.ofNat 32 (ordW o w) + base)
  s.headerWaitAt c o base && ok 6 5 0 5 && ok 14 13 8 6 && ok 22 21 16 7

/-- WAIT (R155): completes at start where its conditions hold; otherwise it stays until ORDER_COMPLETE finds them met. -/
def execWait (core : Nat) (s : State) : Host.Outcome State Fault Refusal :=
  .next (reachCore.take s (s.runOrder core (fun st => st.op = 0x51) (fun s st =>
    let base := s.waitBase core st.ord
    let met := s.waitMet core st.ord base
    let (s1, id) := s.startOrder core st
    if met then s1.complete core id else s1.modFlight core id (fun f => { f with aux := [base.toNat] }))))

/-- The started, incomplete orders that a FENCE waits for (R154). -/
def State.fenceSet (s : State) (c : Nat) (st : Start) : List Nat :=
  let w := ordW st.ord 4
  ((s.core c).flights.filter (fun f => bit w 1 || f.q = st.q || (bit w 2 && opUnit f.op = .transfer))).map (·.id)

/-- FENCE (R154). -/
def execFence (core : Nat) (s : State) : Host.Outcome State Fault Refusal :=
  .next (reachCore.take s (s.runOrder core (fun st => st.op = 0x5B) (fun s st =>
    let l := s.fenceSet core st
    let (s1, id) := s.startOrder core st
    if l.isEmpty then s1.complete core id else s1.modFlight core id (fun f => { f with aux := l }))))

/-- The level and the duration of a TREADLE order after its clamps (R157), and the number of clamps. -/
def treadleFields (o : Nat) : Nat × Nat × Nat :=
  (min 100 (ordF o 4 14 8), max 1 (ordF o 5 15 0), b2n (ordF o 4 14 8 > 100) + b2n (ordF o 5 15 0 = 0))

/-- TREADLE (R157): it takes the looms it names; an older order active on one of them ends with OK. -/
def execTreadle (core : Nat) (s : State) : Host.Outcome State Fault Refusal :=
  .next (reachCore.take s (s.runOrder core (fun st => st.op = 0x60) (fun s st =>
    let (lvl, _, k) := treadleFields st.ord
    let mask := ordF st.ord 4 3 0
    let (s1, id) := s.startOrder core { st with clamps := st.clamps + k }
    let old := ((List.range 4).filterMap (fun l =>
      if bit mask l then (((s.core core).looms.getD l {}).fixedBy.map (·.1)) else none)).eraseDups
    let s2 := s1.modCore core (fun x => { x with looms := x.looms.mapIdx (fun l m =>
      if bit mask l then { m with fixedBy := some (id, lvl) }
      else match m.fixedBy with
        | some (f, _) => if old.contains f then { m with fixedBy := none } else m
        | none => m) })
    old.foldl (fun s f => s.complete core f) s2)))

/-- A TREADLE order's duration elapses (R157). -/
def execTreadleDurationEnd (core flight : Nat) (s : State) : Host.Outcome State Fault Refusal :=
  .next (reachCore.take s (
    match (s.core core).flight flight with
    | none => s
    | some f =>
      if f.op = 0x60 then
        (s.modCore core (fun x => { x with looms := x.looms.map (fun m =>
          match m.fixedBy with
          | some (i, _) => if i = flight then { m with fixedBy := none } else m
          | none => m) })).complete core flight
      else s))

/-- The head of a queue that is not in the buffer is fetched with its window (R129, R152); a stream that cannot be
recovered stops the queue (R167). A queue whose vault is not in MEMORY waits for it. -/
def execOrderRefetch (core q : Nat) (s : State) : Host.Outcome State Fault Refusal :=
  .next (reachOrder.take s (
    let x := s.queue core q
    if q ≥ 4 || x.stopped || decide (x.index ≥ s.queueLen core q) || !s.locReady (s.orderLoc core q x.index) 128 then s
    else
      let (s1, bad) := s.fetchWindow core q
      if bad = some x.index then s1.streamLost core q x.index else s1))

/-- A parity error in an order buffer: its entries are discarded and fetched again (R167). -/
def execClerkBufferParity (core q : Nat) (s : State) : Host.Outcome State Fault Refusal :=
  .next (reachOrder.take s (
    if q ≥ 4 then s
    else
      let s1 := (s.modQueue core q (fun x => { x with buf := [] })).setErr pgClerk core 0
      let x := s1.queue core q
      if decide (x.index ≥ s1.queueLen core q) || !s1.locReady (s1.orderLoc core q x.index) 128 then s1
      else
        let (s2, bad) := s1.fetchWindow core q
        if bad = some x.index then s2.streamLost core q x.index else s2))

/-- A rest of d ARITH cycles elapses (R165), and each of its cycles counts in CLERK_REST_CYC. -/
def execRestEnd (core : Nat) (s : State) : Host.Outcome State Fault Refusal :=
  .next (reachCore.take s (
    if (s.core core).rest = 0 then s
    else (s.bump pgClerk core 0 rClerkRestCyc (s.core core).rest).modCore core (fun x => { x with rest := 0, restAt := 0 })))

end Sys2Proof.Machine
end

