-- ==== Sys2Proof/Machine/Flow.lean ====
section
/-! DEFINITION. What traffic costs a partition at its regulators (R36, R180, R337, R342, R393). -/

namespace Sys2Proof.Machine

/-- Bytes of n bytes of data as mesh flits: 64 B each, with a header flit for every 4 KiB (R337, R342). -/
def meshBytes (n : Nat) : Nat := 64 * (ceilDiv n 64 + ceilDiv n 4096)

/-- The half of a node: cores and vaults 0 to 255, borrowed vaults 1000 and up, far ports 256 to 259, Mioquin ports 300 to
307; the hub, 260, reaches both (R16). -/
def nodeHalf (a : Nat) : Option Nat :=
  if a < 256 then some (coreHalf a) else if a < 260 then some ((a - 256) / 2)
  else if 1000 ≤ a then some (siteHalf (a - 1000) % 2) else if 300 ≤ a && a < 308 then some (a % 2) else none

/-- The node of a logical vault: its core's tile, but a borrowed vault stands by itself (R180). -/
def State.vaultNode (s : State) (l : Nat) : Nat :=
  match s.vaultOf l with
  | some p => if (s.vault p).role = .borrowed then 1000 + p else l
  | none => l

/-- The node of the Mioquin port toward a device. -/
def State.portNode (s : State) (port : Option Nat) : Nat := match port with | some n => 300 + n | none => 308

/-- n bytes at a place cut where their node changes: node, distance, length. -/
def State.cuts (s : State) (x : Loc) (n : Nat) : List (Nat × Nat × Nat) :=
  match x with
  | .stock c _ => [(c, 0, n)]
  | .vault l _ => [(s.vaultNode l, 0, n)]
  | .near o => (pieces o n).map (fun q => (s.vaultNode (nearSplit (q.1 % 274877906944)).1, q.2.2, q.2.1))
  | .far p _ => [(256 + p, 0, n)]
  | .host _ => [(260, 0, n)]
  | .guild d _ => [(s.portNode (s.portFor d), 0, n)]
  | .market g _ _ _ => [(s.portNode ((s.marketLink g).map (·.2)), 0, n)]

/-- What n bytes from one node to another cost a partition. `agent`: injected by a foreman or a porter. -/
def hopCost (p : Nat) (agent : Option Nat) (a b n : Nat) : List (Gate × Nat) :=
  if a = b || n = 0 then []
  else
    (match agent with
     | some g => [(.mesh p g, meshBytes n)]
     | none => if a < 256 then [(.mesh p a, meshBytes n)] else [])
    ++ (match nodeHalf a, nodeHalf b with
        | some x, some y => if x = y then [] else [(.d2d p x, meshBytes n)]
        | _, _ => [])
    ++ (if 256 ≤ a && a < 260 then [(.far p (a - 256) false, n)] else [])
    ++ (if 256 ≤ b && b < 260 then [(.far p (b - 256) true, n)] else [])
    ++ (if a = 260 then [(.host p false, n)] else [])
    ++ (if b = 260 then [(.host p true, n)] else [])

/-- What n bytes from one place to another cost a partition. -/
def State.flowCost (s : State) (p : Nat) (agent : Option Nat) (src dst : Loc) (n : Nat) : List (Gate × Nat) :=
  (s.cuts src n).foldl (fun l q => (s.cuts (dst.plus q.2.1) q.2.2).foldl (fun l r =>
    (hopCost p agent q.1 r.1 r.2.2).foldl addCost l) l) []

/-- What bytes cost a partition that go from one core's tile to others': (source, destination, bytes). -/
def tileCost (p : Nat) (agent : Nat → Option Nat) (l : List (Nat × Nat × Nat)) : List (Gate × Nat) :=
  l.foldl (fun acc x => (hopCost p (agent x.1) x.1 x.2.1 x.2.2).foldl addCost acc) []

/-- The porter's, and the foreman's, injection for traffic that starts at a core's half (R342). -/
def porterAgent (c : Nat) : Option Nat := some (258 + coreHalf c)
def foremanAgent (c : Nat) : Option Nat := some (256 + coreHalf c)

end Sys2Proof.Machine
end

