-- ==== Sys2Proof/Machine/Transfer.lean ====
section
/-! DEFINITION. Transfer orders (R147, R148, R158 to R160): local copies, puts, gets and market sends (R362, R364 to
R366); and SIGNAL, which follows them (R153). -/

namespace Sys2Proof.Machine

/-- The fields of LOAD, STORE and MOVE after their clamps, and the number of fields clamped. -/
structure Xfer where
  src : Nat
  dst : Nat
  len : Nat
  rows : Nat
  ss : Nat
  ds : Nat
  inc : Nat
  ctrEn : Bool
  ctr : Nat
  dcore : Nat
  clamps : Nat
deriving DecidableEq, Repr

/-- An address in another space, its offset kept. -/
def inSpace (code bits_ a : Nat) : Nat := code <<< 60 + a % 2 ^ bits_

/-- R147: codes 0x9 to 0xF become STOCK; MARKET too where it is not accepted. -/
def addrClamp (market : Bool) (a : Nat) : Nat × Nat :=
  if spaceOf a > 8 || (spaceOf a = 8 && !market) then (inSpace 0 21 a, 1) else (a, 0)

/-- R158: LOAD's dst, and STORE's src, must be STOCK or STOCK_CORE naming this core. -/
def addrOwnStock (core a : Nat) : Nat × Nat :=
  if spaceOf a = 0 || (spaceOf a = 2 && bits a 37 30 = core) then (a, 0) else (inSpace 0 21 a, 1)

def isOuter (a : Nat) : Bool := spaceOf a = 5 || spaceOf a = 6 || spaceOf a = 7

/-- R158, R362, R364: the fields of a transfer order of opcode op (LOAD 1, STORE 2, MOVE 3). -/
def xferOf (core op o : Nat) : Xfer :=
  let d0 := addrClamp (op = 3) (ordW64 o 6)
  let s0 := addrClamp false (ordW64 o 4)
  let d1 := if op = 1 then addrOwnStock core (ordW64 o 6) else d0
  let s1 :=
    if op = 2 then addrOwnStock core (ordW64 o 4)
    else if op = 3 && spaceOf d1.1 = 8 then
      (if spaceOf s0.1 = 0 then s0 else (inSpace 0 21 s0.1, 1))
    else if op = 3 && isOuter s0.1 && isOuter d1.1 then (inSpace 4 38 s0.1, 1)
    else s0
  let len0 := ordW o 8
  let len := clampNat 1 1073741824 len0
  let rows0 := ordF o 9 15 0
  let r1 := max 1 rows0
  -- the rows of a market send or a put are reduced until it fits (R362, R364)
  let per := if spaceOf d1.1 = 8 then ceilDiv len 576 else if spaceOf d1.1 = 7 then ceilDiv len 589824 else 0
  let most := if spaceOf d1.1 = 8 then 1024 else 524288
  let rows := if per = 0 then r1 else max 1 (min r1 (most / per))
  let en := bit (ordW o 12) 6
  let inc0 := ordF o 12 23 16
  { src := s1.1, dst := d1.1, len := len, rows := rows, ss := ordW o 10, ds := ordW o 11, inc := max 1 inc0, ctrEn := en,
    ctr := ordF o 12 5 0, dcore := ordF o 12 15 8,
    clamps := s1.2 + d1.2 + b2n (len != len0) + b2n (rows != rows0) + b2n (en && inc0 = 0 && spaceOf d1.1 != 8) }

/-- Row r of a transfer's source and destination (R159). -/
def Xfer.srcAt (x : Xfer) (core r : Nat) : Loc := (locOf core x.src).plus (r * x.ss)
def Xfer.dstAt (x : Xfer) (core r : Nat) : Loc := (locOf core x.dst).plus (r * x.ds)

/-- The core whose counter dst_ctr names (the table of transfer orders). -/
def Xfer.ctrCore (x : Xfer) (core : Nat) : Nat :=
  match locOf core x.dst with
  | .stock c _ => c
  | .vault l _ => l
  | .near _ => x.dcore
  | .guild _ _ => x.dcore
  | .market _ _ c _ => c
  | _ => core

/-- The refusal of a transfer, if one applies (R148, R362): STATE_REFUSED ranks before QUOTA_REFUSED (R11). -/
def State.xferRefusal (s : State) (core : Nat) (x : Xfer) : Option Nat :=
  let guild := spaceOf x.src = 7 || spaceOf x.dst = 7
  let market := spaceOf x.dst = 8
  if (guild && !s.fab.isMember) || (market && (!s.fab.isMember || s.fab.market.isNone)) then some stState
  else
    match s.partOfCore core with
    | none => some stQuota
    | some p =>
      let rowsOk := (List.range x.rows).all (fun r =>
        s.inWindows p (x.srcAt core r) x.len && s.inWindows p (x.dstAt core r) x.len)
      let ctrOk := !x.ctrEn || spaceOf x.dst = 7 || market || s.samePart core (x.ctrCore core)
      if rowsOk && ctrOk then none else some stQuota

/-- A place lies in a fenced half (R465). -/
def State.locFenced (s : State) (x : Loc) (n : Nat) : Bool :=
  match s.abs.fence with
  | none => false
  | some f =>
    let h := f.half
    if f.stage ≥ 4 then false else
    match x with
    | .stock c _ => coreHalf c = h
    | .far p _ => p / 2 = h
    | _ => (x.vaults n).any (fun l => coreHalf l = h)

/-- A place can be read or written now: its vaults are in MEMORY (R160, R187), its half is not fenced (R465), its far
port is up (R392), and the host link is up for a read of host memory (R383). -/
def State.placeReady (s : State) (x : Loc) (n : Nat) (read : Bool) : Bool :=
  s.locReady x n && !s.locFenced x n &&
  (match x with
   | .far p _ => (s.farPort p).st = .up || (s.farPort p).st = .upDegraded
   | .host _ => !read || s.hostUp
   | _ => true)

def State.xferReady (s : State) (core : Nat) (x : Xfer) : Bool :=
  (List.range x.rows).all (fun r => s.placeReady (x.srcAt core r) x.len true && s.placeReady (x.dstAt core r) x.len false)

/-- Bytes of a source, or free bytes and the fact of their loss (R160). -/
def State.readOrFree (s : State) (x : Loc) (n : Nat) : State × List Byte × Bool :=
  let (s1, b) := s.readRestored x n
  match b with
  | some bs => (s1, bs, true)
  | none =>
    let (s2, bs) := s1.freeBytes n
    (s2, bs, false)

/-- Whether a transfer order is a guild or market order. -/
def Xfer.isFabric (x : Xfer) : Bool := spaceOf x.src = 7 || spaceOf x.dst = 7 || spaceOf x.dst = 8

/-- The vaults (1, n) and stockrooms (0, n) of this device that a transfer delivers to. -/
def Xfer.targets (x : Xfer) (core : Nat) : List (Nat × Nat) :=
  ((List.range x.rows).flatMap (fun r => match x.dstAt core r with
    | .stock c _ => [(0, c)]
    | y => (y.vaults x.len).map (fun l => (1, l)))).eraseDups

/-- An earlier local transfer of a core that is not delivered yet goes to a vault or core that a later one goes to: the two
are delivered in issue order (R21). -/
def State.xferBehind (s : State) (core id : Nat) (x : Xfer) : Bool :=
  let mine := x.targets core
  (s.core core).flights.any (fun f => decide (f.id < id) && !f.done && opUnit f.op = .transfer &&
    (let y := xferOf core f.op f.ord
     !y.isFabric && (y.targets core).any (fun t => mine.contains t)))

/-- The copy of a local transfer, rows in ascending order; then dst_ctr is signalled at the destination, and the order is
done (R159, R160). Where source and destination overlap, a row reads what the rows before it have written: R159 lets an
overlapped byte end with its old value or the value copied (DESIGN CHOICE, assumption 113). -/
def State.xferCopy (s : State) (core id : Nat) (x : Xfer) : State :=
  let (s1, ok) := (List.range x.rows).foldl (fun (acc : State × Bool) r =>
    let (s', bs, good) := acc.1.readOrFree (x.srcAt core r) x.len
    (((s'.guestLines (some core) (x.srcAt core r) x.len).writeLoc (x.dstAt core r) bs).guestLines (some core) (x.dstAt core r) x.len,
      acc.2 && good)) (s, true)
  let s2 := if x.ctrEn then s1.signal (x.ctrCore core) x.ctr x.inc else s1
  s2.finish core id (if ok then stOk else stLost)

/-- What the data of a local transfer costs its partition at the regulators (R24, R180, R393). Where it has none, nothing. -/
def State.xferCost (s : State) (core : Nat) (x : Xfer) : List (Gate × Nat) :=
  match s.partOfCore core with
  | none => []
  | some p => (List.range x.rows).foldl (fun l r => (s.flowCost p none (x.srcAt core r) (x.dstAt core r) x.len).foldl addCost l) []

/-- A request enters the guest queue of a vault, or is held at the mesh ejection port while its 64 entries are in use
(R217). -/
def State.guestWait (s : State) (p : Nat) (q : GuestReq) : State :=
  if (s.vault p).guests.length < 64 then
    (s.modVault p (fun v => { v with guests := v.guests ++ [q] })).bump pgBank p 0 rBankGuestHeld 1
  else s.modVault p (fun v => { v with held := v.held ++ [q] })

/-! ### Puts, gets and market messages -/

/-- The bytes of one transfer of an order: 589,824 B for puts and gets, 576 B for market messages. -/
def Xfer.unit (x : Xfer) : Nat := if spaceOf x.dst = 8 then 576 else 589824

/-- Transfer k of a guild or market order: its row, its offset in the row and its bytes (R362, R364, R366). -/
def Xfer.part (x : Xfer) (unit k : Nat) : Nat × Nat × Nat :=
  let per := ceilDiv x.len unit
  let r := k / per
  let o := (k % per) * unit
  (r, o, min unit (x.len - o))

def Xfer.parts (x : Xfer) : Nat := x.rows * ceilDiv x.len x.unit

/-- What one transfer of a put or a market message costs; the data of a get is injected elsewhere. -/
def State.partCost (s : State) (core : Nat) (x : Xfer) (k : Nat) : List (Gate × Nat) :=
  let (r, o, n) := x.part x.unit k
  match s.partOfCore core with
  | none => []
  | some p => if spaceOf x.src = 7 then [] else
      s.flowCost p none ((locOf core x.src).plus (r * x.ss + o)) ((locOf core x.dst).plus (r * x.ds + o)) n

/-- The next transfer number that is not open. -/
def State.freeXfer (s : State) : Nat :=
  ((List.range 4096).map (fun k => (s.fab.nextXfer + k) % 4096)).find? (fun i => !s.fab.outs.any (fun t => t.id = i)) |>.getD 0

/-- The PUT messages of a transfer (R357, R364): `tail` is the 8 B after each message's data. -/
def putMsgs (dev guild off id tail : Nat) (bs : List Byte) : List FMsg :=
  let n := ceilDiv bs.length 576
  (List.range n).map (fun i =>
    { ty := 0x01, dstDev := dev, srcDev := 0, dstGuild := guild, srcGuild := 0, snap := false,
      info := (off + 576 * i) % 2 ^ 38 + i <<< 38 + id <<< 48,
      data := ((bs.drop (576 * i)).take 576) ++ leBytes 8 (n - 1 + tail) })

/-- One transfer of a guild or market order is opened and its messages leave. -/
def State.openXfer (s : State) (core id tag k : Nat) (x : Xfer) : State :=
  let (r, o, n) := x.part x.unit k
  let xid := s.freeXfer
  let next (s : State) : State := { s with fab := { s.fab with nextXfer := (xid + 1) % 4096 } }
  match (locOf core x.src).plus (r * x.ss + o), (locOf core x.dst).plus (r * x.ds + o) with
  | .guild dev off, _ =>
    -- a get (R366)
    let m : FMsg := ⟨0x02, dev, 0, s.fab.guild, 0, false, off + xid <<< 38, leBytes 8 n⟩
    let t : XferOut := ⟨xid, .get, s.fab.guild, dev, core, id, [m], 0, r * x.ds + o, n, [], false⟩
    (({ (next s) with fab := { (next s).fab with outs := s.fab.outs ++ [t] } }).bump pgFab 0 0 rFabGets 1).sendMsg m
  | from_, .guild dev off =>
    let (s1, bs, ok) := s.readOrFree from_ n
    let tail := (x.parts - 1) <<< 10 + x.ctr <<< 29 + b2n x.ctrEn <<< 35 + x.dcore <<< 36 + x.inc <<< 44 + tag <<< 52
    let ms := putMsgs dev s.fab.guild off xid tail bs
    let t : XferOut := ⟨xid, .put, s.fab.guild, dev, core, id, ms, 0, 0, n, [], false⟩
    let s2 := ({ (next s1) with fab := { (next s1).fab with outs := s1.fab.outs ++ [t] } }).bump pgFab 0 0 rFabPuts 1
    let s3 := if ok then s2 else s2.modFlight core id (fun f => { f with status := statusJoin f.status stLost })
    ms.foldl (fun s m => s.sendMsg m) s3
  | from_, .market g dev c off =>
    let (s1, bs, ok) := s.readOrFree from_ n
    let m : FMsg := ⟨0x0D, dev, 0, g, 0, false, c + x.ctr <<< 8 + b2n x.ctrEn <<< 14 + xid <<< 15,
      leBytes 8 (off % 2097152) ++ bs⟩
    let t : XferOut := ⟨xid, .msg, g, dev, core, id, [m], 0, 0, n, [], false⟩
    let s2 := { (next s1) with fab := { (next s1).fab with outs := s1.fab.outs ++ [t] } }
    let s3 := if ok then s2 else s2.modFlight core id (fun f => { f with status := statusJoin f.status stLost })
    s3.sendMsg m
  | _, _ => s

/-- Transfers of a guild or market order are opened, in ascending address order, while the limits of R364 allow and
their local places can be used. The flight's aux holds the next transfer, the order tag and whether the order's
transfers are all open. -/
def State.openXfers (s : State) (core id : Nat) (x : Xfer) : State :=
  match (s.core core).flight id with
  | none => s
  | some f =>
    let first := f.aux.getD 0 0
    let tag := f.aux.getD 1 0
    let (s1, k) := (List.range (x.parts - first)).foldl (fun (acc : State × Nat) _ =>
      let (s, k) := acc
      let (r, o, n) := x.part x.unit k
      let dev : Option Nat := match locOf core x.dst, locOf core x.src with
        | .guild d _, _ => some d
        | _, .guild d _ => some d
        | _, _ => none
      let toDev : Nat := match dev with
        | some d => (s.fab.outs.filter (fun t => t.guild = s.fab.guild && t.dev = d)).length
        | none => 0
      let ready := if spaceOf x.src = 7 then s.placeReady ((locOf core x.dst).plus (r * x.ds + o)) n false
        else s.placeReady ((locOf core x.src).plus (r * x.ss + o)) n true
      if decide (s.fab.outs.length < 1024) && decide (toDev < 64) && ready && decide (k < x.parts) then
        (if s.gatesOpen (s.partCost core x k) then ((s.gatesTake (s.partCost core x k)).openXfer core id tag k x, k + 1)
         else (s.gatesHeld (s.partCost core x k), k))
      else (s, k)) (s, first)
    s1.modFlight core id (fun f => { f with aux := [k, tag] })

/-- A transfer waits in the guest queue of every vault out of MEMORY that it reaches over the mesh, once in each; with the
queue full it is held at the ejection port (R160, R217). A core's own vault makes it wait at the transfer engine. -/
def State.xferGuests (s : State) (core id : Nat) (x : Xfer) : State :=
  let ls := ((List.range x.rows).flatMap (fun r => (x.srcAt core r).vaults x.len ++ (x.dstAt core r).vaults x.len)).eraseDups
  ls.foldl (fun s l =>
    match s.vaultOf l with
    | some p =>
      let v := s.vault p
      if v.mode != .memory && l != core && !(v.guests ++ v.held).contains (.transfer core id) then
        s.guestWait p (.transfer core id)
      else s
    | none => s) s

/-- dst_ctr is signalled at a destination of this device (R159). -/
def State.xferSignal (s : State) (core : Nat) (x : Xfer) : State :=
  if x.ctrEn then s.signal (x.ctrCore core) x.ctr x.inc else s

/-- What a started transfer can do now: open its transfers, or copy where every place is ready; otherwise it waits
(R21, R24, R160, R217, R392, R465). -/
def State.xferRun (s : State) (core id : Nat) (x : Xfer) : State :=
  if x.isFabric then
    let s1 := s.openXfers core id x
    match (s1.core core).flight id with
    | some f =>
      if f.aux.getD 0 0 < x.parts then s1.xferGuests core id x
      else if s1.fab.outs.any (fun t => t.core = core && t.flight = id && t.kind != .mirror) then s1
      else (if spaceOf x.dst = 7 || spaceOf x.dst = 8 then s1 else s1.xferSignal core x).finish core id stOk
    | none => s1
  else if s.xferReady core x && !s.xferBehind core id x then s.gated (s.xferCost core x) (fun s => s.xferCopy core id x) (fun s => s)
  else s.xferGuests core id x

/-- A transfer ends with DATA_LOST: a destination in this device holds unspecified bytes, and dst_ctr is signalled there all
the same; a put or market message that could not be delivered signals nothing (R160). -/
def State.xferLost (s : State) (core id : Nat) : State :=
  match (s.core core).flight id with
  | none => s
  | some f =>
    let x := xferOf core f.op f.ord
    if opUnit f.op != .transfer || f.done || spaceOf x.dst = 7 || spaceOf x.dst = 8 then s.finish core id stLost
    else
      let s1 := (List.range x.rows).foldl (fun s r =>
        if s.placeReady (x.dstAt core r) x.len false then
          let (s', bs) := s.freeBytes x.len
          s'.writeLoc (x.dstAt core r) bs
        else s) s
      (s1.xferSignal core x).finish core id stLost

/-- A transfer order starts (R158, R159). -/
def State.xferStart (s : State) (core : Nat) (st : Start) : State :=
  let x := xferOf core st.op st.ord
  match s.xferRefusal core x with
  | some r => s.refuseOrder core st r
  | none =>
    let (s1, id) := s.startOrder core { st with clamps := st.clamps + x.clamps }
    let tag := s1.fab.nextTag
    let s2 := if x.isFabric then
        ({ s1 with fab := { s1.fab with nextTag := (tag + 1) % 4096 } }).modFlight core id (fun f => { f with aux := [0, tag] })
      else s1
    let s4 := s2.xferRun core id x
    if x.isFabric || s2.xferReady core x then s4
    else
      let held := (List.range x.rows).any (fun r => s.locFenced (x.srcAt core r) x.len || s.locFenced (x.dstAt core r) x.len)
      match s4.abs.fence with
      | some f => if held then { s4 with abs := { s4.abs with fence := some { f with orders := f.orders ++ [(core, id)] } } } else s4
      | none => s4

/-- A transfer that waited is tried again. -/
def State.xferRetry (s : State) (core id : Nat) : State :=
  match (s.core core).flight id with
  | some f => if opUnit f.op = .transfer && !f.done then s.xferRun core id (xferOf core f.op f.ord) else s
  | none => s

def execLoad (core : Nat) (s : State) : Host.Outcome State Fault Refusal :=
  .next (reachOrder.take s (s.runOrder core (fun st => st.op = 0x01) (fun s st => s.xferStart core st)))

def execStore (core : Nat) (s : State) : Host.Outcome State Fault Refusal :=
  .next (reachOrder.take s (s.runOrder core (fun st => st.op = 0x02) (fun s st => s.xferStart core st)))

def execMove (core : Nat) (s : State) : Host.Outcome State Fault Refusal :=
  .next (reachOrder.take s (s.runOrder core (fun st => st.op = 0x03) (fun s st => s.xferStart core st)))

/-! ### SIGNAL (R153) -/

/-- The transfers of a core that are not complete and go toward a core's vault or stockroom (R153, R21). -/
def State.transfersTo (s : State) (c d : Nat) : List Nat :=
  ((s.core c).flights.filter (fun f => opUnit f.op = .transfer &&
    (let x := xferOf c f.op f.ord
     !x.isFabric && (x.targets c).any (fun t => t.2 = d)))).map (·.id)

/-- SIGNAL (R153): a local counter changes at once, and what the order's own completion adds to it is summed into a value set; a
remote signal is sent on its way; a core outside the partition refuses the order. -/
def State.signalOrder (s : State) (c : Nat) (set : Bool) : State :=
  s.runOrder c (fun st => st.op = 0x50 && bit (ordW st.ord 4) 17 = set) (fun s st =>
    let o := st.ord
    let ctr := ordF o 4 5 0
    let v := BitVec.ofNat 32 (ordW o 5)
    let d := ordF o 4 15 8
    if bit (ordW o 4) 16 then
      if s.samePart c d then
        let after := s.transfersTo c d
        let (s1, id) := s.startOrder c st
        (s1.complete c id).modCore c (fun x => { x with sigs := x.sigs ++ [⟨id, d, ctr, set, v, after⟩] })
      else
        let s1 := s.refuseOrder c st stQuota
        s1.complete c (s.core c).freshId
    else
      let (s1, id) := s.startOrder c st
      if set then (s1.setCtr c ctr v).complete c id else (s1.signal c ctr v.toNat).complete c id)

def execSignalAdd (core : Nat) (s : State) : Host.Outcome State Fault Refusal :=
  .next (reachCore.take s (s.signalOrder core false))

def execSignalSet (core : Nat) (s : State) : Host.Outcome State Fault Refusal :=
  .next (reachCore.take s (s.signalOrder core true))

/-- A remote signal is delivered once the transfers it follows are complete and no earlier signal to the same core waits
(R153, R21); a signal to a fenced half waits (R465). -/
def execSignalDeliver (core flight : Nat) (s : State) : Host.Outcome State Fault Refusal :=
  .next (reachCore.take s (
    let x := s.core core
    match x.sigs.find? (fun g => g.id = flight) with
    | none => s
    | some g =>
      if g.after.any (fun i => (x.flight i).isSome) || x.sigs.any (fun h => h.core = g.core && decide (h.id < g.id))
          || s.fencedHalf = some (coreHalf g.core) then s
      else
        let s1 := s.modCore core (fun y => { y with sigs := y.sigs.filter (fun h => h.id != flight) })
        if g.set then s1.setCtr g.core g.ctr g.value else s1.signal g.core g.ctr g.value.toNat))

end Sys2Proof.Machine
end

