-- ==== Sys2Proof/Machine/FabIn.lean ====
section
/-! DEFINITION. What arrives of puts and gets: the data of a PUT or GET_RSP message reaches its place, or waits in a guest
queue (R217, R360, R365, R366); acknowledgements (R357, R463). -/

namespace Sys2Proof.Machine

/-- A request that a vault cannot serve now: held while the vault is in MEMORY and its range is busy (R189, R192), in the
guest queue otherwise (R217). -/
def State.waitAt (s : State) (p : Nat) (q : GuestReq) : State :=
  if (s.vault p).mode = .memory then s.modVault p (fun v => { v with held := v.held ++ [q] }) else s.guestWait p q

/-- A vault at which a posted write of a function still waits (R23). -/
def State.writeWaits (s : State) (fn : Nat) : Option Nat :=
  (s.vaults.find? (fun e => (e.2.guests ++ e.2.held).any (fun q => match q with | .write (some f) _ _ => f = fn | _ => false))).map (·.1)

/-- A posted write of a function is buffered for a half that it cannot reach (R387). -/
def State.postedWaits (s : State) (fn : Nat) : Bool := s.host.posted.any (fun w => w.2.2.2.2 = fn && decide (w.1 < 256))

/-- Every earlier posted write of a function is visible (R23). -/
def State.writesSeen (s : State) (fn : Nat) : Bool := !s.postedWaits fn && (s.writeWaits fn).isNone

/-- A host read of a logical vault completes: with Completer Abort where a line is lost (R330). -/
def State.hostServe (s : State) (fn tag l addr len : Nat) : State :=
  let (s1, b) := s.vaultBytes l addr len
  let s2 := match s.vaultOf l with | some p => s1.bump pgVlt p 0 rVltGuestLines (ceilDiv (addr % 64 + len) 64) | none => s1
  match b with
  | some bs => s2.emit (.bytes fn tag bs)
  | none => s2.emit (.cpl fn tag 2)

/-- A host read of one granule reaches its vault, behind the posted writes of its function that were accepted before it (R23,
R178). It waits for a discard and a reload, and never for the recovery of a line (R330). -/
def State.hostReadTry (s : State) (fn tag l addr len : Nat) : State :=
  if s.postedWaits fn then { s with host := { s.host with reads := s.host.reads ++ [(fn, tag, l, addr, len, s.timeUs)] } }
  else match s.writeWaits fn with
  | some p => s.waitAt p (.hostNext fn tag l addr len)
  | none =>
    match s.vaultOf l with
    | none => s.emit (.cpl fn tag 1)
    | some p =>
      let v := s.vault p
      let g := addr / 4096
      if v.mode = .memory && !v.discarding g && !v.reloading g then s.hostServe fn tag l addr len
      else s.waitAt p (.hostRead fn tag addr len)

/-- An ACK to the sender of a message: bits 12 duplicate, 13 refused, 14 adopted, 15 fenced (R357, R463). A market message's
goes back on VC MKT (R362), any other on RSP. -/
def State.sendAck (s : State) (m : FMsg) (id flags : Nat) : State :=
  s.sendOn (if m.ty = 0x0D then 3 else 1) ⟨0x04, m.srcDev, 0, m.srcGuild, 0, false, id % 4096 + flags, []⟩

abbrev ackDup := 4096
abbrev ackRefused := 8192
abbrev ackAdopted := 16384
abbrev ackFenced := 32768

/-! ### Writes that belong to a snapshot taken before they arrived (R372, R377) -/

/-- The image's header with its granule count and CRC (R450). -/
def imageHead (h : List Byte) (granules : Nat) : List Byte :=
  let a := h.take 24 ++ leBytes 8 granules ++ h.drop 32
  a.take 36 ++ leBytes 4 (crc32 (a.take 36 ++ [0, 0, 0, 0] ++ a.drop 40)) ++ a.drop 40

/-- Bytes with the old tag enter the image: in the granule's copy, or in a granule that held nothing at the cut. -/
def State.snapOldPart (s : State) (l g i : Nat) (bs : List Byte) : State :=
  let s1 := s.snapGranule l g
  match s1.snap with
  | none => s1
  | some x =>
    match smFind x.placed (granuleKey l g) with
    | some off => s1.imagePut ((locOf 0 x.dest).plus (off + 8 + i)) bs
    | none =>
      let data := List.replicate i 0 ++ bs ++ List.replicate (4096 - i - bs.length) 0
      let head := imageHead x.head (leNat ((x.head.drop 24).take 8) + 1)
      let s2 := (s1.imagePut ((locOf 0 x.dest).plus x.fill) (leBytes 8 (l <<< 30 + g * 4096) ++ data)).imagePut (locOf 0 x.dest) head
      { s2 with snap := some { x with head := head, placed := smPut x.placed (granuleKey l g) x.fill, fill := x.fill + 4104 } }

/-- A write with the old tag to a vault of the snapshot's partition. -/
def State.snapOld (s : State) (l a : Nat) (bs : List Byte) : State :=
  match s.snap with
  | none => s
  | some x =>
    if !(s.part x.part).cores.contains l then s
    else (pieces a bs.length).foldl (fun s q => s.snapOldPart l (q.1 / 4096) (q.1 % 4096) ((bs.drop q.2.2).take q.2.1)) s

/-! ### The target of a put (R360, R365) -/

/-- Fields of a PUT message. -/
def putId (m : FMsg) : Nat := bits m.info 59 48
def putIdx (m : FMsg) : Nat := bits m.info 47 38
def putOff (m : FMsg) : Nat := bits m.info 37 0
def putTail (m : FMsg) : Nat := leNat (m.data.drop (m.data.length - 8))
def putBody (m : FMsg) : List Byte := m.data.take (m.data.length - 8)

/-- An open transfer at this target is the one of a message. -/
def XferIn.isOf (t : XferIn) (m : FMsg) (id : Nat) : Bool := t.guild = m.srcGuild && t.dev = m.srcDev && t.id = id

/-- Records of acknowledged transfers of an initiator that are far behind its present numbers are given up: at most 1,024
of its transfers are open at once (R364). -/
def ageIns (l : List XferIn) (m : FMsg) (id : Nat) : List XferIn :=
  l.filter (fun t => !(t.guild = m.srcGuild && t.dev = m.srcDev && t.acked
    && decide (1024 ≤ (id + 4096 - t.id) % 4096) && decide ((id + 4096 - t.id) % 4096 < 3072)))

/-- A message of a transfer is received: the bitmap takes its first copy; a later copy is counted in FAB_DUPS, and one of an
acknowledged transfer's last message is acknowledged again. Answers whether it is the first copy. -/
def State.receive (s : State) (m : FMsg) (id idx total : Nat) : State × Bool :=
  let ins := ageIns s.fab.ins m id
  match ins.find? (fun t => t.isOf m id) with
  | some t =>
    if t.got.contains idx then
      let s1 := s.bump pgFab 0 0 rFabDups 1
      (if t.acked && idx + 1 = t.total then s1.sendAck m id ackDup else s1, false)
    else
      ({ s with fab := { s.fab with ins := ins.map (fun x => if x.isOf m id then { x with got := x.got ++ [idx] } else x) } }, true)
  | none =>
    let t : XferIn := { guild := m.srcGuild, dev := m.srcDev, id := id, got := [idx], seen := 0, total := total, acked := false }
    ({ s with fab := { s.fab with ins := ins ++ [t] } }, true)

/-- One message of a transfer has been made visible. Answers whether the transfer is whole with it. -/
def State.madeVisible (s : State) (m : FMsg) (id : Nat) : State × Bool :=
  match s.fab.ins.find? (fun t => t.isOf m id) with
  | none => (s, false)
  | some t =>
    let whole := decide (t.seen + 1 = t.total)
    ({ s with fab := { s.fab with ins := s.fab.ins.map (fun x =>
        if x.isOf m id then { x with seen := x.seen + 1, acked := x.acked || whole } else x) } }, whole)

/-- A transfer of an order tag is acknowledged; after the last one dst_ctr is signalled (R365). -/
def State.tagAcked (s : State) (m : FMsg) (id : Nat) : State :=
  let w := putTail m
  let tag := bits w 63 52
  let total := bits w 28 10 + 1
  let mine (t : TagIn) : Bool := t.guild = m.srcGuild && t.dev = m.srcDev && t.tag = tag
  let old := match s.fab.tags.find? mine with | some t => t.acked | none => []
  let now := old ++ [id]
  let rest := s.fab.tags.filter (fun t => !mine t)
  if now.length ≥ total then
    let s1 := { s with fab := { s.fab with tags := rest } }
    if bit w 35 then s1.signal (bits w 43 36) (bits w 34 29) (bits w 51 44) else s1
  else
    let t : TagIn := { guild := m.srcGuild, dev := m.srcDev, tag := tag, acked := now, total := total }
    { s with fab := { s.fab with tags := rest ++ [t] } }

/-- The vault pieces of a message's bytes in the near aperture: logical vault, address, length, distance. -/
def nearParts (o n : Nat) : List (Nat × Nat × Nat × Nat) :=
  (pieces o n).map (fun q => let x := nearSplit (q.1 % 274877906944); (x.1, x.2, q.2.1, q.2.2))

/-- The physical vault among some pieces that cannot take a GUEST write now. -/
def State.notReady (s : State) (l : List (Nat × Nat × Nat × Nat)) : Option Nat :=
  l.findSome? (fun q => match s.vaultOf q.1 with
    | some p =>
      let v := s.vault p
      if v.mode != .memory || v.busyIn (q.2.1 / 4096) (granulesOf q.2.1 q.2.2.1) then some p else none
    | none => none)

/-- A PUT message's data is written through the interleave, or the message waits for a vault. -/
def State.putTry (s : State) (m : FMsg) : State :=
  let body := putBody m
  let ps := nearParts (putOff m) body.length
  match s.notReady ps with
  | some p => s.waitAt p (.fab m)
  | none =>
    let s := s.guestLines none (.near (putOff m)) body.length
    let s0 := if m.snap = s.fab.snapTag then s
      else ps.foldl (fun s q => s.snapOld q.1 q.2.1 ((body.drop q.2.2.2).take q.2.2.1)) s
    let s1 := ps.foldl (fun s q => s.vaultWrite q.1 q.2.1 ((body.drop q.2.2.2).take q.2.2.1)) s0
    let (s2, whole) := s1.madeVisible m (putId m)
    if whole then (s2.tagAcked m (putId m)).sendAck m (putId m) 0 else s2

/-! ### The initiator of a get (R366) -/

/-- The open get that a GET_RSP belongs to. -/
def State.getOf (s : State) (m : FMsg) : Option XferOut :=
  s.fab.outs.find? (fun t => t.kind = .get && t.id = bits m.info 31 20 && t.guild = m.srcGuild && t.dev = m.srcDev)

/-- A transfer leaves the list of open ones. -/
def State.closeXfer (s : State) (id : Nat) : State := { s with fab := { s.fab with outs := s.fab.outs.filter (fun t => t.id != id) } }

/-- Where a GET_RSP's data goes. -/
def State.getPlace (s : State) (t : XferOut) (m : FMsg) : Option Loc :=
  ((s.core t.core).flight t.flight).map (fun f =>
    ((locOf t.core (xferOf t.core f.op f.ord).dst).plus t.dst).plus (576 * bits m.info 19 10))

/-- A GET_RSP's data is written at its destination, or waits for a vault; the last one ends the transfer. -/
def State.rspTry (s : State) (m : FMsg) : State :=
  match s.getOf m with
  | none => s
  | some t =>
    match s.getPlace t m with
    | none => s.closeXfer t.id
    | some x =>
      let parts : List (Nat × Nat × Nat × Nat) := match x with
        | .vault l o => [(l, o, m.data.length, 0)]
        | .near o => nearParts o m.data.length
        | _ => []
      match s.notReady parts with
      | some p => s.waitAt p (.fab m)
      | none =>
        let s1 := (s.writeLoc x (m.data.take (t.bytes - 576 * bits m.info 19 10))).guestLines none x m.data.length
        let got := insNat t.got (bits m.info 19 10)
        if got.length = bits m.info 9 0 + 1 then (s1.closeXfer t.id).xferRetry t.core t.flight
        else { s1 with fab := { s1.fab with outs := s1.fab.outs.map (fun y => if y.id = t.id then { y with got := got } else y) } }

/-- A GET_REQ's data returns in GET_RSP messages, or the request waits for a vault (R217, R366); where the data is lost, the
ACK is refused. -/
def State.getTry (s : State) (m : FMsg) : State :=
  let off := bits m.info 37 0
  let id := bits m.info 49 38
  let n := bits (leNat m.data) 19 0
  match s.notReady (nearParts off n) with
  | some p => s.waitAt p (.fab m)
  | none =>
    let (s1, b) := (s.guestLines none (.near off) n).readRestored (.near off) n
    match b with
    | none => s1.sendAck m id ackRefused
    | some bs =>
      let k := ceilDiv n 576
      (List.range k).foldl (fun s i =>
        s.sendMsg ⟨0x03, m.srcDev, 0, m.srcGuild, 0, false, (k - 1) + i <<< 10 + id <<< 20, (bs.drop (576 * i)).take 576⟩) s1

/-- A message of data is tried, or tried again. -/
def State.dataTry (s : State) (m : FMsg) : State :=
  match m.ty with
  | 0x01 => s.putTry m
  | 0x02 => s.getTry m
  | 0x03 => s.rspTry m
  | _ => s

end Sys2Proof.Machine
end

