-- ==== Sys2Proof/Machine/LoomOps.lean ====
section
/-! DEFINITION. Loom orders: fields and clamps (R51, R65, R71, R161, R162), tile geometry and layout (R59, R64, R534),
and the arithmetic of a K tile (R52 to R54, R60, R61, R63). -/

namespace Sys2Proof.Machine

/-- Weight classes of R51: 4-bit float 0, 8- or 6-bit float 1, BF16 and FP16 2, INT8 and MXINT8 3, INT4 4. -/
def wClass (w : Nat) : Nat :=
  if w = 5 || w = 10 || w = 12 then 0 else if w = 1 || w = 2 then 2 else if w = 11 || w = 13 then 3 else if w = 14 then 4 else 1

/-- Products per DPU per ARITH cycle of a pairing, 0 where it is not listed (R51). -/
def pairProducts (w a : Nat) : Nat :=
  let f4 := a = 5 || a = 10 || a = 12
  let f8 := a = 3 || a = 4 || a = 6 || a = 7 || a = 8 || a = 9
  match wClass w with
  | 0 => if f4 then 64 else if f8 then 32 else 0
  | 1 => if f4 || f8 then 32 else 0
  | 2 => if a = 1 || a = 2 then 16 else 0
  | 3 => if a = 13 || a = 11 || a = 14 then 32 else 0
  | _ => if a = 14 then 64 else if a = 13 || a = 11 then 32 else 0

/-- The default activation of a weight class (R51). -/
def defaultAct (w : Nat) : Nat := [5, 3, 1, 13, 14].getD (wClass w) 3

/-- Dense K per tile of a class without sparsity (R64). -/
def classK (w : Nat) : Nat := [64, 32, 16, 32, 64].getD (wClass w) 32

/-- N, M and index bits of a sparsity code (R59, R65). -/
def sparsityNM (c : Nat) : Nat × Nat × Nat :=
  match c with
  | 1 => (2, 4, 2)
  | 2 => (4, 8, 3)
  | 3 => (1, 4, 2)
  | 4 => (4, 16, 4)
  | _ => (1, 1, 0)

/-- The fields of a loom order after their clamps; `clamps` counts the clamped fields (LOOM_ page). -/
structure LoomF where
  wAddr : Nat
  aAddr : Nat
  aStride : Nat
  maskEn : Bool
  maskAddr : Nat
  seedEn : Bool
  seedAddr : Nat
  zmapEn : Bool
  zmapAddr : Nat
  kSeg : Nat
  segOut : Bool
  sparsity : Nat
  wf : Nat
  af : Nat
  kLen : Nat
  target : Nat
  rowMax : Nat
  nTiles : Nat
  rowOut : Nat
  rowCtr : Nat
  window : Nat
  clamps : Nat
deriving DecidableEq, Repr

/-- R51, R65, R71, R147, R161 and the loom-order table. `sparse` is LOOM_GEMM_SPARSE. -/
def loomFields (sparse : Bool) (o : Nat) : LoomF :=
  let w0 := ordW64 o 4
  let w1 := if spaceOf w0 = 1 || spaceOf w0 = 3 || spaceOf w0 = 4 then w0 else inSpace 1 30 w0
  let w2 := w1 / 64 * 64
  let as0 := ordF o 7 20 0
  let wf0 := ordF o 11 7 4
  let wf := if wf0 = 0 then 1 else if wf0 = 15 then 13 else wf0
  let af0 := ordF o 11 11 8
  let af := if pairProducts wf af0 = 0 then defaultAct wf else af0
  let sp0 := ordF o 11 14 12
  let sp := if !sparse || sp0 > 4 || wClass wf = 2 then 0 else sp0
  let ks := ordF o 11 31 18
  let kl0 := ordF o 12 24 0
  let kl := min (clampNat 1 16777216 kl0) (16777216 - ks * 1024)
  let rm0 := ordF o 13 22 16
  let rm := clampNat 1 64 rm0
  let rt0 := ordF o 13 30 24
  let rt := min rt0 rm
  let nt0 := ordF o 13 12 0
  let nt := clampNat 1 4096 nt0
  let om0 := ordF o 11 17 16
  let om1 := if om0 > 1 then 0 else om0
  let seed := bit (ordW o 9) 31
  let om := if om1 = 0 && !seed && decide (ks > 0) && decide (kl > 1024) then 1 else om1
  let fw0 := ordF o 14 8 0
  let fw := min 500 fw0
  { wAddr := w2, aAddr := ordF o 6 20 0, aStride := as0 / 64 * 64, maskEn := bit (ordW o 8) 31, maskAddr := ordF o 8 20 0,
    seedEn := seed, seedAddr := ordF o 9 20 0, zmapEn := bit (ordW o 10) 31, zmapAddr := ordF o 10 29 0, kSeg := ks,
    segOut := om = 1, sparsity := sp, wf := wf, af := af, kLen := kl, target := rt, rowMax := rm, nTiles := nt,
    rowOut := ordF o 14 29 24, rowCtr := ordF o 14 21 16, window := fw,
    clamps := b2n (w2 != w0) + b2n (as0 % 64 != 0) + b2n (wf != wf0) + b2n (af != af0) + b2n (sp != sp0) + b2n (kl != kl0)
      + b2n (rm != rm0) + b2n (rt != rt0) + b2n (nt != nt0) + b2n (om != om0) + b2n (fw != fw0)
      + b2n (ordF o 11 2 0 > 4) }

/-- Tile geometry (R64, R65, R534). -/
structure Geom where
  /-- kept weights per output, dense K -/
  p : Nat
  kd : Nat
  n : Nat
  m : Nat
  ib : Nat
  /-- section sizes: element fields, scales, sub-shifts; tile bytes -/
  eb : Nat
  sb : Nat
  hb : Nat
  bytes : Nat
  /-- ARITH cycles per row per tile -/
  cyc : Nat
deriving DecidableEq, Repr

def loomGeom (f : LoomF) : Geom :=
  let (n, m, ib) := sparsityNM f.sparsity
  let p := classK f.wf
  let kd := p * m / n
  let eb := 32 * p * fmtWidth f.wf / 8
  let sb := if fmtIsBlock f.wf then 32 * (kd / 32) else 0
  let hb := if f.wf = 12 then sb else 0
  { p := p, kd := kd, n := n, m := m, ib := ib, eb := eb, sb := sb, hb := hb, bytes := eb + sb + hb + 32 * p * ib / 8,
    cyc := if (wClass f.wf = 0 || wClass f.wf = 4) && pairProducts f.wf f.af = 32 then 2 else 1 }

/-- K tiles per output tile. -/
def LoomF.kTiles (f : LoomF) : Nat := ceilDiv f.kLen (loomGeom f).kd

/-- 32-element blocks of the order. -/
def LoomF.blocks (f : LoomF) : Nat := ceilDiv f.kLen 32

/-- Whether the zero map flags block j of output tile t (R78). -/
def LoomF.flagged (f : LoomF) (zmap : List Byte) (t j : Nat) : Bool :=
  f.zmapEn && (let b := t * f.blocks + j; (zmap.getD (b / 8) 0).getLsbD (b % 8))

/-- The blocks that K tile kt covers. -/
def LoomF.tileBlocks (f : LoomF) (kt : Nat) : List Nat :=
  let g := loomGeom f
  let lo := kt * g.kd
  let hi := min f.kLen (lo + g.kd)
  (List.range (ceilDiv hi 32 - lo / 32)).map (fun i => lo / 32 + i)

/-- A K tile whose blocks are all flagged is neither fetched nor loaded (R78). -/
def LoomF.skipped (f : LoomF) (zmap : List Byte) (t kt : Nat) : Bool :=
  f.zmapEn && (f.tileBlocks kt).all (fun j => f.flagged zmap t j)

/-- Where K tile kt of output tile t lies (R161). -/
def LoomF.tileLoc (f : LoomF) (core t kt : Nat) : Loc :=
  (locOf core f.wAddr).plus ((t * f.kTiles + kt) * (loomGeom f).bytes)

/-! ### Values -/

/-- A product of two float operands (R52): +0 when either is a zero and neither is NaN or infinity. -/
def loomProduct (a w : FpVal) : Word :=
  if (fpIsZero a || fpIsZero w) && !fpIsNan a && !fpIsInf a && !fpIsNan w && !fpIsInf w then 0 else f32Of (fpMul a w)

/-- The element field, sub-shift and dense position of slot n of output o of a tile (R59, R534). -/
def tileSlot (f : LoomF) (g : Geom) (rd : Nat → Byte) (o n : Nat) : Nat × RawElem :=
  let q := o * g.p + n
  let pos := if g.m = 1 then n
    else n / g.n * g.m + bitField (fun k => rd (g.eb + g.sb + g.hb + k)) (q * g.ib) g.ib
  let sub := if g.hb = 0 then 0 else (rd (g.eb + g.sb + o * (g.kd / 32) + pos / 32)).toNat / 4 ^ ((pos % 32) / 8) % 4
  (pos, ⟨bitField rd (q * fmtWidth f.wf) (fmtWidth f.wf), 127, sub⟩)

/-- The weight scale of output o and block b of a tile (127 where the format has none). -/
def tileScale (g : Geom) (rd : Nat → Byte) (o b : Nat) : Nat := if g.sb = 0 then 127 else (rd (g.eb + o * (g.kd / 32) + b)).toNat

/-- blk[j] of R53: one rounding after the scales; `adj` is the 2^−6 of MXINT8 operands (R42, R54). -/
def scaleBlock (t : Word) (xa xw : Nat) (adj : Int) : Word :=
  if xa = 255 || xw = 255 then f32Nan else f32Of (fpScale (f32Val t) ((xa : Int) - 127 + ((xw : Int) - 127) + adj))

/-- A pairing of INT8 and INT4 operands only (R54). -/
def LoomF.isInt (f : LoomF) : Bool := (f.wf = 13 || f.wf = 14) && (f.af = 13 || f.af = 14)
/-- A pairing with an MXINT8 operand (R54). -/
def LoomF.isMxInt (f : LoomF) : Bool := f.wf = 11 || f.af = 11

/-- Element k (from the whole row's start) of row i as stored, read from a stockroom image (R161). -/
def LoomF.act (f : LoomF) (stock : Mem) (i k : Nat) : RawElem :=
  tensorElem f.af (fun b => memByte stock ((f.aAddr + i * f.aStride + b) % 2097152)) k

/-- The occupancy mask of row i and block j of the order (R61, R161). -/
def LoomF.mask (f : LoomF) (stock : Mem) (i j : Nat) : Nat :=
  if f.maskEn then leNat (memBytesWrap 2097152 stock (f.maskAddr + 4 * (i * f.blocks + j)) 4) else 0xFFFFFFFF

/-- The leaf of dense position `pos` of a tile for one row and output: the kept slots there, in slot order (R53, R59). -/
def leafFloat (f : LoomF) (a : FpVal) (ws : List RawElem) : Word :=
  match ws with
  | [] => 0
  | w :: r => r.foldl (fun acc w => f32Add acc (loomProduct a (fpScale (elemVal f.wf w.x) (-(w.sub : Int)))))
      (loomProduct a (fpScale (elemVal f.wf w.x) (-(w.sub : Int))))

/-- One block of a tile for one row and output: the leaves' operands by position (R60, R61). `b` is the block within
the tile, `n` its positions. Answers each position's activation (none: +0) and weights. -/
def blockLeaves (f : LoomF) (g : Geom) (rd : Nat → Byte) (stock : Mem) (i o kt b n : Nat) : List (Option RawElem × List RawElem) :=
  let lo := kt * g.kd + 32 * b
  let m := f.mask stock i (lo / 32)
  let slots := (List.range g.p).map (tileSlot f g rd o)
  (List.range n).map (fun q =>
    let k := lo + q
    let ws := (slots.filter (fun e => e.1 = 32 * b + q)).map (·.2)
    if k ≥ f.kLen then (none, [])
    else if m.testBit (k % 32) then (some (f.act stock i (f.kSeg * 1024 + k)), ws)
    else (none, ws))

/-- t of a computed block, float pairings (R53); a half block of a 16-wide tile stops after four levels (R63). -/
def blockFloat (f : LoomF) (l : List (Option RawElem × List RawElem)) : Word :=
  let p := l.map (fun e => match e.1 with
    | some a => leafFloat f (fpScale (elemVal f.af a.x) (-(a.sub : Int))) e.2
    | none => leafFloat f (.fin false 0 0) e.2)
  if l.length = 16 then (treeLevels 4 p).getD 0 0 else tree32 p

/-- The exact integer sum of a block (R54). -/
def blockInt (f : LoomF) (l : List (Option RawElem × List RawElem)) : Int :=
  l.foldl (fun acc e => match e.1 with
    | some a => acc + e.2.foldl (fun acc w => acc + elemInt f.af a.x * elemInt f.wf w.x) 0
    | none => acc) 0

/-! ### The accumulator bank (R64) -/

/-- A subtree value of level l enters the block stack: equal levels combine as tree32 does (R53, R64). Levels: 0 a half
block, 1 a block, 6 a K-segment. -/
def stackPush (st : List (Nat × Word)) (l : Nat) (v : Word) : List (Nat × Word) :=
  match st with
  | [] => [(l, v)]
  | (k, w) :: r => if k = l then stackPush r (l + 1) (f32Add w v) else (l, v) :: (k, w) :: r

/-- The K-segment's sum when the rest of its blocks are +0 (R53). -/
def stackClose (k : Nat) (st : List (Nat × Word)) : Word :=
  match k with
  | 0 => 0
  | k + 1 =>
    match st with
    | [] => 0
    | (l, v) :: r => if l ≥ 6 then v else stackClose k (stackPush r (l + 1) (f32Add v 0))

/-- One row and output take in K tile kt (R53, R61, R77, R78). `zero` says whether a block of the tile is flagged. -/
def LaneAcc.tile (x : LaneAcc) (f : LoomF) (g : Geom) (rd : Nat → Byte) (stock : Mem) (i o kt : Nat) (zero : Nat → Bool) : LaneAcc :=
  let lo := kt * g.kd
  let hi := min f.kLen (lo + g.kd)
  let nb := ceilDiv hi 32 - lo / 32
  (List.range nb).foldl (fun x b =>
    let j := lo / 32 + b
    let n := if g.kd = 16 then 16 else 32
    let skip := zero j || f.mask stock i j = 0
    let leaves := if skip then [] else blockLeaves f g rd stock i o kt b n
    if f.isInt then { x with iseg := x.iseg + BitVec.ofInt 48 (blockInt f leaves) }
    else
      let xa := (f.act stock i (f.kSeg * 1024 + 32 * j)).scale
      let xw := if zero j then 127 else tileScale g rd o b
      let adj : Int := (if f.wf = 11 then -6 else 0) + (if f.af = 11 then -6 else 0)
      let t := if skip then 0 else if f.isMxInt then f32Of (fpOfInt (blockInt f leaves)) else blockFloat f leaves
      { x with stack := stackPush x.stack (if g.kd = 16 then 0 else 1) (scaleBlock t xa xw adj) }) x

/-- A K-segment ends for one row and output: its sum joins the running accumulator, the seed first of all (R53, R71).
Answers the accumulator and the value a SEG_OUT order emits. -/
def LaneAcc.segment (x : LaneAcc) (f : LoomF) (first : Bool) (seed : Nat) : LaneAcc × Word :=
  if f.isInt then
    let s := if first && f.seedEn then x.iseg + BitVec.ofNat 48 seed else x.iseg
    ({ x with iseg := 0, iacc := some ((x.iacc.getD 0) + s) }, f32Of (fpOfInt s.toInt))
  else
    let s := stackClose 32 x.stack
    let s1 := if first && f.seedEn then f32Add (BitVec.ofNat 32 seed) s else s
    ({ x with stack := [], acc := some (match x.acc with | none => s1 | some a => f32Add a s1) }, s1)

/-- The value an ACC order emits at its end (R53, R54). -/
def LaneAcc.result (x : LaneAcc) : Word :=
  match x.iacc with
  | some a => f32Of (fpOfInt a.toInt)
  | none => x.acc.getD 0

end Sys2Proof.Machine
end

