-- ==== Sys2Proof/Machine/Loom.lean ====
section
/-! DEFINITION. The looms and the shelf (R62 to R87): issue, start, weight stage, tiles, shelf slots, recompute and
treadle. -/

namespace Sys2Proof.Machine

def State.loom (s : State) (c l : Nat) : Loom := (s.core c).looms.getD l {}
def State.modLoom (s : State) (c l : Nat) (f : Loom → Loom) : State :=
  s.modCore c (fun x => { x with looms := fixSet 4 {} x.looms l (f (x.looms.getD l {})) })
def State.modShelf (s : State) (c l : Nat) (f : List Slot → List Slot) : State :=
  s.modCore c (fun x => { x with shelf := fixSet 4 [] x.shelf l (f (x.shelf.getD l [])) })

/-- The settled fields of the loom order of a flight. -/
def State.loomF (s : State) (c fl : Nat) : LoomF :=
  match (s.core c).flight fl with
  | some f => loomFields (f.op = 0x11) f.ord
  | none => loomFields false 0

/-- The order that issues next on a loom: the oldest that has not issued all its rows (R72, R132). -/
def State.loomCur (s : State) (c l : Nat) : Option LoomOrd :=
  (s.loom c l).ords.find? (fun o => decide (o.tile < (s.loomF c o.flight).nTiles))

def State.modLoomOrd (s : State) (c l fl : Nat) (f : LoomOrd → LoomOrd) : State :=
  s.modLoom c l (fun m => { m with ords := m.ords.map (fun o => if o.flight = fl then f o else o) })

/-! ### Issue (R72, R77) -/

/-- A loom order is issued: its rows present count from here, and its prefetch may begin (R67, R72). A weight range
outside the partition refuses it (R148). -/
def State.loomIssue (s : State) (c : Nat) (st : Start) : State :=
  let f := loomFields (st.op = 0x11) st.ord
  let l := orderLoom s c st.ord
  let ok := match s.partOfCore c with
    | some p => s.inWindows p (locOf c f.wAddr) (f.nTiles * f.kTiles * (loomGeom f).bytes)
    | none => false
  if !ok then s.refuseOrder c st stQuota
  else
    let base := s.ctr c f.rowCtr
    let (s1, id) := s.startOrder c st
    let s2 := (s1.modFlight c id (fun x => { x with aux := [l] })).orderClamps c id pgLoom c f.clamps
    s2.modLoom c l (fun m => { m with ords := m.ords ++
      [{ flight := id, base := base, expired := false, rows := none, tile := 0, kt := 0, fTile := 0, fKt := 0, begun := false,
         pause := false, acts := none, zmap := [], accs := [], bad := false }] })

def execLoomGemm (core : Nat) (s : State) : Host.Outcome State Fault Refusal :=
  .next (reachCore.take s (s.runOrder core (fun st => st.op = 0x10) (fun s st => s.loomIssue core st)))

def execLoomGemmSparse (core : Nat) (s : State) : Host.Outcome State Fault Refusal :=
  .next (reachCore.take s (s.runOrder core (fun st => st.op = 0x11) (fun s st => s.loomIssue core st)))

/-- A loom order's fill window elapses: place 0 is the running order, place 1 the pending one (R72, R162). -/
def execFillWindowExpired (core loom place : Nat) (s : State) : Host.Outcome State Fault Refusal :=
  .next (reachCore.take s (
    s.modLoom core loom (fun m => { m with ords := m.ords.mapIdx (fun i o =>
      if i = place && o.rows.isNone then { o with expired := true } else o) })))

/-- The quota of a loom in force: at least 2 while its running order has a row group above 32 rows (R82). -/
def State.loomQuota (s : State) (c l : Nat) : Nat :=
  let q := s.fld pgLoom c 0 rLoomShelf (4 * l + 3) (4 * l)
  if (s.loom c l).ords.any (fun o => decide (o.rows.getD 0 > 32)) then max 2 q else q

/-- A stockroom image with free bytes in the words of a range that hold a double-bit error, and whether one does
(R333). -/
def State.stockView (s : State) (c a n : Nat) : State × Mem × Bool :=
  let m := (s.core c).stock
  let bad := if (s.core c).stockBad.isEmpty then [] else (stockWords a n).filter (fun w => (s.core c).stockBad.contains w)
  bad.foldl (fun (acc : State × Mem × Bool) w =>
    let (s, m, _) := acc
    let (s1, bs) := s.freeBytes 8
    (s1.sramUe c (8 * w), memSetBytes m (8 * w) bs, true)) (s, m, false)

/-- The bytes of the activation row that the dense K positions from lo to hi take: first byte and length (R161). -/
def LoomF.actRange (f : LoomF) (lo hi : Nat) : Nat × Nat :=
  let a := tensorBytes f.af (f.kSeg * 1024 + lo)
  (a, tensorBytes f.af (f.kSeg * 1024 + hi) - a)

/-- Bytes of the activation store that n rows take over the whole K range: their element fields, since the block scales go to
the mask-and-scale store (R66, R70). -/
def LoomF.actBytes (f : LoomF) (n : Nat) : Nat := n * ceilDiv (f.kLen * fmtWidth f.af) 8

/-- A stockroom image for the activations and masks of rows 0 to n − 1 of an order at dense K positions from lo to hi, and,
with position 0, their seeds (R70, R161). Masks and block scales are read with their positions, whatever room the
mask-and-scale store has (DESIGN CHOICE, assumption 116). -/
def State.loomStock (s : State) (c : Nat) (f : LoomF) (n lo hi : Nat) : State × Mem × Bool :=
  if (s.core c).stockBad.isEmpty then (s, (s.core c).stock, false)
  else
    let (a, len) := f.actRange lo hi
    let e := if f.isInt then 8 else 4
    let rs := (List.range n).map (fun i => (f.aAddr + i * f.aStride + a, len))
      ++ (if f.maskEn then (List.range n).map (fun i => (f.maskAddr + 4 * (i * f.blocks + lo / 32), 4 * (ceilDiv hi 32 - lo / 32))) else [])
      ++ (if f.seedEn && lo = 0 then [(f.seedAddr, n * 32 * f.nTiles * e)] else [])
    rs.foldl (fun (acc : State × Mem × Bool) r =>
      let (s, m, bad) := acc
      let (s1, v, b) := s.stockView c r.1 r.2
      if b then (s1, memSetBytesWrap 2097152 m r.1 (memBytesWrap 2097152 v r.1 r.2), true) else (s1, m, bad)) (s, (s.core c).stock, false)

/-- Data of an order are lost: it will complete with DATA_LOST. -/
def State.flightLost (s : State) (c id : Nat) : State :=
  s.modFlight c id (fun x => { x with status := statusJoin x.status stLost })

/-- A loom order starts and takes its row group (R72, R80); row_out gets the rows taken and the loom (R162). -/
def State.loomStart (s : State) (c l : Nat) : State :=
  match s.loomCur c l with
  | none => s
  | some o =>
    if o.rows.isSome then s
    else
      let f := s.loomF c o.flight
      let present := min (s.ctr c f.rowCtr - o.base).toNat f.rowMax
      let target := if f.target = 0 then min (s.fld pgLoom c 0 rLoomFill 22 16) f.rowMax else f.target
      if present ≥ target ∨ (o.expired ∧ present ≥ 1) then
        let few := s.loomQuota c l = 1 && decide (present > 32)
        let n := if few then 32 else present
        let s1 := if present < target then s.bump pgLoom c 0 rLoomFillExpired 1 else s
        let s2 := s1.orderClamps c o.flight pgLoom c (b2n few)
        let s3 := s2.setSreg c f.rowOut (BitVec.ofNat 64 (n + l <<< 32))
        -- R70: a K range that fits the activation store is read once
        let (s4, acts) :=
          if f.actBytes n ≤ 98304 then
            (let (s', m, bad) := s3.loomStock c f n 0 f.kLen
             (if bad then s'.flightLost c o.flight else s', some m))
          else (s3, none)
        s4.modLoomOrd c l o.flight (fun x => { x with rows := some n, acts := acts })
      else s

def execLoomOrderStart (core loom : Nat) (s : State) : Host.Outcome State Fault Refusal :=
  .next (reachOrder.take s (s.loomStart core loom))

/-! ### Weight tiles (R66 to R69, R78) -/

/-- The place after K tile kt of output tile t. -/
def LoomF.nextTile (f : LoomF) (t kt : Nat) : Nat × Nat := if kt + 1 < f.kTiles then (t, kt + 1) else (t + 1, 0)

/-- From a place on, the first K tile that is fetched: wholly flagged tiles are passed over (R78). -/
def LoomF.skipTo (f : LoomF) (zmap : List Byte) (k t kt : Nat) : Nat × Nat :=
  match k with
  | 0 => (t, kt)
  | k + 1 =>
    if t < f.nTiles && f.skipped zmap t kt then (let n := f.nextTile t kt; f.skipTo zmap k n.1 n.2) else (t, kt)

/-- Bytes in the weight stage. -/
def Loom.staged (m : Loom) : Nat := (m.stage.map List.length).foldl (· + ·) 0

/-- The next tile to be fetched for a loom, with its order: the oldest order with tiles still to fetch (R67). -/
def State.loomFetch (s : State) (c l : Nat) : Option LoomOrd :=
  (s.loom c l).ords.find? (fun o => decide (o.fTile < (s.loomF c o.flight).nTiles))

/-- What weight bytes from a vault cost a core's partition: nothing from its own, and mesh traffic from another (R36). -/
def State.weightCost (s : State) (c : Nat) (x : Loc) (n : Nat) : List (Gate × Nat) :=
  match s.partOfCore c with
  | some p => s.flowCost p none x (.stock c 0) n
  | none => []

/-! ### Output tiles (R74, R77 to R81) -/

/-- The seed of row i and output o of an output tile (R55, R71, R161). -/
def LoomF.seedOf (f : LoomF) (stock : Mem) (t i o : Nat) : Nat :=
  let e := if f.isInt then 8 else 4
  if f.seedEn then leNat (memBytesWrap 2097152 stock (f.seedAddr + (i * 32 * f.nTiles + 32 * t + o) * e) e) else 0

/-- The activations that the running order's next K tile meets: the copy of the whole K range, or of its window of 256
positions, which is read when the output tile first comes to it (R70). -/
def State.loomActs (s : State) (c l : Nat) (o : LoomOrd) : State × Mem :=
  let f := s.loomF c o.flight
  let w := o.kt * (loomGeom f).kd / 256
  let read : State × Mem :=
    let (s1, m, bad) := s.loomStock c f (o.rows.getD 0) (256 * w) (min f.kLen (256 * (w + 1)))
    let s2 := if bad then (if o.bad then s1.setErr pgLoom c 3 else s1).flightLost c o.flight else s1
    (s2.modLoomOrd c l o.flight (fun x => { x with acts := some m, win := some (o.tile * 65536 + w) }), m)
  match o.acts, o.win with
  | some m, none => (s, m)
  | some m, some k => if k = o.tile * 65536 + w then (s, m) else read
  | none, _ => read

/-- Every row and output of the running order takes in its next K tile (R62 to R64); rows with nothing to read against
the tile are skipped and counted (R77). LOOM_BUSY counts the cycles in which a row occupies the multipliers: two for a row of a
pairing that takes two (R51, R69; DESIGN CHOICE, assumption 117). -/
def State.loomTile (s : State) (c l : Nat) (o : LoomOrd) (bytes : List Byte) (flaggedTile : Bool) : State :=
  let f := s.loomF c o.flight
  let g := loomGeom f
  let n := o.rows.getD 0
  let (s1, stock) := s.loomActs c l o
  let rd (i : Nat) : Byte := bytes.getD i 0
  let zero (j : Nat) : Bool := flaggedTile || f.flagged o.zmap o.tile j
  let idle := (List.range n).filter (fun i => (f.tileBlocks o.kt).all (fun j => f.mask stock i j = 0))
  let s2 := if flaggedTile then s1
    else ((s1.bump pgLoom c 0 rLoomSkippedRows idle.length).bump pgLoom c 0 rLoomRows (n - idle.length)).bump pgLoom c 0
      rLoomBusy ((n - idle.length) * g.cyc)
  let accs := (List.range n).foldl (fun accs i => (List.range 32).foldl (fun accs q =>
    let x := smGet ({} : LaneAcc) accs (32 * i + q)
    smSet ({} : LaneAcc) accs (32 * i + q) (x.tile f g rd stock i q o.kt zero)) accs) o.accs
  -- the end of a K-segment, or of K (R53, R71)
  let hi := min f.kLen ((o.kt + 1) * g.kd)
  let segEnd := hi % 1024 = 0 || hi = f.kLen
  let first := decide (hi ≤ 1024)
  let last := hi = f.kLen
  if !segEnd then s2.modLoomOrd c l o.flight (fun x => { x with accs := accs, kt := o.kt + 1 })
  else
    let (accs2, out) := (List.range n).foldl (fun (acc : SMap LaneAcc × SMap Word) i =>
      (List.range 32).foldl (fun (acc : SMap LaneAcc × SMap Word) q =>
        let (y, v) := (smGet ({} : LaneAcc) acc.1 (32 * i + q)).segment f first (f.seedOf stock o.tile i q)
        (smSet ({} : LaneAcc) acc.1 (32 * i + q) y, smSet 0 acc.2 (32 * i + q) (if f.segOut then v else y.result))) acc) (accs, [])
    if !(f.segOut || last) then s2.modLoomOrd c l o.flight (fun x => { x with accs := accs2, kt := o.kt + 1 })
    else
      -- the results go to the slots of this output tile, or segment; the last row has issued (R80, R81)
      let fill (sl : Slot) : Slot :=
        if sl.flight = o.flight && !sl.issued then
          { sl with issued := true
                    data := (List.range (32 * sl.valid)).foldl (fun d k => smSet 0 d k (smGet 0 out (32 * sl.rowBase + k))) [] }
        else sl
      let s3 := s2.modShelf c l (fun q => q.map fill)
      let nt := f.nextTile o.tile o.kt
      s3.modLoomOrd c l o.flight (fun x => { x with
        accs := if last then [] else accs2, tile := nt.1, kt := nt.2, begun := false, pause := decide (n > 32), bad := false })

/-- A loom goes on as far as it can: a wholly flagged tile gives +0 to every row (R78); a tile in the shadow set swaps
in and its rows issue (R68). At most k tiles. -/
def State.loomAdvance (s : State) (c l k : Nat) : State :=
  match k with
  | 0 => s
  | k + 1 =>
    match s.loomCur c l with
    | none => s
    | some o =>
      if !o.begun || o.rows.isNone || (s.loom c l).ords.any (·.pause) then s
      else
        let f := s.loomF c o.flight
        if f.zmapEn && o.zmap.isEmpty then s
        else if f.skipped o.zmap o.tile o.kt then (s.loomTile c l o [] true).loomAdvance c l k
        else match (s.loom c l).shadow with
          | none => s
          | some bs =>
            let s1 := s.modLoom c l (fun m => { m with active := some bs, shadow := none })
            (s1.loomTile c l o bs false).loomAdvance c l k

/-- How many tiles an advance can pass at most. -/
def State.loomFuel (s : State) (c l : Nat) : Nat :=
  match s.loomCur c l with
  | some o => (s.loomF c o.flight).kTiles + 1
  | none => 0

/-- A prefetched weight tile reaches the weight stage; the zero map comes first (R67, R78). A source that cannot supply
its bytes gives free bytes and DATA_LOST (R87, R160). -/
def State.tileArrive (s : State) (c l : Nat) : State :=
  match s.loomFetch c l with
  | none => s
  | some o =>
    let f := s.loomF c o.flight
    let g := loomGeom f
    let zloc : Loc := .vault c f.zmapAddr
    let zn := ceilDiv (f.nTiles * f.blocks) 8
    if f.zmapEn && o.zmap.isEmpty then
      if !s.placeReady zloc zn true then s
      else s.gated (s.weightCost c zloc zn) (fun s =>
        (let (s1, bs, ok) := (s.guestLines (some c) zloc zn).readOrFree zloc zn
         let s2 := if ok then s1 else s1.flightLost c o.flight
         let s3 := s2.modLoomOrd c l o.flight (fun x => { x with
           zmap := bs, fTile := (f.skipTo bs (f.nTiles * f.kTiles) 0 0).1, fKt := (f.skipTo bs (f.nTiles * f.kTiles) 0 0).2 })
         -- an output tile that waited for the map goes on
         s3.loomAdvance c l (s3.loomFuel c l))) id
    else
      let loc := f.tileLoc c o.fTile o.fKt
      if !((s.loom c l).staged + g.bytes ≤ 24576 && s.placeReady loc g.bytes true) then s
      else s.gated (s.weightCost c loc g.bytes) (fun s =>
        let (s1, bs, ok) := (s.guestLines (some c) loc g.bytes).readOrFree loc g.bytes
        let s2 := if ok then s1 else (if o.bad then s1.setErr pgLoom c 3 else s1).flightLost c o.flight
        let n0 := f.nextTile o.fTile o.fKt
        let n := f.skipTo o.zmap (f.nTiles * f.kTiles) n0.1 n0.2
        s2.modLoom c l (fun m => { m with
          stage := m.stage ++ [bs]
          ords := m.ords.map (fun x => if x.flight = o.flight then { x with fTile := n.1, fKt := n.2 } else x) })) id

def execWeightTileArrive (core loom : Nat) (s : State) : Host.Outcome State Fault Refusal :=
  .next (reachOrder.take s (s.tileArrive core loom))

/-- A tile has moved from the weight stage to the shadow set; it swaps in when the loom reaches it (R68). -/
def execShadowLoadDone (core loom : Nat) (s : State) : Host.Outcome State Fault Refusal :=
  .next (reachOrder.take s (
    let m := s.loom core loom
    match m.shadow, m.stage with
    | none, t :: rest =>
      let s1 := s.modLoom core loom (fun m => { m with stage := rest, shadow := some t })
      s1.loomAdvance core loom (s1.loomFuel core loom)
    | _, _ => s))

/-- A loom reserves its slot, or two, and begins an output tile, or a K-segment under SEG_OUT: within its quota, from the slots
of the 16 that are FREE (R79, R80, R82). -/
def execLoomTileStart (core loom : Nat) (s : State) : Host.Outcome State Fault Refusal :=
  .next (reachOrder.take s (
    match s.loomCur core loom with
    | none => s
    | some o =>
      let n := o.rows.getD 0
      let k := if n > 32 then 2 else 1
      let held := ((s.core core).shelf.getD loom []).length
      let used := ((s.core core).shelf.map List.length).foldl (· + ·) 0
      if o.rows.isNone || o.begun || (s.loom core loom).ords.any (·.pause) || decide (held + k > s.loomQuota core loom)
          || decide (used + k > 16) then s
      else
        let slot (b : Nat) : Slot := ⟨false, false, o.flight, o.tile, 32 * b, min 32 (n - 32 * b), []⟩
        let s1 := s.modShelf core loom (fun q => q ++ (List.range k).map slot)
        let s2 := s1.modLoomOrd core loom o.flight (fun x => { x with begun := true })
        s2.loomAdvance core loom (s2.loomFuel core loom)))

/-- The pause after an output tile of more than 32 rows ends, once the tile's slots are FULL (R74). -/
def execBoundaryPauseEnd (core loom : Nat) (s : State) : Host.Outcome State Fault Refusal :=
  .next (reachCore.take s (
    if ((s.core core).shelf.getD loom []).any (fun x => x.issued && !x.full) then s
    else s.modLoom core loom (fun m => { m with ords := m.ords.map (fun o => { o with pause := false }) })))

/-- The oldest slot whose rows have all issued becomes FULL (R81). The order whose last slot this is has every effect
done (R145). -/
def execShelfSlotFull (core loom : Nat) (s : State) : Host.Outcome State Fault Refusal :=
  .next (reachCore.take s (
    let q := (s.core core).shelf.getD loom []
    match q.findIdx? (fun x => x.issued && !x.full) with
    | none => s
    | some i =>
      let fl := (q.getD i ⟨false, false, 0, 0, 0, 0, []⟩).flight
      let s1 := s.modShelf core loom (fun q => q.mapIdx (fun j x => if j = i then { x with full := true } else x))
      let q1 := (s1.core core).shelf.getD loom []
      let issued := (s1.loom core loom).ords.any (fun o => o.flight = fl && decide (o.tile ≥ (s1.loomF core fl).nTiles))
      if issued && !q1.any (fun x => x.flight = fl && !x.full) then
        (s1.modLoom core loom (fun m => { m with ords := m.ords.filter (fun o => o.flight != fl) })).finish core fl stOk
      else s1))

/-- R87: the output tile in progress is discarded, fetched again and recomputed. `cause`: 0 a feeder store, 1 the weight
stage, 2 accumulator parity. A loom that works for an ATTEND recomputes in the same way and notes it in that core's ATT_ page. -/
def execLoomRecompute (core loom cause : Nat) (s : State) : Host.Outcome State Fault Refusal :=
  .next (reachOrder.take s (
    match s.loomCur core loom with
    | none =>
      if (s.core core).attends loom then
        (((s.bump pgLoom core 0 rLoomRecompute 1).setErr pgLoom core (min cause 2)).setErr pgAtt core 0).tileError core
      else s
    | some o =>
      let f := s.loomF core o.flight
      let kt0 := if f.segOut then o.kt * (loomGeom f).kd / 1024 * 1024 / (loomGeom f).kd else 0
      let s1 := ((s.bump pgLoom core 0 rLoomRecompute 1).setErr pgLoom core (min cause 2)).tileError core
      let (s2, acts) := match o.acts, o.win with
        | some _, none =>
          (let (s', m, bad) := s1.loomStock core f (o.rows.getD 0) 0 f.kLen
           (if bad then (s'.setErr pgLoom core 3).flightLost core o.flight else s', some m))
        | _, _ => (s1, none)
      s2.modLoom core loom (fun m => { m with
        stage := [], shadow := none, active := none
        ords := m.ords.map (fun x =>
          if x.flight = o.flight then
            (let n := f.skipTo o.zmap (f.nTiles * f.kTiles) o.tile kt0
             { x with kt := kt0, fTile := n.1, fKt := n.2, accs := [], acts := acts, win := none, bad := true })
          else if decide (x.tile ≥ (s2.loomF core x.flight).nTiles) then x
          else { x with fTile := 0, fKt := 0, zmap := [] }) })))

/-! ### Treadle (R83 to R86) -/

/-- A free number from lo to hi. -/
def State.freeIn (s : State) (lo hi : Nat) : Nat := lo + (Config.free s.freeCtr).toNat % (hi + 1 - lo)

/-- One window's step of the running average over a distance d, at most and at least (R83): a window is x = 256 ÷ 3,300 µs ÷ tau
time constants long, and d × (1 − e^(−x)) lies between d × (x − x² ÷ 2) and d × x. -/
def avgStep (tau d : Nat) : Nat × Nat :=
  (d * 256 * (6600 * tau - 256) / (2 * 3300 * 3300 * tau * tau), ceilDiv (d * 256) (3300 * tau))

/-- A 256-cycle window ends with activity `act` (in millionths of the multipliers). Treadle cycles bring the activity up to the
band, within the governor's permitted level, and not above the level left once max_gap has passed without a row (R83, R85); their
energy is a free value (R86). The running average moves toward the activity, treadle included, by the step of the time constant
tau, free within what the rounding, which is not stated, can make of it (R83). -/
def execTreadleWindow (core loom act : Nat) (s : State) : Host.Outcome State Fault Refusal :=
  .next (reachCore.take s (
    let m := s.loom core loom
    let a := min act 1000000
    let auto := s.fld pgLoom core 0 rLoomTreadle 31 31 = 1
    let floor_ := m.avg * (100 - s.fld pgLoom core 0 rLoomTreadle 20 16) / 100
    let goal := match m.fixedBy with
      | some (_, lvl) => lvl * 10000
      | none => if !auto then 0 else if m.gap && act = 0 then min floor_ (m.level * 10000) else floor_
    -- R401: a loom that issues no row runs at the governor's floor at least
    let goal := if act = 0 then max goal (s.pwr.tf * 10000) else goal
    let lim := min goal (s.pwr.tc * 10000)
    let top := if s.thm.phase != 0 then a else max a lim
    let cyc := ceilDiv ((top - a) * 256) 1000000
    let st := avgStep (max 1 (s.fld pgLoom core 0 rLoomTreadle 6 0)) (max m.avg top - min m.avg top)
    let step := s.freeIn st.1 st.2
    let avg := if m.avg ≤ top then min top (m.avg + step) else max top (m.avg - step)
    let s1 := s.freeUsed.modLoom core loom (fun m => { m with avg := avg, level := (top - a) / 10000, gap := m.gap && act = 0 })
    if cyc = 0 then s1
    else
      let s2 := s1.bump pgLoom core 0 rLoomTreadleCyc cyc
      (s2.setReg pgLoom core 0 rLoomTreadleUj (s2.reg pgLoom core 0 rLoomTreadleUj + s2.freeVal)).freeUsed))

/-- max_gap has passed without a row: the treadle level falls toward zero, by a free step, since the slew in force gives
no step per event (R83). -/
def execTreadleGapExpired (core loom : Nat) (s : State) : Host.Outcome State Fault Refusal :=
  .next (reachCore.take s (
    let m := s.loom core loom
    if m.level = 0 then s.modLoom core loom (fun m => { m with gap := true })
    else s.freeUsed.modLoom core loom (fun m => { m with level := s.freeIn 0 (m.level - 1), gap := true })))

end Sys2Proof.Machine
end

