-- ==== Sys2Proof/Machine/Bank.lean ====
section
/-! DEFINITION. Bank units and bank-compute mode (R203 to R225): bank programs and their clamps, items, instructions,
steps, the re-seal, en passant intervals, and errors. -/

namespace Sys2Proof.Machine

/-! ### Instructions (R204, R206) -/

def bOp (i : Nat) : Nat := if bits i 4 0 > 9 then 0 else bits i 4 0
def bFirst (i : Nat) : Nat := bits i 10 5
def bAcc (i : Nat) : Nat := bits i 19 17
def bSrc (i : Nat) : Nat := bits i 22 20
def bDst (i : Nat) : Nat := if bits i 25 23 = 7 then 6 else bits i 25 23
def bRel (i : Nat) : Bool := bit i 26
def bImm (i : Nat) : Nat := bits i 63 32
/-- Lane width in bits; DOT and DOTMAX take INT8 in place of the wider ones. -/
def bWidth (i : Nat) : Nat :=
  let w := 4 * 2 ^ bits i 28 27
  if (bOp i = 5 || bOp i = 6) && w > 8 then 8 else w
/-- key_chunks of DOTMAX. -/
def bKey (i : Nat) : Nat := clampNat 1 64 (bImm i)
/-- Chunks processed; a DOTMAX takes a multiple of its key (R206). -/
def bCount (i : Nat) : Nat :=
  let n := if bits i 16 11 = 0 then 64 else bits i 16 11
  if bOp i = 6 then max (bKey i) (n / bKey i * bKey i) else n

/-- Cycles of an instruction (R207). -/
def bCycles (i : Nat) : Nat :=
  match bOp i with
  | 0 => 0
  | 8 => 1
  | 9 => 1
  | _ => bCount i

/-- Whether an instruction writes ROW. -/
def bWrites (i : Nat) : Bool := bOp i = 7 || ((bOp i = 1 || bOp i = 2 || bOp i = 3 || bOp i = 4) && bDst i = 0)

/-- Whether an instruction emits. -/
def bEmits (i : Nat) : Bool := bOp i = 8 || ((bOp i = 1 || bOp i = 2 || bOp i = 3 || bOp i = 4) && bDst i = 1)

/-- Clamps of one instruction. -/
def bClamps (i : Nat) : Nat :=
  let op := bOp i
  let lanes := op = 1 || op = 2 || op = 3 || op = 4
  b2n (bits i 4 0 > 9) + b2n (lanes && bits i 25 23 = 7) + b2n ((op = 5 || op = 6) && bits i 28 27 ≥ 2)
    + (if op = 6 then b2n (bImm i = 0 || bImm i > 64)
        + b2n (bCount i != (if bits i 16 11 = 0 then 64 else bits i 16 11)) else 0)

/-- The longest prefix whose cycles are 512 or fewer (R207). -/
def cutProgram (is : List Nat) (s : Nat) : List Nat :=
  match is with
  | [] => []
  | i :: r => if s + bCycles i ≤ 512 then i :: cutProgram r (s + bCycles i) else []

/-! ### Programs (R207 to R210) -/

/-- The emit address of a BANK_PROGRAM in a space that it accepts. -/
def emitAddr (o : Nat) : Nat × Nat :=
  let a := ordW64 o 13
  if spaceOf a = 0 || spaceOf a = 2 then (a, 0) else (inSpace 0 21 a, 1)

/-- The core and offset that a STOCK or STOCK_CORE address names. -/
def stockOf (core a : Nat) : Nat × Nat := if spaceOf a = 2 then (bits a 37 30, bits a 20 0) else (core, bits a 20 0)

/-- The program of a BANK_PROGRAM order, read from the stockroom of its core, with its clamps. -/
def State.readProgram (s : State) (c id : Nat) : State × BankProg × Nat :=
  let o := match (s.core c).flight id with | some f => f.ord | none => 0
  let q := match (s.core c).flight id with | some f => f.q | none => 0
  let rd (s : State) (a n : Nat) : State × List Byte :=
    let (s1, v, bad) := s.stockView c a n
    (if bad then s1.modFlight c id (fun f => { f with status := statusJoin f.status stLost }) else s1, memBytesWrap 2097152 v a n)
  let pa0 := ordF o 4 20 0
  let pa := pa0 / 64 * 64
  let (s1, h) := rd s pa 64
  let w0 := leNat (h.take 4)
  let ni0 := bits w0 5 0
  let ni := clampNat 1 32 ni0
  let (s2, ib) := rd s1 (pa + 64) (8 * ni)
  let is0 := (List.range ni).map (fun i => leNat ((ib.drop (8 * i)).take 8))
  let is := cutProgram is0 0
  let qa := bits (leNat ((h.drop 4).take 4)) 20 0 / 32 * 32
  let (s3, q0) := if bit w0 9 then rd s2 qa 2048 else (s2, [])
  let list := bit (ordW o 5) 31
  let n0 := ordF o 6 18 0
  let n := clampNat 1 262144 n0
  let la := ordF o 5 20 0 / 4 * 4
  let (s4, lb) := if list then rd s3 la (4 * n) else (s3, [])
  let rf := ordF o 7 11 0
  let rc0 := ordF o 7 28 16
  let rc := min (clampNat 1 4096 rc0) (4096 - rf)
  let mask := ordW64 o 8 + ordW64 o 10 <<< 64
  let banks := if mask = 0 then [0] else (List.range 128).filter (fun k => mask.testBit k)
  let items : List (Nat × Nat × Nat × Nat) :=
    if list then (List.range n).map (fun i =>
      let w := leNat ((lb.drop (4 * i)).take 4)
      (i, bits w 6 0, bits w 18 7, bits w 31 19))
    else (List.range rc).flatMap (fun r => banks.mapIdx (fun m k => (r * banks.length + m, k, rf + r, 0)))
  let tk0 := ordF o 12 5 0
  let (ea, k1) := emitAddr o
  let es0 := ordF o 15 16 0
  let es := clampNat 8 65536 (es0 / 8 * 8)
  let (ec, eo) := stockOf c ea
  let prog : BankProg :=
    { core := c, flight := id, queue := q, src := .order, idem := bit w0 8, instrs := is, q := q0, items := items,
      tokens := clampNat 1 32 tk0, emitCore := ec, emitOff := eo, emitStride := es, again := false, pay := [] }
  (s4, prog, b2n (pa != pa0) + b2n (is.length != ni0) + (is.map bClamps).foldl (· + ·) 0
    + b2n (list && n != n0) + b2n (!list && rc != rc0) + b2n (!list && mask = 0) + b2n (tk0 != clampNat 1 32 tk0)
    -- a program that emits nothing does not use the emit fields (R532)
    + (if is.any bEmits then k1 + b2n (es0 / 8 * 8 != es) else 0))

/-- A BANK_PROGRAM order queues its program on the vault that the floor plan gives its core (R209). -/
def execBankProgram (core : Nat) (s : State) : Host.Outcome State Fault Refusal :=
  .next (reachOrder.take s (s.runOrder core (fun st => st.op = 0x28) (fun s st =>
    match s.vaultOf core, s.partOfCore core with
    | some p, some pt =>
      if !(s.part pt).cores.contains (stockOf core (emitAddr st.ord).1).1 then s.refuseOrder core st stQuota
      else
        let (s1, id) := s.startLate core st
        let prog : BankProg :=
          { core := core, flight := id, queue := st.q, src := .order, idem := false, instrs := [], q := [], items := [],
            tokens := 1, emitCore := core, emitOff := 0, emitStride := 8, again := false, pay := [] }
        s1.modVault p (fun v => { v with progs := v.progs ++ [prog] })
    | _, _ => s.refuseOrder core st stQuota)))

/-- Row segment of bank k and row r. -/
def segOf (row k : Nat) : Nat := row * 128 + k

/-- A program has done with its vault: its order is done with a status, or the job that built it goes on. -/
def State.progDone (s : State) (p : Nat) (g : BankProg) (st : Nat) : State :=
  match g.src with
  | .order => s.finish g.core g.flight st
  | _ =>
    let s1 := if st = stOk then s else s.modFlight g.core g.flight (fun f => { f with status := statusJoin f.status st })
    s1.modCore g.core (fun x => { x with jobs := x.jobs.map (fun j =>
      if j.flight = g.flight then { j with todo := j.todo.erase p } else j) })

/-- Lines of a row segment. -/
def segLines (seg : Nat) : List Nat := (List.range 32).map (fun i => seg * 32 + i)

/-- A line that a bank unit may use: flagged, or with zero syndromes (R221). -/
def Vault.lineClean (v : Vault) (l : Nat) : Bool :=
  v.flags.contains l || (match lineDecode (v.stored l) with | .clean _ => true | _ => false)

/-- The lines of a program's items that are lost in the array. -/
def Vault.lostOf (v : Vault) (g : BankProg) : List Nat :=
  g.items.flatMap (fun i => (segLines (segOf i.2.2.1 i.2.1)).filter (fun l => v.isValid (l / 64) && !v.flags.contains l
    && (match lineDecode (v.stored l) with | .lost => true | _ => false)))

/-- A rerun waits until the lines that were lost are restored (R222). -/
def Vault.restored (v : Vault) (g : BankProg) : Bool := (v.lostOf g).isEmpty

/-- A recovery of every line that a rerun still waits for is under way: a pattern line waits for its restore, a KV line for
its recompute (R326). -/
def State.recovering (s : State) (p : Nat) (g : BankProg) : Bool :=
  ((s.vault p).lostOf g).all (fun l => (s.vault p).filling.contains (l / 64) || s.lineClass p l = 1)

/-- The next program of a vault starts, or is refused; a program that has been paused or held goes on (R209, R210,
R212). -/
def execBankProgramStart (vault : Nat) (s : State) : Host.Outcome State Fault Refusal :=
  .next (reachOrder.take s (
    let v := s.vault vault
    let compute (s : State) : State := (s.drainVault vault).modVault vault (fun v => { v with mode := .bankCompute })
    let busy (g : BankProg) : Bool := g.items.any (fun i => v.busyAt (segOf i.2.2.1 i.2.1 / 2))
    if v.paused then s
    else match v.run with
    | some r => if v.mode = .memory && !r.stopped then
        (compute s).modVault vault (fun v => { v with run := v.run.map (fun r => { r with stepOver := false }) }) else s
    | none =>
      match v.progs with
      | [] => s
      | g :: rest =>
        if s.abs.migs.any (fun m => m.old = vault || m.new = vault) then s
        else
          let s1 := s.modVault vault (fun v => { v with progs := rest })
          let refuse (st : Nat) : State := (s1.noteRefuse pgBank vault).progDone vault g st
          -- R239: a selection program waits where a BANK_PROGRAM would be refused
          let waits := g.src = .attend
          if v.mode = .retention || v.mode = .resealing then (if waits then s else refuse stState)
          else if v.grant = 0 then (if waits then s else refuse stQuota)
          else if g.again && !v.restored g then
            (if s.recovering vault g then s else (s1.setErr pgBank vault 1).progDone vault g stLost)
          else if busy g then s
          else
            let (s2, g2, k) := if g.src = .order && !g.again then s1.readProgram g.core g.flight else (s1, g, 0)
            let s3 := s2.orderClamps g.core g.flight pgBank vault k
            let gran := (g2.items.map (fun i => segOf i.2.2.1 i.2.1 / 2)).eraseDups
            let s4 := compute (gran.foldl (fun s x => s.materialise vault x 64) s3)
            let src : Nat := match g.src with | .order => 0 | .kvAppend => 1 | .attend => 2
            let s5 := s4.setReg pgBank vault 0 rBankProg
              (BitVec.ofNat 64 (g.core <<< 24 + g.queue <<< 22 + src <<< 20))
            let s6 := if g.again then s5.bump pgBank vault 0 rBankRerun 1 else s5
            (s6.bump pgBank vault 0 rBankPrograms 1).modVault vault (fun v => { v with run := some ⟨g2, g2.items, [], 0, false, false⟩ })))

/-! ### Items (R211, R214, R220) -/

/-- Banks that may compute at once. -/
def State.tokenLimit (s : State) (p : Nat) (g : BankProg) : Nat :=
  let v := s.vault p
  if s.fld pgBank p 0 rBankCfg 16 16 = 1 then min 32 v.grant
  else min (min 32 (s.fld pgBank p 0 rBankCfg 5 0)) (min g.tokens v.grant)

/-- The item of a bank that runs next. -/
def BankRun.nextItem (r : BankRun) (k : Nat) : Option (Nat × Nat × Nat × Nat) := r.left.find? (fun i => i.2.1 = k)

/-- Banks with an item ready and no item running, in ascending order from the rotation pointer (R220). -/
def BankRun.readyBanks (r : BankRun) (rot : Nat) : List Nat :=
  ((List.range 128).map (fun k => (rot + k) % 128)).filter (fun k => (r.nextItem k).isSome && !r.units.any (fun u => u.bank = k))

/-- Entries of the change list that are in use or reserved: 16 for each running item that writes ROW, and the pairs that others
have recorded (R214, R226). -/
def Vault.changeUsed (v : Vault) : Nat :=
  let ws : List BankUnit := match v.run with | some r => r.units.filter (·.writes) | none => []
  (v.change.filter (fun q => !ws.any (fun u => segOf u.row u.bank = q / 16))).length + 16 * ws.length

/-- Chunk j of a row segment as a number. -/
def Vault.chunk (v : Vault) (seg j : Nat) : Nat := leNat (((v.stored (seg * 32 + j / 2)).drop (32 * (j % 2))).take 32)

/-- A chunk is written: its line keeps its check bytes, is flagged, and its line pair enters the change list (R214). A verify
read that waits for the line (R221, R319) is left out. -/
def Vault.putChunk (v : Vault) (seg j x : Nat) : Vault :=
  let l := seg * 32 + j / 2
  let cw := v.stored l
  let v1 := v.store l (cw.take (32 * (j % 2)) ++ leBytes 32 x ++ cw.drop (32 * (j % 2) + 32))
  { v1 with flags := insNat v1.flags l, rewrites := v1.rewrites.filter (fun e => e.1 != l), change := if v1.change.contains (l / 2) then v1.change else v1.change ++ [l / 2] }

/-- A bank takes a token and activates the row segment of its next item; an item that writes ROW reserves 16 entries of
the change list (R214). While guests wait after a step, none starts (R218). -/
def execBankItem (vault bank : Nat) (s : State) : Host.Outcome State Fault Refusal :=
  .next (reachOrder.take s (
    let v := s.vault vault
    match v.run with
    | none => s
    | some r =>
      match r.nextItem bank with
      | none => s
      | some it =>
        let writes := r.prog.src = .kvAppend || r.prog.instrs.any bWrites
        let free := s.tokenLimit vault r.prog - r.units.length
        let room := v.changeUsed + b2n writes * 16 ≤ 2048
        if v.mode != .bankCompute || v.paused || r.stopped || (r.stepOver && !v.guests.isEmpty) || !room
            || !((r.readyBanks v.rot).take free).contains bank then s
        else
        -- the row's granule migrates first (R460), and goes into a running snapshot before it changes (R373)
        let seg := segOf it.2.2.1 bank
        let s := s.migrateGranule v.logical (seg / 2)
        let s := if writes then s.snapGranule v.logical (seg / 2) else s
        if r.prog.src = .kvAppend then
          -- R248: whole chunks of the payload are written to the row segment
          let ps := r.prog.pay.filter (fun x => x.1 = bank && x.2.1 = it.2.2.1)
          let s1 := s.modVault vault (fun v => ps.foldl (fun v x => (List.range (ceilDiv x.2.2.2.length 32)).foldl (fun v j =>
            v.putChunk seg (x.2.2.1 / 32 + j) (leNat ((x.2.2.2.drop (32 * j)).take 32))) v) v)
          let s2 := s1.modVault vault (fun v => { v with run := v.run.map (fun r =>
            { r with left := r.left.erase it, done := r.done + 1, stepOver := false }) })
          (s2.bump pgBank vault 0 rBankItems 1).setFld pgBank vault 0 rBankProg 18 0 (r.done + 1)
        else
          let u : BankUnit := { bank := bank, item := it.1, row := it.2.2.1, arg := it.2.2.2, pc := 0, w := [0, 0, 0, 0],
                                a := List.replicate 8 0, emitted := 0, writes := writes }
          s.modVault vault (fun v => { v with run := some { r with left := r.left.erase it, units := r.units ++ [u], stepOver := false } })))

/-! ### Chunks and lanes (R203 to R205) -/

/-- Lane i of a chunk. -/
def laneOf (w x i : Nat) : Nat := (x >>> (i * w)) % 2 ^ w
def laneInt (w x i : Nat) : Int := signedOf w (laneOf w x i)
/-- A chunk from its lanes. -/
def ofLanes (w : Nat) (f : Nat → Nat) : Nat := (List.range (256 / w)).foldl (fun a i => a + (f i % 2 ^ w) <<< (i * w)) 0

/-- Σ over lanes of a × b. -/
def laneDot (w a b : Nat) : Int := (List.range (256 / w)).foldl (fun t i => t + laneInt w a i * laneInt w b i) 0

/-- Operand b of step j (R205). -/
def bOperand (g : BankProg) (u : BankUnit) (i j a : Nat) : Nat :=
  match bSrc i with
  | 0 => a
  | 1 => leNat ((g.q.drop (32 * ((bFirst i + j) % 64))).take 32)
  | 6 => ofLanes (bWidth i) (fun _ => bImm i)
  | 7 => 0
  | k => u.w.getD (k - 2) 0

/-- The lane result of MOV, ADD, MAX and CMPGE. -/
def laneResult (i a b : Nat) : Nat :=
  let w := bWidth i
  ofLanes w (fun k =>
    let x := laneInt w a k
    let y := laneInt w b k
    match bOp i with
    | 1 => laneOf w b k
    | 2 =>
      if bit i 29 then
        (let lo : Int := -((2 ^ (w - 1) : Nat) : Int)
         let hi : Int := ((2 ^ (w - 1) : Nat) : Int) - 1
         unsignedOf w (if x + y < lo then lo else if x + y > hi then hi else x + y))
      else laneOf w a k + laneOf w b k
    | 3 => if x ≥ y then laneOf w a k else laneOf w b k
    | _ => if x ≥ y then 2 ^ w - 1 else 0)

/-- Bytes that an item emits, as far as its emit area reaches (R208). -/
def State.bankEmit (s : State) (p : Nat) (g : BankProg) (u : BankUnit) (bs : List Byte) : State × BankUnit :=
  let keep := bs.take (g.emitStride - u.emitted)
  let s1 := if keep.isEmpty then s else s.stockWrite g.emitCore (g.emitOff + u.item * g.emitStride + u.emitted) keep
  (s1.bump pgBank p 0 rBankEmitBytes keep.length, { u with emitted := u.emitted + bs.length })

/-- One step of a chunk instruction. -/
def State.bankChunk (s : State) (p : Nat) (g : BankProg) (i j : Nat) (u : BankUnit) : State × BankUnit :=
  let seg := segOf u.row u.bank
  let cj := (bFirst i + j + (if bRel i then u.arg else 0)) % 64
  let a := (s.vault p).chunk seg cj
  let b := bOperand g u i j a
  let w := bWidth i
  let acc := u.a.getD (bAcc i) 0
  match bOp i with
  | 5 => (s, { u with a := u.a.set (bAcc i) (acc + BitVec.ofInt 32 (laneDot w a b)) })
  | 7 => (s.modVault p (fun v => v.putChunk seg ((cj + bImm i % 64) % 64) a), u)
  | _ =>
    let x := laneResult i a b
    match bDst i with
    | 0 => (s.modVault p (fun v => v.putChunk seg cj x), u)
    | 1 => s.bankEmit p g u (leBytes 32 x)
    | 6 => (s, u)
    | k => (s, { u with w := u.w.set (k - 2) x })

/-- DOTMAX (R205, R206): the largest dot product of the keys. -/
def State.bankDotMax (s : State) (p : Nat) (g : BankProg) (i : Nat) (u : BankUnit) : BankUnit :=
  let seg := segOf u.row u.bank
  let k := bKey i
  let w := bWidth i
  (List.range (bCount i / k)).foldl (fun u m =>
    let d : Int := (List.range k).foldl (fun t q =>
      let cj := (bFirst i + m * k + q + (if bRel i then u.arg else 0)) % 64
      t + laneDot w ((s.vault p).chunk seg cj) (leNat ((g.q.drop (32 * q)).take 32))) 0
    let acc := u.a.getD (bAcc i) 0
    let x : Word := BitVec.ofInt 32 d
    { u with a := u.a.set (bAcc i) (if x.toInt > acc.toInt then x else acc) }) u

/-- The lines that an instruction reads are clean (R221). -/
def Vault.readsClean (v : Vault) (u : BankUnit) (i : Nat) : Bool :=
  (bOp i = 0 || bOp i = 8 || bOp i = 9) ||
  (List.range (bCount i)).all (fun j =>
    v.lineClean (segOf u.row u.bank * 32 + (bFirst i + j + (if bRel i then u.arg else 0)) % 64 / 2))

/-- A bank unit carries out its next instruction, if it is of the wanted opcode and the lines that it reads pass their
check. After the last one the item ends and the token is returned (R211). -/
def State.bankInstr (s : State) (p bank op : Nat) : State :=
  let v := s.vault p
  match v.run with
  | none => s
  | some r =>
    match r.units.find? (fun u => u.bank = bank) with
    | none => s
    | some u =>
      match r.prog.instrs[u.pc]? with
      | none => s
      | some i =>
        if bOp i != op || v.mode != .bankCompute || !v.readsClean u i then s
        else
          let (s1, u1) : State × BankUnit := match op with
            | 0 => (s, u)
            | 6 => (s, s.bankDotMax p r.prog i u)
            | 8 => s.bankEmit p r.prog u (leBytes 4 (u.a.getD (bAcc i) 0).toNat)
            | 9 => (s, { u with a := u.a.set (bAcc i) (BitVec.ofNat 32 (bImm i)) })
            | _ => (List.range (bCount i)).foldl (fun (acc : State × BankUnit) j => acc.1.bankChunk p r.prog i j acc.2) (s, u)
          let u2 := { u1 with pc := u1.pc + 1 }
          if u2.pc < r.prog.instrs.length then
            s1.modVault p (fun v => { v with run := v.run.map (fun r => { r with units := r.units.map (fun x => if x.bank = bank then u2 else x) }) })
          else
            let s2 := s1.modVault p (fun v => { v with run := v.run.map (fun r =>
              { r with units := r.units.filter (fun x => x.bank != bank), done := r.done + 1 }) })
            let s3 := (s2.bump pgBank p 0 rBankItems 1).setFld pgBank p 0 rBankProg 18 0 (r.done + 1)
            if u2.emitted > r.prog.emitStride then s3.orderClamps r.prog.core r.prog.flight pgBank p 1 else s3

def execBankNop (vault bank : Nat) (s : State) : Host.Outcome State Fault Refusal := .next (reachOrder.take s (s.bankInstr vault bank 0))
def execBankMov (vault bank : Nat) (s : State) : Host.Outcome State Fault Refusal := .next (reachOrder.take s (s.bankInstr vault bank 1))
def execBankAdd (vault bank : Nat) (s : State) : Host.Outcome State Fault Refusal := .next (reachOrder.take s (s.bankInstr vault bank 2))
def execBankMax (vault bank : Nat) (s : State) : Host.Outcome State Fault Refusal := .next (reachOrder.take s (s.bankInstr vault bank 3))
def execBankCmpge (vault bank : Nat) (s : State) : Host.Outcome State Fault Refusal := .next (reachOrder.take s (s.bankInstr vault bank 4))
def execBankDot (vault bank : Nat) (s : State) : Host.Outcome State Fault Refusal := .next (reachOrder.take s (s.bankInstr vault bank 5))
def execBankDotmax (vault bank : Nat) (s : State) : Host.Outcome State Fault Refusal := .next (reachOrder.take s (s.bankInstr vault bank 6))
def execBankCopy (vault bank : Nat) (s : State) : Host.Outcome State Fault Refusal := .next (reachOrder.take s (s.bankInstr vault bank 7))
def execBankEmita (vault bank : Nat) (s : State) : Host.Outcome State Fault Refusal := .next (reachOrder.take s (s.bankInstr vault bank 8))
def execBankClra (vault bank : Nat) (s : State) : Host.Outcome State Fault Refusal := .next (reachOrder.take s (s.bankInstr vault bank 9))

/-! ### Guest requests (R178, R217) -/

/-- The answer to a read of one line; where the line is lost, and its granule waits for a restore or its structure for a
rebuild, the read waits with it (R326, R329). -/
def State.lineAnswer (s : State) (p addr : Nat) (r : Option (List Byte)) : State :=
  let v := s.vault p
  if r.isNone && (v.filling.contains (addr / 4096) || v.lostLines.contains (addr / 64, 3)) then
    s.modVault p (fun v => { v with held := v.held ++ [.line addr] })
  else (s.bump pgVlt p 0 rVltGuestLines 1).emit (.line p addr r)

/-- One request is served (R178, R218). A host read of a lost line completes with Completer Abort (R330). -/
def State.serveGuest (s : State) (p : Nat) (q : GuestReq) : State :=
  match q with
  | .hostRead fn tag addr len => s.hostServe fn tag (s.vault p).logical addr len
  | .hostNext fn tag l addr len => s.hostReadTry fn tag l addr len
  | .line addr =>
    let (s1, r) := s.readLine p (addr / 64) 0
    s1.lineAnswer p addr r
  | .write _ addr data =>
    let n := ceilDiv (addr % 64 + data.length) 64
    let v := s.vault p
    let s1 := if v.role = .logical || v.role = .borrowed then s.vaultWrite v.logical addr data
      else (List.range n).foldl (fun s i =>
        let lo := if i = 0 then addr % 64 else 0
        let from_ := (addr / 64 + i) * 64 + lo - addr
        let ln := (addr / 64 + i) % 16777216
        s.writeLine p ln lo ((data.drop from_).take (64 - lo)) (!v.isValid (ln / 64)) addr data.length) s
    s1.bump pgVlt p 0 rVltGuestLines n
  | .transfer c f => s.xferRetry c f
  | .fab m => s.dataTry m

/-- A request addresses a busy range of a vault: one under discard or reload, and, but for a host read, one that waits for a
restore (R189, R192, R325, R329, R330). Transfers, messages and host reads behind writes look for themselves. -/
def GuestReq.busy (q : GuestReq) (v : Vault) : Bool :=
  match q with
  | .hostRead _ _ a _ => v.discarding (a / 4096) || v.reloading (a / 4096)
  | .line a => v.busyAt (a / 4096)
  | .write _ a d => v.busyIn (a / 4096) (granulesOf a d.length)
  | _ => false

/-- A GUEST request reaches a vault: it is served in MEMORY, and enters the guest queue otherwise (R217); with 64 entries
in use it is held at the mesh ejection port, as is a request to a busy range. -/
def State.guestArrive (s : State) (p : Nat) (q : GuestReq) : State :=
  if (s.vault p).mode = .memory && !q.busy (s.vault p) then s.serveGuest p q else s.waitAt p q

/-- Requests that were held arrive again, in the order of their arrival. -/
def State.releaseHeld (s : State) (p : Nat) : State :=
  (s.vault p).held.foldl (fun s q => s.guestArrive p q) (s.modVault p (fun v => { v with held := [] }))

/-- A vault is in MEMORY again and stays: clears that waited are done, and every request that waited is served (R212, R217). -/
def State.memoryAgain (s : State) (p : Nat) : State :=
  let s1 := s.toMemory p
  ((s1.vault p).guests.foldl (fun s q => s.guestArrive p q) (s1.modVault p (fun v => { v with guests := [] }))).releaseHeld p

/-! ### Steps, the re-seal and intervals (R212 to R218) -/

/-- After a step without changes to re-seal: the program ends, pauses, or goes on (the table of vault transitions). -/
def State.afterStep (s : State) (p : Nat) : State :=
  let v := s.vault p
  match v.run with
  | none => s.memoryAgain p
  | some r =>
    if r.left.isEmpty && r.units.isEmpty then
      ((s.modVault p (fun v => { v with run := none })).progDone p r.prog stOk).memoryAgain p
    else if v.paused then s.memoryAgain p
    else s.modVault p (fun v => { v with mode := .bankCompute, run := some { r with stepOver := true } })

/-- A step ends (R213, R215, R220): none of its items is still running, since an item starts only if it ends within the
step. -/
def State.stepEnd (s : State) (p : Nat) : State :=
  let v := s.vault p
  match v.run with
  | none => s
  | some r =>
    if v.mode != .bankCompute || !r.units.isEmpty || r.stopped then s
    else
      let s1 := (s.bump pgBank p 0 rBankSteps 1).modVault p (fun v => { v with rot := (v.rot + 17) % 128 })
      if !v.change.isEmpty || v.changeLost then s1.modVault p (fun v => { v with mode := .resealing, run := some { r with stepOver := true } })
      else s1.afterStep p

def execBankStepEnd (vault : Nat) (s : State) : Host.Outcome State Fault Refusal := .next (reachOrder.take s (s.stepEnd vault))

/-- Check bytes of flagged lines are computed from their data as stored, and the flags cleared; nothing is corrected
(R215). -/
def Vault.reseal (v : Vault) (ls : List Nat) : Vault :=
  let v1 := ls.foldl (fun v l => v.store l (lineEncode ((v.stored l).take 64))) v
  { v1 with flags := v1.flags.filter (fun l => !ls.contains l) }

/-- The re-seal of the listed line pairs (R215). -/
def State.resealList (s : State) (p : Nat) : State :=
  let v := s.vault p
  let ls := v.flags.filter (fun l => v.change.contains (l / 2))
  (s.setVault p { v.reseal ls with change := [] }).bump pgBank p 0 rBankResealPairs v.change.length

/-- A program that was stopped: it is put back to run again from its first item, or its order loses its data (R222,
R225). -/
def State.stopProgram (s : State) (p : Nat) (r : BankRun) (rerun : Bool) : State :=
  if rerun then s.modVault p (fun v => { v with run := none, progs := { r.prog with again := true } :: v.progs })
  else ((s.modVault p (fun v => { v with run := none })).setErr pgBank p 1).progDone p r.prog stLost

/-- The end of RESEALING; a program that the watchman stopped goes on then, or waits for its half to rejoin (R225). -/
def State.resealDone (s : State) (p : Nat) : State :=
  match (s.vault p).run with
  | some r =>
    if r.stopped then
      let s1 := s.memoryAgain p
      if s1.fencedHalf = some (siteHalf p) then s1 else s1.stopProgram p { r with stopped := false } r.prog.idem
    else s.afterStep p
  | none => s.afterStep p

/-- The re-seal of a step (R215). `err`: an error in the change list's SRAM word: 1 single-bit, corrected; 2 double-bit, which
loses the list (R223). -/
def execReseal (vault err : Nat) (s : State) : Host.Outcome State Fault Refusal :=
  .next (reachOrder.take s (
    let v := s.vault vault
    if v.mode != .resealing || v.changeLost then s
    else if err = 2 then s.modVault vault (fun v => { v with changeLost := true })
    else (((if err = 1 then s.setErr pgBank vault 2 else s).resealList vault).resealDone vault)))

/-- The change list is lost: every flagged line is found and re-sealed (R223). -/
def execFlagScan (vault : Nat) (s : State) : Host.Outcome State Fault Refusal :=
  .next (reachOrder.take s (
    let v := s.vault vault
    if v.mode != .resealing then s
    else
      let pairs := (v.flags.map (· / 2)).eraseDups.length
      let s1 := ((s.setVault vault { v.reseal v.flags with change := [], changeLost := false }).bump pgBank vault 0
        rBankResealPairs pairs).setErr pgBank vault 3
      s1.resealDone vault))

/-- An en passant interval (R218): after a step, the vault switches to MEMORY, does the clears that wait (R212), serves up to
64 guest requests in the order of their acceptance, evicts, drains and returns to BANK_COMPUTE. Requests held at the ejection
port then take the places that are free (R217). -/
def execEnPassant (vault : Nat) (s : State) : Host.Outcome State Fault Refusal :=
  .next (reachOrder.take s (
    let v := s.vault vault
    match v.run with
    | none => s
    | some r =>
      if v.mode != .bankCompute || !r.stepOver || v.guests.isEmpty || !r.units.isEmpty then s
      else
        let now := v.guests.take 64
        let s1 := (s.toMemory vault).modVault vault (fun v => { v with guests := v.guests.drop 64 })
        let s2 := now.foldl (fun s q => s.guestArrive vault q) s1
        (((s2.drainVault vault).modVault vault (fun v => { v with
          mode := .bankCompute, run := v.run.map (fun r => { r with stepOver := false }) })).bump pgBank vault 0 rBankIntervals 1).releaseHeld vault))

/-- A governor pause ends the current step at once; no further item runs until it is resumed (R212). Items that are
running end first: BANK_STEP_END then ends the step. -/
def execBankPause (vault : Nat) (s : State) : Host.Outcome State Fault Refusal :=
  .next (reachOrder.take s (
    let s1 := s.modVault vault (fun v => { v with paused := true })
    s1.stepEnd vault))

/-! ### Errors (R221, R222, R225) -/

/-- An item in progress reads a line with the instruction that it is at. -/
def BankRun.readsLine (r : BankRun) (l : Nat) : Bool :=
  r.units.any (fun u => match r.prog.instrs[u.pc]? with
    | some i => !(bOp i = 0 || bOp i = 8 || bOp i = 9) && (List.range (bCount i)).any (fun j =>
        segOf u.row u.bank * 32 + (bFirst i + j + (if bRel i then u.arg else 0)) % 64 / 2 = l)
    | none => false)

/-- A line that an item in progress reads has a non-zero syndrome: the shell corrects it and writes it back (R221, R318). Its
verify read waits for MEMORY (R319). -/
def execBankEccPause (vault line : Nat) (noise : BitVec 576) (s : State) : Host.Outcome State Fault Refusal :=
  .next (reachOrder.take s (
    let v := s.vault vault
    if v.mode != .bankCompute || v.flags.contains line || !v.run.any (fun r => r.readsLine line) then s
    else match lineDecode (noisy (v.stored line) noise) with
    | .fixed d k =>
      let s1 := ((s.modVault vault (fun v => v.store line (lineEncode d))).setErr pgBank vault 0).bump pgBank vault 0 rBankEccPause 1
      s1.lineCorrected vault line k d
    | _ => s))

/-- A line that an item in progress reads cannot be corrected: the step ends, the change list is re-sealed, the program stops and the line is handed to
recovery (R222, R326). -/
def execBankUe (vault line : Nat) (noise : BitVec 576) (s : State) : Host.Outcome State Fault Refusal :=
  .next (reachOrder.take s (
    let v := s.vault vault
    match v.run with
    | none => s
    | some r =>
      if v.mode != .bankCompute || v.flags.contains line || !r.readsLine line then s
      else match lineDecode (noisy (v.stored line) noise) with
      | .lost =>
        let cls := s.lineClass vault line
        let s1 := (s.bump pgBank vault 0 rBankSteps 1).modVault vault (fun v => { v with rot := (v.rot + 17) % 128 })
        let s2 := (s1.resealList vault).modVault vault (fun v => { v with mode := .memory })
        ((s2.lineUe vault line).stopProgram vault r ((cls = 1 || cls = 2) && r.prog.idem)).memoryAgain vault
      | _ => s))

end Sys2Proof.Machine
end

