-- ==== Sys2Proof/Machine/Elem.lean ====
section
/-! DEFINITION. The element engine (R90 to R112, R125 to R127): RECIPE orders, shelf units, groups, the random numbers of
their elements (R300 to R311), and the way of the elements past the micro-ops, the tap and the outputs. A micro-op
command acts on every element in flight; without carry_en every element of the order is in flight by then. -/

namespace Sys2Proof.Machine

/-! ### Micro-ops (R105) -/

def uStation (u : Nat) : Nat := bits u 3 0
def uImm (u : Nat) : Nat := bits u 63 32
def uDst (u : Nat) : Nat := bits u 11 9
def uSrcA (u : Nat) : Nat := bits u 15 12
def uSrcB (u : Nat) : Nat := bits u 19 16
def uSrcC (u : Nat) : Nat := bits u 23 20

/-- Slots of a station (the table of stations). -/
def stationSlots (st : Nat) : Nat := [0, 2, 4, 4, 2, 4, 2, 1, 1, 2, 2].getD st 0

/-- Listed opcodes of a station (the table of opcodes). -/
def stationOps (st : Nat) : Nat := [0, 8, 8, 8, 9, 9, 2, 4, 3, 4, 2].getD st 0

/-- The opcode; one that is not listed is taken as 0x00 (R105). -/
def uCode (u : Nat) : Nat := if bits u 8 4 < stationOps (uStation u) then bits u 8 4 else 0

/-- The micro-ops up to the first that breaks the station order or the slots (R105), and whether one does. -/
def cutRecipe (us : List Nat) (last used : Nat) : List Nat × Bool :=
  match us with
  | [] => ([], false)
  | u :: r =>
    let st := uStation u
    let n := if st = last then used + 1 else 1
    if st = 0 || st > 10 || st < last || n > stationSlots st then ([], true)
    else (let (x, b) := cutRecipe r st n; (u :: x, b))

/-- How many of operands a, b, c a micro-op reads. -/
def uArity (u : Nat) : Nat :=
  match uStation u, uCode u with
  | 1, o => if o ≤ 4 then 1 else 0
  | 2, o => if o = 3 ∨ o = 4 then 3 else 2
  | 3, o => if o = 3 ∨ o = 4 then 3 else 2
  | 5, o => if o = 2 then 3 else if o = 6 then 1 else 2
  | 7, o => if o = 2 then 1 else if o = 3 then 2 else 0
  | _, _ => 1

/-- Whether a micro-op takes a random value (R302); `sr` is ELEM_CFG sr_enable. -/
def uDraws (sr : Bool) (u : Nat) : Bool :=
  uStation u = 7 || (uStation u = 9 && sr && (uCode u = 1 || uCode u = 3))
    || (decide (uArity u ≥ 1) && uSrcA u = 11) || (decide (uArity u ≥ 2) && uSrcB u = 11)
    || ((decide (uArity u ≥ 3) || (uStation u = 8 && uCode u = 1)) && uSrcC u = 11)

/-- The clamps of one micro-op (R101, R105, R303, ELEM_CFG sr_enable). -/
def uClamps (sr : Bool) (u : Nat) : Nat :=
  b2n (bits u 8 4 ≥ stationOps (uStation u)) + b2n (uStation u = 7 && uCode u = 0 && bits (uImm u) 3 2 = 3)
    + b2n (uStation u = 9 && bits (uImm u) 2 1 = 3) + b2n (uStation u = 9 && !sr && (uCode u = 1 || uCode u = 3))

/-! ### The fields of a RECIPE -/

/-- n_elems, row_len and col_base after their clamps. -/
def recN (o : Nat) : Nat := clampNat 1 16777216 (ordF o 5 24 0)
def recRow (o : Nat) : Nat := clampNat 1 16777216 (ordF o 6 24 0)
def recCol (o : Nat) : Nat := ordF o 7 23 0
/-- Input n: address, loom queue, format. -/
def inAddr (o n : Nat) : Nat := ordF o (8 + n) 27 7
def inQueue (o n : Nat) : Nat := ordF o (8 + n) 8 7
def inKind0 (o n : Nat) : Nat := ordF o (8 + n) 2 0
/-- The format of an input of a kind: ROWB and COLB take FP32 in place of block-scaled codes. -/
def inFmt (o n kind : Nat) : Nat :=
  let f := ordF o (8 + n) 6 3
  if (kind = 3 || kind = 4) && fmtIsBlock f then 0 else f

/-- Input kinds after their clamps (R107), and the clamps. -/
def inKinds (o : Nat) : List Nat × Nat :=
  let k (n : Nat) : Nat := if inKind0 o n > 5 then 0 else inKind0 o n
  let dup (n : Nat) : Bool := k n = 2 && (List.range n).any (fun m => k m = 2 && inQueue o m = inQueue o n)
  ((List.range 3).map (fun n => if dup n then 0 else k n),
   ((List.range 3).map (fun n => b2n (inKind0 o n > 5 || dup n)
      + b2n ((k n = 3 || k n = 4) && fmtIsBlock (ordF o (8 + n) 6 3)))).foldl (· + ·) 0)

def outDest0 (o n : Nat) : Nat := if n = 0 then ordF o 12 2 0 else ordF o 12 18 16

/-- Output destinations after their clamps (R109), and the clamps. -/
def outDests (o : Nat) (kinds : List Nat) : List Nat × Nat :=
  let bad (n : Nat) : Bool := outDest0 o n > 4 || (outDest0 o n = 4 && kinds.getD 0 0 != 2)
  ((List.range 2).map (fun n => if bad n then 0 else outDest0 o n), ((List.range 2).map (fun n => b2n (bad n))).foldl (· + ·) 0)

/-- The format of output n; SHELF writes FP32. -/
def outFmt (o n : Nat) (dests : List Nat) : Nat :=
  if dests.getD n 0 = 4 then 0 else if n = 0 then ordF o 12 6 3 else ordF o 12 22 19

/-- The order address of output n in a space its destination accepts (R164), and the clamp. -/
def outAddr (o n dest : Nat) : Nat × Nat :=
  let a := ordW64 o (13 + 2 * n)
  match dest with
  | 1 => if spaceOf a = 0 then (a, 0) else (inSpace 0 21 a, 1)
  | 2 => if spaceOf a = 1 || spaceOf a = 3 then (a, 0) else (inSpace 1 30 a, 1)
  | 3 => if spaceOf a = 2 then (a, 0) else (inSpace 2 38 a, 1)
  | _ => (a, 0)

/-- shelf_tiles after its clamp. -/
def recTiles (o : Nat) : Nat := clampNat 1 4096 (ordF o 11 12 0)

/-- The tally fields that a RECIPE and a TALLY order share (the table of tally parameters). -/
def tallyOp0 (o : Nat) : Nat := ordF o 18 3 0
def tallyTapA (o : Nat) : Nat := ordF o 18 11 8
def tallyTapB (o : Nat) : Nat := ordF o 18 15 12
def tallyK (o : Nat) : Nat := clampNat 1 64 (ordF o 18 22 16)

/-- Clamps of tally_op, k and (in a RECIPE) tap_station; tally_op 10 to 15 become NONE. -/
def tallyClamps (recipe : Bool) (o : Nat) : Nat :=
  let op := tallyOp0 o
  b2n (op > 9) + b2n (op = 5 && ordF o 18 22 16 != tallyK o)
    + b2n (recipe && decide (1 ≤ op) && decide (op ≤ 9) && (ordF o 18 7 4 = 0 || ordF o 18 7 4 > 9))

/-! ### Where a recipe stands -/

/-- The micro-op that comes next. -/
def RecipeRun.uop (r : RecipeRun) : Option Nat := r.uops[r.pc]?
def RecipeRun.allIssued (r : RecipeRun) : Bool := decide (r.unit ≥ r.units)
/-- The elements in flight may pass the next micro-op: all of the order's, or with carry_en one group's (R125). -/
def RecipeRun.ready (r : RecipeRun) : Bool := r.allIssued || (r.carryEn && (decide (r.pc > 0) || !r.lanes.isEmpty))
/-- The place of station 8 in the list, if it is used. -/
def RecipeRun.at8 (r : RecipeRun) : Option Nat := r.uops.findIdx? (fun u => uStation u = 8)
/-- EXPAND_FILL or EXPAND_KEEP. -/
def RecipeRun.isExpand (r : RecipeRun) : Bool := r.uops.any (fun u => uStation u = 8 && uCode u != 0)
/-- The number of micro-ops before the tap (the tap reads as the element leaves tap_station). -/
def RecipeRun.tapAt (r : RecipeRun) : Option Nat :=
  if r.tOp = 0 then none else some (r.uops.filter (fun u => uStation u ≤ r.tapSt)).length

/-- With carry_en, the block-scaled micro-op of station 9 before which elements wait for their blocks (R92, R102): none where
it, or one of station 9 behind it, writes v6 or v7, which the next group reads. -/
def RecipeRun.parkAt (r : RecipeRun) (o : Nat) : Option Nat :=
  let blk (u : Nat) : Bool := uStation u = 9 && fmtIsBlock (outFmt o (uImm u % 2) r.dests)
  match r.uops.findIdx? blk with
  | none => none
  | some i =>
    if r.carryEn && !r.unparked && !(r.uops.drop i).any (fun u => uStation u = 9 && decide (uDst u ≥ 6)) then some i else none

def State.run (s : State) (c : Nat) : Option RecipeRun := (s.core c).eng.runs.head?
def State.modRun (s : State) (c : Nat) (f : RecipeRun → RecipeRun) : State :=
  s.modCore c (fun x => { x with eng := { x.eng with runs := match x.eng.runs with | [] => [] | r :: t => f r :: t } })

/-- The recipe whose groups may issue, and its place among those the engine holds: the head, or, once its last group has
issued, the next one if its no-dependence flag is set (R112). A recipe that uses the carry registers, or follows one that does,
waits until they are its own (R125). -/
def State.issuer (s : State) (c : Nat) : Option (Nat × RecipeRun) :=
  match (s.core c).eng.runs with
  | [] => none
  | [r] => some (0, r)
  | r :: r' :: _ =>
    if r.allIssued && !r.carryEn && !r'.carryEn
        && (match (s.core c).flight r'.flight with | some f => bit f.ord 8 | none => false) then some (1, r') else some (0, r)

/-- The i-th recipe that the engine holds. -/
def State.modRunAt (s : State) (c i : Nat) (f : RecipeRun → RecipeRun) : State :=
  s.modCore c (fun x => { x with eng := { x.eng with runs := x.eng.runs.mapIdx (fun k r => if k = i then f r else r) } })

/-- The descriptor of a started order. -/
def State.ordOf (s : State) (c id : Nat) : Nat := match (s.core c).flight id with | some f => f.ord | none => 0

/-- A stockroom image for ranges that an order reads: free bytes stand in words with a double-bit error, and the order
will complete with DATA_LOST (R333). -/
def State.stockRanges (s : State) (c id : Nat) (rs : List (Nat × Nat)) : State × Mem :=
  if (s.core c).stockBad.isEmpty then (s, (s.core c).stock)
  else
    let (s1, m, bad) := rs.foldl (fun (acc : State × Mem × Bool) r =>
      let (s, m, bad) := acc
      let (s1, v, b) := s.stockView c r.1 r.2
      if b then (s1, memSetBytesWrap 2097152 m r.1 (memBytesWrap 2097152 v r.1 r.2), true) else (s1, m, bad))
      (s, (s.core c).stock, false)
    (if bad then s1.flightLost c id else s1, m)

/-! ### Random numbers (R300, R308 to R311) -/

/-- One draw for a core: the counter generator's, the almanac's under force_almanac or for a failed CG, or with the
fallback LOST a free value and the fact that it is lost. -/
def State.draw (s : State) (c : Nat) (sigma : DWord) (n : Word) (p : DWord) (i : Word) : State × Draw × Bool :=
  let part := (s.partOfCore c).getD 0
  let cfg := (s.reg pgRng 0 part rRngPartCfg).toNat
  let x := s.core c
  if bit cfg 0 || (x.cgFailed && !bit cfg 1) then
    let m := x.alm + BitVec.ofNat 32 (c * 16777216)
    let d := almDraw (fun a => (smFind s.alm a).getD (almDefault a)) sigma n p i m
    let s1 := s.setCore c { x with alm := x.alm + 1 }
    let s2 := match s1.partOfCore c with | some q => s1.modPart q (fun y => { y with nonrepro := true }) | none => s1
    (s2.bump pgRng 0 0 rRngAlmDraws 1, d, false)
  else if x.cgFailed then
    let w := s.freeVal
    let v := s.freeUsed.freeVal
    (s.freeUsed.freeUsed, ⟨w.extractLsb' 0 32, w.extractLsb' 32 32, v.extractLsb' 0 32, v.extractLsb' 32 32⟩, true)
  else (s.bump pgRng 0 0 rRngDraws 1, cg sigma n p i, false)

/-- A core's draws come from its CG copies: its partition forces no almanac, and the CG has not failed (R308, R311). -/
def State.cgLive (s : State) (c : Nat) : Bool :=
  !bit (s.reg pgRng 0 ((s.partOfCore c).getD 0) rRngPartCfg).toNat 0 && !(s.core c).cgFailed

/-- A core's CG has mismatched twice running: it is marked failed (R308), a tile fault (R456). -/
def State.cgFail (s : State) (c : Nat) : State :=
  ((s.modCore c (fun x => { x with cgFailed := true })).setErr pgRng 0 1).castTrigger ⟨c, 3, false, false⟩

/-- An order that draws outside the element engine, while the two CG copies mismatch k times running at its first draw: once, it
is drawn again with the same bits; twice, the CG has failed, and the order's draws follow the fallback (R308). -/
def State.withMismatch (s : State) (c k : Nat) (run : State → State) : State :=
  let t := run s
  if k = 0 || !s.cgLive c || t.reg pgRng 0 0 rRngDraws = s.reg pgRng 0 0 rRngDraws then t
  else if k = 1 then (t.bump pgRng 0 0 rRngCgMismatch 1).setErr pgRng 0 0
  else run ((s.bump pgRng 0 0 rRngCgMismatch 2).cgFail c)

/-- The CG inputs of logical index q, and its slot in the draw with the share factor (R300, R301). -/
def recipeDraw (o q : Nat) : DWord × Word × DWord × Word × Nat × Nat :=
  let w := ordW o 24
  let f := 2 ^ bits w 9 8
  let row := q / recRow o
  let t := q % recRow o
  let base : DWord := BitVec.ofNat 64 (ordW64 o 28)
  let sigma := BitVec.ofNat 64 (ordW64 o 25)
  let sub := BitVec.ofNat 32 (ordW o 30)
  if bit w 4 then
    let n := ordF o 31 27 16 <<< 20 + ordF o 31 13 8 <<< 14 + (ordF o 27 13 0 + row) % 16384
    (sigma, BitVec.ofNat 32 n, base + BitVec.ofNat 64 (t / f), sub, t % f, f)
  else (sigma, BitVec.ofNat 32 (ordW o 27), base + BitVec.ofNat 64 (row <<< 40 + t / f), sub, t % f, f)

/-- The random words of elements, in their order; neighbours of one draw share it. A lost draw loses the order's data
(R308). -/
def State.laneDraws (s : State) (c id o : Nat) (ls : List ElemLane) : State × List ElemLane :=
  let (s1, out, _, lost) := ls.foldl (fun (acc : State × List ElemLane × Option (Word × DWord × Draw) × Bool) x =>
    let (s, out, prev, lost) := acc
    let (sigma, n, p, i, j, f) := recipeDraw o x.idx
    let fresh : State × Draw × Bool := match prev with
      | some (n', p', d) => if n' = n ∧ p' = p then (s, d, lost) else s.draw c sigma n p i
      | none => s.draw c sigma n p i
    (fresh.1, out ++ [{ x with rnd := drawShare fresh.2.1 j f }], some (n, p, fresh.2.1), lost || fresh.2.2))
    (s, [], none, false)
  (if lost then s1.flightLost c id else s1, out)

/-- Draws are taken for elements if micro-ops from number `lo` up to `hi`, or the tap among them, use them. -/
def RecipeRun.usesDraws (r : RecipeRun) (o : Nat) (sr : Bool) (lo hi : Nat) : Bool :=
  ((r.uops.take hi).drop lo).any (uDraws sr)
    || (match r.tapAt with
        | some t => decide (lo ≤ t) && decide (t ≤ hi) && (tallyTapA o = 11 || (r.tOp = 9 && tallyTapB o = 11))
        | none => false)

def State.srEnable (s : State) (c : Nat) : Bool := s.fld pgElem c 0 rElemCfg 8 8 = 1
def State.defaultNonsat (s : State) (c : Nat) : Bool := s.fld pgElem c 0 rElemCfg 0 0 = 1

/-! ### Start of a RECIPE (R97, R105 to R109, R148) -/

/-- The head recipe begins to run: the carry registers are cleared, or live (R125). -/
def State.engineBegin (s : State) (c : Nat) : State :=
  match s.run c with
  | none => s
  | some r =>
    let s1 := s.modCore c (fun x => { x with eng :=
      if r.carryEn then { x.eng with carryLive := true } else { x.eng with carry6 := [], carry7 := [], carryLive := false } })
    s1.setReg pgElem c 0 rElemRecipePc (BitVec.ofNat 64 (ordF (s.ordOf c r.flight) 4 20 0 / 256 * 256))

/-- A RECIPE order starts: its recipe, tables and scalars are read; fields are clamped. An output address that names a
core outside the partition refuses it. -/
def State.recipeStart (s : State) (c : Nat) (st : Start) : State :=
  let o := st.ord
  let (kinds, k1) := inKinds o
  let (dests, k2) := outDests o kinds
  let ok := match s.partOfCore c with
    | some p => (List.range 2).all (fun n => dests.getD n 0 = 0 || dests.getD n 0 = 4
        || s.inWindows p (locOf c (outAddr o n (dests.getD n 0)).1) 1)
    | none => false
  if !ok then s.refuseOrder c st stQuota
  else
    let (s1, id) := s.startOrder c st
    let ra := ordF o 4 20 0 / 256 * 256
    let (s2, m0) := s1.stockRanges c id [(ra, 224)]
    let rb (i n : Nat) : Nat := leNat (memBytesWrap 2097152 m0 (ra + i) n)
    let nu0 := rb 0 4 % 32
    let nu := clampNat 1 24 nu0
    let (us, cut) := cutRecipe ((List.range nu).map (fun i => rb (32 + 8 * i) 8)) 0 0
    let sr := s.srEnable c
    let lut := us.any (fun u => uStation u = 6)
    let ta (i : Nat) : Nat := bits (rb (4 + 4 * i) 4) 20 0
    let (s3, m1) := if lut then s2.stockRanges c id [(ta 0, 1024), (ta 1, 1024)] else (s2, m0)
    let tab (i : Nat) : List Word :=
      if lut then (List.range 256).map (fun k => BitVec.ofNat 32 (leNat (memBytesWrap 2097152 m1 (ta i + 4 * k) 4))) else []
    let w (i : Nat) : Word := BitVec.ofNat 32 (rb i 4)
    let scal := (List.range 64).map (fun k => s3.sreg c k)
    let expand := us.any (fun u => uStation u = 8 && uCode u != 0)
    let shelf := kinds.contains 2
    let m := (s3.sreg c (ordF o 11 21 16)).toNat % 4294967296
    let t0 := tallyOp0 o
    let tOp := if t0 > 9 then 0 else t0
    let r0 : RecipeRun :=
      { flight := id, uops := us, carryEn := bit (rb 0 4) 5, t0 := tab 0, t1 := tab 1, lo0 := w 16, sc0 := w 20, lo1 := w 24,
        sc1 := w 28, scal := scal, mexp := m, kinds := kinds, dests := dests, tOp := tOp,
        tapSt := clampNat 1 9 (ordF o 18 7 4), draws := false, next := 0, unit := 0,
        unitLen := if shelf then 0 else if expand then m else recN o, units := if shelf then recTiles o else 1, unitOn := false,
        unitRows := 0, lanes := [], pc := 0, parked := [], unparked := false, kept := 0, out0 := [], out1 := [],
        tapped := false, tapEnd := 0, missed := false }
    let draws := r0.usesDraws o sr 0 24
    let usesRow := shelf || tOp != 0 || draws || kinds.contains 3 || kinds.contains 4
      || us.any (fun u => uStation u = 1 && decide (uCode u ≥ 6))
      || (List.range 2).any (fun n => dests.getD n 0 != 0 && fmtIsBlock (outFmt o n dests))
    let usesN := !shelf || expand
    let kN := (List.range 2).map (fun n => (outAddr o n (dests.getD n 0)).2)
    let clamps := k1 + k2 + kN.foldl (· + ·) 0 + b2n (nu != nu0) + b2n cut + (us.map (uClamps sr)).foldl (· + ·) 0
      + b2n (usesN && ordF o 5 24 0 != recN o) + b2n (usesRow && ordF o 6 24 0 != recRow o)
      + b2n (shelf && ordF o 11 12 0 != recTiles o)
      + b2n (draws && bit (ordW o 24) 4 && ordF o 27 31 14 != 0)
    let s4 := (s3.orderClamps c id pgElem c clamps).orderClamps c id pgTally c (tallyClamps true o)
    -- a unit without elements has nothing to issue
    let r := { r0 with draws := draws, unit := if !shelf && r0.unitLen = 0 then 1 else 0 }
    let first := (s4.core c).eng.runs.isEmpty
    let s5 := s4.modCore c (fun x => { x with eng := { x.eng with runs := x.eng.runs ++ [r] } })
    if first then s5.engineBegin c else s5

def execRecipe (core : Nat) (s : State) : Host.Outcome State Fault Refusal :=
  .next (reachOrder.take s (s.runOrder core (fun st => st.op = 0x18) (fun s st => s.recipeStart core st)))

/-! ### The tally's taps (R112, R121) -/

/-- The head recipe holds the tally, or needs none; it takes a free tally. -/
def State.tapAcquire (s : State) (c : Nat) (r : RecipeRun) : State :=
  if r.tOp = 0 || !(s.core c).tally.isEmpty then s
  else
    let t : TallyRun :=
      { flight := r.flight, isOrder := false, op := r.tOp, s0 := (r.scal.getD 0 0).truncate 32, next := 0, inbox := [],
        rows := [], last := [], written := 0, h := [], closed := false, total := 0, lost := false, outsDone := false }
    s.modCore c (fun x => { x with tally := [t] })

def State.tapHeld (s : State) (c : Nat) (r : RecipeRun) : Bool :=
  r.tOp = 0 || (match (s.core c).tally.head? with | some t => t.flight = r.flight && !t.isOrder | none => false)

def State.modTally (s : State) (c : Nat) (f : TallyRun → TallyRun) : State :=
  s.modCore c (fun x => { x with tally := match x.tally with | [] => [] | t :: r => f t :: r })

/-- The head reduction ends when its results, and a RECIPE's outputs, are written: its order is done (R120, R143). -/
def State.tallyEnd (s : State) (c : Nat) : State :=
  match (s.core c).tally with
  | [] => s
  | t :: rest =>
    let rows := ceilDiv t.total (recRow (s.ordOf c t.flight))
    if t.closed && t.inbox.isEmpty && (t.isOrder || t.outsDone) && (t.lost || decide (t.written ≥ rows)) then
      ((s.modCore c (fun x => { x with tally := rest })).bump pgTally c 0 rTallyOps 1).finish c t.flight stOk
    else s

/-! ### Outputs (R103, R109, R536) -/

/-- One field of a packed output that is not block-scaled (R45, R103). -/
def State.putElem (s : State) (loc : Loc) (fmt idx x : Nat) : State :=
  let w := fmtWidth fmt
  if w ≥ 8 then s.writeLoc (loc.plus (idx * w / 8)) (leBytes (w / 8) x)
  else
    let at_ := loc.plus (idx * w / 8)
    let (s1, old, _) := s.readOrFree at_ 1
    s1.writeLoc at_ (leBytes 1 (setBits (leNat old) (idx * w % 8 + w - 1) (idx * w % 8) x))

/-- A value in place in the slot that unit `unit` consumes from IN0's queue: every position of its valid rows and
outputs 0 to 31 that the logical index names (R109). -/
def State.putShelf (s : State) (c o unit idx : Nat) (v : Word) : State :=
  let q := inQueue o 0
  match ((s.core c).shelf.getD q [])[unit]? with
  | none => s.bump pgElem c 0 rElemIndexDrop 1
  | some sl =>
    let base := recCol o + 32 * sl.tile
    let ks := (List.range sl.valid).flatMap (fun r =>
      let a := (sl.rowBase + r) * recRow o + base
      if a ≤ idx ∧ idx < a + 32 then [32 * r + (idx - a)] else [])
    if ks.isEmpty then s.bump pgElem c 0 rElemIndexDrop 1
    else s.modShelf c q (fun l => l.mapIdx (fun i x =>
      if i = unit then { x with data := ks.foldl (fun d k => smSet 0 d k v) x.data } else x))

/-- Rows of blocks in ascending order: the (row, block) pairs that a list of indices touches. -/
def blocksOf (rl : Nat) (l : List Nat) : List (Nat × Nat) := (l.map (fun q => (q / rl, q % rl / 32))).eraseDups

/-- The last value that was routed to an index. -/
def lastAt (l : List (Nat × Word × Enc)) (q : Nat) : Option (Word × Enc) := ((l.filter (fun e => e.1 = q)).getLast?).map (·.2)

/-- The blocks of a block-scaled output are written (R102, R103, R536): a block that one station 9 micro-op formed whole
keeps its encoding; any other is quantised from its 32 values, positions that were not written keeping the values of the
prior encoding. -/
def State.putBlocks (s : State) (c id o : Nat) (loc : Loc) (fmt : Nat) (l : List (Nat × Word × Enc)) : State :=
  let rl := recRow o
  let bb := fmtBlockBytes fmt
  (blocksOf rl (l.map (·.1))).foldl (fun s rb =>
    let (row, b) := rb
    let n := min 32 (rl - 32 * b)
    let vals := (List.range n).map (fun i => lastAt l (row * rl + 32 * b + i))
    let at_ := loc.plus ((row * ceilDiv rl 32 + b) * bb)
    let encs := vals.filterMap (fun v => match v with | some (_, .block e) => some e | _ => none)
    let scale := (encs.getD 0 ⟨0, 0, 0⟩).scale
    if encs.length = n && encs.all (fun e => e.scale = scale) then s.writeLoc at_ (blockBytes fmt encs)
    else
      let partly := vals.any Option.isNone
      let (s1, old, good) := if partly then s.readOrFree at_ bb else (s, [], true)
      let s2 := if good then s1 else s1.flightLost c id
      let prior (i : Nat) : FpVal := rawVal fmt (tensorElem fmt (fun k => old.getD k 0) i)
      let vs := vals.mapIdx (fun i v => match v with | some (w, _) => f32Val w | none => prior i)
      s2.writeLoc at_ (blockBytes fmt (quantBlock fmt (vs ++ List.replicate (32 - n) (.fin false 0 0)) []))) s

/-- Where output n of a recipe goes. -/
def RecipeRun.outLoc (r : RecipeRun) (c o n : Nat) : Loc := locOf c (outAddr o n (r.dests.getD n 0)).1

/-- Both outputs' places can be written now (R160, R187). -/
def State.outsReady (s : State) (c o : Nat) (r : RecipeRun) : Bool :=
  (List.range 2).all (fun n => r.dests.getD n 0 != 2 || s.placeReady (r.outLoc c o n) 1 false)

/-! ### The way through the chain -/

/-- The carry registers keep v6 and v7 of each lane (R125). -/
def State.keepCarry (s : State) (c : Nat) (ls : List ElemLane) : State :=
  s.modCore c (fun x => { x with eng := ls.foldl (fun e l =>
    { e with carry6 := smSet 0 e.carry6 l.lane (l.v.getD 6 0), carry7 := smSet 0 e.carry7 l.lane (l.v.getD 7 0) }) x.eng })

/-- An operand of a micro-op; `int` says that it is read as INT32 (the table of operand selectors, R535). -/
def opnd (r : RecipeRun) (u : Nat) (x : ElemLane) (sel : Nat) (int : Bool) : Word :=
  match sel with
  | 8 => x.in0
  | 9 => x.in1
  | 10 => x.in2
  | 11 => if uStation u = 1 || uStation u = 10 then Config.rndElsewhere (uStation u) x.rnd.y0 else x.rnd.y0
  | 12 => (r.scal.getD (bits u 31 26) 0).truncate 32
  | 13 => BitVec.ofNat 32 (uImm u)
  | 14 => 0
  | 15 => if int then 1 else f32One
  | v => x.v.getD v 0

/-- A tapped value, read as FP32: IMM is 1.0 and SCAL is s0 (the table of tally parameters). -/
def tapOpnd (r : RecipeRun) (x : ElemLane) (sel : Nat) : Word :=
  match sel with
  | 12 => (r.scal.getD 0 0).truncate 32
  | 13 => f32One
  | s => opnd r 2 x s false

/-- The elements in flight reach the tap (R113 to R118, R537). N is n_elems; at a tap before station 8 of an EXPAND it is taken as
the m elements of the stream there (DESIGN CHOICE, assumption 123: R537 says n_elems, and no more than m elements come). -/
def State.elemTap (s : State) (c : Nat) (r : RecipeRun) : State :=
  let o := s.ordOf c r.flight
  let items := r.lanes.map (fun x => (x.idx, tapOpnd r x (tallyTapA o), tapOpnd r x (tallyTapB o)))
  let hi := r.lanes.foldl (fun a x => max a (x.idx + 1)) r.tapEnd
  let past8 := match r.at8, r.tapAt with | some i, some t => decide (t > i) | _, _ => false
  let total := if past8 then (if r.isExpand then recN o else r.kept) else if r.kinds.contains 2 then hi else r.unitLen
  let s1 := s.modTally c (fun t => { t with
    inbox := t.inbox ++ items
    closed := r.allIssued
    total := if r.allIssued then total else t.total })
  s1.modRun c (fun x => { x with tapped := true, tapEnd := hi })

/-- With carry_en, a group waits before station 9 until the whole order has come there; then all go on. -/
def State.elemPark (s : State) (c : Nat) (r : RecipeRun) : State :=
  let s1 := s.keepCarry c r.lanes
  let i9 := r.pc
  let early := match r.tapAt with | some t => decide (t ≤ i9) | none => false
  if r.allIssued then s1.modRun c (fun x => { x with lanes := x.parked ++ x.lanes, parked := [], unparked := true, tapped := early })
  else s1.modRun c (fun x => { x with parked := x.parked ++ x.lanes, lanes := [], pc := 0, tapped := false })

/-- The elements in flight leave station 10; with the last of them the recipe has run: its block-scaled outputs are
written and the next recipe begins. -/
def State.elemLeave (s : State) (c : Nat) (r : RecipeRun) : State :=
  let o := s.ordOf c r.flight
  let s1 := if r.carryEn && !r.unparked then s.keepCarry c r.lanes else s
  if !r.allIssued then s1.modRun c (fun x => { x with lanes := [], pc := 0, tapped := false })
  else
    let put (s : State) (n : Nat) (l : List (Nat × Word × Enc)) : State :=
      if l.isEmpty then s else s.putBlocks c r.flight o (r.outLoc c o n) (outFmt o n r.dests) l
    let s2 := put (put s1 0 r.out0) 1 r.out1
    let s4 := (s2.modCore c (fun x => { x with eng := { x.eng with runs := x.eng.runs.drop 1 } })).engineBegin c
    if r.tOp = 0 then s4.finish c r.flight stOk
    else (s4.modCore c (fun x => { x with tally := x.tally.map (fun t =>
      if t.flight = r.flight then { t with outsDone := true } else t) })).tallyEnd c

/-- What follows of itself once the elements in flight stand where they do: the tap, the wait before station 9, the end
of the list. -/
def State.elemSettle (s : State) (c : Nat) : State :=
  let s1 := match s.run c with
    | some r => if r.ready && !r.tapped && r.tapAt = some r.pc && s.tapHeld c r then s.elemTap c r else s
    | none => s
  let s2 := match s1.run c with
    | some r => if r.ready && r.parkAt (s1.ordOf c r.flight) = some r.pc then s1.elemPark c r else s1
    | none => s1
  match s2.run c with
  | some r =>
    let o := s2.ordOf c r.flight
    let tapDone := r.tapAt.isNone || r.tapped
    if r.ready && tapDone && decide (r.pc ≥ r.uops.length) && (!r.allIssued || s2.outsReady c o r) then s2.elemLeave c r else s2
  | none => s2

/-! ### Shelf units and groups (R91, R107, R108, R110) -/

/-- The slot that unit `unit` consumes from input n's queue: the head, or with an in-place output the one after the slots
that this recipe has left in place (R108, R109). -/
def State.unitSlot (s : State) (c o : Nat) (r : RecipeRun) (n : Nat) : Option Slot :=
  ((s.core c).shelf.getD (inQueue o n) [])[if n = 0 && r.dests.contains 4 then r.unit else 0]?

/-- The SHELF inputs of a recipe. -/
def RecipeRun.shelfIns (r : RecipeRun) : List Nat := (List.range 3).filter (fun n => r.kinds.getD n 0 = 2)

/-- A shelf unit starts once the slot of every SHELF input is FULL (R108). -/
def execShelfUnitStart (core : Nat) (s : State) : Host.Outcome State Fault Refusal :=
  .next (reachOrder.take s (
    match s.issuer core with
    | none => s
    | some (i, r) =>
      let o := s.ordOf core r.flight
      let s1 := s.tapAcquire core r
      let slots := r.shelfIns.map (s.unitSlot core o r)
      if r.shelfIns.isEmpty || r.unitOn || r.allIssued || !s1.tapHeld core r
          || !slots.all (fun x => match x with | some sl => sl.full | none => false) then s
      else
        let n := slots.foldl (fun m x => match x with | some sl => min m sl.valid | none => m) 32
        s1.modRunAt core i (fun x => { x with unitOn := true, unitRows := n, unitLen := 32 * n, next := 0 })))

/-- The elements of the running shelf unit: logical index, row and output, in ascending logical index (R91, R107). -/
def State.unitElems (s : State) (c o : Nat) (r : RecipeRun) : List (Nat × Nat × Nat) :=
  match s.unitSlot c o r (r.shelfIns.getD 0 0) with
  | none => []
  | some sl =>
    let l := (List.range r.unitRows).flatMap (fun i => (List.range 32).map (fun q =>
      ((sl.rowBase + i) * recRow o + recCol o + 32 * sl.tile + q, i, q)))
    l.mergeSort (fun a b => decide (a.1 < b.1) || (decide (a.1 = b.1) && decide (32 * a.2.1 + a.2.2 ≤ 32 * b.2.1 + b.2.2)))

/-- Bytes of an input that elements qs read (R106). -/
def inRange (o n kind : Nat) (qs : List Nat) : List (Nat × Nat) :=
  let f := inFmt o n kind
  let key (q : Nat) : Nat := if kind = 3 then q / recRow o else if kind = 4 then q % recRow o else q
  let lo := qs.foldl (fun m q => min m (key q)) 4294967296
  let hi := qs.foldl (fun m q => max m (key q)) 0
  if kind = 5 then [(inAddr o n + 4 * lo, 4 * (hi + 1 - lo))]
  else if kind = 0 || kind = 2 || qs.isEmpty then []
  else (let a := tensorBytes f (lo / 32 * 32); [(inAddr o n + a, tensorBytes f (hi + 1) - a)])

/-- What input n supplies to an element (R94, R106, R107). -/
def State.inVal (s : State) (c o : Nat) (r : RecipeRun) (m : Mem) (n q : Nat) (ro : Nat × Nat) : Word :=
  let kind := r.kinds.getD n 0
  let f := inFmt o n kind
  let rd (i : Nat) : Byte := memByte m ((inAddr o n + i) % 2097152)
  match kind with
  | 1 => rawDecode32 f (tensorElem f rd q)
  | 2 => (match s.unitSlot c o r n with | some sl => smGet 0 sl.data (32 * ro.1 + ro.2) | none => 0)
  | 3 => rawDecode32 f (tensorElem f rd (q / recRow o))
  | 4 => rawDecode32 f (tensorElem f rd (q % recRow o))
  | 5 => BitVec.ofNat 32 (leNat ((List.range 4).map (fun i => rd (4 * q + i))))
  | _ => 0

/-- One element group of the recipe in place i is issued (R90, R91, R104, R110). -/
def State.groupIssue (s : State) (c i : Nat) (r : RecipeRun) : State :=
  let o := s.ordOf c r.flight
  let L := s.boot.lanes
  let all := if r.shelfIns.isEmpty then
      ((List.range (min L (r.unitLen - r.next))).map (fun i => (r.next + i, 0, 0)))
    else ((s.unitElems c o r).drop r.next).take L
  let qs := all.map (·.1)
  let (s1, m) := s.stockRanges c r.flight ((List.range 3).flatMap (fun n => inRange o n (r.kinds.getD n 0) qs))
  let e := (s1.core c).eng
  let lanes : List ElemLane := all.mapIdx (fun i x =>
    { idx := x.1, in0 := s1.inVal c o r m 0 x.1 x.2, in1 := s1.inVal c o r m 1 x.1 x.2, in2 := s1.inVal c o r m 2 x.1 x.2,
      v := if r.carryEn then [0, 0, 0, 0, 0, 0, smGet 0 e.carry6 i, smGet 0 e.carry7 i] else List.replicate 8 0,
      p0 := false, p1 := false, rnd := ⟨0, 0, 0, 0⟩, enc0 := (none, .none), enc1 := (none, .none), lane := i, unit := r.unit })
  let hi := match r.at8 with | some i => i + 1 | none => 24
  let (s2, lanes2) := if r.usesDraws o (s.srEnable c) 0 hi then s1.laneDraws c r.flight o lanes else (s1, lanes)
  -- R110: what the stockroom ports make the group wait
  let rdB := ((List.range 3).map (fun n => match r.kinds.getD n 0 with
    | 1 => tensorBytes (inFmt o n 1) qs.length
    | 5 => 4 * qs.length
    | _ => 0)).foldl (· + ·) 0
  let wrB := if r.isExpand then 0 else ((List.range 2).map (fun n =>
    if r.dests.getD n 0 = 1 then tensorBytes (outFmt o n r.dests) qs.length else 0)).foldl (· + ·) 0
  let s3 := (((s2.bump pgElem c 0 rElemGroups 1).bump pgElem c 0 rElemBusy 1).bump pgElem c 0 rElemStallIn
    (ceilDiv rdB 1024 - 1)).bump pgElem c 0 rElemStallOut (ceilDiv wrB 512 - 1)
  let next := r.next + qs.length
  let done := decide (next ≥ r.unitLen)
  -- the slots of a unit are freed after their last row is read, but for the in-place one (R81, R108, R109)
  let s4 := if done then
      r.shelfIns.foldl (fun s n => if n = 0 && r.dests.contains 4 then s else s.modShelf c (inQueue o n) (·.drop 1)) s3
    else s3
  (s4.modRunAt c i (fun x => { x with
    lanes := x.lanes ++ lanes2
    next := if done then 0 else next
    unit := if done then x.unit + 1 else x.unit
    unitOn := x.unitOn && !done
    missed := false })).elemSettle c

/-- A group issues; `fault`: 0 none, 1 a parity error in a lane register, which reissues the group with identical bits
before any write (R127), 2 a parity error in a live carry register, 3 a mismatch of the two CG copies at any draw of the group's
elements, those of station 8 among them, which reissues the group too (R308). A reissued group is counted once, in ELEM_GROUPS,
ELEM_BUSY and the stall counters. After a parity error in a carry register v6 and v7 of every lane hold free values, and the order
issues its remaining groups and ends with DATA_LOST. All three are DESIGN CHOICE (assumption 121): R127 does not say. -/
def execElemGroupIssue (core fault : Nat) (s : State) : Host.Outcome State Fault Refusal :=
  .next (reachOrder.take s (
    match s.issuer core with
    | none => s
    | some (i, r) =>
      let s1 := s.tapAcquire core r
      let unitReady := r.shelfIns.isEmpty || r.unitOn
      if r.allIssued || !unitReady || !s1.tapHeld core r || (r.carryEn && (decide (r.pc > 0) || !r.lanes.isEmpty)) then s
      else if fault = 3 && r.draws && s1.cgLive core then
        let s2 := s1.bump pgRng 0 0 rRngCgMismatch 1
        if r.missed then
          (s2.cgFail core).groupIssue core i r
        else s2.modRunAt core i (fun x => { x with missed := true })
      else
        let s2 := if r.missed then s1.setErr pgRng 0 0 else s1
        if fault = 1 then (s2.setErr pgElem core 2).groupIssue core i r
        else if fault = 2 && (s2.core core).eng.carryLive then
          let s3 := (s2.setErr pgElem core 3).flightLost core r.flight
          let k := s3.freeCtr
          let L := s3.boot.lanes
          let vals (hi : Nat) : SMap Word := (List.range L).foldl (fun m n =>
            smSet 0 m n ((Config.free (k + n)).extractLsb' hi 32)) []
          let s4 := { s3 with freeCtr := k + L }
          (s4.modCore core (fun x => { x with eng := { x.eng with carry6 := vals 0, carry7 := vals 32 } })).groupIssue core i r
        else s2.groupIssue core i r))

/-- A parity error in a station table (store 0) or the recipe store (store 1): the store is reloaded, and no output
changes (R126). -/
def execElemParityReload (core store : Nat) (s : State) : Host.Outcome State Fault Refusal :=
  .next (reachOrder.take s (
    match s.run core with
    | none => s
    | some _ => ((s.bump pgElem core 0 rElemReload 1).setErr pgElem core (min store 1)).tileError core))

end Sys2Proof.Machine
end

