-- ==== Sys2Proof/Machine/ElemUops.lean ====
section
/-! DEFINITION. The micro-ops of the ten stations (R94 to R105, R300 to R305, R535, R536): what each does to an element,
and the commands that carry them out on the elements in flight. -/

namespace Sys2Proof.Machine

/-- Whether a micro-op's predicate is true for an element (R104). -/
def predOk (u : Nat) (x : ElemLane) : Bool :=
  match bits u 25 24 with
  | 1 => x.p0
  | 2 => x.p1
  | 3 => !x.p0
  | _ => true

/-- An element with its dst written. -/
def setV (u : Nat) (x : ElemLane) (w : Word) : ElemLane := { x with v := x.v.set (uDst u) w }

/-- An element with the predicate that bit 9 selects written. -/
def setP (u : Nat) (x : ElemLane) (b : Bool) : ElemLane := if bit u 9 then { x with p1 := b } else { x with p0 := b }

/-- The head recipe of a core, if its next micro-op is the one wanted and its elements may pass it: the tally is held
where the recipe needs it, and a tap before the micro-op has been read. -/
def State.uopReady (s : State) (c : Nat) (sts : List Nat) (op : Nat) : Option (State × RecipeRun × Nat) :=
  match s.run c with
  | none => none
  | some r0 =>
    let s1 := (s.tapAcquire c r0).elemSettle c
    match s1.run c with
    | none => none
    | some r =>
      match r.uop with
      | some u =>
        if sts.contains (uStation u) && uCode u = op && r.ready && s1.tapHeld c r && (r.tapped || r.tapAt != some r.pc)
        then some (s1, r, u) else none
      | none => none

/-- A micro-op whose result is the element's own: every element in flight whose predicate is true takes it. -/
def State.uopLanes (s : State) (c : Nat) (sts : List Nat) (op : Nat) (f : RecipeRun → Nat → ElemLane → ElemLane) : State :=
  match s.uopReady c sts op with
  | none => s
  | some (s1, r, u) =>
    (s1.modRun c (fun x => { x with
      lanes := x.lanes.map (fun l => if predOk u l then f r u l else l)
      pc := x.pc + 1 })).elemSettle c

/-- Operands a, b and c read as FP32 or raw bits, and a and b read as INT32. -/
def uA (r : RecipeRun) (u : Nat) (x : ElemLane) : Word := opnd r u x (uSrcA u) false
def uB (r : RecipeRun) (u : Nat) (x : ElemLane) : Word := opnd r u x (uSrcB u) false
def uC (r : RecipeRun) (u : Nat) (x : ElemLane) : Word := opnd r u x (uSrcC u) false
def uAi (r : RecipeRun) (u : Nat) (x : ElemLane) : Word := opnd r u x (uSrcA u) true
def uBi (r : RecipeRun) (u : Nat) (x : ElemLane) : Word := opnd r u x (uSrcB u) true

/-- row_len of the recipe in the engine. -/
def State.runRow (s : State) (c : Nat) : Nat := match s.run c with | some r => recRow (s.ordOf c r.flight) | none => 1

/-! ### Station 1 -/

/-- MOV: a, its 32 bits unchanged (R535). -/
def execUopMov (core : Nat) (s : State) : Host.Outcome State Fault Refusal :=
  .next (reachOrder.take s (s.uopLanes core [1] 0 (fun r u x => setV u x (uA r u x))))

/-- ABS: |a| (R535). -/
def execUopAbs (core : Nat) (s : State) : Host.Outcome State Fault Refusal :=
  .next (reachOrder.take s (s.uopLanes core [1] 1 (fun r u x => setV u x (f32Abs (uA r u x)))))

/-- NEG: −a (R535). -/
def execUopNeg (core : Nat) (s : State) : Host.Outcome State Fault Refusal :=
  .next (reachOrder.take s (s.uopLanes core [1] 2 (fun r u x => setV u x (f32Neg (uA r u x)))))

/-- I2F: INT32 a to FP32 (R105). -/
def execUopI2f (core : Nat) (s : State) : Host.Outcome State Fault Refusal :=
  .next (reachOrder.take s (s.uopLanes core [1] 3 (fun r u x => setV u x (f32OfInt (uAi r u x)))))

/-- F2I: FP32 a to INT32 (R47). -/
def execUopF2i (core : Nat) (s : State) : Host.Outcome State Fault Refusal :=
  .next (reachOrder.take s (s.uopLanes core [1] 4 (fun r u x => setV u x (f32ToInt32 (uA r u x)))))

/-- IDX: the logical index as INT32. -/
def execUopIdx (core : Nat) (s : State) : Host.Outcome State Fault Refusal :=
  .next (reachOrder.take s (s.uopLanes core [1] 5 (fun _ u x => setV u x (BitVec.ofNat 32 x.idx))))

/-- ROW: the row as INT32. -/
def execUopRow (core : Nat) (s : State) : Host.Outcome State Fault Refusal :=
  .next (reachOrder.take s (s.uopLanes core [1] 6 (fun _ u x => setV u x (BitVec.ofNat 32 (x.idx / s.runRow core)))))

/-- COL: the column as INT32. -/
def execUopCol (core : Nat) (s : State) : Host.Outcome State Fault Refusal :=
  .next (reachOrder.take s (s.uopLanes core [1] 7 (fun _ u x => setV u x (BitVec.ofNat 32 (x.idx % s.runRow core)))))

/-! ### Stations 2 and 3 -/

/-- ADD: a + b (R46, R105). -/
def execUopAdd (core : Nat) (s : State) : Host.Outcome State Fault Refusal :=
  .next (reachOrder.take s (s.uopLanes core [2, 3] 0 (fun r u x => setV u x (f32Add (uA r u x) (uB r u x)))))

/-- SUB: a − b (R46, R105). -/
def execUopSub (core : Nat) (s : State) : Host.Outcome State Fault Refusal :=
  .next (reachOrder.take s (s.uopLanes core [2, 3] 1 (fun r u x => setV u x (f32Sub (uA r u x) (uB r u x)))))

/-- MUL: a × b (R46, R105). -/
def execUopMul (core : Nat) (s : State) : Host.Outcome State Fault Refusal :=
  .next (reachOrder.take s (s.uopLanes core [2, 3] 2 (fun r u x => setV u x (f32Mul (uA r u x) (uB r u x)))))

/-- FMA: a × b + c with one rounding (R46, R105). -/
def execUopFma (core : Nat) (s : State) : Host.Outcome State Fault Refusal :=
  .next (reachOrder.take s (s.uopLanes core [2, 3] 3 (fun r u x => setV u x (f32Fma (uA r u x) (uB r u x) (uC r u x)))))

/-- FMS: a × b − c with one rounding (R46, R105). -/
def execUopFms (core : Nat) (s : State) : Host.Outcome State Fault Refusal :=
  .next (reachOrder.take s (s.uopLanes core [2, 3] 4 (fun r u x => setV u x (f32Fms (uA r u x) (uB r u x) (uC r u x)))))

/-- IADD: INT32 a + b, wrapping (R46, R105). -/
def execUopIadd (core : Nat) (s : State) : Host.Outcome State Fault Refusal :=
  .next (reachOrder.take s (s.uopLanes core [2, 3] 5 (fun r u x => setV u x (uAi r u x + uBi r u x))))

/-- ISUB: INT32 a − b, wrapping (R46, R105). -/
def execUopIsub (core : Nat) (s : State) : Host.Outcome State Fault Refusal :=
  .next (reachOrder.take s (s.uopLanes core [2, 3] 6 (fun r u x => setV u x (uAi r u x - uBi r u x))))

/-- IMUL: the low 32 bits of a × b (R46, R105). -/
def execUopImul (core : Nat) (s : State) : Host.Outcome State Fault Refusal :=
  .next (reachOrder.take s (s.uopLanes core [2, 3] 7 (fun r u x => setV u x (uAi r u x * uBi r u x))))

/-! ### Station 4 -/

/-- EXP2 of a, correctly rounded (R95). -/
def execUopExp2 (core : Nat) (s : State) : Host.Outcome State Fault Refusal :=
  .next (reachOrder.take s (s.uopLanes core [4] 0 (fun r u x => setV u x (funExp2 (uA r u x)))))

/-- LOG2 of a, correctly rounded (R95). -/
def execUopLog2 (core : Nat) (s : State) : Host.Outcome State Fault Refusal :=
  .next (reachOrder.take s (s.uopLanes core [4] 1 (fun r u x => setV u x (funLog2 (uA r u x)))))

/-- RECIP of a, correctly rounded (R95). -/
def execUopRecip (core : Nat) (s : State) : Host.Outcome State Fault Refusal :=
  .next (reachOrder.take s (s.uopLanes core [4] 2 (fun r u x => setV u x (funRecip (uA r u x)))))

/-- RSQRT of a, correctly rounded (R95). -/
def execUopRsqrt (core : Nat) (s : State) : Host.Outcome State Fault Refusal :=
  .next (reachOrder.take s (s.uopLanes core [4] 3 (fun r u x => setV u x (funRsqrt (uA r u x)))))

/-- SIN of a, correctly rounded (R95). -/
def execUopSin (core : Nat) (s : State) : Host.Outcome State Fault Refusal :=
  .next (reachOrder.take s (s.uopLanes core [4] 4 (fun r u x => setV u x (funSin (uA r u x)))))

/-- COS of a, correctly rounded (R95). -/
def execUopCos (core : Nat) (s : State) : Host.Outcome State Fault Refusal :=
  .next (reachOrder.take s (s.uopLanes core [4] 5 (fun r u x => setV u x (funCos (uA r u x)))))

/-- Operand a of a Box–Muller function: with RND, u1 = ((e0 >> 8) + 1) × 2^−24 or u2 = (e1 >> 8) × 2^−24 (R304). -/
def bmArg (r : RecipeRun) (u : Nat) (x : ElemLane) (rad : Bool) : Word :=
  if uSrcA u = 11 then
    (if rad then f32Of24 (x.rnd.y0.toNat >>> 8 + 1) else f32Of24 (x.rnd.y1.toNat >>> 8))
  else uA r u x

/-- BM_RAD: √(−2 ln u) (R95, R304). -/
def execUopBmRad (core : Nat) (s : State) : Host.Outcome State Fault Refusal :=
  .next (reachOrder.take s (s.uopLanes core [4] 6 (fun r u x => setV u x (funBmRad (bmArg r u x true)))))

/-- BM_COS: cos 2πu (R95, R304). -/
def execUopBmCos (core : Nat) (s : State) : Host.Outcome State Fault Refusal :=
  .next (reachOrder.take s (s.uopLanes core [4] 7 (fun r u x => setV u x (funBmCos (bmArg r u x false)))))

/-- BM_SIN: sin 2πu (R95, R304). -/
def execUopBmSin (core : Nat) (s : State) : Host.Outcome State Fault Refusal :=
  .next (reachOrder.take s (s.uopLanes core [4] 8 (fun r u x => setV u x (funBmSin (bmArg r u x false)))))

/-! ### Station 5 -/

/-- MAX of a and b: NaN if either is NaN, MAX(+0, −0) = +0 (R105). -/
def execUopMax (core : Nat) (s : State) : Host.Outcome State Fault Refusal :=
  .next (reachOrder.take s (s.uopLanes core [5] 0 (fun r u x => setV u x (f32Max (uA r u x) (uB r u x)))))

/-- MIN of a and b: NaN if either is NaN, MIN(+0, −0) = −0 (R105). -/
def execUopMin (core : Nat) (s : State) : Host.Outcome State Fault Refusal :=
  .next (reachOrder.take s (s.uopLanes core [5] 1 (fun r u x => setV u x (f32Min (uA r u x) (uB r u x)))))

/-- CLAMP: min(max(a, b), c) (R105). -/
def execUopClamp (core : Nat) (s : State) : Host.Outcome State Fault Refusal :=
  .next (reachOrder.take s (s.uopLanes core [5] 2 (fun r u x => setV u x (f32Min (f32Max (uA r u x) (uB r u x)) (uC r u x)))))

/-- CMPLT: the predicate a < b (R105). -/
def execUopCmplt (core : Nat) (s : State) : Host.Outcome State Fault Refusal :=
  .next (reachOrder.take s (s.uopLanes core [5] 3 (fun r u x => setP u x (f32Lt (uA r u x) (uB r u x)))))

/-- CMPLE: the predicate a ≤ b (R105). -/
def execUopCmple (core : Nat) (s : State) : Host.Outcome State Fault Refusal :=
  .next (reachOrder.take s (s.uopLanes core [5] 4 (fun r u x => setP u x (f32Le (uA r u x) (uB r u x)))))

/-- CMPEQ: the predicate a = b (R105). -/
def execUopCmpeq (core : Nat) (s : State) : Host.Outcome State Fault Refusal :=
  .next (reachOrder.take s (s.uopLanes core [5] 5 (fun r u x => setP u x (f32Eq (uA r u x) (uB r u x)))))

/-- ISNAN: the predicate a is NaN (R105). -/
def execUopIsnan (core : Nat) (s : State) : Host.Outcome State Fault Refusal :=
  .next (reachOrder.take s (s.uopLanes core [5] 6 (fun r u x => setP u x (f32IsNan (uA r u x)))))

/-- SEL: p0 ? a : b, the 32 bits unchanged (R105, R535). -/
def execUopSel (core : Nat) (s : State) : Host.Outcome State Fault Refusal :=
  .next (reachOrder.take s (s.uopLanes core [5] 7 (fun r u x => setV u x (if x.p0 then uA r u x else uB r u x))))

/-- MUL at station 5: a × b (R105). -/
def execUopMul5 (core : Nat) (s : State) : Host.Outcome State Fault Refusal :=
  .next (reachOrder.take s (s.uopLanes core [5] 8 (fun r u x => setV u x (f32Mul (uA r u x) (uB r u x)))))

/-! ### Station 6 -/

/-- LUTn(x) over a table with lo and sc (R96). -/
def lutOf (t : List Word) (lo sc x : Word) : Word :=
  if f32IsNan x then f32Nan
  else
    let u0 := f32Mul (f32Sub x lo) sc
    let u1 := if f32IsNan u0 || f32Lt u0 0 then 0 else u0
    let u := if f32Lt 0x437F0000#32 u1 then 0x437F0000#32 else u1
    let i := (fpFloor (f32Val u)).toNat
    let f := f32Sub u (f32OfInt (BitVec.ofNat 32 i))
    let ti := t.getD i 0
    let tn := if i < 255 then t.getD (i + 1) 0 else t.getD 255 0
    f32Fma f (f32Sub tn ti) ti

/-- LUT0: table T0 (R96). -/
def execUopLut0 (core : Nat) (s : State) : Host.Outcome State Fault Refusal :=
  .next (reachOrder.take s (s.uopLanes core [6] 0 (fun r u x => setV u x (lutOf r.t0 r.lo0 r.sc0 (uA r u x)))))

/-- LUT1: table T1 (R96). -/
def execUopLut1 (core : Nat) (s : State) : Host.Outcome State Fault Refusal :=
  .next (reachOrder.take s (s.uopLanes core [6] 1 (fun r u x => setV u x (lutOf r.t1 r.lo1 r.sc1 (uA r u x)))))

/-! ### Station 7 -/

/-- The word that imm[1:0] selects (R302). -/
def rndWord (u : Nat) (x : ElemLane) : Word := drawWord x.rnd (uImm u % 4)

/-- RAND_U in the distribution of imm[3:2] (R303). -/
def execUopRandU (core : Nat) (s : State) : Host.Outcome State Fault Refusal :=
  .next (reachOrder.take s (s.uopLanes core [7] 0 (fun _ u x => setV u x (randU (bits (uImm u) 3 2) (rndWord u x)))))

/-- RAND_BITS: the raw word (R302). -/
def execUopRandBits (core : Nat) (s : State) : Host.Outcome State Fault Refusal :=
  .next (reachOrder.take s (s.uopLanes core [7] 1 (fun _ u x => setV u x (rndWord u x))))

/-- MASK: the predicate u < a (R105, R303). -/
def execUopMask (core : Nat) (s : State) : Host.Outcome State Fault Refusal :=
  .next (reachOrder.take s (s.uopLanes core [7] 2 (fun r u x => setP u x (f32Lt (randU 0 (rndWord u x)) (uA r u x)))))

/-- DITHER: (u − 0.5) × b + a with one rounding (R105, R303). -/
def execUopDither (core : Nat) (s : State) : Host.Outcome State Fault Refusal :=
  .next (reachOrder.take s (s.uopLanes core [7] 3 (fun r u x => setV u x (f32Fma (f32Sub (randU 0 (rndWord u x)) 0x3F000000#32) (uB r u x) (uA r u x)))))

/-! ### Station 8 -/

/-- Fresh draws for elements whose logical index station 8 has changed, if what follows uses them (R302). -/
def State.redraw (s : State) (c : Nat) (r : RecipeRun) (ls : List ElemLane) : State × List ElemLane :=
  let o := s.ordOf c r.flight
  if r.usesDraws o (s.srEnable c) (r.pc + 1) 25 then s.laneDraws c r.flight o ls else (s, ls)

/-- COMPRESS: the elements with p0 true go on in ascending logical index, their rank the new one; their indices go to the index
list and their count to count_sreg (R99). The others leave v6 and v7 in their lanes (R125). -/
def execUopCompress (core : Nat) (s : State) : Host.Outcome State Fault Refusal :=
  .next (reachOrder.take s (
    match s.uopReady core [8] 0 with
    | none => s
    | some (s1, r, u) =>
      let o := s1.ordOf core r.flight
      let kept := (r.lanes.filter (·.p0)).mergeSort (fun a b => decide (a.idx ≤ b.idx))
      let s2 := (if r.carryEn then s1.keepCarry core (r.lanes.filter (fun x => !x.p0)) else s1).stockWrite core (ordF o 17 20 0 + 4 * r.kept) (kept.flatMap (fun x => leBytes 4 x.idx))
      let n := r.kept + kept.length
      let s3 := (s2.setSreg core (ordF o 11 21 16) (BitVec.ofNat 64 (n % 4294967296))).bump pgElem core 0 rElemKept kept.length
      let ls := kept.mapIdx (fun i x =>
        { (if predOk u x then setV u x (uA r u x) else x) with idx := r.kept + i })
      let (s4, ls2) := s3.redraw core r ls
      (s4.modRun core (fun x => { x with lanes := ls2, kept := n, pc := x.pc + 1 })).elemSettle core))

/-- The address of the index list of an EXPAND (R100). -/
def RecipeRun.listAt (r : RecipeRun) (o : Nat) : Nat :=
  match (List.range 3).find? (fun n => r.kinds.getD n 0 = 5) with
  | some n => inAddr o n
  | none => ordF o 17 20 0

/-- EXPAND (R100): dense element j goes on with the output index of list word j; an index of n_elems or more is dropped
and counted. With `fill` the positions that no word names are emitted too, with operand c, in ascending output index: those up to
the highest that the dense elements so far name, and all that are left once the last of them are in flight. -/
def State.expand (s : State) (c : Nat) (fill : Bool) : State :=
  match s.uopReady c [8] (if fill then 1 else 2) with
  | none => s
  | some (s1, r, u) =>
    let o := s1.ordOf c r.flight
    let n := recN o
    let (s2, m) := s1.stockRanges c r.flight [(r.listAt o, 4 * r.mexp)]
    let word (j : Nat) : Nat := leNat (memBytesWrap 2097152 m (r.listAt o + 4 * j) 4)
    let dense := (r.lanes.filter (fun x => decide (x.idx < r.mexp))).map (fun x =>
      { (if predOk u x then setV u x (uA r u x) else x) with idx := word x.idx })
    let keep := dense.filter (fun x => decide (x.idx < n))
    let s3 := (if r.carryEn then s2.keepCarry c (r.lanes.filter (fun x => decide (x.idx ≥ r.mexp) || decide (word x.idx ≥ n))) else s2).bump
      pgElem c 0 rElemIndexDrop (dense.length - keep.length)
    let named := if fill then (List.range r.mexp).map word else []
    -- the positions before the dense elements in flight, and those up to the last of them
    let past (k : Nat) : Nat := ((named.take k).filter (fun q => decide (q < n))).foldl (fun m q => max m (q + 1)) 0
    let lo := if r.carryEn then past (r.lanes.foldl (fun m x => min m x.idx) r.mexp) else 0
    let hi := if r.allIssued then n else past (r.lanes.foldl (fun m x => max m (x.idx + 1)) 0)
    let blank (q : Nat) : ElemLane :=
      { idx := q, in0 := 0, in1 := 0, in2 := 0, v := List.replicate 8 0, p0 := false, p1 := false, rnd := ⟨0, 0, 0, 0⟩,
        enc0 := (none, .none), enc1 := (none, .none), lane := 0, unit := 0 }
    let out := if fill then
        keep.filter (fun x => decide (x.idx < lo)) ++ ((List.range (hi - lo)).map (· + lo)).flatMap (fun q =>
          keep.filter (fun x => x.idx = q) ++ (if named.contains q then [] else [blank q]))
      else keep
    -- a fill position's operand c may be RND, the word for the output index
    let (s4, out1) := if fill && uSrcC u = 11 then s3.laneDraws c r.flight o out else s3.redraw c r out
    let out2 := out1.map (fun x => if fill && !named.contains x.idx then setV u x (uC r u x) else x)
    let out3 := if fill then out2.mapIdx (fun i x => { x with lane := i % s.boot.lanes }) else out2
    (s4.modRun c (fun x => { x with lanes := out3, pc := x.pc + 1 })).elemSettle c

/-- EXPAND_FILL (R100). -/
def execUopExpandFill (core : Nat) (s : State) : Host.Outcome State Fault Refusal :=
  .next (reachOrder.take s (s.expand core true))

/-- EXPAND_KEEP (R100). -/
def execUopExpandKeep (core : Nat) (s : State) : Host.Outcome State Fault Refusal :=
  .next (reachOrder.take s (s.expand core false))

/-! ### Station 9 -/

/-- The overflow policy of a station 9 micro-op: NONSAT or not (R101). -/
def uNonsat (dflt : Bool) (u : Nat) : Bool :=
  match bits (uImm u) 2 1 with
  | 1 => false
  | 2 => true
  | _ => dflt

/-- An element with a station 9 result: its encoding for output n, its decoded value in dst; an encoding of the other
output that stood in the same register is void (R101, R103). -/
def setEnc (u n : Nat) (x : ElemLane) (w : Word) (e : Enc) : ElemLane :=
  let y := setV u x w
  if n = 0 then { y with enc0 := (some (uDst u), e) } else { y with enc1 := (some (uDst u), e) }

/-- Every element, at a station 9 micro-op for output n: the last encoding for that output is this micro-op's, which
there is none of where the predicate is false, and register dst holds no other micro-op's (R103). -/
def voidEnc (u n : Nat) (x : ElemLane) : ElemLane :=
  let off (e : Option Nat × Enc) : Option Nat × Enc := if e.1 = some (uDst u) then (none, .none) else e
  if n = 0 then { x with enc0 := (none, .none), enc1 := off x.enc1 } else { x with enc0 := off x.enc0, enc1 := (none, .none) }

/-- Group and block do not end together (R92, R102): with carry_en and no wait before station 9, a position of the block stands in
another group of the order, so that no encoding of the whole block can exist while its elements are in flight. -/
def RecipeRun.splitAt (r : RecipeRun) (o rl : Nat) (rb : Nat × Nat) : Bool :=
  r.carryEn && !r.unparked && (List.range 32).any (fun j =>
    let q := rb.1 * rl + 32 * rb.2 + j
    decide (32 * rb.2 + j < rl) && (r.kinds.contains 2 || decide (q < recN o)) && !r.lanes.any (fun x => x.idx = q))

/-- CVT, CVT_SR, QUANT and QUANT_SR (R47 to R50, R101, R102): elementwise, or block by block for a block-scaled format.
`sr` is the stochastic form. A position of a block that no element reaches, or whose predicate is false, counts as +0 like the
padding past row_len (DESIGN CHOICE, assumption 124); the values of a block that two groups share are free (assumption 122). -/
def State.convert (s : State) (c op : Nat) (sr : Bool) : State :=
  match s.uopReady c [9] op with
  | none => s
  | some (s1, r, u) =>
    let o := s1.ordOf c r.flight
    let n := uImm u % 2
    let fmt := outFmt o n r.dests
    let rm (x : ElemLane) : Rounding := if sr && s1.srEnable c then .sr x.rnd.y3 else .rne
    let nonsat := uNonsat (s1.defaultNonsat c) u
    if !fmtIsBlock fmt then
      (s1.modRun c (fun y => { y with
        lanes := y.lanes.map (fun x0 =>
          let x := voidEnc u n x0
          if predOk u x then
            let k := convScalar (rm x) fmt nonsat (opnd r u x (uSrcA u) (fmtIsInt fmt))
            setEnc u n x (rawDecode32 fmt ⟨k, 127, 0⟩) (.plain k)
          else x)
        pc := y.pc + 1 })).elemSettle c
    else
      let rl := recRow o
      let live := r.lanes.filter (predOk u)
      let at_ (rb : Nat × Nat) (i : Nat) : Option ElemLane :=
        (live.filter (fun x => x.idx = rb.1 * rl + 32 * rb.2 + i && decide (32 * rb.2 + i < rl))).getLast?
      let blocks := blocksOf rl (live.map (·.idx))
      let enc := blocks.map (fun rb =>
        let ls := (List.range 32).map (at_ rb)
        let vs := ls.map (fun l => match l with | some x => f32Val (uA r u x) | none => .fin false 0 0)
        (rb, quantBlock fmt vs (ls.map (fun l => match l with | some x => rm x | none => .rne))))
      let free := r.carryEn && !r.unparked
      let k := s1.freeCtr
      let s2 := if free then { s1 with freeCtr := k + r.lanes.length } else s1
      (s2.modRun c (fun y => { y with
        lanes := y.lanes.mapIdx (fun i x0 =>
          let x := voidEnc u n x0
          if predOk u x then
            let rb := (x.idx / rl, x.idx % rl / 32)
            let es : List RawElem := match enc.find? (fun e => e.1 = rb) with | some e => e.2 | none => []
            let e := es.getD (x.idx % rl % 32) ⟨0, 0, 0⟩
            if r.splitAt o rl rb then
              setEnc u n x ((Config.free (k + i)).extractLsb' 0 32) .none
            else setEnc u n x (rawDecode32 fmt e) (.block e)
          else x)
        pc := y.pc + 1 })).elemSettle c

/-- CVT (R101). -/
def execUopCvt (core : Nat) (s : State) : Host.Outcome State Fault Refusal :=
  .next (reachOrder.take s (s.convert core 0 false))

/-- CVT_SR (R50, R101). -/
def execUopCvtSr (core : Nat) (s : State) : Host.Outcome State Fault Refusal :=
  .next (reachOrder.take s (s.convert core 1 true))

/-- QUANT (R48, R101). -/
def execUopQuant (core : Nat) (s : State) : Host.Outcome State Fault Refusal :=
  .next (reachOrder.take s (s.convert core 2 false))

/-- QUANT_SR (R50, R101). -/
def execUopQuantSr (core : Nat) (s : State) : Host.Outcome State Fault Refusal :=
  .next (reachOrder.take s (s.convert core 3 true))

/-! ### Station 10 -/

/-- One element's routed value (R103): the encoding of the last station 9 micro-op for the output, if the operand is the
register that it wrote; else the operand, converted, or kept for its block. -/
def State.routeElem (s : State) (c o : Nat) (r : RecipeRun) (u n : Nat) (x : ElemLane) : State :=
  let fmt := outFmt o n r.dests
  let w := opnd r u x (uSrcA u) (fmtIsInt fmt)
  let own := if n = 0 then x.enc0 else x.enc1
  let e := if own.1 = some (uSrcA u) then own.2 else Enc.none
  match r.dests.getD n 0 with
  | 0 => s
  | 4 => s.putShelf c o x.unit x.idx (BitVec.ofNat 32 (match e with | .plain k => k | _ => convScalar .rne fmt (s.defaultNonsat c) w))
  | _ =>
    if fmtIsBlock fmt then
      s.modRun c (fun y => if n = 0 then { y with out0 := y.out0 ++ [(x.idx, w, e)] } else { y with out1 := y.out1 ++ [(x.idx, w, e)] })
    else
      let k := match e with | .plain k => k | _ => convScalar .rne fmt (s.defaultNonsat c) w
      s.putElem (r.outLoc c o n) fmt x.idx k

/-- ROUTE op 0x00 writes to output 0 and op 0x01 to output 1, at the elements' logical indices (R103); it waits while an
output's vault cannot be written (R160), or its traffic waits for tokens (R24). -/
def execUopRoute (core : Nat) (s : State) : Host.Outcome State Fault Refusal :=
  .next (reachOrder.take s (
    let go (n : Nat) : State :=
      match s.uopReady core [10] n with
      | none => s
      | some (s1, r, u) =>
        let o := s1.ordOf core r.flight
        let xs := r.lanes.filter (predOk u)
        let cost := match s1.partOfCore core with
          | some p => if r.dests.getD n 0 = 0 || r.dests.getD n 0 = 4 then []
            else s1.flowCost p none (.stock core 0) (r.outLoc core o n) (tensorBytes (outFmt o n r.dests) xs.length)
          | none => []
        if !s1.outsReady core o r then s
        else if !s1.gatesOpen cost then s.gatesHeld cost
        else
          let s2 := xs.foldl (fun s x => s.routeElem core o r u n x) (s1.gatesTake cost)
          (s2.modRun core (fun x => { x with pc := x.pc + 1 })).elemSettle core
    if (s.uopReady core [10] 0).isSome then go 0 else go 1))

end Sys2Proof.Machine
end

