-- ==== Sys2Proof/Machine/Tally.lean ====
section
/-! DEFINITION. The tally (R112 to R122, R128, R537): TALLY orders, the elements it takes, and the results of rows. -/

namespace Sys2Proof.Machine

/-- n_elems of a TALLY order is its stream; a RECIPE's stream is known at the tap. -/
def State.tallyStart (s : State) (c : Nat) (st : Start) : State :=
  let o := st.ord
  let (s1, id) := s.startOrder c st
  let op := if tallyOp0 o > 9 then 0 else tallyOp0 o
  let k := b2n (ordF o 5 24 0 != recN o) + b2n (ordF o 6 24 0 != recRow o)
  let s2 := s1.orderClamps c id pgTally c (tallyClamps false o + k)
  let t : TallyRun :=
    { flight := id, isOrder := true, op := op, s0 := (s.sreg c 0).truncate 32, next := 0, inbox := [], rows := [], last := [],
      written := 0, h := [], closed := op = 0, total := if op = 0 then 0 else recN o, lost := false, outsDone := true }
  let s3 := s2.modCore c (fun x => { x with tally := x.tally ++ [t] })
  s3.tallyEnd c

def execTally (core : Nat) (s : State) : Host.Outcome State Fault Refusal :=
  .next (reachOrder.take s (s.runOrder core (fun st => st.op = 0x19) (fun s st => s.tallyStart core st)))

/-! ### Ranking (R115) -/

/-- Numeric ranking of FP32 words, NaN above +inf and +0 equal to −0: whether a ranks below b. -/
def rankLt (a b : Word) : Bool := if f32IsNan a then false else if f32IsNan b then true else f32Lt a b
def rankEq (a b : Word) : Bool := !rankLt a b && !rankLt b a

/-- The better of two candidates (value, index) for a descending ranking; equal values rank by lower index. -/
def rankAbove (a b : Word × Nat) : Bool := rankLt b.1 a.1 || (rankEq a.1 b.1 && decide (a.2 ≤ b.2))

/-- The best candidate of a list under an order. -/
def bestOf (above : Word × Nat → Word × Nat → Bool) (l : List (Word × Nat)) : Option (Word × Nat) :=
  match l with
  | [] => none
  | x :: r => some (r.foldl (fun b y => if above b y then b else y) x)

/-- The first k candidates in rank order, places that are left over holding −inf and index 0xFFFF_FFFF. -/
def topOf (k : Nat) (l : List (Word × Nat)) : List (Word × Nat) :=
  match k with
  | 0 => []
  | k + 1 =>
    match bestOf rankAbove l with
    | some b => b :: topOf k (l.erase b)
    | none => (f32NegInf, 0xFFFFFFFF) :: topOf k []

/-! ### Row results -/

/-- Value of position i of a row, `d` where no element reached it. -/
def rowAt (es : List (Nat × Word × Word)) (d : Word) (i : Nat) : Word :=
  match es.find? (fun e => e.1 = i) with | some e => e.2.1 | none => d

/-- R57 with R53's order over the elements of a row; the seed is the chained accumulator (R55, R113). -/
def rowSum (es : List (Nat × Word × Word)) (len : Nat) (seed : Option Word) : Word :=
  let seg (g : Nat) : Word := tree32 ((List.range 32).map (fun b =>
    tree32 ((List.range 32).map (fun i => rowAt es 0 (1024 * g + 32 * b + i)))))
  let first := match seed with | some w => f32Add w (seg 0) | none => seg 0
  (List.range (ceilDiv len 1024 - 1)).foldl (fun acc g => f32Add acc (seg (g + 1))) first

/-- block of R114. -/
def rmsBlock (x : List Word) : Word × Word :=
  let bm := x.foldl f32Max f32NegInf
  (bm, tree32 (x.map (fun v => if v = f32NegInf then 0 else funExp2 (f32Sub v bm))))

/-- combine of R114. -/
def rmsCombine (a b : Word × Word) : Word × Word :=
  if f32IsNan a.1 || f32IsNan b.1 then (f32Nan, f32Nan)
  else if a.1 = f32PosInf || b.1 = f32PosInf then (f32PosInf, f32Nan)
  else
    let m := f32Max a.1 b.1
    if m = f32NegInf then (f32NegInf, 0)
    else
      let u (p : Word × Word) : Word := if p.1 = f32NegInf then 0 else f32Mul p.2 (funExp2 (f32Sub p.1 m))
      (m, f32Add (u a) (u b))

/-- One level of a combining tree over neighbours. -/
def rmsPairs (l : List (Word × Word)) : List (Word × Word) :=
  match l with
  | a :: b :: r => rmsCombine a b :: rmsPairs r
  | l => l

/-- The running max and sum of a row (R114). -/
def rowRms (es : List (Nat × Word × Word)) (len : Nat) (seed : Option (Word × Word)) : Word × Word :=
  let seg (g : Nat) : Word × Word :=
    let bs := (List.range 32).map (fun b => rmsBlock ((List.range 32).map (fun i =>
      let q := 1024 * g + 32 * b + i
      if q < len then rowAt es f32NegInf q else f32NegInf)))
    (rmsPairs (rmsPairs (rmsPairs (rmsPairs (rmsPairs bs))))).getD 0 (f32NegInf, 0)
  let segs := (List.range (max 1 (ceilDiv len 1024))).map seg
  match seed with
  | some p => segs.foldl rmsCombine p
  | none => (segs.drop 1).foldl rmsCombine (segs.getD 0 (f32NegInf, 0))

/-- The bin of a value: 0 to 255, or 256 for NaN (R116). -/
def histBin (lo sc x : Word) : Nat :=
  if x = f32NegInf then 0 else if x = f32PosInf then 255
  else
    let u := f32Mul (f32Sub x lo) sc
    if f32IsNan u then 256
    else if f32Lt u 0 then 0
    else if f32Lt 0x437F0000#32 u then 255
    else (fpFloor (f32Val u)).toNat

/-- Words of a row's result (R113 to R117), without those of SCAN. -/
def resultWords (op k : Nat) (lse : Bool) : Nat :=
  match op with
  | 1 => 1
  | 2 => 1
  | 3 => 1
  | 4 => 2
  | 5 => 2 * k
  | 6 => if lse then 1 else 2
  | 7 => 257
  | 8 => 1
  | _ => 0

/-- Words of a row's seed: a seed of RMAXSUM is always a PAIR (R114). -/
def seedWords (op k : Nat) : Nat := resultWords op k false

/-- The index that is written for an element: its logical index. -/
def cands (row rl : Nat) (es : List (Nat × Word × Word)) : List (Word × Nat) := es.map (fun e => (e.2.1, row * rl + e.1))

/-- A row's result (R113 to R117, R537) from its elements and its seed. COUNT with a seed that it would carry past 32
bits gives the word `over`, for which the spec states nothing. -/
def rowResult (o op row len : Nat) (es : List (Nat × Word × Word)) (seed : Option (List Word)) (over_ : Word) : List Word :=
  let k := tallyK o
  let lse := bit (ordW o 18) 24
  let cs := cands row (recRow o) es
  let prior (i : Nat) : Word := match seed with | some l => l.getD i 0 | none => 0
  match op with
  | 1 => [rowSum es len (seed.map (fun l => l.getD 0 0))]
  | 2 =>
    -- a seed has no index; it ranks first among equals
    [match bestOf rankAbove ((seed.map (fun l => (l.getD 0 0, 0))).toList ++ cs.map (fun c => (c.1, c.2 + 1))) with
     | some b => b.1 | none => f32NegInf]
  | 3 =>
    [match bestOf (fun a b => rankLt a.1 b.1 || (rankEq a.1 b.1 && decide (a.2 ≤ b.2)))
        ((seed.map (fun l => (l.getD 0 0, 0))).toList ++ cs.map (fun c => (c.1, c.2 + 1))) with
     | some b => b.1 | none => f32PosInf]
  | 4 =>
    let old := (seed.map (fun l => (l.getD 0 0, (l.getD 1 0).toNat))).toList
    (match bestOf rankAbove (old ++ cs) with
     | some b => [b.1, BitVec.ofNat 32 b.2] | none => [f32NegInf, 0xFFFFFFFF#32])
  | 5 =>
    let old := match seed with
      | some l => (List.range k).map (fun i => (l.getD i 0, (l.getD (k + i) 0).toNat))
      | none => []
    let top := topOf k (old ++ cs)
    top.map (·.1) ++ top.map (fun b => BitVec.ofNat 32 b.2)
  | 6 =>
    let p := rowRms es len (seed.map (fun l => (l.getD 0 0, l.getD 1 0)))
    if lse then [f32Add p.1 (funLog2 p.2)] else [p.1, p.2]
  | 7 =>
    let bins := es.map (fun e => histBin (BitVec.ofNat 32 (ordW o 22)) (BitVec.ofNat 32 (ordW o 23)) e.2.1)
    (List.range 257).map (fun b => BitVec.ofNat 32 (min 0xFFFFFFFF ((prior b).toNat + (bins.filter (· = b)).length)))
  | 8 =>
    let n := (prior 0).toNat + (es.filter (fun e => !f32IsZero e.2.1)).length
    [if n > 0xFFFFFFFF then over_ else BitVec.ofNat 32 n]
  | _ => []

/-! ### Taking elements (R119, R121) -/

/-- What an operand selector reads in a TALLY order: the operand is IN0, lane registers, IN1, IN2 and RND read +0
(R121). -/
def orderTap (s0 v : Word) (sel : Nat) : Word :=
  match sel with
  | 8 => v
  | 12 => s0
  | 13 => f32One
  | 15 => f32One
  | _ => 0

/-- The head reduction takes one element (R118, R119). -/
def State.tallyTake (s : State) (c o : Nat) (stock : Mem) (e : Nat × Word × Word) : State :=
  match (s.core c).tally.head? with
  | none => s
  | some t =>
    let rl := recRow o
    let row := e.1 / rl
    let ordered := t.op = 1 || t.op = 6 || t.op = 9
    if ordered && decide (e.1 < smGet 0 t.last row) then
      ((s.bump pgTally c 0 rTallyOrderFault 1).setErr pgTally c 2).flightLost c t.flight
    else
      let s1 := s.bump pgTally c 0 rTallyElems 1
      let upd (x : TallyRun) : TallyRun := { x with
        last := if ordered then smPut x.last row (e.1 + 1) else x.last
        rows := if t.op = 9 then x.rows else smPut x.rows row ((smFind x.rows row).getD [] ++ [(e.1 % rl, e.2.1, e.2.2)]) }
      if t.op = 9 then
        let col := e.1 % rl
        let h0 := match smFind t.h col with
          | some h => h
          | none => if bit (ordW o 18) 26 then BitVec.ofNat 32 (leNat (memBytesWrap 2097152 stock (ordF o 20 20 0 + 4 * col) 4)) else 0
        let h := f32Fma e.2.2 h0 e.2.1
        (s1.modTally c (fun x => { upd x with h := smPut x.h col h })).stockWrite c (ordF o 21 20 0 + 4 * e.1) (leBytes 4 h.toNat)
      else s1.modTally c upd

/-- ARITH cycles that n elements take (the table of tally rates). -/
def tallyCycles (op k rl L n : Nat) : Nat :=
  if op = 7 then ceilDiv n 32
  else if op = 9 then max (ceilDiv n L) (ceilDiv (4 * n) rl)
  else if op = 5 ∧ k > 16 then ceilDiv (2 * n) L
  else ceilDiv n L

/-- The tally takes up to L elements of its operand or its tap. `err`: 1 a single-bit error in row state, corrected,
2 a double-bit error, which ends the order without a result (R128): no row result or SCAN value is written from then on; those
written before stay, the remaining elements are still taken, and a RECIPE still writes its outputs before it completes with
DATA_LOST (DESIGN CHOICE, assumption 127). -/
def State.tallyRun (s : State) (c op err : Nat) : State :=
  match (s.core c).tally.head? with
  | none => s
  | some t =>
    if t.op != op then s
    else
      let open_ := !t.rows.isEmpty || !t.h.isEmpty
      let s0 := if err = 0 || !open_ then s
        else if err = 1 then s.setErr pgTally c 0
        else ((s.setErr pgTally c 1).flightLost c t.flight).modTally c (fun x => { x with lost := true, rows := [], h := [] })
      let o := s0.ordOf c t.flight
      let L := s0.boot.lanes
      let seeds : List (Nat × Nat) := if op = 9 && bit (ordW o 18) 26 then [(ordF o 20 20 0, 4 * recRow o)] else []
      let n := min L (if t.isOrder then t.total - t.next else t.inbox.length)
      let fmt := ordF o 8 6 3
      let lo := tensorBytes fmt (t.next / 32 * 32)
      let src := ordF o 8 27 7
      let rs := if t.isOrder && decide (n > 0) then [(src + lo, tensorBytes fmt (t.next + n) - lo)] else []
      let (s1, m) := s0.stockRanges c t.flight (rs ++ seeds)
      let items : List (Nat × Word × Word) := if t.isOrder then
          (List.range n).map (fun i =>
            let v := rawDecode32 fmt (tensorElem fmt (fun b => memByte m ((src + b) % 2097152)) (t.next + i))
            (t.next + i, orderTap t.s0 v (tallyTapA o), orderTap t.s0 v (tallyTapB o)))
        else t.inbox.take n
      let s2 := if t.lost || (err = 2 && open_) then s1 else items.foldl (fun s e => s.tallyTake c o m e) s1
      let s3 := s2.bump pgTally c 0 rTallyBusy (tallyCycles op (tallyK o) (recRow o) L n)
      (s3.modTally c (fun x => { x with
        next := x.next + n
        inbox := x.inbox.drop n
        closed := x.closed || (x.isOrder && decide (x.next + n ≥ x.total)) })).tallyEnd c

/-- SUM (R113). -/
def execTallySum (core err : Nat) (s : State) : Host.Outcome State Fault Refusal := .next (reachOrder.take s (s.tallyRun core 1 err))
/-- MAX (R115). -/
def execTallyMax (core err : Nat) (s : State) : Host.Outcome State Fault Refusal := .next (reachOrder.take s (s.tallyRun core 2 err))
/-- MIN (R115). -/
def execTallyMin (core err : Nat) (s : State) : Host.Outcome State Fault Refusal := .next (reachOrder.take s (s.tallyRun core 3 err))
/-- ARGMAX (R115). -/
def execTallyArgmax (core err : Nat) (s : State) : Host.Outcome State Fault Refusal := .next (reachOrder.take s (s.tallyRun core 4 err))
/-- TOPK (R115). -/
def execTallyTopk (core err : Nat) (s : State) : Host.Outcome State Fault Refusal := .next (reachOrder.take s (s.tallyRun core 5 err))
/-- RMAXSUM (R114). -/
def execTallyRmaxsum (core err : Nat) (s : State) : Host.Outcome State Fault Refusal := .next (reachOrder.take s (s.tallyRun core 6 err))
/-- HIST (R116). -/
def execTallyHist (core err : Nat) (s : State) : Host.Outcome State Fault Refusal := .next (reachOrder.take s (s.tallyRun core 7 err))
/-- COUNT (R117). -/
def execTallyCount (core err : Nat) (s : State) : Host.Outcome State Fault Refusal := .next (reachOrder.take s (s.tallyRun core 8 err))
/-- SCAN (R118). -/
def execTallyScan (core err : Nat) (s : State) : Host.Outcome State Fault Refusal := .next (reachOrder.take s (s.tallyRun core 9 err))

/-- The next row's result is written, once its last element has reached the tally or the stream has passed it (R120,
R537); with the last of them the order ends. Before the first, the clamps that the stream's length decides are counted
(R113, the table of tally parameters). -/
def execTallyRowResult (core : Nat) (s : State) : Host.Outcome State Fault Refusal :=
  .next (reachOrder.take s (
    match (s.core core).tally.head? with
    | none => s
    | some t =>
      let o := s.ordOf core t.flight
      let rl := recRow o
      let rows := ceilDiv t.total rl
      let row := t.written
      let due := if t.isOrder then decide (t.next ≥ min t.total ((row + 1) * rl)) else t.closed && t.inbox.isEmpty
      if row ≥ rows || t.lost || !due then s.tallyEnd core
      else
        let lse := bit (ordW o 18) 24
        let n := resultWords t.op (tallyK o) lse
        let sreg0 := bit (ordW o 18) 25
        let toStock := sreg0 && (decide (rows > 1) || n != 1)
        let seeded := bit (ordW o 18) 26
        let late := t.op = 1 && !seeded && decide (ordF o 19 13 0 > 0) && decide (min rl t.total > 1024)
        let s1 := if row = 0 then s.orderClamps core t.flight pgTally core (b2n toStock + b2n late) else s
        let sw := seedWords t.op (tallyK o)
        let sa := ordF o 20 20 0 + 4 * sw * row
        let (s2, m) := if seeded && decide (sw > 0) then s1.stockRanges core t.flight [(sa, 4 * sw)] else (s1, [])
        let seed : Option (List Word) := if seeded then
            some ((List.range sw).map (fun i => BitVec.ofNat 32 (leNat (memBytesWrap 2097152 m (sa + 4 * i) 4)))) else none
        let over_ := (s2.freeVal).extractLsb' 0 32
        let r := rowResult o t.op row (min rl (t.total - row * rl)) ((smFind t.rows row).getD []) seed over_
        let s3 := if t.op = 8 then s2.freeUsed else s2
        let s4 := if n = 0 then s3
          else if sreg0 && !toStock then s3.setSreg core (ordF o 21 5 0) (BitVec.ofNat 64 (r.getD 0 0).toNat)
          else s3.stockWrite core (ordF o 21 20 0 + 4 * n * row) (r.flatMap (fun w => leBytes 4 w.toNat))
        (s4.modTally core (fun x => { x with written := row + 1, rows := smErase x.rows row })).tallyEnd core))

end Sys2Proof.Machine
end

