-- ==== Sys2Proof/Machine/Attend.lean ====
section
/-! DEFINITION. Attention (R227 to R240, R253): page geometry, the ledger's lookup (R242), ATTEND, its selection programs,
ATTEND_BACKWARD, and KV_APPEND (R245 to R248). An order's effect is carried out when everything that it waits for is
there; ORDER_COMPLETE tries again. -/

namespace Sys2Proof.Machine

/-! ### Geometry (R229, R230) -/

structure Geo where
  d : Nat
  g : Nat
  /-- format code and element size -/
  fmt : Nat
  e : Nat
  z : Nat
  shadow : Bool
  clamps : Nat
deriving DecidableEq, Repr

/-- Bytes per token. -/
def Geo.b (x : Geo) : Nat := 2 * x.d * x.e + (if x.shadow then x.d / 2 else 0)
def Geo.Z (x : Geo) : Nat := pageBytes x.z
def Geo.T (x : Geo) : Nat := 64 * (x.Z / (64 * x.b))
/-- Layout offsets of the sections K and V, and the row segments of S. -/
def Geo.kOff (x : Geo) : Nat := if x.shadow then x.T * x.d / 2 else 0
def Geo.vOff (x : Geo) : Nat := x.kOff + x.T * x.d * x.e
def Geo.s (x : Geo) : Nat := x.kOff / 2048
def Geo.n (x : Geo) : Nat := x.Z / 2048

/-- The geometry of word 6 after its clamps. -/
def geoOf (o : Nat) : Geo :=
  let d0 := ordF o 6 1 0
  let g0 := ordF o 6 6 2
  let kf := ordF o 6 9 8
  let z0 := ordF o 6 11 10
  let x : Geo := { d := [64, 128, 256, 128].getD d0 128, g := clampNat 1 16 g0, fmt := [3, 4, 1, 2].getD kf 3,
                   e := if kf < 2 then 1 else 2, z := z0, shadow := bit (ordW o 6) 12, clamps := 0 }
  let z := ((List.range 4).filter (fun k => decide (k ≥ z0) && decide (64 * x.b ≤ pageBytes k))).headD 3
  { x with z := z, clamps := b2n (d0 = 3) + b2n (x.g != g0) + b2n (z != z0) }

/-- Local address of layout byte x of a page at local address `base`, with the rotation ρ. -/
def Geo.at (g : Geo) (base x : Nat) : Nat :=
  let rho := (base / g.Z * g.s) % g.n
  base + (x + 2048 * rho) % g.Z

/-- Pages of a run of a team core (R228). -/
def Geo.run (g : Geo) : Nat := 1024 / Nat.gcd g.T 1024

/-! ### The ledger (R242) -/

/-- Run key and home group. -/
def runKey (stream gen slot page : Nat) : Nat := stream + gen <<< 18 + slot <<< 22 + (page / 16) <<< 30
def homeGroup (k : Nat) : Nat := ((k * 0x9E6C63D0676A9A99) % 18446744073709551616) >>> 43

/-- Whether an entry belongs to a run key, not held. -/
def LEntry.inRun (e : LEntry) (stream gen slot page : Nat) : Bool :=
  e.st != .free && !e.held && e.stream = stream && e.gen = gen && e.slot = slot && e.page / 16 = page / 16

/-- The group of a run, if it exists. -/
def State.runGroup (s : State) (stream gen slot page : Nat) : Option Nat :=
  let g0 := homeGroup (runKey stream gen slot page)
  ((List.range 4).map (fun i => (g0 + i) % 2097152)).find? (fun g =>
    (List.range 16).any (fun i => (s.ledg (16 * g + i)).inRun stream gen slot page))

/-- The entry of a page, if it exists (R242). -/
def State.pageEntry (s : State) (stream gen slot page : Nat) : Option Nat :=
  match s.runGroup stream gen slot page with
  | some g =>
    let i := 16 * g + page % 16
    let e := s.ledg i
    if e.inRun stream gen slot page && e.page = page then some i else none
  | none => none

/-- The entry whose page an entry uses: an ALIAS names its target. -/
def State.entryPage (s : State) (i : Nat) : LEntry := let e := s.ledg i; if e.st = .alias_ then s.ledg e.frame else e

/-- The entries of a stream's slot, with their numbers. -/
def State.slotEntries (s : State) (stream gen slot : Nat) : List (Nat × LEntry) :=
  s.ledgAll.filter (fun e => e.2.st != .free && !e.2.held && e.2.stream = stream && e.2.gen = gen && e.2.slot = slot)

/-- The slot holds exactly positions 0 to n − 1. -/
def State.slotHolds (s : State) (g : Geo) (stream gen slot n : Nat) : Bool :=
  let es := s.slotEntries stream gen slot
  es.all (fun e => e.2.fill = min g.T (n - e.2.page * g.T)) &&
    (List.range (ceilDiv n g.T)).all (fun q => es.any (fun e => e.2.page = q))

/-- The partition of a stream. -/
def State.partOfStream (s : State) (n : Nat) : Nat := (s.stream n).part

/-- Entries that a partition holds (LEDG_PART_USED). -/
def State.ledgUsed (s : State) (p : Nat) : Nat := (s.ledgAll.filter (fun e => e.2.st != .free && s.partOfStream e.2.stream = p)).length

/-- A counter of the LEDG_ page of the half of a core, and of the copy that serves it. -/
def State.ledgBump (s : State) (core off n : Nat) : State := s.bump pgLedg (coreHalf core) 0 off n

/-- Where a page's entry is to stand: in its run's group, or in the first of four groups that is all FREE (R242).
Nothing when there is no such group, or the partition's quota is used up. -/
def State.ledgPlace (s : State) (core stream gen slot page : Nat) : State × Option Nat :=
  let part := s.partOfStream stream
  if s.ledgUsed part ≥ s.fld pgLedg 0 part rLedgPartQuota 25 0 then (s, none)
  else match s.runGroup stream gen slot page with
  | some g => (s.ledgBump core rLedgAllocs 1, some (16 * g + page % 16))
  | none =>
    let g0 := homeGroup (runKey stream gen slot page)
    match ((List.range 4).map (fun i => (g0 + i) % 2097152)).find? (fun g =>
      (List.range 16).all (fun i => (s.ledg (16 * g + i)).st = .free)) with
    | some g => (s.ledgBump core rLedgAllocs 1, some (16 * g + page % 16))
    | none => (s.ledgBump core rLedgProbeFull 1, none)

/-- Frames of a logical vault that pages use: (first frame, count). -/
def State.framesUsed (s : State) (v : Nat) : List (Nat × Nat) :=
  s.ledgAll.flatMap (fun e =>
    let n := pageBytes e.2.z / 32768
    (if e.2.isNear && e.2.vault = v then [(e.2.frame, n)] else [])
    ++ (if e.2.st = .moving && !e.2.toFar && e.2.toVault = v then [(e.2.toFrame, n)] else []))

/-- The lowest free frame of a KV window that is aligned to a page size (R243). -/
def State.freeFrame (s : State) (v z : Nat) : Option Nat :=
  let w := s.reg pgAtt v 0 rAttKvwin
  let base := bits w.toNat 14 0
  let frames := bits w.toNat 31 16
  let n := pageBytes z / 32768
  let used := s.framesUsed v
  ((List.range frames).map (base + ·)).find? (fun f =>
    f % n = 0 && decide (f + n ≤ base + frames) && used.all (fun u => decide (f + n ≤ u.1) || decide (u.1 + u.2 ≤ f)))

/-- The near page of an entry is given back: its granules are cleared (R191, R243). -/
def State.freeNear (s : State) (e : LEntry) : State :=
  if e.isNear then
    (match s.vaultOf e.vault with
     | some p => s.clearPage p (e.frame * 8) (pageBytes e.z / 4096)
     | none => s)
  else s

/-- An entry becomes FREE. -/
def State.dropEntry (s : State) (i : Nat) : State :=
  ((s.freeNear (s.ledg i)).setLedg i {}).ledgBump 0 rLedgFrees 1

/-- A user of a page leaves it (R243). A held page without users is freed once the orders that started before have
completed: LEDGER_PAGE_FREE. -/
def State.unref (s : State) (i : Nat) : State :=
  let e := s.ledg i
  let running := (s.cores.flatMap (fun c => (c.2.flights.filter (fun f => f.op = 0x20 || f.op = 0x21 || f.op = 0x31)).map (fun f => (c.1, f.id))))
  s.setLedg i { e with refs := e.refs - 1, waits := if e.refs ≤ 1 then running else e.waits }

/-- A stream's entry is released when the stream ends (R243). -/
def State.releaseEntry (s : State) (i : Nat) : State :=
  let e := s.ledg i
  if e.st = .free then s
  else if e.st = .alias_ then (s.unref e.frame).setLedg i {} |>.ledgBump 0 rLedgFrees 1
  else if e.refs ≤ 1 then (s.setLedg i { e with held := true }).unref i
  else s.setLedg i { e with held := true, refs := e.refs - 1 }

/-! ### Fields (the table of ATTEND) -/

structure AttF where
  nStreams : Nat
  list : Nat
  mask : Nat
  teamLog : Nat
  base : Nat
  slot : Nat
  geo : Geo
  outFmt : Nat
  qFmt : Nat
  fullOnly : Bool
  scale : Word
  fullLimit : Nat
  keepLast : Nat
  keepFirst : Nat
  sel : Nat
  stats : Bool
  shx : Nat
  partCtr : Nat
  partAddr : Nat
  clamps : Nat
deriving DecidableEq, Repr

def AttF.u (f : AttF) : Nat := 2 ^ f.teamLog
/-- Team core j. -/
def AttF.member (f : AttF) (j : Nat) : Nat := (f.base + j) % 256

/-- The fields of ATTEND; `back` is ATTEND_BACKWARD, `app` KV_APPEND, which use fewer of them. -/
def State.attFields (s : State) (core : Nat) (back app : Bool) (o : Nat) : AttF :=
  let ns0 := ordF o 4 31 23
  let ns := clampNat 1 256 ns0
  let tl0 := ordF o 5 18 16
  let geo := geoOf o
  let of0 := ordF o 6 21 18
  let of_ := if of0 ≥ 13 then 0 else of0
  let qf0 := ordF o 6 17 14
  let qf := if pairProducts geo.fmt qf0 = 0 then defaultAct geo.fmt else qf0
  let fo := bit (ordW o 6) 13 || back
  let fl0 := ordF o 8 22 0
  let dflt := s.fld pgAtt core 0 rAttCfg 22 0
  let fl := if fl0 = 0 then dflt else min fl0 4194304
  let kl0 := ordF o 9 30 24
  let kl1 := clampNat 1 64 kl0
  let kf0 := ordF o 9 20 16
  let kf1 := min 16 kf0
  let b0 := ordF o 9 8 0
  let b := clampNat 1 256 b0
  -- R240: keep_first is reduced first, then keep_last
  let kf := min kf1 (b - kl1)
  let kl := min kl1 b
  let selects := geo.shadow && !fo && !app
  { nStreams := ns, list := ordF o 4 20 0 / 32 * 32, mask := attendMask o, teamLog := min 4 tl0, base := ordF o 5 15 8,
    slot := ordF o 5 7 0, geo := geo, outFmt := of_, qFmt := qf, fullOnly := fo, scale := BitVec.ofNat 32 (ordW o 7),
    fullLimit := fl, keepLast := kl, keepFirst := kf, sel := b, stats := bit (ordW o 10) 8 && !back,
    shx := if app then ordF o 7 7 0 else ordF o 10 7 0, partCtr := ordF o 11 29 24, partAddr := ordF o 11 20 0,
    clamps := b2n (ns != ns0) + b2n (tl0 > 4) + geo.clamps + (if app then 0 else b2n (qf != qf0) + (if back then 0 else b2n (of_ != of0))
      + (if selects then b2n (fl0 > 4194304) + b2n (kl != kl0) + b2n (kf != kf0) + b2n (b != b0) else 0)) }

/-- The cores of a team lie in the partition of the order's core (R148). -/
def State.teamOk (s : State) (core : Nat) (f : AttF) : Bool :=
  match s.partOfCore core with
  | some p => (List.range f.u).all (fun j => (s.part p).cores.contains (f.member j))
  | none => false

/-- An entry of a stream list. -/
structure AttEnt where
  i : Nat
  stream : Nat
  gen : Nat
  nNew : Nat
  nKeep : Nat
  pos : Nat
  w : List Nat
  clamped : Bool
deriving DecidableEq, Repr

/-- The entries of a list whose entries are `size` bytes (R231, the tables of entries). -/
def attEnts (f : AttF) (app : Bool) (m : Mem) : List AttEnt :=
  let size := if app then 16 else 32
  let list := if app then f.list else f.list
  (List.range f.nStreams).map (fun i =>
    let w := (List.range (size / 4)).map (fun k => leNat (memBytesWrap 2097152 m (list + size * i + 4 * k) 4))
    let w0 := w.getD 0 0
    let n0 := bits w0 25 22
    let n1 := min 9 (if app then n0 else max 1 n0)
    let n := if app then n1 else min n1 (64 / f.geo.g)
    let k0 := bits (w.getD 1 0) 26 23
    let k := min k0 n
    { i := i, stream := bits w0 17 0, gen := bits w0 21 18, nNew := n, nKeep := k, pos := bits (w.getD 1 0) 22 0, w := w,
      clamped := n != n0 || (app && k != k0) })

/-- The stream is in a recompute step of pages that are there (R327); the pages of an adopted stream are not, and its steps
append them anew (R475). -/
def State.inRecompute (s : State) (stream : Nat) : Bool :=
  match smFind s.parts (s.partOfStream stream) with
  | some p => p.set.any (fun x => x.stream = stream && x.kind = 3) && (s.stream stream).rebuildTo = 0
  | none => false

/-- Where a stream stands: it is in PREFILL or DECODE with the named generation. A PARKED or ADMITTED stream whose lost pages
the foreman recomputes counts as well: R327's recompute step is of any stream with such a page, and R237 and R246 name no
state for it (assumption 131). -/
def State.streamRuns (s : State) (e : AttEnt) : Bool :=
  let x := s.stream e.stream
  (x.st = .prefill || x.st = .decode || ((x.st = .parked || x.st = .admitted) && s.inRecompute e.stream)) && x.gen = e.gen

/-- SELECT applies to an entry (R232). -/
def AttF.selects (f : AttF) (e : AttEnt) : Bool :=
  decide (e.pos > f.fullLimit) && f.geo.shadow && !f.fullOnly && decide (ceilDiv e.pos 64 > f.sel)

/-- How an entry stands (R237): refused, waiting, or ready. -/
inductive EntSt where
  | refused
  | waits
  | ready
deriving DecidableEq, Repr

/-- The pages that hold positions 0 to n − 1 of a slot, as (entry, page in use), or none where one is missing. -/
def State.pagesUpTo (s : State) (g : Geo) (stream gen slot n : Nat) : List (Option LEntry) :=
  (List.range (ceilDiv n g.T)).map (fun q => (s.pageEntry stream gen slot q).map (fun i => s.entryPage i))

/-- How an entry of an order of core c stands, by the ledger as the core reads it. -/
def State.attEntSt (s0 : State) (c : Nat) (f : AttF) (e : AttEnt) : EntSt :=
  let s := s0.ledgView c
  let rec_ := s.inRecompute e.stream
  let ps := s.pagesUpTo f.geo e.stream e.gen f.slot e.pos
  if !s.streamRuns e || !(rec_ || s.slotHolds f.geo e.stream e.gen f.slot e.pos) || ps.any Option.isNone
      || ps.any (fun p => match p with | some x => x.st = .far | none => false) then .refused
  else if ps.mapIdx (fun q p => match p with
      | some x => x.st = .moving || (x.st = .recompute && decide (x.rebuilt < min f.geo.T (e.pos - q * f.geo.T)))
      | none => false) |>.any id then .waits
  else .ready

/-! ### Keys and values -/

/-- Bytes of a token's key, value or shadow key in its page. -/
def State.tokenBytes (s : State) (g : Geo) (pg : LEntry) (off n : Nat) : State × Option (List Byte) :=
  s.vaultBytesRestored pg.vault (g.at (pg.frame * 32768) off) n

/-- d element fields of a byte list. -/
def elemsOf (fmt d : Nat) (bs : List Byte) : List FpVal :=
  (List.range d).map (fun c => elemVal fmt (tensorElem fmt (fun k => bs.getD k 0) c).x)

/-- An attention slot: the decoded key and value, or none where it is masked for every row; and the new-token number. -/
structure KV where
  k : List FpVal
  v : List FpVal
  live : Bool
  new : Option Nat
deriving DecidableEq, Repr

def maskedKV : KV := ⟨[], [], false, none⟩

/-- Keys and values of the positions of a list; a lost line gives its fact. -/
def State.readKV (s : State) (c : Nat) (f : AttF) (e : AttEnt) (ps : List Nat) : State × List KV × Bool :=
  let g := f.geo
  let r := s.ledgView c
  ps.foldl (fun (acc : State × List KV × Bool) t =>
    let (s, l, ok) := acc
    if t ≥ e.pos then (s, l ++ [maskedKV], ok)
    else
      match r.pageEntry e.stream e.gen f.slot (t / g.T) with
      | none => (s, l ++ [maskedKV], false)
      | some i =>
        let pg := r.entryPage i
        let (s1, kb) := s.tokenBytes g pg (g.kOff + t % g.T * g.d * g.e) (g.d * g.e)
        let (s2, vb) := s1.tokenBytes g pg (g.vOff + t % g.T * g.d * g.e) (g.d * g.e)
        match kb, vb with
        | some k, some v => (s2, l ++ [⟨elemsOf g.fmt g.d k, elemsOf g.fmt g.d v, true, none⟩], ok)
        | _, _ => (s2, l ++ [maskedKV], false)) (s, [], true)

/-- The new tokens' keys and values (R231). -/
def newKV (f : AttF) (e : AttEnt) (m : Mem) (addr : Nat) : List KV :=
  let g := f.geo
  let sz := g.d * g.e
  (List.range e.nNew).map (fun j =>
    ⟨elemsOf g.fmt g.d (memBytesWrap 2097152 m (addr + j * sz) sz),
     elemsOf g.fmt g.d (memBytesWrap 2097152 m (addr + (e.nNew + j) * sz) sz), true, some j⟩)

/-! ### Exact attention (R233) -/

/-- Σ of products by R53, with the block scales of the first operand. -/
def dotBlocks (ps : List (List Word × Nat)) : Word :=
  let blk := ps.map (fun p => scaleBlock (tree32 p.1) p.2 127 0)
  let seg (i : Nat) : Word := tree32 ((blk.drop (32 * i)).take 32)
  (List.range (ceilDiv blk.length 32 - 1)).foldl (fun a i => f32Add a (seg (i + 1))) (seg 0)

/-- dot of plain values. -/
def dotPlain (a b : List FpVal) : Word :=
  let ps := (a.zip b).map (fun x => loomProduct x.1 x.2)
  dotBlocks ((List.range (ceilDiv ps.length 32)).map (fun i => ((ps.drop (32 * i)).take 32, 127)))

/-- score(t) without sm_scale: a query row as stored against a key. -/
def dotQuery (qf : Nat) (q : List RawElem) (k : List FpVal) : Word :=
  let vs := q.map (fun r => fpScale (elemVal qf r.x) (-(r.sub : Int)))
  let ps := (vs.zip k).map (fun x => loomProduct x.1 x.2)
  dotBlocks ((List.range (ceilDiv ps.length 32)).map (fun i =>
    ((ps.drop (32 * i)).take 32, (q.getD (32 * i) ⟨0, 127, 0⟩).scale)))

abbrev Trip := Word × Word × List Word

/-- block of R233. -/
def attBlock (d pFmt : Nat) (scores : List Word) (vs : List KV) : Trip :=
  let bm := scores.foldl f32Max f32NegInf
  let p := scores.map (fun x => if x = f32NegInf then 0
    else rawDecode32 pFmt ⟨convScalar .rne pFmt false (funExp2 (f32Sub x bm)), 127, 0⟩)
  (bm, tree32 p, (List.range d).map (fun c => dotPlain (p.map f32Val) (vs.map (fun v => v.v.getD c (.fin false 0 0)))))

/-- combine of R233. -/
def attCombine (d : Nat) (a b : Trip) : Trip :=
  let nanO := List.replicate d f32Nan
  if f32IsNan a.1 || f32IsNan b.1 then (f32Nan, f32Nan, nanO)
  else if a.1 = f32PosInf || b.1 = f32PosInf then (f32PosInf, f32Nan, nanO)
  else
    let m := f32Max a.1 b.1
    if m = f32NegInf then (f32NegInf, 0, List.replicate d 0)
    else
      let w (x : Trip) : Word := if x.1 = f32NegInf then 0 else funExp2 (f32Sub x.1 m)
      (m, f32Add (f32Mul a.2.1 (w a)) (f32Mul b.2.1 (w b)),
       (a.2.2.zip b.2.2).map (fun o => f32Add (f32Mul o.1 (w a)) (f32Mul o.2 (w b))))

def attPairs (d : Nat) (l : List Trip) : List Trip :=
  match l with
  | a :: b :: r => attCombine d a b :: attPairs d r
  | l => l

/-- A segment of up to 32 blocks. -/
def attSegment (d : Nat) (l : List Trip) : Trip :=
  let none_ : Trip := (f32NegInf, 0, List.replicate d 0)
  let full := (l ++ List.replicate (32 - l.length) none_).take 32
  (attPairs d (attPairs d (attPairs d (attPairs d (attPairs d full))))).getD 0 none_

/-- A slot is masked for the query rows of new token j (R232). -/
def KV.hidden (x : KV) (j : Nat) : Bool := !x.live || (match x.new with | some n => decide (n > j) | none => false)

/-- The scores of a query row (j, h) over the attended slots (R232, R233). -/
def attScores (f : AttF) (q : List RawElem) (j : Nat) (kv : List KV) : List Word :=
  kv.map (fun x =>
    if x.hidden j then f32NegInf else f32Mul (dotQuery f.qFmt q x.k) f.scale)

/-- p_fmt of R233. -/
def AttF.pFmt (f : AttF) : Nat := if f.geo.e = 1 then 3 else 1

/-- out and lse of a query row (R233). -/
def attRow (f : AttF) (q : List RawElem) (j : Nat) (kv : List KV) : List Word × Word :=
  let d := f.geo.d
  let sc := attScores f q j kv
  let blocks := (List.range (ceilDiv kv.length 32)).map (fun b =>
    let x := (sc.drop (32 * b)).take 32
    attBlock d f.pFmt (x ++ List.replicate (32 - x.length) f32NegInf) ((kv.drop (32 * b)).take 32))
  let segs := (List.range (max 1 (ceilDiv blocks.length 32))).map (fun i => attSegment d ((blocks.drop (32 * i)).take 32))
  let (m, s, o) := (segs.drop 1).foldl (attCombine d) (segs.getD 0 (f32NegInf, 0, List.replicate d 0))
  let r := funRecip s
  if f32IsZero s then (List.replicate d 0, f32NegInf)
  else (o.map (fun x => f32Mul x r), f32Add m (funLog2 s))

/-! ### Selection (R238 to R240) -/

/-- The query rows of an entry as stored (R231). -/
def queryRows (f : AttF) (e : AttEnt) (m : Mem) : List (List RawElem) :=
  let q := e.w.getD 2 0 % 2097152
  (List.range (e.nNew * f.geo.g)).map (fun r => (List.range f.geo.d).map (fun c =>
    tensorElem f.qFmt (fun k => memByte m ((q + k) % 2097152)) (r * f.geo.d + c)))

/-- The INT4 selection query (R238). -/
def selQuery (f : AttF) (rows : List (List RawElem)) : List Int :=
  let sums := (List.range f.geo.d).map (fun c =>
    (rows.drop 1).foldl (fun a r => f32Add a (rawDecode32 f.qFmt (r.getD c ⟨0, 127, 0⟩)))
      (rawDecode32 f.qFmt ((rows.getD 0 []).getD c ⟨0, 127, 0⟩)))
  let amax := fpMaxAbs (sums.map f32Val)
  if fpIsZero amax then List.replicate f.geo.d 0
  else
    let e := fpLog2Floor amax
    sums.map (fun w => fpToInt .rne (-8) 7 (fpScale (f32Val w) (2 - e)))

/-- The shadow row segments that hold positions below C, in ascending position: team core, bank, row, and first
position. -/
def State.selItems (s : State) (f : AttF) (e : AttEnt) : List (Nat × Nat × Nat × Nat) :=
  let g := f.geo
  let per := 4096 / g.d
  (List.range (ceilDiv e.pos per)).filterMap (fun i =>
    let t := i * per
    match s.pageEntry e.stream e.gen f.slot (t / g.T) with
    | none => none
    | some k =>
      let pg := s.entryPage k
      let a := g.at (pg.frame * 32768) (t % g.T * g.d / 2)
      some (pg.vault, a / 2048 % 128, a / 262144, t))

/-- The largest dot product of a shadow row segment with the INT4 query, as DOTMAX gives it (R239). -/
def State.segScore (s : State) (q : List Int) (d v bank row : Nat) : Int :=
  match s.vaultOf v with
  | none => -2147483648
  | some p =>
    let vt := s.vault p
    let key (k : Nat) : Int := (List.range d).foldl (fun t c =>
      let x := k * d + c
      t + laneInt 4 (vt.chunk (segOf row bank) (x / 64)) (x % 64) * q.getD c 0) 0
    (List.range (4096 / d)).foldl (fun m k => max m (key k)) (-2147483648)

/-- The selected blocks of an entry, ascending (R240): forced ones, and the highest scores of the rest, equal scores by
lower block. -/
def State.selBlocks (s : State) (f : AttF) (e : AttEnt) (m : Mem) : List Nat :=
  let nb := ceilDiv e.pos 64
  let q := selQuery f (queryRows f e m)
  let items := s.selItems f e
  let sc (b : Nat) : Int := (items.filter (fun it => it.2.2.2 / 64 = b)).foldl (fun x it =>
    max x (s.segScore q f.geo.d it.1 it.2.1 it.2.2.1)) (-2147483648)
  let forced (b : Nat) : Bool := decide (b < f.keepFirst) || decide (b + f.keepLast ≥ nb)
  let rest := (((List.range nb).filter (fun b => !forced b)).map (fun b => (sc b, b))).mergeSort
    (fun x y => decide (x.1 > y.1) || (decide (x.1 = y.1) && decide (x.2 ≤ y.2)))
  let take := f.sel - ((List.range nb).filter forced).length
  let chosen := (rest.take take).map (·.2)
  (List.range nb).filter (fun b => forced b || chosen.contains b)

/-- A selection program for one entry and one vault (R239). -/
def selProgram (core id queue : Nat) (f : AttF) (q : List Int) (items : List (Nat × Nat × Nat × Nat)) : BankProg :=
  let kc := f.geo.d / 64
  let ins := [9 + 0x80000000 <<< 32, 6 + 1 <<< 20 + kc <<< 32, 8]
  let qb := (List.range (f.geo.d / 2)).map (fun i =>
    BitVec.ofNat 8 (unsignedOf 4 (q.getD (2 * i) 0) + 16 * unsignedOf 4 (q.getD (2 * i + 1) 0)))
  { core := core, flight := id, queue := queue, src := .attend, idem := true, instrs := ins, q := qb, items := items,
    tokens := 32, emitCore := f.base, emitOff := f.partAddr, emitStride := 8, again := false, pay := [] }

/-! ### ATTEND -/

def State.job (s : State) (c id : Nat) : Option UnitJob := (s.core c).jobs.find? (fun j => j.flight = id)
def State.modJob (s : State) (c id : Nat) (f : UnitJob → UnitJob) : State :=
  s.modCore c (fun x => { x with jobs := x.jobs.map (fun j => if j.flight = id then f j else j) })
def State.dropJob (s : State) (c id : Nat) : State :=
  s.modCore c (fun x => { x with jobs := x.jobs.filter (fun j => j.flight != id) })

/-- The list entries of a started order. -/
def State.attList (s : State) (c id : Nat) (f : AttF) (app : Bool) : State × Mem × List AttEnt :=
  let size := if app then 16 else 32
  let (s1, m) := s.stockRanges c id [(f.list, size * f.nStreams)]
  (s1, m, attEnts f app m)

/-- A stream of the order lost its data: the order's own list of such streams grows (R144). -/
def State.entLost (s : State) (c id stream : Nat) : State :=
  -- R327: the stream's step is voided without advancing voided
  ((s.setErr pgAtt c 1).modFlight c id (fun x => { x with lost := insNat x.lost stream })).modPart (s.partOfStream stream)
    (fun x => x.void (some [stream]) true)

/-- The status of an entry goes to its word 1 (R237). -/
def State.putEntStatus (s : State) (c : Nat) (f : AttF) (size : Nat) (e : AttEnt) (st : Nat) : State :=
  s.stockWrite c (f.list + size * e.i + 4) (leBytes 4 (setBits (e.w.getD 1 0) 31 28 st))

/-- The cached positions that an entry attends, by slot (R232): all in FULL, those of the selected blocks in SELECT. -/
def State.attPos (s : State) (f : AttF) (e : AttEnt) (m : Mem) : List Nat :=
  if f.selects e then (s.selBlocks f e m).flatMap (fun b => (List.range 64).map (fun o => 64 * b + o))
  else List.range (64 * ceilDiv e.pos 64)

/-- The attended slots of an entry: cached ones in order, then the new tokens at the next multiple of 64 (R232). -/
def State.attSlots (s : State) (c : Nat) (f : AttF) (e : AttEnt) (m : Mem) : State × List KV × Bool :=
  let (s1, kv, ok) := s.readKV c f e ((s.ledgView c).attPos f e m)
  (s1, kv ++ newKV f e m (e.w.getD 3 0 % 2097152), ok)

/-- The record of SELECT runs is kept by stream, generation and slot. -/
def selKey (stream gen slot : Nat) : Nat := ((gen * 262144) + stream) * 256 + slot

/-- Positions from pos on have run in SELECT mode in a slot (R328). -/
def State.noteSelect (s : State) (stream gen slot pos : Nat) : State :=
  s.modPart (s.partOfStream stream) (fun x =>
    let k := selKey stream gen slot
    { x with selFrom := smPut x.selFrom k (min pos ((smFind x.selFrom k).getD pos)) })

/-- The first position that ran in SELECT mode at a layer up to that of a slot, for a stream that wrote a page of it (R328).
Positions after the first SELECT run count as SELECT (assumption 132). -/
def State.selectedFrom (s : State) (part pattern stream gen slot : Nat) : Option Nat :=
  let layer := Config.slotLayer pattern
  ((s.part part).selFrom.filter (fun e => e.1 / 256 = gen * 262144 + stream
    && (e.1 % 256 = slot || decide (layer (e.1 % 256) ≤ layer slot)))).foldl (fun m e => match m with
      | some y => some (min y e.2)
      | none => some e.2) none

/-- One entry at the lead (R231 to R233). Answers its status. -/
def State.attEntry (s : State) (c id : Nat) (f : AttF) (e : AttEnt) : State × Nat :=
  let g := f.geo
  let qa := e.w.getD 2 0 % 2097152
  let na := e.w.getD 3 0 % 2097152
  let rows := e.nNew * g.g
  let (s1, m) := s.stockRanges c id [(qa, tensorBytes f.qFmt (rows * g.d)), (na, 2 * e.nNew * g.d * g.e)]
  let (s2, kv, ok) := s1.attSlots c f e m
  if !ok then (s2.entLost c id e.stream, stLost)
  else
    let qs := queryRows f e m
    let res := qs.mapIdx (fun r q => attRow f q (r / g.g) kv)
    let oa := e.w.getD 4 0 % 2097152
    let row (o : List Word) : List Byte :=
      if fmtIsBlock f.outFmt then (List.range (g.d / 32)).flatMap (fun b =>
        blockBytes f.outFmt (quantBlock f.outFmt (((o.drop (32 * b)).take 32).map f32Val) []))
      else leBytes (g.d * fmtWidth f.outFmt / 8)
        ((o.mapIdx (fun i w => convScalar .rne f.outFmt false w <<< (i * fmtWidth f.outFmt))).foldl (· + ·) 0)
    let s3 := (res.mapIdx (fun i r => (i, r))).foldl (fun s x =>
      let s' := s.stockWrite c (oa + x.1 * tensorBytes f.outFmt g.d) (row x.2.1)
      if f.stats then s'.stockWrite c (e.w.getD 5 0 % 2097152 + 4 * x.1) (leBytes 4 x.2.2.toNat) else s') s2
    let s4 := s3.ledgBump c rLedgLookups (ceilDiv (ceilDiv e.pos g.T) 16)
    let s5 := if f.selects e then s4.noteSelect e.stream e.gen f.slot e.pos else s4
    (s5.bump pgAtt c 0 (if f.selects e then rAttSlotsSel else rAttSlotsFull) kv.length, stOk)

/-- The vaults that hold the pages of an entry. -/
def State.entVaults (s : State) (f : AttF) (e : AttEnt) : List Nat :=
  ((s.pagesUpTo f.geo e.stream e.gen f.slot e.pos).filterMap (fun p => p.map (·.vault))).eraseDups

/-- The triples per query row that a team core sends for an entry (R234): its segments in FULL, the selected 32-slot blocks
that it holds in SELECT. -/
def State.attTriples (s : State) (c : Nat) (f : AttF) (e : AttEnt) (m : Mem) : Nat :=
  let g := f.geo
  let holds (t : Nat) : Bool := f.member (t / g.T / g.run % f.u) = c
  if f.selects e then 2 * (((s.ledgView c).selBlocks f e m).filter (fun b => holds (64 * b))).length
  else ((List.range (ceilDiv e.pos 1024)).filter (fun sg => holds (1024 * sg))).length

/-- The status of an entry that ran: CLAMPED when one of its fields was clamped (R11, R237). -/
def AttEnt.ranSt (e : AttEnt) (k : Nat) : Nat := if k = stOk && e.clamped then stClamped else k

/-- An entry runs: its clamps and those of its order are counted (R8). -/
def State.entryClamps (s : State) (c id : Nat) (e : AttEnt) : State :=
  (s.payClamps c id).orderClamps c id pgAtt c (b2n e.clamped)

/-- The entries of an order are carried out in list order and each gets its status (R236, R237): one that is ready by `run`,
its clamps counted; another is refused. Answers the order's status. -/
def State.runEntries (s : State) (c id : Nat) (f : AttF) (states : List (AttEnt × EntSt))
    (run : State → AttEnt → State × Nat) : State × Nat :=
  states.foldl (fun (acc : State × Nat) x =>
    let (s', k0) := if x.2 = .ready then run (acc.1.entryClamps c id x.1) x.1 else (acc.1.noteRefuse pgAtt c, stState)
    let k := x.1.ranSt k0
    (s'.putEntStatus c f 32 x.1 k, statusJoin acc.2 k)) (s, stOk)

/-- A team core's contributions to the lead (R234): their order in the lead's part area is not stated, so they are free
bytes; the lead's counter is signalled. -/
def State.attContribute (s : State) (c id : Nat) (f : AttF) (m : Mem) (states : List (AttEnt × EntSt)) : State :=
  let g := f.geo
  let es := (states.filter (fun x => x.2 = .ready)).map (·.1)
  let n := (es.map (fun e => e.nNew * g.g * s.attTriples c f e m * (8 + 4 * g.d))).foldl (· + ·) 0
  let cost := match s.partOfCore c with | some p => tileCost p (fun _ => none) [(c, f.base, n)] | none => []
  s.gated cost (fun s =>
  let (s1, bs) := s.freeBytes n
  let s2 := if f.base = c then s1 else s1.stockWrite f.base f.partAddr bs
  let s3 := (s2.signal f.base f.partCtr 1).modCore f.base (fun x => { x with partsIn := x.partsIn ++ [(f.slot, c)] })
  let (s4, st) := s3.runEntries c id f states (fun s _ => (s, stOk))
  ((s4.modCore c (fun x => { x with partsIn := x.partsIn.erase (f.slot + 256, f.base) })).dropJob c id).finish c id st) (fun s => s)

/-- A started ATTEND still has selection programs to queue or to wait for (R239). -/
def State.selLeft (s : State) (c : Nat) (fl : Flight) : Bool :=
  match s.job c fl.id with
  | none => false
  | some j =>
    let f := s.attFields c false false fl.ord
    let (s1, _, es) := s.attList c fl.id f false
    decide (j.phase < ((es.filter (fun e => s1.attEntSt c f e = .ready)).filter f.selects).length) || !j.todo.isEmpty

/-- The lead writes the selected blocks to every member's part_addr once every core's maxima are there (R234). The list's
form is not stated: free bytes, four for each block (assumption 129). -/
def State.sendSelected (s : State) (c id : Nat) (f : AttF) (members : List Nat) (m : Mem) (es : List AttEnt) : State :=
  let sent (x : Nat) : Bool := (s.core x).flights.any (fun y => y.op = 0x20 && !y.done
    && (s.attFields x false false y.ord).slot = f.slot && !s.selLeft x y)
  if !members.all sent then s
  else
    let n := (es.map (fun e => 4 * ((s.ledgView c).selBlocks f e m).length)).foldl (· + ·) 0
    let cost := match s.partOfCore c with | some p => tileCost p (fun _ => none) (members.map (fun x => (c, x, n))) | none => []
    s.gated cost (fun s =>
      (members.foldl (fun s x =>
        let (s1, bs) := s.freeBytes n
        (s1.stockWrite x f.partAddr bs).modCore x (fun y => { y with partsIn := y.partsIn ++ [(f.slot + 256, c)] })) s).modJob c id
          (fun j => { j with chosen := [[]] })) (fun s => s)

/-- The running ATTEND does what it can now (R234, R236, R237). -/
def State.attendTry (s : State) (c id : Nat) : State :=
  match (s.core c).flight id, s.job c id with
  | some fl, some j =>
    let f := s.attFields c false false fl.ord
    let (s1, m, es) := s.attList c id f false
    let states := es.map (fun e => (e, s1.attEntSt c f e))
    let live := (states.filter (fun x => x.2 = .ready)).map (·.1)
    let sels := live.filter f.selects
    let members := (List.range (f.u - 1)).map (fun i => f.member (i + 1))
    if states.any (fun x => x.2 = .waits) || s.selLeft c fl then s
    else if c != f.base then
      if sels.isEmpty || (s1.core c).partsIn.contains (f.slot + 256, f.base) then s1.attContribute c id f m states else s
    else if !sels.isEmpty && !members.isEmpty && j.chosen.isEmpty then s.sendSelected c id f members m sels
    else
      let ready := (live.flatMap ((s1.ledgView c).entVaults f)).all (fun v => s1.placeReady (.vault v 0) 1 true)
        && members.all (fun m => (s1.core c).partsIn.contains (f.slot, m))
      if !ready then s
      else
        let s2 := s1.modCore c (fun x => { x with partsIn := members.foldl (fun l m => l.erase (f.slot, m)) x.partsIn })
        let (s3, st) := s2.runEntries c id f states (fun s e => s.attEntry c id f e)
        ((s3.dropJob c id).bump pgAtt c 0 rAttOrders 1).finish c id st
  | _, _ => s

/-- ATTEND starts (R236). -/
def execAttend (core : Nat) (s : State) : Host.Outcome State Fault Refusal :=
  .next (reachOrder.take s (s.runOrder core (fun st => st.op = 0x20) (fun s st =>
    let f := s.attFields core false false st.ord
    if !s.teamOk core f then s.refuseOrder core st stQuota
    else
      let (s1, id) := s.startLate core st
      let s2 := s1.modFlight core id (fun x => { x with aux := [f.mask] })
      let s4 := s2.oweClamps core id pgAtt core f.clamps
      let s5 := s4.modCore core (fun x => { x with jobs := x.jobs ++ [⟨id, 0, [], []⟩] })
      s5.attendTry core id)))

/-- The running ATTEND of a core queues the selection program of its next SELECT entry on its team vault (R239). -/
def execSelectionProgram (core vault : Nat) (s : State) : Host.Outcome State Fault Refusal :=
  .next (reachOrder.take s (
    match (s.core core).flights.find? (fun f => f.op = 0x20 && !f.done) with
    | none => s
    | some fl =>
      match s.job core fl.id with
      | none => s
      | some j =>
        let f := s.attFields core false false fl.ord
        let (s1, m, es) := s.attList core fl.id f false
        let sel := (es.filter (fun e => s1.attEntSt core f e = .ready)).filter f.selects
        match sel[j.phase]? with
        | none => s
        | some e =>
          if !j.todo.isEmpty || s.vaultOf core != some vault then s
          else
            let all := (s1.ledgView core).selItems f e
            let items := (all.mapIdx (fun i x => (i, x))).filterMap (fun x =>
              if x.2.1 = core then some (x.1, x.2.2.1, x.2.2.2.1, 0) else none)
            let s2 := (s1.modJob core fl.id (fun j => { j with phase := j.phase + 1, todo := if items.isEmpty then [] else [vault] })).bump
              pgAtt core 0 rAttSelItems items.length
            if items.isEmpty then s2.attendTry core fl.id
            else
              let q := selQuery f (queryRows f e m)
              s2.modVault vault (fun v => { v with progs := v.progs ++ [selProgram core fl.id fl.q f q items] })))

/-! ### ATTEND_BACKWARD (R253) -/

/-- One FP32 value of a stockroom image. -/
def memWord (m : Mem) (a : Nat) : Word := BitVec.ofNat 32 (leNat (memBytesWrap 2097152 m a 4))

/-- One entry: dQ, and what its rows add into dK and dV. -/
def State.backEntry (s : State) (c id o : Nat) (f : AttF) (e : AttEnt) : State × Nat :=
  let g := f.geo
  let d := g.d
  let rows := e.nNew * g.g
  let wa (k : Nat) : Nat := e.w.getD k 0 % 2097152
  let (s1, m) := s.stockRanges c id [(wa 2, tensorBytes f.qFmt (rows * d)), (wa 3, 2 * e.nNew * d * g.e),
    (wa 4, 4 * rows * d), (wa 5, 4 * rows), (wa 6, 4 * rows * d)]
  let (s2, kv, ok) := s1.attSlots c f e m
  if !ok then (s2.entLost c id e.stream, stLost)
  else
    let qs := queryRows f e m
    let gs : Word := BitVec.ofNat 32 (ordW o 12)
    let dkv := ordF o 13 29 0
    let fl (a r : Nat) : List FpVal := (List.range d).map (fun i => f32Val (memWord m (a + 4 * (r * d + i))))
    let done := qs.mapIdx (fun r q =>
      let sc := attScores f q (r / g.g) kv
      let zero : FpVal := .fin false 0 0
      let lse := memWord m (wa 5 + 4 * r)
      let dO := fl (wa 6) r
      let dd := dotPlain dO (fl (wa 4) r)
      let pd := (sc.zip kv).map (fun x =>
        let p : Word := if x.2.hidden (r / g.g) then 0
          else rawDecode32 f.pFmt ⟨convScalar .rne f.pFmt false (funExp2 (f32Sub x.1 lse)), 127, 0⟩
        -- a slot past the cached length holds +0, as in the forward pass
        let v := (List.range d).map (fun i => x.2.v.getD i zero)
        (p, f32Mul (f32Mul p (f32Sub (dotPlain dO v) dd)) gs))
      (q, dO, pd))
    let core_ := c
    -- dQ: the lead's
    let s3 := if c != f.base then s2 else (done.mapIdx (fun r x => (r, x))).foldl (fun s x =>
      let dq := (List.range d).map (fun i => dotPlain (x.2.2.2.map (fun y => f32Val y.2))
        (kv.map (fun y => if y.live then y.k.getD i (.fin false 0 0) else .fin false 0 0)))
      s.stockWrite c (wa 7 + 4 * x.1 * d) (dq.flatMap (fun w => leBytes 4 w.toNat))) s2
    -- dK and dV of the cached positions that this core holds, rows in ascending order
    let mine (t : Nat) : Bool := f.member (t / g.T / g.run % f.u) = core_
    let s4 := ((List.range e.pos).filter mine).foldl (fun s t =>
      let (s', old, good) := s.readOrFree (.vault c ((dkv + t * 8 * d) % 1073741824)) (8 * d)
      let s' := if good then s' else s'.flightLost c id
      let w (i : Nat) : Word := BitVec.ofNat 32 (leNat ((old.drop (4 * i)).take 4))
      let dk := (List.range d).map (fun i => done.foldl (fun a x =>
        f32Add a (f32Mul ((x.2.2.getD t (0, 0)).2) (rawDecode32 f.qFmt (x.1.getD i ⟨0, 127, 0⟩)))) (w i))
      let dv := (List.range d).map (fun i => done.foldl (fun a x =>
        f32Add a (f32Mul ((x.2.2.getD t (0, 0)).1) (f32Of (x.2.1.getD i (.fin false 0 0))))) (w (d + i)))
      s'.writeLoc (.vault c ((dkv + t * 8 * d) % 1073741824)) ((dk ++ dv).flatMap (fun w => leBytes 4 w.toNat))) s3
    (s4.bump pgAtt c 0 rAttBwdRows rows, stOk)

/-- The running ATTEND_BACKWARD does what it can now. -/
def State.backTry (s : State) (c id : Nat) : State :=
  match (s.core c).flight id, s.job c id with
  | some fl, some _ =>
    let f := s.attFields c true false fl.ord
    let (s1, _, es) := s.attList c id f false
    let states := es.map (fun e => (e, s1.attEntSt c f e))
    let live := (states.filter (fun x => x.2 = .ready)).map (·.1)
    -- successive orders accumulate in their issue order
    let first := (s.core c).flights.all (fun x => x.op != 0x21 || x.done || decide (x.id ≥ id))
    let ready := first && (c :: live.flatMap ((s1.ledgView c).entVaults f)).all (fun v => s1.placeReady (.vault v 0) 1 true)
    if states.any (fun x => x.2 = .waits) || !ready then s
    else
      let (s2, st) := s1.runEntries c id f states (fun s e => s.backEntry c id fl.ord f e)
      (s2.dropJob c id).finish c id st
  | _, _ => s

def execAttendBackward (core : Nat) (s : State) : Host.Outcome State Fault Refusal :=
  .next (reachOrder.take s (s.runOrder core (fun st => st.op = 0x21) (fun s st =>
    let f := s.attFields core true false st.ord
    if !s.teamOk core f then s.refuseOrder core st stQuota
    else
      let (s1, id) := s.startLate core st
      let s3 := s1.oweClamps core id pgAtt core f.clamps
      let s4 := s3.modCore core (fun x => { x with jobs := x.jobs ++ [⟨id, 0, [], []⟩] })
      s4.backTry core id)))

end Sys2Proof.Machine
end

