-- ==== Sys2Proof/Machine/KvAppend.lean ====
section
/-! DEFINITION. KV_APPEND (R245 to R248), and the recompute steps' appends (R327). The order resolves its entries, builds
the bank items that write its tokens, and updates the ledger once the items have run. -/

namespace Sys2Proof.Machine

/-- Pages that an entry's tokens go into. -/
def kvPages (g : Geo) (e : AttEnt) : List Nat :=
  if e.nKeep = 0 then [] else (List.range ((e.pos + e.nKeep - 1) / g.T - e.pos / g.T + 1)).map (e.pos / g.T + ·)

/-- The pages that an entry writes: all of them, or those in RECOMPUTE in a recompute step (R327). -/
def State.kvWrites (s : State) (f : AttF) (e : AttEnt) : List Nat :=
  (kvPages f.geo e).filter (fun q => !s.inRecompute e.stream ||
    (match s.pageEntry e.stream e.gen f.slot q with
     | some i => (s.entryPage i).st = .recompute
     | none => false))

/-- How an entry of the list stands (R246). -/
inductive KvSt where
  | refused
  | waits
  | already
  | ready
deriving DecidableEq, Repr

/-- By the ledger as core c reads it (R241). -/
def State.kvSt (s0 : State) (c : Nat) (f : AttF) (e : AttEnt) : KvSt :=
  let s := s0.ledgView c
  let rec_ := s.inRecompute e.stream
  let pages := (kvPages f.geo e).filterMap (fun q => (s.pageEntry e.stream e.gen f.slot q).map s.entryPage)
  if !s.streamRuns e then .refused
  else if rec_ || s.slotHolds f.geo e.stream e.gen f.slot e.pos then
    if !rec_ && pages.any (fun p => p.st = .far) then .refused
    else if pages.any (fun p => p.st = .moving || (p.st = .recompute && !rec_)) then .waits
    else .ready
  else if s.slotHolds f.geo e.stream e.gen f.slot (e.pos + e.nKeep) then .already
  else .refused

/-- The section ranges of a page's first n tokens: layout offset and bytes. -/
def Geo.sections (g : Geo) (n : Nat) : List (Nat × Nat) :=
  (if g.shadow then [(0, n * g.d / 2)] else []) ++ [(g.kOff, n * g.d * g.e), (g.vOff, n * g.d * g.e)]

/-- Bytes of a layout range of a page, in pieces of one row segment: page base, layout offset, length. -/
def Geo.segs (g : Geo) (base off n : Nat) : List (Nat × Nat × Nat) :=
  if n = 0 then [] else
  (List.range ((off + n - 1) / 2048 - off / 2048 + 1)).map (fun i =>
    let b := if i = 0 then off else (off / 2048 + i) * 2048
    let e := min (off + n) ((off / 2048 + i + 1) * 2048)
    (g.at base b, b, e - b))

/-- A page of the shared prefix is copied before it is written (R247): sections S, K and V of its fill tokens. Answers
whether there was a frame, and whether the copy was whole. -/
def State.kvCopy (s : State) (c i : Nat) (g : Geo) : State × Bool × Bool :=
  let e := s.ledg i
  let from_ := s.entryPage i
  match s.freeFrame from_.vault g.z with
  | none => (s, false, true)
  | some fr =>
    let (s1, ok) := (g.sections e.fill).foldl (fun (acc : State × Bool) sec =>
      (g.segs 0 sec.1 sec.2).foldl (fun (acc : State × Bool) x =>
        let (s', b) := acc.1.tokenBytes g from_ x.2.1 x.2.2
        match b with
        | some bs => (s'.vaultWrite from_.vault (g.at (fr * 32768) x.2.1) bs, acc.2)
        | none => (s', false)) acc) (s, true)
    if !ok then (s1, true, false)
    else
      let s2 := (s1.unref e.frame).setLedg i
        { e with st := .near, refs := 1, z := g.z, vault := from_.vault, frame := fr, home := from_.vault }
      -- the copied positions ran as they did for the stream that wrote them (R328)
      let s2 := match s.selectedFrom (s.partOfStream e.stream) (s.stream e.stream).pattern from_.stream from_.gen e.slot with
        | some t => if t < e.page * g.T + e.fill then s2.noteSelect e.stream e.gen e.slot (max t (e.page * g.T)) else s2
        | none => s2
      ((s2.bump pgAtt c 0 rAttCow 1).ledgBump c rLedgCow 1, true, true)

/-- The page of an entry that a token goes into is there: an ALIAS is copied, a missing page created with refs 1 in the
lowest free frame of its team core's vault (R228, R242, R243, R247). `made` lists the entries created. -/
def State.kvPage (s : State) (c : Nat) (f : AttF) (e : AttEnt) (q : Nat) : State × Bool × Bool × List Nat :=
  let g := f.geo
  match s.pageEntry e.stream e.gen f.slot q with
  | some i =>
    if (s.ledg i).st = .alias_ then
      let (s1, room, ok) := s.kvCopy c i g
      (s1, room, ok, [])
    else (s, true, true, [])
  | none =>
    let v := f.member (q / g.run % f.u)
    let (s1, at_) := s.ledgPlace c e.stream e.gen f.slot q
    match at_, s1.freeFrame v g.z with
    | some i, some fr =>
      let n : LEntry := { st := .near, refs := 1, z := g.z, page := q, slot := f.slot, gen := e.gen, stream := e.stream,
                          vault := v, frame := fr, fill := 0, geo := g.T, home := v }
      (s1.setLedg i n, true, true, [i])
    | _, _ => (s1, false, true, [])

/-- The stored shadow key of a key (R230). -/
def shadowKey (g : Geo) (shx : Nat) (key : List Byte) : List Byte :=
  let ks := (elemsOf g.fmt g.d key).map (fun v => unsignedOf 4 (fpToInt .rne (-8) 7 (fpScale v (127 - (shx : Int)))))
  (List.range (g.d / 2)).map (fun i => BitVec.ofNat 8 (ks.getD (2 * i) 0 + 16 * ks.getD (2 * i + 1) 0))

/-- The writes of a token: vault, local address and bytes, each within one row segment. -/
def State.kvToken (s : State) (f : AttF) (e : AttEnt) (m : Mem) (j : Nat) : List (Nat × Nat × List Byte) :=
  let g := f.geo
  let t := e.pos + j
  match s.pageEntry e.stream e.gen f.slot (t / g.T) with
  | none => []
  | some i =>
    let pg := s.entryPage i
    let base := pg.frame * 32768
    let sz := g.d * g.e
    let addr := e.w.getD 2 0 % 2097152
    let key := memBytesWrap 2097152 m (addr + j * sz) sz
    let val := memBytesWrap 2097152 m (addr + (e.nNew + j) * sz) sz
    let put (off : Nat) (bs : List Byte) : List (Nat × Nat × List Byte) :=
      (g.segs base off bs.length).map (fun x => (pg.vault, x.1, (bs.drop (x.2.1 - off)).take x.2.2))
    (if g.shadow then put (t % g.T * g.d / 2) (shadowKey g f.shx key) else [])
      ++ put (g.kOff + t % g.T * sz) key ++ put (g.vOff + t % g.T * sz) val

/-- The stream's step is voided because no page could be had, without counting toward retry_limit; the stream is parked
first where demotion finds no room (R280). -/
def State.kvNoRoom (s : State) (stream : Nat) : State :=
  s.modPart (s.partOfStream stream) (fun x => { (x.void (some [stream]) true) with parkFirst := insNat x.parkFirst stream })

/-- One ready entry resolves its pages and forms its writes. Answers its status and the writes. -/
def State.kvEntry (s : State) (c id : Nat) (f : AttF) (e : AttEnt) : State × Nat × List (Nat × Nat × List Byte) :=
  let g := f.geo
  let pages := s.kvWrites f e
  let (s1, room, ok, made) := pages.foldl (fun (acc : State × Bool × Bool × List Nat) q =>
    if !acc.2.1 || !acc.2.2.1 then acc
    else
      let (s', r, k, m) := acc.1.kvPage c f e q
      (s', r, k, acc.2.2.2 ++ m)) (s, true, true, [])
  if !room then (((made.foldl (fun s i => s.dropEntry i) s1).noteRefuse pgAtt c).kvNoRoom e.stream, stQuota, [])
  else if !ok then (s1.entLost c id e.stream, stLost, [])
  else
    let (s2, m) := s1.stockRanges c id [(e.w.getD 2 0 % 2097152, 2 * e.nNew * g.d * g.e)]
    (s2, stOk, ((List.range e.nKeep).filter (fun j => pages.contains ((e.pos + j) / g.T))).flatMap (fun j => s2.kvToken f e m j))

/-- The bank program that writes an order's tokens into one vault: one item per row segment touched (R248). -/
def kvProgram (c id q : Nat) (ws : List (Nat × List Byte)) : BankProg :=
  let pay := ws.map (fun w => (w.1 / 2048 % 128, w.1 / 262144, w.1 % 2048, w.2))
  let segs := (pay.map (fun x => (x.1, x.2.1))).eraseDups
  { core := c, flight := id, queue := q, src := .kvAppend, idem := true, instrs := [], q := [],
    items := segs.mapIdx (fun i x => (i, x.1, x.2, 0)), tokens := 32, emitCore := c, emitOff := 0,
    emitStride := 8, again := false, pay := pay }

/-- The positions that a lost page must get again: the most that a stream which uses it holds in it. -/
def State.pageNeed (s : State) (k : Nat) : Nat :=
  let y := s.ledg k
  (s.ledgAll.filter (fun x => x.2.st = .alias_ && !x.2.held && x.2.frame = k)).foldl (fun m x => max m x.2.fill)
    (if y.held then 0 else y.fill)

/-- A page's lines are whole again: merge entries that were held for them are merged (R330). -/
def State.mergeRestored (s : State) (p addr n : Nat) : State :=
  let lo := addr / 64
  let held := (s.vault p).mb.filter (fun e => e.held && decide (lo ≤ e.line) && decide (e.line < lo + n / 64))
  let s1 := s.modVault p (fun v => { v with
    mb := v.mb.map (fun e => if held.any (fun h => h.line = e.line) then { e with held := false } else e) })
  if (s1.vault p).mode = .memory then held.foldl (fun s e => s.evict p e.line 0) s1 else s1

/-- A page written by a recompute step: once its last position is rewritten it is NEAR again (R327, R328). The page's
positions were computed by the stream that its entry names. -/
def State.kvRebuilt (s : State) (f : AttF) (e : AttEnt) (i q : Nat) : State :=
  let g := f.geo
  let x := s.ledg i
  let k := if x.st = .alias_ then x.frame else i
  let y := s.ledg k
  let r := max y.rebuilt (min (e.pos + e.nKeep - q * g.T) g.T)
  if r < s.pageNeed k then s.setLedg k { y with rebuilt := r }
  else
    let p := (s.vaultOf y.vault).getD 0
    let s1 := s.setLedg k { y with st := .near, rebuilt := 0 }
    let info : LogInfo := { cls := 1, vault := p, addr := y.frame * 32768, part := s.partOfStream e.stream,
                            stream := some (e.gen, e.stream) }
    let s2 := (((s1.mergeRestored p (y.frame * 32768) (pageBytes y.z)).bump pgVlt p 0 rVltRestored 1).setErr pgVlt p 12).log 0x08 info
    match s.selectedFrom (s.partOfStream e.stream) (s.stream e.stream).pattern y.stream y.gen y.slot with
    | some t => if t < q * g.T + y.fill then s2.log 0x09 info else s2
    | none => s2

/-- An entry whose items have run adds n_keep to its fills (R245). -/
def State.kvFills (s : State) (f : AttF) (e : AttEnt) : State :=
  let g := f.geo
  let rec_ := s.inRecompute e.stream
  (s.kvWrites f e).foldl (fun s q =>
    match s.pageEntry e.stream e.gen f.slot q with
    | none => s
    | some i =>
      let x := s.ledg i
      if rec_ then s.kvRebuilt f e i q
      else s.setLedg i { x with fill := min g.T (e.pos + e.nKeep - q * g.T) }) s

/-- The running KV_APPEND of a core does what it can now: it resolves its entries and queues its items, or, once they
have run, updates the ledger and completes. -/
def State.kvTry (s : State) (c id : Nat) : State :=
  match (s.core c).flight id, s.job c id with
  | some fl, some j =>
    let f := s.attFields c false true fl.ord
    let (s1, _, es) := s.attList c id f true
    if j.phase = 0 then
      let states := es.map (fun e => (e, s1.kvSt c f e))
      let live := (states.filter (fun x => x.2 = .ready)).map (·.1)
      -- a copy on write moves bytes through the interface of the vault (R247)
      let ready := live.all (fun e => (kvPages f.geo e).all (fun q =>
        let r := s1.ledgView c
        match r.pageEntry e.stream e.gen f.slot q with
        | some i => (r.ledg i).st != .alias_ || s1.placeReady (.vault (r.entryPage i).vault 0) 1 false
        | none => true))
      if states.any (fun x => x.2 = .waits) || !ready then s
      else
        let (s2, sts, ws) := states.foldl (fun (acc : State × List Nat × List (Nat × Nat × List Byte)) x =>
          match x.2 with
          | .ready =>
            let (s', k, w) := acc.1.kvEntry c id f x.1
            (if k = stQuota then s' else s'.entryClamps c id x.1, acc.2.1 ++ [k], acc.2.2 ++ w)
          | .already => (acc.1.entryClamps c id x.1, acc.2.1 ++ [stOk + 16], acc.2.2)
          | _ => (acc.1.noteRefuse pgAtt c, acc.2.1 ++ [stState], acc.2.2)) (s1, [], [])
        let vs := (ws.map (·.1)).eraseDups.filterMap (fun l => (s2.vaultOf l).map (fun p => (l, p)))
        let cost := match s.partOfCore c with
          | some p => tileCost p (fun _ => none) (ws.map (fun w => (c, s.vaultNode w.1, w.2.2.length)))
          | none => []
        if !s.gatesOpen cost then s.gatesHeld cost
        else
        let s2 := s2.gatesTake cost
        let s3 := vs.foldl (fun s x =>
          let w := ws.filterMap (fun y => if y.1 = x.1 then some y.2 else none)
          s.modVault x.2 (fun v => { v with progs := v.progs ++ [kvProgram c id fl.q w] })) s2
        s3.modJob c id (fun j => { j with phase := 1, todo := vs.map (·.2), chosen := [sts] })
    else if !j.todo.isEmpty then s
    else
      let sts := j.chosen.getD 0 []
      let (s2, st) := es.foldl (fun (acc : State × Nat) e =>
        let k := sts.getD e.i stState
        let k' := if k = stOk && fl.status = stLost then stLost else k % 16
        let s' := if k = stOk && k' = stOk then
            (acc.1.kvFills f e).bump pgAtt c 0 rAttAppends e.nKeep
          else if k = stOk then acc.1.entLost c id e.stream
          else acc.1
        let st := e.ranSt k'
        (s'.putEntStatus c f 16 e st, statusJoin acc.2 st)) (s1, stOk)
      (s2.dropJob c id).finish c id st
  | _, _ => s

def execKvAppend (core : Nat) (s : State) : Host.Outcome State Fault Refusal :=
  .next (reachOrder.take s (s.runOrder core (fun st => st.op = 0x30) (fun s st =>
    let f := s.attFields core false true st.ord
    if !s.teamOk core f then s.refuseOrder core st stQuota
    else
      let (s1, id) := s.startLate core st
      let s3 := s1.oweClamps core id pgAtt core f.clamps
      let s4 := s3.modCore core (fun x => { x with jobs := x.jobs ++ [⟨id, 0, [], []⟩] })
      let s5 := s4.kvTry core id
      -- an order that has nothing to write completes at once
      match s5.job core id with
      | some j => if j.phase = 1 && j.todo.isEmpty then s5.kvTry core id else s5
      | none => s5)))

end Sys2Proof.Machine
end

