-- ==== Sys2Proof/Machine/Book.lean ====
section
/-! DEFINITION. The opening book (R249 to R252): block hashes, the search, and BOOK_LOOKUP in its four modes. -/

namespace Sys2Proof.Machine

abbrev bookNone := 0x3FFFFF

/-- chain of R249 over the 64 tokens of block j. -/
def bookChain (prev : DWord) (j : Nat) (mstep mfin : DWord) (toks : List Nat) : DWord :=
  let x := toks.foldl (fun (x : DWord) t => let y := (x ^^^ BitVec.ofNat 64 t) * mstep; y ^^^ (y >>> 29)) prev
  let x1 := x ^^^ BitVec.ofNat 64 (j + 1)
  let x2 := (x1 ^^^ (x1 >>> 31)) * mfin
  x2 ^^^ (x2 >>> 33)

abbrev bookM1 : DWord := 0x9C5E71A32F8BD465
abbrev bookM2 : DWord := 0xD3A714C96E05B28B

/-- Node hash and node check of blocks 0 to n − 1. -/
def bookHashes (pattern : Nat) (toks : List Nat) (n : Nat) : List (DWord × Word) :=
  ((List.range n).foldl (fun (acc : List (DWord × Word) × DWord × DWord) j =>
    let t := (toks.drop (64 * j)).take 64
    let h := bookChain acc.2.1 j bookM1 bookM2 t
    let c := bookChain acc.2.2 j bookM2 bookM1 t
    (acc.1 ++ [(h, c.truncate 32)], h, c)) ([], BitVec.ofNat 64 pattern, BitVec.ofNat 64 pattern)).1

/-- The 16 nodes that a search for a hash examines (R250). -/
def bookSpots (h : DWord) : List Nat := (List.range 16).map (fun i => (h.toNat >>> 42 + i) % 4194304)

def State.node (s : State) (x : Nat) : BookNode := smGet {} s.book x
def State.setNode (s : State) (x : Nat) (n : BookNode) : State := { s with book := smSet {} s.book x n }
def State.bookBump (s : State) (core off n : Nat) : State := s.bump pgBook (coreHalf core) 0 off n

/-- A node's origin names a stream that is not FREE and whose gen is the node's (R250). -/
def State.originLives (s : State) (n : BookNode) : Bool :=
  let x := s.stream n.stream
  x.st != .free && x.gen = n.gen

/-- Search of one block: all 16 nodes are examined, a node whose origin is gone is freed, and the first that matches is the
answer. -/
def State.bookFind (s : State) (core j parent : Nat) (h : DWord) (check : Word) : State × Option Nat :=
  (bookSpots h).foldl (fun (acc : State × Option Nat) x =>
      let n := acc.1.node x
      if !n.live then acc
      else if !acc.1.originLives n then ((acc.1.setNode x {}).bookBump core rBookStale 1, acc.2)
      else if acc.2.isSome then acc
      else if n.h = h && n.check = check && n.j = j && n.parent = parent then (acc.1, some x)
      else acc) (s, none)

/-- The chain of matching nodes from block 0 (R250); every matched node takes the partition's step count. -/
def State.bookMatch (s : State) (core : Nat) (hs : List (DWord × Word)) (max : Nat) : State × List Nat :=
  let steps := match s.partOfCore core with | some p => (s.part p).steps | none => 0
  let r := (List.range (min max hs.length)).foldl (fun (acc : State × List Nat × Bool) j =>
    if acc.2.2 then acc
    else
      let e := hs.getD j (0, 0)
      let (s1, hit) := acc.1.bookFind core j (acc.2.1.getLastD bookNone) e.1 e.2
      match hit with
      | some x => (s1.setNode x { s1.node x with lastUse := steps % 4294967296 }, acc.2.1 ++ [x], false)
      | none => (s1, acc.2.1, true)) (s, [], false)
  (r.1, r.2.1)

/-- The fields of BOOK_LOOKUP after their clamps (words 4 to 11). -/
structure BookF where
  mode : Nat
  gen : Nat
  stream : Nat
  pattern : Nat
  tok : Nat
  n : Nat
  result : Nat
  slots : Nat
  first : Nat
  clamps : Nat
deriving DecidableEq, Repr

def bookFields (o : Nat) : BookF :=
  let t0 := ordW64 o 6
  let tokOk := spaceOf t0 = 0 || spaceOf t0 = 4
  let n0 := ordF o 8 22 0
  let n := clampNat 1 4194304 n0
  let k0 := ordF o 10 16 8
  let k := clampNat 1 256 k0
  let f0 := ordF o 10 7 0
  let f := min f0 (256 - k)
  { mode := ordF o 4 23 22, gen := ordF o 4 21 18, stream := ordF o 4 17 0, pattern := ordF o 5 15 0,
    tok := if tokOk then t0 else inSpace 0 21 t0, n := n, result := ordF o 9 20 0 / 64 * 64, slots := k, first := f,
    clamps := b2n (!tokOk) + b2n (n != n0) + (if ordF o 4 23 22 = 1 then b2n (k != k0) + b2n (f != f0) else 0) }

/-- The stream's state and gen allow the mode (R251). -/
def State.bookAllowed (s : State) (f : BookF) : Bool :=
  let x := s.stream f.stream
  x.gen = f.gen && (match f.mode with
    | 1 => x.st = .admitted
    | 2 => x.st = .decode && decide (64 * (f.n / 64) ≤ x.pos)
    | _ => true)

/-- The 64 B result. Where no block matched, the origin and the hint are free values. -/
def State.bookResult (s : State) (core : Nat) (f : BookF) (chain : List Nat) : State :=
  match chain.getLast? with
  | some x =>
    let n := s.node x
    let bs := leBytes 4 chain.length ++ leBytes 4 x ++ leBytes 4 (n.stream + n.gen <<< 18) ++ List.replicate 20 0
      ++ (List.range 8).flatMap (fun i => leBytes 4 (n.hint.getD i 0))
    s.stockWrite core f.result bs
  | none =>
    let (s1, bs) := s.freeBytes 36
    s1.stockWrite core f.result (leBytes 4 0 ++ leBytes 4 bookNone ++ bs.take 4 ++ List.replicate 20 0 ++ bs.drop 4)

/-- ATTACH: ALIAS entries for the stream's slots over the matched pages (R243, R251). An entry of the origin that is
itself an ALIAS is shared through its own target. Answers the entries created, and whether all were placed. -/
def State.bookAttach (s : State) (core : Nat) (f : BookF) (last m : Nat) : State × List Nat × Bool :=
  let n := s.node last
  ((List.range f.slots).map (f.first + ·)).foldl (fun (acc : State × List Nat × Bool) slot =>
    -- the pages of the origin's slot tell its token capacity
    let orig := acc.1.slotEntries n.stream n.gen slot
    let t := (orig.foldl (fun x e => max x e.2.fill) 0)
    let cap := match orig.find? (fun e => e.2.page = 0) with | some e => if e.2.geo = 0 then t else e.2.geo | none => t
    if cap = 0 then acc else
    (List.range (ceilDiv (64 * m) cap)).foldl (fun (acc : State × List Nat × Bool) q =>
      if !acc.2.2 then acc
      else match acc.1.pageEntry n.stream n.gen slot q with
      | none => acc
      | some i =>
        let e := acc.1.ledg i
        let target := if e.st = .alias_ then e.frame else i
        let (s1, at_) := acc.1.ledgPlace core f.stream f.gen slot q
        match at_ with
        | none => (s1, acc.2.1, false)
        | some k =>
          let a : LEntry := { st := .alias_, z := e.z, fill := min cap (64 * m - cap * q), page := q, slot := slot, gen := f.gen,
                              stream := f.stream, frame := target, geo := cap }
          let s2 := (s1.setLedg k a).setLedg target { s1.ledg target with refs := (s1.ledg target).refs + 1 }
          (s2, acc.2.1 ++ [k], true)) acc) (s, [], true)

/-- INSERT of one block: the first examined node that is not LIVE, or the one with the oldest last_use that is not on the
chain being inserted (R251). -/
def State.bookInsertOne (s : State) (core : Nat) (f : BookF) (chain : List Nat) (j : Nat) (h : DWord) (check : Word)
    (hint : List Nat) : State × Option Nat :=
  let steps := match s.partOfCore core with | some p => (s.part p).steps | none => 0
  -- examined nodes whose origin is gone are freed first
  let s1 := (bookSpots h).foldl (fun s x =>
    if (s.node x).live && !s.originLives (s.node x) then (s.setNode x {}).bookBump core rBookStale 1 else s) s
  let spots := bookSpots h
  let parent := chain.getLastD bookNone
  let put (s : State) (x : Nat) : State :=
    let n : BookNode := { live := true, h := h, check := check, parent := parent, child := bookNone, gen := f.gen,
                          stream := f.stream, j := j, lastUse := steps % 4294967296, hint := [] }
    let s2 := (s.setNode x n).bookBump core rBookInserts 1
    if parent = bookNone then s2 else s2.setNode parent { s2.node parent with child := x, hint := hint }
  match spots.find? (fun x => !(s1.node x).live) with
  | some x => (put s1 x, some x)
  | none =>
    let cand := spots.filter (fun x => !chain.contains x)
    let oldest := cand.foldl (fun m x => min m (s1.node x).lastUse) 4294967296
    match cand.find? (fun x => (s1.node x).lastUse = oldest) with
    | some x => (put (s1.bookBump core rBookEvicts 1) x, some x)
    | none => (s1, none)

/-- The started BOOK_LOOKUP does what it can now: it waits for its tokens to be readable. An ATTACH that finds no room for an
entry is refused and leaves nothing behind (R10). -/
def State.bookTry (s : State) (c id : Nat) : State :=
  match (s.core c).flight id with
  | none => s
  | some fl =>
    let f := bookFields fl.ord
    let blocks := if f.mode = 2 then f.n / 64 else (f.n - 1) / 64
    let loc := locOf c f.tok
    if fl.done || fl.op != 0x31 || !s.placeReady loc (256 * blocks) true then s
    else
      let (s0, b, ok) := s.readOrFree loc (256 * blocks)
      if !ok then s0.finish c id stLost
      else
        let toks := (List.range (64 * blocks)).map (fun i => leNat ((b.drop (4 * i)).take 4))
        let hs := bookHashes f.pattern toks blocks
        let on := s0.fld pgBook (coreHalf c) 0 rBookCfg 31 31 = 1
        let s1 := s0.bookBump c rBookLookups 1
        let (s2, chain) := if on then s1.bookMatch c hs ((f.n - 1) / 64) else (s1, [])
        let s3 := s2.bookBump c rBookHitBlocks chain.length
        let m := chain.length
        match f.mode with
        | 1 =>
          let s4 := s3.bookResult c f chain
          if m = 0 then s4.finish c id stOk
          else
            let (s5, _, placed) := s4.bookAttach c f (chain.getLastD 0) m
            if placed then (s5.modStream f.stream (fun x => { x with bookM := m, pos := 64 * m })).finish c id stOk
            else (s.noteRefuse pgBook (coreHalf c)).finish c id stQuota
        | 2 =>
          let (s4, _) := if !on then (s3, chain) else
            ((List.range blocks).filter (fun j => decide (j ≥ m))).foldl (fun (acc : State × List Nat) j =>
              if acc.2.length != j then acc
              else
                let e := hs.getD j (0, 0)
                let (s', x) := acc.1.bookInsertOne c f acc.2 j e.1 e.2 ((toks.drop (64 * j)).take 8)
                match x with
                | some k => (s', acc.2 ++ [k])
                | none => (s', acc.2)) (s3, chain)
          (s4.bookResult c f chain).finish c id stOk
        | _ => (s3.bookResult c f chain).finish c id stOk

/-- BOOK_LOOKUP of one mode starts. -/
def State.bookStart (s : State) (c mode : Nat) : State :=
  s.runOrder c (fun st => st.op = 0x31 && ordF st.ord 4 23 22 = mode) (fun s st =>
    let f := bookFields st.ord
    let blocks := f.n / 64
    let window := match s.partOfCore c with | some p => s.inWindows p (locOf c f.tok) (256 * blocks) | none => false
    if !s.bookAllowed f then s.refuseOrder c st stState
    else if !window then s.refuseOrder c st stQuota
    else
      let (s1, id) := s.startLate c st
      (s1.oweClamps c id pgBook (coreHalf c) f.clamps).bookTry c id)

def execBookMatch (core : Nat) (s : State) : Host.Outcome State Fault Refusal := .next (reachOrder.take s (s.bookStart core 0))
def execBookAttach (core : Nat) (s : State) : Host.Outcome State Fault Refusal := .next (reachOrder.take s (s.bookStart core 1))
def execBookInsert (core : Nat) (s : State) : Host.Outcome State Fault Refusal := .next (reachOrder.take s (s.bookStart core 2))
def execBookPeek (core : Nat) (s : State) : Host.Outcome State Fault Refusal := .next (reachOrder.take s (s.bookStart core 3))

end Sys2Proof.Machine
end

