-- ==== Sys2Proof/Machine/Serve.lean ====
section
/-! DEFINITION. The serving engine's records (R257 to R262): register fields with their clamps, stream-roll and ledger
images, history buffers, token records, mirror messages (R469 to R472), the end of a stream, and admission. -/

namespace Sys2Proof.Machine

/-! ### Writing the fields of a register -/

/-- The value of a register after a write of `new` over `old`: each RW field takes its new value or the nearer bound,
every other bit keeps its own; and the number of fields clamped (R7, R8). -/
def RegDef.written (d : RegDef) (old new : Nat) : Nat × Nat :=
  d.fields.foldl (fun (acc : Nat × Nat) f =>
    match f.acc with
    | .rw =>
      let v := bits new f.hi f.lo
      let c := clampNat f.min f.max v
      (setBits acc.1 f.hi f.lo c, acc.2 + b2n (c != v))
    | _ => acc) (old, 0)

/-- Clamps that tie two fields of one register together, or a value that goes to a named one: the stagger phase below
its grid, park_high above park_low, and the policies of PORT_CFG. `w` is the value written, `v` the value after the bounds of
its fields; answers the value, and how many more fields are clamped. -/
def fieldTies (code off w v : Nat) : Nat × Nat :=
  if code = pgFore && off = rForeStagger then
    let g := bits v 15 0
    let ph := bits v 31 16
    if ph < g || ph = 0 then (v, 0) else (setBits v 31 16 (g - 1), 1)
  else if code = pgFore && off = rForePolicy then
    let lo := bits v 14 8
    if bits v 22 16 < lo + 1 then (setBits v 22 16 (lo + 1), b2n (bits v 22 16 = bits w 22 16)) else (v, 0)
  else if code = pgPort && off = rPortCfg then
    if bits v 1 0 = 3 then (setBits v 1 0 0, 1) else (v, 0)
  else (v, 0)

/-- The value that a stored register takes from a write, and its clamps. -/
def State.regTakes (s : State) (code inst bank off new : Nat) : Nat × Nat :=
  match regFind code off with
  | none => (0, 0)
  | some d =>
    let (v, k) := d.written (s.reg code inst bank off).toNat new
    let (v', k') := fieldTies code off new v
    (v', k + k')

/-- The fields of a stored register take new values (R7), and their clamps are counted in the page. -/
def State.putReg (s : State) (code inst bank off new : Nat) : State :=
  let (v, k) := s.regTakes code inst bank off new
  if (regFind code off).isNone then s else (s.setReg code inst bank off (BitVec.ofNat 64 v)).noteClamps code inst k

/-! ### Images of entries -/

def SState.code (x : SState) : Nat :=
  match x with | .free => 0 | .admitted => 1 | .prefill => 2 | .decode => 3 | .parked => 4 | .draining => 5 | .done => 6
def SState.of (n : Nat) : SState := [SState.free, .admitted, .prefill, .decode, .parked, .draining, .done].getD n .free
def LState.code (x : LState) : Nat :=
  match x with | .free => 0 | .near => 1 | .far => 2 | .moving => 3 | .alias_ => 4 | .recompute => 5
def LState.of (n : Nat) : LState := [LState.free, .near, .far, .moving, .alias_, .recompute].getD n .free

/-- The 256 B of a stream-roll entry (the table of the entry). -/
def Stream.image (x : Stream) : List Byte :=
  let w (n : Nat) : List Byte := leBytes 4 n
  w (x.st.code + (x.gen % 16) <<< 3 + (x.part % 64) <<< 7 + b2n x.pinned <<< 13 + b2n x.inStep <<< 14 + b2n x.rebuilt <<< 15
      + (x.cls % 4) <<< 16)
    ++ w x.tag ++ w x.pattern ++ w x.nPrompt ++ w x.pos ++ w x.emitted ++ w x.maxNew ++ leBytes 8 x.hist
    ++ leBytes 8 x.seed.toNat ++ w x.rng.toNat ++ w x.temp.toNat ++ w x.topP.toNat ++ w x.minP.toNat ++ w x.opts ++ w x.stop
    ++ w x.ttft ++ w x.tbt ++ w x.lastStep ++ leBytes 8 x.deadline.toNat ++ w x.voided ++ w x.lastTok ++ w x.bookM
    ++ w x.epoch.toNat ++ w x.offered ++ w x.accepted ++ List.replicate 16 0
    ++ (List.range 16).flatMap (fun i => w (smGet (0 : Word) x.priv i).toNat) ++ List.replicate 64 0

/-- The entry that 256 B hold. What the entry does not hold is taken from it as far as it says it: the history's capacity,
whether it was admitted with max_new above 0, and whether a PARKED stream was in DECODE. -/
def Stream.ofImage (bs : List Byte) : Stream :=
  let v := leNat bs
  let w (i : Nat) : Nat := bits v (32 * i + 31) (32 * i)
  let nPrompt := bits (w 3) 22 0
  let pos := bits (w 4) 22 0
  let emitted := bits (w 5) 22 0
  let maxNew := bits (w 6) 22 0
  { st := SState.of (bits (w 0) 2 0), gen := bits (w 0) 6 3, part := bits (w 0) 12 7, pinned := bit (w 0) 13,
    inStep := bit (w 0) 14, rebuilt := bit (w 0) 15, cls := bits (w 0) 17 16, tag := w 1, pattern := bits (w 2) 15 0,
    nPrompt := nPrompt, pos := pos, emitted := emitted, maxNew := maxNew, hist := ordW64 v 7,
    seed := BitVec.ofNat 64 (ordW64 v 9), rng := BitVec.ofNat 32 (w 11), temp := BitVec.ofNat 32 (w 12),
    topP := BitVec.ofNat 32 (w 13), minP := BitVec.ofNat 32 (w 14), opts := w 15, stop := w 16, ttft := w 17, tbt := w 18,
    lastStep := w 19, deadline := BitVec.ofNat 64 (ordW64 v 20), voided := bits (w 22) 3 0, lastTok := w 23,
    bookM := bits (w 24) 16 0, epoch := BitVec.ofNat 32 (w 25), offered := w 26, accepted := w 27,
    priv := (List.range 16).foldl (fun m i => smSet 0 m i (BitVec.ofNat 32 (w (32 + i)))) [],
    admittedMax := decide (emitted + maxNew > 0), cap := nPrompt + emitted + maxNew,
    wasDecode := decide (emitted > 0) && decide (nPrompt + emitted ≤ pos + 1) }

/-- The 16 B of a ledger entry (R241). -/
def LEntry.image (e : LEntry) : List Byte :=
  leBytes 4 (e.fill % 4096 + (e.z % 4) <<< 13 + b2n e.held <<< 15 + (e.refs % 8192) <<< 16 + e.st.code <<< 29)
    ++ leBytes 4 ((e.gen % 16) <<< 4 + (e.slot % 256) <<< 8 + (e.page % 65536) <<< 16)
    ++ leBytes 4 (e.stream % 262144 + (e.epoch % 16384) <<< 18)
    ++ leBytes 4 (if e.st = .alias_ then e.frame % 33554432
        else if e.st = .far || (e.st = .moving && !e.toFar) then e.frame % 33554432 + (e.vault % 4) <<< 25
        else e.frame % 32768 + (e.vault % 256) <<< 15)

def LEntry.ofImage (bs : List Byte) : LEntry :=
  let v := leNat bs
  let w (i : Nat) : Nat := bits v (32 * i + 31) (32 * i)
  let st := LState.of (bits (w 0) 31 29)
  let far := st = .far
  { st := st, refs := bits (w 0) 28 16, held := bit (w 0) 15, z := bits (w 0) 14 13, fill := bits (w 0) 11 0,
    page := bits (w 1) 31 16, slot := bits (w 1) 15 8, gen := bits (w 1) 7 4, epoch := bits (w 2) 31 18,
    stream := bits (w 2) 17 0, toFar := st = .moving,
    vault := if st = .alias_ then 0 else if far then bits (w 3) 26 25 else bits (w 3) 22 15,
    frame := if st = .alias_ || far then bits (w 3) 24 0 else bits (w 3) 14 0,
    home := if far || st = .alias_ then 0 else bits (w 3) 22 15 }

/-! ### The streams of a partition -/

/-- The streams of a partition that are not FREE, in ascending number. -/
def State.streamsOf (s : State) (p : Nat) : List (Nat × Stream) := s.rollAll.filter (fun e => e.2.part = p && e.2.st != .free)

/-- Fields of request Word 12. -/
def Stream.topK (x : Stream) : Nat := bits x.opts 6 0
def Stream.nGambit (x : Stream) : Nat := bits x.opts 11 8
def Stream.gsrc (x : Stream) : Nat := bits x.opts 13 12
def Stream.keepOpen (x : Stream) : Bool := bit x.opts 18
/-- Tokens of the stream so far, and those not cached. -/
def Stream.total (x : Stream) : Nat := x.nPrompt + x.emitted
def Stream.uncached (x : Stream) : Nat := x.total - x.pos
/-- R269. -/
def Stream.idle (x : Stream) : Bool := x.st = .decode && x.maxNew = 0

/-- The lowest logical core of a partition. -/
def State.firstCore (s : State) (p : Nat) : Nat := (s.part p).cores.headD 0

/-! ### History buffers (R271, R472, R475) -/

/-- An adopted stream's history lies in the mirror pool: its record is a FAR order address. -/
def adoptedHist (h : Nat) : Bool := spaceOf h = 5

/-- Where the history pages of a partition's mirror area begin (R472): far port and offset. -/
def State.mirrorBase (s : State) (p : Nat) : Nat × Nat :=
  let v := (s.reg pgStw 0 p rStwMirrorBase).toNat
  (bits v 41 40, bits v 39 16 * 65536)

/-- Far bytes of the mirror area; the device's own, read and written whatever else the port carries. -/
def State.farBytes (s : State) (port off n : Nat) : List Byte := memBytesWrap 1099511627776 (s.farPort port).mem off n
def State.farPut (s : State) (port off : Nat) (bs : List Byte) : State :=
  s.modFar port (fun f => { f with mem := memSetBytesWrap 1099511627776 f.mem off bs })

/-- Where token x of a history lies in the mirror pool. -/
def State.poolTok (s : State) (p h x : Nat) : Nat × Nat :=
  let (port, base) := s.mirrorBase p
  let rec_ := bits h 39 0
  let pg := leNat (s.farBytes port (rec_ + 264 + 4 * (x / 16384)) 3)
  (port, base + 536870912 + pg * 65536 + 4 * (x % 16384))

/-- n tokens of a history from token x on; nothing where they cannot be read. -/
def State.histRead (s : State) (p h x n : Nat) : Option (List Nat) :=
  if adoptedHist h then
    let (port, _) := s.mirrorBase p
    if (s.farPort port).st = .up || (s.farPort port).st = .upDegraded then
      some ((List.range n).map (fun i => let a := s.poolTok p h (x + i); leNat (s.farBytes a.1 a.2 4)))
    else none
  else if s.hostUp then
    let bs := s.hostBytes (h + 4 * x) (4 * n)
    some ((List.range n).map (fun i => leNat ((bs.drop (4 * i)).take 4)))
  else none

/-- n bytes have been fetched for a partition from host memory: they are counted, and charged to its host regulator (R24). -/
def State.hostFetched (s : State) (p n : Nat) : State := (s.bump pgHost 0 0 rHostRxBytes n).dmaCharge p (.host 0) false n

/-- n tokens of a history have been fetched. -/
def State.histFetched (s : State) (p h n : Nat) : State :=
  if adoptedHist h then s.dmaCharge p (.far (s.mirrorBase p).1 0) false (4 * n) else s.hostFetched p (4 * n)

/-- The lowest free history page of a partition's pool (R472). -/
def State.freeHistPage (s : State) (p : Nat) : Option Nat :=
  let used := smGet [] s.abs.mirPages p
  let n := s.fld pgStw 0 p rStwMirrorPages 23 0
  let k := used.foldl (fun k x => if x = k then k + 1 else k) 0
  if k < n then some k else none

/-- A record's page for token x is there: one is allocated if needed. Answers whether there is one. -/
def State.poolPage (s : State) (p rec_ x : Nat) : State × Bool :=
  let (port, _) := s.mirrorBase p
  let held := bits (leNat (s.farBytes port (rec_ + 256) 4)) 22 0
  -- pages are needed in order: a page is there once a token of it, or of a later one, is held
  if x / 16384 < ceilDiv held 16384 then (s, true)
  else match s.freeHistPage p with
  | none => (s, false)
  | some k =>
    let s1 := { s with abs := { s.abs with mirPages := smSet [] s.abs.mirPages p (insNat (smGet [] s.abs.mirPages p) k) } }
    (s1.farPut port (rec_ + 264 + 4 * (x / 16384)) (leBytes 4 k), true)

/-- A record of the mirror pool is freed with its pages (R472, R475). -/
def State.poolFree (s : State) (p src : Nat) : State :=
  let (port, base) := s.mirrorBase p
  let rec_ := base + src * 2048
  let held := bits (leNat (s.farBytes port (rec_ + 256) 4)) 22 0
  let pages := (List.range (ceilDiv held 16384)).map (fun j => leNat (s.farBytes port (rec_ + 264 + 4 * j) 3))
  let s1 := s.farPut port (rec_ + 256) (leBytes 4 0)
  { s1 with abs := { s1.abs with
      mirPages := smSet [] s1.abs.mirPages p ((smGet [] s1.abs.mirPages p).filter (fun k => !pages.contains k))
      mirLive := smSet [] s1.abs.mirLive p ((smGet [] s1.abs.mirLive p).filter (· != src)) } }

/-- The record in which an adopted stream's history lies. -/
def State.poolOf (s : State) (p h : Nat) : Nat := (bits h 39 0 - (s.mirrorBase p).2) / 2048

/-- Token x of a history is written (R271, R278). -/
def State.histWrite (s : State) (p h x tok : Nat) : State :=
  if adoptedHist h then
    let (s1, ok) := s.poolPage p (bits h 39 0) x
    if !ok then s1
    else
      let (port, _) := s1.mirrorBase p
      let rec_ := bits h 39 0
      let a := s1.poolTok p h x
      let w := leNat (s1.farBytes port (rec_ + 256) 4)
      (s1.farPut a.1 a.2 (leBytes 4 tok)).farPut port (rec_ + 256) (leBytes 4 (setBits w 22 0 (max (bits w 22 0) (x + 1))))
  else (s.hostWrite (h + 4 * x) (leBytes 4 tok)).dmaCharge p (.host 0) true 4

/-! ### Token records (R259 to R262) -/

/-- End codes. -/
abbrev endNone := 0
abbrev endStop := 1
abbrev endCancel := 2
abbrev endError := 3
abbrev tokNone := 0xFFFFFFFF

/-- A token record but for its phase bit. -/
def tokRec (tag tok end_ status pos stream gen : Nat) (gambit : Bool) : List Byte :=
  leBytes 4 tag ++ leBytes 4 tok
    ++ leBytes 4 (pos % 8388608 + (status % 16) <<< 24 + b2n gambit <<< 28 + (end_ % 4) <<< 29)
    ++ leBytes 4 (stream % 262144 + (gen % 16) <<< 18)

def State.tokLog (s : State) (p : Nat) : Nat := s.fld pgFore 0 p rForeTokCfg 4 0
def State.tokOn (s : State) (p : Nat) : Bool := s.fld pgFore 0 p rForeTokCfg 31 31 = 1 && s.hostUp

/-- A record goes to the token ring (R260). While the link is down, or the ring is not enabled, no record is written (R385). -/
def State.tokPut (s : State) (p : Nat) (rec_ : List Byte) : State :=
  if !s.tokOn p then s
  else
    let n := s.tokLog p
    let x := s.part p
    let i := x.tokTail
    let phase := 1 - (i >>> n) % 2
    let w2 := leNat ((rec_.drop 8).take 4)
    let bs := rec_.take 8 ++ leBytes 4 (w2 + phase <<< 31) ++ rec_.drop 12
    let a := s.fld pgFore 0 p rForeTokBase 63 4 * 16 + (i % 2 ^ n) * 16
    let s1 := ((s.hostWrite a bs).dmaCharge p (.host a) true 16).modPart p (fun x => { x with
      tokTail := (i + 1) % (2 * 2 ^ n)
      tokTimes := x.tokTimes ++ [s.timeUs] })
    if leNat ((rec_.drop 4).take 4) = tokNone then s1 else s1.bump pgFore 0 p rForeTokens 1

/-- A record of stream n goes to the token ring: its token misses its deadline if it is written later than `due` (R278); the
index of its end record is kept (R272). Numbers from 2^18 on stand for
streams of another device, which have no entry here. -/
def State.tokOwn (s : State) (p n : Nat) (rec_ : List Byte) (due : DWord := 0xFFFFFFFFFFFFFFFF) : State :=
  let late := s.tokOn p && leNat ((rec_.drop 4).take 4) != tokNone && due != 0xFFFFFFFFFFFFFFFF && decide (s.timeUs > due.toNat)
  let s1 := (s.tokPut p rec_).bump pgFore 0 p rForeDeadlineMiss (b2n late)
  if s.tokOn p && decide (n < 262144) && bits (leNat ((rec_.drop 8).take 4)) 30 29 != 0 && (s.stream n).st != .free
      && (s.stream n).gen = bits (leNat (rec_.drop 12)) 21 18 then
    s1.modStream n (fun e => { e with endDone := true, endAt := (s.part p).tokTail })
  else s1

/-- Free places of a token ring. -/
def State.tokSpace (s : State) (p : Nat) : Nat :=
  let n := s.tokLog p
  let x := s.part p
  2 ^ n - (x.tokTail + 2 * 2 ^ n - x.tokHead % (2 * 2 ^ n)) % (2 * 2 ^ n)

/-- Open mirrors of a stream of this partition (R471). -/
def State.mirrorsOpen (s : State) (p n : Nat) : Bool :=
  s.fab.outs.any (fun t => t.kind = .mirror && t.core = p && t.flight = n)

/-- Updates of the stream roll and the ledger wait for the lost half's copies until they are replayed, or the loss escalates
(R465, R467, R468). -/
def State.replayHolds (s : State) : Bool :=
  match s.abs.fence with
  | some f => decide (f.stage < 4) && !f.escalated
  | none => false

/-- A stream's record: it waits for the buddy's acknowledgement of the stream's mirrors (R471), and for the replay of the
updates that precede it (R465). -/
def State.tokSend (s : State) (p n : Nat) (rec_ : List Byte) (due : DWord := 0xFFFFFFFFFFFFFFFF) : State :=
  if s.mirrorsOpen p n || s.replayHolds || s.abs.heldRecs.any (fun r => r.1 = p && r.2.1 = n) then
    { s with abs := { s.abs with heldRecs := s.abs.heldRecs ++ [(p, n, [rec_, leBytes 8 due.toNat])] } }
  else s.tokOwn p n rec_ due

/-- Records that waited for a stream's mirrors are written, as far as the ring has room. -/
def State.tokRelease (s : State) (p n : Nat) : State :=
  if s.mirrorsOpen p n || s.replayHolds then s
  else
    let mine := s.abs.heldRecs.filter (fun r => r.1 = p && r.2.1 = n)
    let s1 := { s with abs := { s.abs with heldRecs := s.abs.heldRecs.filter (fun r => !(r.1 = p && r.2.1 = n)) } }
    let (s2, rest) := mine.foldl (fun (acc : State × List (Nat × Nat × List (List Byte))) r =>
      if !acc.2.isEmpty || acc.1.tokSpace p = 0 then (acc.1, acc.2 ++ [r])
      else (acc.1.tokOwn p n (r.2.2.getD 0 []) (BitVec.ofNat 64 (leNat (r.2.2.getD 1 []))), acc.2)) (s1, [])
    { s2 with abs := { s2.abs with heldRecs := s2.abs.heldRecs ++ rest } }

/-- Records for which the ring has room (R261): less those that the running step may still produce and those that wait
for a mirror. -/
def State.tokRoom (s : State) (p : Nat) : Nat :=
  if !s.tokOn p then 0
  else
    let n := s.tokLog p
    let x := s.part p
    let used := (x.tokTail + 2 * 2 ^ n - x.tokHead % (2 * 2 ^ n)) % (2 * 2 ^ n)
    let kept := if x.running then (x.set.map (fun e => if e.kind = 3 then 0 else 2 + (s.stream e.stream).nGambit)).foldl (· + ·) 0 else 0
    2 ^ n - used - kept - (s.abs.heldRecs.filter (fun r => r.1 = p)).length

/-- A stream writes a record; its first one carries the clamp of its admission (R258). -/
def State.streamRec (s : State) (n tok end_ status pos : Nat) (gambit : Bool) (due : DWord := 0xFFFFFFFFFFFFFFFF) : State :=
  let e := s.stream n
  let st0 := if e.clampNote && !e.noted then statusJoin status stClamped else status
  let st := if s.replayHolds then statusJoin st0 stReplayed else st0
  let s1 := if e.noted then s else s.modStream n (fun e => { e with noted := true })
  s1.tokSend e.part n (tokRec e.tag tok end_ st pos n e.gen gambit) due

/-- A separate end record (R260): it carries no token, and its position is a free value. -/
def State.endRec (s : State) (n end_ status : Nat) : State :=
  (s.freeUsed).streamRec n tokNone end_ status ((s.freeVal).toNat % 8388608) false

/-! ### Mirrors at the source (R469 to R471) -/

/-- A stream of a partition is mirrored now. -/
def State.mirrors (s : State) (p n : Nat) : Bool :=
  s.fld pgStw 0 p rStwMirrorOut 31 31 = 1 && s.fab.isMember && !s.abs.mirrorOff.contains n && !adoptedHist (s.stream n).hist

/-- One MIRROR message: one transfer to the buddy. -/
def State.mirrorSend (s : State) (p n kind first : Nat) (data : List Byte) : State :=
  if !s.mirrors p n then s
  else
    let buddy := s.fld pgStw 0 p rStwMirrorOut 13 8
    let x := s.freeXfer
    let m : FMsg := ⟨0x0F, buddy, 0, s.fab.guild, 0, false,
      n % 262144 + ((s.stream n).gen % 16) <<< 18 + kind <<< 22 + (first % 8388608) <<< 24 + (x % 4096) <<< 47, data⟩
    let t : XferOut := ⟨x, .mirror, s.fab.guild, buddy, p, n, [m], 0, 0, 0, [], false⟩
    (({ s with fab := { s.fab with nextXfer := (x + 1) % 4096, outs := s.fab.outs ++ [t] } }).bump pgStw 0 0 rStwMirrorMsgs 1).sendMsg m

/-- ENTRY, after a stream-roll update that a step end or a command makes. -/
def State.mirrorEntry (s : State) (n k : Nat) : State :=
  let e := s.stream n
  s.mirrorSend e.part n 0 0 (e.image ++ leBytes 8 (k % 16))

/-- TOKENS, 144 at most in one message. -/
def State.mirrorToks (s : State) (n first : Nat) (toks : List Nat) : State :=
  (List.range (ceilDiv toks.length 144)).foldl (fun s i =>
    s.mirrorSend (s.stream n).part n 1 (first + 144 * i) (((toks.drop (144 * i)).take 144).flatMap (leBytes 4))) s

/-- RELEASE, when the stream goes from DONE to FREE. -/
def State.mirrorRelease (s : State) (n : Nat) : State :=
  let s1 := s.mirrorSend (s.stream n).part n 2 0 []
  { s1 with abs := { s1.abs with mirrorOff := s1.abs.mirrorOff.filter (· != n) } }

/-! ### The end of a stream (R243, R270, R272) -/

/-- Every ledger entry of a stream is released. -/
def State.releaseStream (s : State) (n : Nat) : State :=
  let e := s.stream n
  let es := s.ledgAll.filter (fun x => x.2.st != .free && !x.2.held && x.2.stream = n && x.2.gen = e.gen)
  es.foldl (fun s x => s.releaseEntry x.1) s

/-- A stream goes to DRAINING, its end record written already or still due. -/
def State.drain (s : State) (n end_ status : Nat) (written : Bool) : State :=
  let s1 := (s.modStream n (fun e => { e with
    st := .draining, endCode := end_, endStatus := status, endDone := if written then e.endDone else false, inStep := false }))
  let s2 := s1.releaseStream n
  let p := (s.stream n).part
  let s3 := s2.modPart p (fun x => { x with unpark := x.unpark.filter (· != n), parkFirst := x.parkFirst.filter (· != n) })
  if written then s3 else if s3.tokRoom p = 0 then s3 else s3.endRec n end_ status

/-- DRAINING streams of a partition whose end record is still due write it while the ring has room. -/
def State.flushEnds (s : State) (p : Nat) : State :=
  ((s.streamsOf p).filter (fun e => e.2.st = .draining && !e.2.endDone
      && !s.abs.heldRecs.any (fun r => r.1 = p && r.2.1 = e.1))).foldl (fun s e =>
    if s.tokRoom p = 0 then s else s.endRec e.1 e.2.endCode e.2.endStatus) s

/-- A stream becomes FREE; its gen advances when it is next admitted (R272). -/
def State.freeStream (s : State) (n : Nat) : State :=
  let e := s.stream n
  let s1 := if adoptedHist e.hist then s.poolFree e.part (s.poolOf e.part e.hist) else s
  (s1.mirrorRelease n).setStream n { gen := e.gen, part := e.part, epoch := e.epoch }

/-! ### Admission (R258, R259, R449) -/

/-- The request fields after their clamps. -/
structure ReqF where
  tag : Nat
  hist : Nat
  nPrompt : Nat
  maxNew : Nat
  seed : DWord
  rng : Word
  temp : Word
  topP : Word
  minP : Word
  opts : Nat
  ttft : Nat
  tbt : Nat
  stop : Nat
  clamps : Nat
deriving DecidableEq, Repr

/-- A sign bit over a value that is not zero. -/
def f32Negative (w : Word) : Bool := fpIsNeg (f32Val w)

/-- Words 1 to 15 of a request record. -/
def reqFields (w : List Nat) : ReqF :=
  let g (i : Nat) : Nat := w.getD i 0 % 4294967296
  let n0 := bits (g 4) 22 0
  let n := clampNat 1 4194303 n0
  let m0 := bits (g 5) 22 0
  let m := min m0 (4194304 - n)
  let t0 : Word := BitVec.ofNat 32 (g 9)
  let tBad := f32IsNan t0 || f32Negative t0
  let p0 : Word := BitVec.ofNat 32 (g 10)
  let pHi := f32IsNan p0 || f32Lt f32One p0
  let q0 : Word := BitVec.ofNat 32 (g 11)
  let qLo := f32IsNan q0 || f32Negative q0
  let o := g 12
  let src := if bits o 13 12 = 3 then 0 else bits o 13 12
  let ng := min 8 (bits o 11 8)
  let tk := min 64 (bits o 6 0)
  { tag := g 1, hist := (g 2 + g 3 <<< 32) / 4 * 4, nPrompt := n, maxNew := m,
    seed := BitVec.ofNat 64 (g 6 + g 7 <<< 32), rng := BitVec.ofNat 32 (g 8),
    temp := if tBad then 0 else t0,
    topP := if pHi then f32One else if f32Negative p0 then 0 else p0,
    minP := if qLo then 0 else if f32Lt f32One q0 then f32One else q0,
    opts := tk + ng <<< 8 + src <<< 12 + bits o 18 16 <<< 16,
    ttft := g 13, tbt := g 14, stop := g 15,
    clamps := b2n (n != n0) + b2n (m != m0) + b2n tBad + b2n (pHi || f32Negative p0) + b2n (qLo || f32Lt f32One q0)
      + b2n (bits o 13 12 = 3) + b2n (bits o 11 8 > 8) + b2n (bits o 6 0 > 64) }

/-- The lowest number that a rising list lacks, from k on. -/
def lowestFree (l : List Nat) (k : Nat) : Nat :=
  match l with
  | [] => k
  | x :: r => if x = k then lowestFree r (k + 1) else k

/-- The lowest-numbered FREE stream, if the partition's count stays within its quota (R259). -/
def State.takeStream (s : State) (p : Nat) : Option Nat :=
  let n := lowestFree ((s.rollAll.filter (fun e => e.2.st != .free)).map (·.1)) 0
  if n < 262144 ∧ (s.streamsOf p).length < s.fld pgFore 0 p rForeStreamQuota 18 0 then some n else none

/-- The history buffer lies in the partition's host window (R449). -/
def State.histInWindow (s : State) (p hist n : Nat) : Bool :=
  s.inWindows p (.host hist) (4 * n)

/-- A deadline of t µs from now; 0 is none. -/
def State.deadlineIn (s : State) (t : Nat) : DWord :=
  if t = 0 then 0xFFFFFFFFFFFFFFFF else BitVec.ofNat 64 (s.timeUs + t)

/-- A prefix of the prompt that the book holds is attached (R251, R272): the stream's computation starts behind it. -/
def State.attachAt (s : State) (p n : Nat) : State :=
  let e := s.stream n
  let c := s.firstCore p
  match s.histRead p e.hist 0 e.nPrompt with
  | none => s
  | some toks =>
    if s.fld pgBook (coreHalf c) 0 rBookCfg 31 31 != 1 then s
    else
      let blocks := (e.nPrompt - 1) / 64
      let (s1, chain) := ((s.histFetched p e.hist e.nPrompt).bookBump c rBookLookups 1).bookMatch c
        (bookHashes e.pattern toks blocks) blocks
      let s2 := s1.bookBump c rBookHitBlocks chain.length
      if chain.isEmpty then s2
      else
        let f : BookF := { mode := 1, gen := e.gen, stream := n, pattern := e.pattern, tok := 0, n := e.nPrompt, result := 0,
                           slots := 256, first := 0, clamps := 0 }
        let (s3, made, ok) := s2.bookAttach c f (chain.getLastD 0) chain.length
        if ok then s3.modStream n (fun e => { e with bookM := chain.length, pos := 64 * chain.length })
        else made.foldl (fun s i => s.releaseEntry i) s3

/-- The prompt's blocks are inserted once the prompt is cached (Word 12 [17]). -/
def State.insertPrompt (s : State) (p n : Nat) : State :=
  let e := s.stream n
  let c := s.firstCore p
  let blocks := e.nPrompt / 64
  if !bit e.opts 17 || s.fld pgBook (coreHalf c) 0 rBookCfg 31 31 != 1 then s
  else match s.histRead p e.hist 0 (64 * blocks) with
  | none => s
  | some toks =>
    let hs := bookHashes e.pattern toks blocks
    let (s1, chain) := ((s.histFetched p e.hist (64 * blocks)).bookBump c rBookLookups 1).bookMatch c hs blocks
    let s2 := s1.bookBump c rBookHitBlocks chain.length
    let f : BookF := { mode := 2, gen := e.gen, stream := n, pattern := e.pattern, tok := 0, n := e.nPrompt, result := 0,
                       slots := 1, first := 0, clamps := 0 }
    (((List.range blocks).filter (fun j => decide (j ≥ chain.length))).foldl (fun (acc : State × List Nat) j =>
      if acc.2.length != j then acc
      else
        let h := hs.getD j (0, 0)
        let (s', x) := acc.1.bookInsertOne c f acc.2 j h.1 h.2 ((toks.drop (64 * j)).take 8)
        match x with
        | some k => (s', acc.2 ++ [k])
        | none => (s', acc.2)) (s2, chain)).1

/-- A stream is taken and becomes ADMITTED (R259, R272). -/
def State.admitStream (s : State) (p n : Nat) (f : ReqF) (pattern cls : Nat) (clamps : Nat) : State :=
  let old := s.stream n
  let e : Stream :=
    { st := .admitted, gen := (old.gen + 1) % 16, part := p, cls := cls, tag := f.tag, pattern := pattern, nPrompt := f.nPrompt,
      maxNew := f.maxNew, hist := f.hist, seed := f.seed, rng := f.rng, temp := f.temp, topP := f.topP, minP := f.minP,
      opts := f.opts, stop := f.stop, ttft := f.ttft, tbt := f.tbt, deadline := s.deadlineIn f.ttft, epoch := old.epoch,
      admittedMax := decide (f.maxNew > 0), clampNote := decide (clamps > 0), cap := f.nPrompt + f.maxNew }
  let s1 := ((s.setStream n e).bump pgFore 0 p rForeAdmits 1).noteClamps pgFore 0 clamps
  let s2 := s1.modPart p (fun x => { x with selFrom := x.selFrom.filter (fun y => y.1 / 256 != e.gen * 262144 + n) })
  let s3 := if bit f.opts 16 then s2.attachAt p n else s2
  let s4 := s3.mirrorEntry n 0
  if s4.mirrors p n then s4.mirrorToks n 0 ((s4.histRead p f.hist 0 f.nPrompt).getD []) else s4

/-- The pattern of an id, loaded in a partition. -/
def Part.pattern (x : Part) (id : Nat) : Option Pattern := x.patterns.find? (fun q => q.id = id)

/-- A record with end ERROR for a request that changes nothing; it waits for room in the ring. Word 3 and the position
name nothing: where the request names no stream they are free values. -/
def State.errRec (s : State) (p tag status : Nat) (who : Option (Nat × Nat)) : State × Bool :=
  if s.tokRoom p = 0 then (s, false)
  else
    let v := s.freeVal.toNat
    let w := s.freeUsed.freeVal.toNat
    let (n, g) := match who with | some x => x | none => (bits w 17 0, bits w 21 18)
    (((s.freeUsed.freeUsed).noteRefuse pgFore 0).tokPut p (tokRec tag tokNone endError status (v % 8388608) n g false), true)

/-- A SUBMIT record (R259, R449). Answers whether the record is consumed. -/
def State.submit (s : State) (p : Nat) (w : List Nat) : State × Bool :=
  let w0 := w.getD 0 0
  let f := reqFields w
  let k := f.clamps + b2n (bits w0 7 0 != 1)
  match (s.part p).pattern (bits w0 31 16) with
  | none => s.errRec p f.tag stState none
  | some _ =>
    if !s.histInWindow p f.hist (f.nPrompt + f.maxNew) then s.errRec p f.tag stQuota none
    else if (s.part p).farFull then (s, false)
    else match s.takeStream p with
    | none => (s, false)
    | some n => (s.admitStream p n f (bits w0 31 16) (bits w0 11 10) k, true)

/-- A CONTINUE record (R258, R270, R273). Answers whether the record is consumed. With no capacity left n_prompt has no value
in its range; it becomes 1 (DESIGN CHOICE, assumption 119). -/
def State.continue_ (s : State) (p : Nat) (w : List Nat) : State × Bool :=
  let n := bits (w.getD 8 0) 17 0
  let g := bits (w.getD 8 0) 21 18
  let e := s.stream n
  let legal := e.part = p && e.gen = g && (e.idle || (e.st = .parked && e.pinned))
  let left := e.cap - e.total
  if !legal then s.errRec p (w.getD 1 0) stState (some (n, g))
  else
    let a0 := bits (w.getD 4 0) 22 0
    let a := clampNat 1 (max 1 left) a0
    let m0 := bits (w.getD 5 0) 22 0
    let m := min m0 (4194304 - a)
    let k := b2n (a != a0) + b2n (m != m0)
    let s0 := if e.st = .parked then s.bump pgFore 0 p rForeUnparks 1 else s
    let s1 := (s0.setStream n { e with
      st := .prefill, pinned := false, tag := w.getD 1 0, nPrompt := e.nPrompt + a, maxNew := m,
      deadline := s.deadlineIn e.ttft, clampNote := decide (k > 0), noted := false, endDone := false }).noteClamps pgFore 0 k
    let s2 := s1.mirrorEntry n 0
    let s3 := if s2.mirrors p n then s2.mirrorToks n e.total ((s2.histRead p e.hist e.total a).getD []) else s2
    (s3, true)

/-- The words of the record at the head of a partition's request ring, if one is there to be read (R257, R266, R424). -/
def State.ringHead (s : State) (p : Nat) : Option (List Nat) :=
  let x := s.part p
  let n := s.fld pgFore 0 p rForeReqCfg 4 0
  if s.fld pgFore 0 p rForeReqCfg 31 31 != 1 || x.st = .empty || x.st = .resetting || !s.hostUp
      || s.boot.state = .adjourned || s.boot.state = .halted
      || x.reqHead % (2 * 2 ^ n) = x.reqTail % (2 * 2 ^ n) then none
  else
    let bs := s.hostBytes (s.fld pgFore 0 p rForeReqBase 63 6 * 64 + (x.reqHead % 2 ^ n) * 64) 64
    some ((List.range 16).map (fun i => leNat ((bs.drop (4 * i)).take 4)))

/-- FORE_ADMIT_HELD counts each step in which the ring head is held (R259). -/
def State.noteHeld (s : State) (p : Nat) : State :=
  let x := s.part p
  if x.running && x.heldAt != some x.steps then
    (s.bump pgFore 0 p rForeAdmitHeld 1).modPart p (fun x => { x with heldAt := some x.steps, admitHeld := true })
  else s.modPart p (fun x => { x with admitHeld := true })

/-- A SUBMIT record at a ring head waits for a stream, or for room in the far tier (R259, R280). -/
def State.submitWaits (s : State) (p : Nat) (w : List Nat) : Bool :=
  let f := reqFields w
  bits (w.getD 0 0) 7 0 != 2 && ((s.part p).pattern (bits (w.getD 0 0) 31 16)).isSome && s.histInWindow p f.hist (f.nPrompt + f.maxNew)

/-- The record at the ring head is consumed, or the head is held. -/
def State.consumeOne (s : State) (p : Nat) (w : List Nat) : State × Bool :=
  let (s1, ok) := if bits (w.getD 0 0) 7 0 = 2 then s.continue_ p w else s.submit p w
  let n := s.fld pgFore 0 p rForeReqCfg 4 0
  if ok then ((s1.hostFetched p 64).modPart p (fun x => { x with reqHead := (x.reqHead + 1) % (2 * 2 ^ n), admitHeld := false }), true)
  else if s.submitWaits p w then (s1.noteHeld p, false)
  else (s1, false)

/-- Records are consumed in ring order, at most k. -/
def State.consume (s : State) (p k : Nat) : State :=
  match k with
  | 0 => s
  | k + 1 =>
    match s.ringHead p with
    | none => s
    | some w =>
      let (s1, ok) := s.consumeOne p w
      if ok then s1.consume p k else s1

/-- The head index goes to host memory after a batch (R257). -/
def State.putHead (s : State) (p old : Nat) : State :=
  let x := s.part p
  let n := s.fld pgFore 0 p rForeReqCfg 4 0
  if x.reqHead = old then s
  else (s.hostWrite (s.fld pgFore 0 p rForeReqBase 63 6 * 64 + 2 ^ n * 64) (leBytes 4 x.reqHead)).dmaCharge p (.host 0) true 4

/-- The request ring of a partition is read until it is empty or its head is held. -/
def State.pollRing (s : State) (p : Nat) : State :=
  let n := s.fld pgFore 0 p rForeReqCfg 4 0
  (s.consume p (2 ^ n)).putHead p (s.part p).reqHead

end Sys2Proof.Machine
end

