-- ==== Sys2Proof/Machine/Foreman.lean ====
section
/-! DEFINITION. The foreman's steps (R130, R274 to R281, R284, R296), parking (R279, R280) and page moves (R198, R243,
R244). -/

namespace Sys2Proof.Machine

/-! ### Step starts -/

def State.queueOn (s : State) (c q : Nat) : Bool := s.fld pgClerk c 0 rClerkCfg q q = 1

/-- R130: every enabled queue is IDLE or stopped, and every started order has completed. -/
def State.coreQuiet (s : State) (c : Nat) : Bool :=
  (s.core c).flights.isEmpty && (List.range 4).all (fun q =>
    let x := s.queue c q
    !s.queueOn c q || x.stopped || !x.running || decide (x.index ≥ s.queueLen c q))

def State.partQuiet (s : State) (p : Nat) : Bool := (s.part p).cores.all (fun c => s.coreQuiet c)

/-- The stagger rule at the present device time, which stands for the hundred instants of 0.1 µs up to the next tick (R277). -/
def State.staggerOk (s : State) (p : Nat) : Bool :=
  let g := s.fld pgFore 0 p rForeStagger 15 0
  let ph := s.fld pgFore 0 p rForeStagger 31 16
  g = 0 || (List.range 100).any (fun k => (10 * s.timeUs + k + g - ph % g) % g = 0)

/-- A castling of a core is due: its trigger is the first that waits in its half, and none runs there (R455, R457). A core
whose migration runs may castle again from a destination that fails (R480). -/
def State.castDue (s : State) (h : Nat) : Option CastReq :=
  if s.fencedHalf = some h then none
  else match (if h = 0 then s.abs.castA else s.abs.castB) with
  | some x => if x.switched then s.abs.castWait.find? (fun r => r.logical = x.req.logical) else none
  | none => s.abs.castWait.find? (fun r => coreHalf r.logical = h)

def State.castHolds (s : State) (c : Nat) : Bool :=
  match s.castDue (coreHalf c) with
  | some r => r.logical = c
  | none => false

/-- A castling, an adjournment or a lost half holds a partition (R421, R458, R465). -/
def State.partHeld (s : State) (p : Nat) : Bool :=
  s.abs.heldParts.contains p || s.thm.phase != 0 || (s.part p).cores.any (fun c => s.fencedHalf = some (coreHalf c))

/-- The partition may start a new step: it is SERVING, and nothing holds it (R136, R421, R457, R465). -/
def State.partRuns (s : State) (p : Nat) : Bool :=
  let x := s.part p
  x.st = .serving && !x.after.any (fun a => match a with | .quiesce _ => true | _ => false)
    && !s.partHeld p && x.cores.all (fun c => !s.castHolds c)

/-- R275: state, pages and room but for the ring. -/
def State.selectable (s : State) (n : Nat) (e : Stream) : Bool :=
  ((e.st = .admitted || e.st = .prefill) && decide (e.uncached > 0) || (e.st = .decode && !e.idle)) && e.rebuildTo = 0
    && (s.ledgAll.filter (fun x => x.2.st != .free && !x.2.held && x.2.stream = n && x.2.gen = e.gen)).all
        (fun x => (s.entryPage x.1).st = .near)

/-- A step set while it is filled: entries, prefill rows left, ring room left. -/
structure Filling where
  set : List StepEntry
  rows : Nat
  room : Nat
deriving DecidableEq, Repr

/-- One stream is taken if its rows and its records find room (R261, R275). -/
def Filling.take (f : Filling) (n : Nat) (e : Stream) : Filling :=
  let need := 2 + e.nGambit
  let dec := e.st = .decode
  let rows := if dec then 1 else min e.uncached f.rows
  if rows = 0 || f.room < need then f
  else
    let kind := if dec then 0 else if rows = e.uncached && decide (e.maxNew > 0) then 2 else 1
    let x : StepEntry := { stream := n, rows := rows, pos := e.pos, firstRow := 0, gambits := 0, kind := kind, tokens := [],
                           voided := false, uncounted := false, replayed := false, old := e.lastTok, oldStep := e.lastStep, gtoks := [] }
    { set := f.set ++ [x], rows := if dec then f.rows else f.rows - rows, room := f.room - need }

/-- Streams are taken in a given order until the set holds k streams. -/
def Filling.takeAll (f : Filling) (k : Nat) (l : List (Nat × Stream)) : Filling :=
  l.foldl (fun f x => if f.set.length ≥ k || f.set.any (fun e => e.stream = x.1) then f else f.take x.1 x.2) f

/-- Order by a key, then by stream number. -/
def byKey (key : Stream → Nat) (l : List (Nat × Stream)) : List (Nat × Stream) :=
  l.mergeSort (fun a b => decide (key a.2 < key b.2) || (decide (key a.2 = key b.2) && decide (a.1 ≤ b.1)))

/-- The step set of the selectable streams of one pattern (R275). -/
def State.fillSet (s : State) (p : Nat) (cands : List (Nat × Stream)) : List StepEntry :=
  let max := s.fld pgFore 0 p rForeStepCfg 13 0
  let f0 : Filling := ⟨[], s.fld pgFore 0 p rForeStepCfg 29 16, s.tokRoom p⟩
  let limit := s.timeUs + 10 * s.fld pgFore 0 p rForePolicy 7 0
  let urgent := byKey (fun e => e.deadline.toNat) (cands.filter (fun x => decide (x.2.deadline.toNat ≤ limit)))
  let f1 := f0.takeAll max urgent
  let places := max - f1.set.length
  let w (c : Nat) : Nat := s.fld pgFore 0 p rForeClass (8 * c + 7) (8 * c)
  let sum := w 0 + w 1 + w 2 + w 3
  let share (c : Nat) : Nat := places * w c / sum + (if c = 0 then places - (places * w 0 / sum + places * w 1 / sum
    + places * w 2 / sum + places * w 3 / sum) else 0)
  let ofClass (c : Nat) : List (Nat × Stream) := byKey (fun e => e.lastStep) (cands.filter (fun x => x.2.cls = c))
  -- a class that cannot fill its share passes the unused places on
  let (f2, carry) := (List.range 4).foldl (fun (acc : Filling × Nat) c =>
    let q := share c + acc.2
    let had := acc.1.set.length
    let f := acc.1.takeAll (had + q) (ofClass c)
    (f, q - (f.set.length - had))) (f1, 0)
  -- places that the last class cannot use go to the streams that are left, in ascending class
  if carry = 0 then f2.set
  else ((List.range 4).foldl (fun f c => f.takeAll max (ofClass c)) f2).set

/-- The patterns in turn after the last one (R296), and the first one's set that is not empty. -/
def State.chooseStep (s : State) (p : Nat) : Option (Nat × List StepEntry) :=
  let x := s.part p
  let cands := (s.streamsOf p).filter (fun e => s.selectable e.1 e.2)
  let ids := (x.patterns.filter (fun q => !q.draft)).map (·.id)
  let turn := match x.lastPattern with
    | some l => ids.filter (fun i => decide (i > l)) ++ ids.filter (fun i => decide (i ≤ l))
    | none => ids
  (turn.map (fun id => (id, s.fillSet p (cands.filter (fun e => e.2.pattern = id))))).find? (fun r => !r.2.isEmpty)

/-- The gambits that a stream is offered (R284): how many, and their tokens where the book gives them. -/
def State.offer (s : State) (p : Nat) (n : Nat) : State × Nat × List Nat :=
  let e := s.stream n
  if e.st != .decode || e.maxNew < 2 || e.nGambit = 0 then (s, 0, [])
  else if e.gsrc = 1 then
    match (s.part p).pattern e.pattern with
    | some q => (s, if q.draftEn then e.nGambit else 0, [])
    | none => (s, 0, [])
  else if e.gsrc = 2 && e.pos % 64 = 0 then
    let c := s.firstCore p
    if s.fld pgBook (coreHalf c) 0 rBookCfg 31 31 != 1 then (s, 0, [])
    else match s.histRead p e.hist 0 e.pos with
    | none => (s, 0, [])
    | some toks =>
      let (s1, chain) := ((s.histFetched p e.hist e.pos).bookBump c rBookLookups 1).bookMatch c
        (bookHashes e.pattern toks (e.pos / 64)) (e.pos / 64)
      let s2 := s1.bookBump c rBookHitBlocks chain.length
      match chain.getLast? with
      | none => (s2, 0, [])
      | some x =>
        let d := s2.node x
        if d.child = bookNone then (s2, 0, [])
        else
          let g := d.hint.take (min (min 8 e.nGambit) (e.maxNew - 1))
          (s2, g.length, g)
  else (s, 0, [])

/-- The step table (R276). n_new is a 4-bit field: of more than 15 rows it is a free value. -/
def State.stepTable (s : State) (set : List StepEntry) : State × List Byte :=
  set.foldl (fun (acc : State × List Byte) e =>
    let (s1, n) : State × Nat := if e.rows < 16 then (acc.1, e.rows) else (acc.1.freeUsed, acc.1.freeVal.toNat % 16)
    let g := (s1.stream e.stream).gen
    (s1, acc.2 ++ leBytes 4 (e.stream + g <<< 18 + n <<< 22) ++ leBytes 4 e.pos ++ leBytes 4 e.firstRow
      ++ leBytes 4 (e.gambits <<< 4 + (if e.kind = 3 then 1 else e.kind)))) (s, [])

/-- The entry region of a pattern for a core's queue (R295, R296). -/
def Pattern.entry (x : Pattern) (c q : Nat) : Option Region :=
  x.regions.find? (fun r => r.kind = 1 && r.entry && r.core = c && r.queue = q)

/-- A core's enabled queues are set RUNNING from the pattern's entry regions (R130, R296). -/
def State.startQueues (s : State) (c : Nat) (pat : Pattern) : State :=
  ((List.range 4).filter (fun q => s.queueOn c q)).foldl (fun s q =>
    let (base, len, start) : Nat × Nat × Nat := match pat.entry c q with
      | some r => (r.space <<< 60 + r.off, r.orders, r.start)
      | none => ((s.reg pgClerk c 0 (rClerkQBase + 8 * q)).toNat, 0, 0)
    let same := (s.reg pgClerk c 0 (rClerkQBase + 8 * q)).toNat = base
    let s1 := (s.setReg pgClerk c 0 (rClerkQBase + 8 * q) (BitVec.ofNat 64 base)).setReg pgClerk c 0 (rClerkQSpan + 4 * q)
      (BitVec.ofNat 64 (len + start <<< 16))
    s1.modQueue c q (fun x => ({ x with running := true, stopped := false, index := start,
                                        buf := if same then x.buf else [] } : OrderQ).trim len)) s

/-- The step mark of a core (R420), and its copy in the other half (R459). -/
def State.markCore (s : State) (c : Nat) : State :=
  let x := s.core c
  let m : StepMark := { sregs := x.sregs, ctrs := x.ctrs, idx := x.qs.map (·.index), rot := x.rot, last := x.lastQ, alm := x.alm }
  let s1 := s.setCore c { x with mark := m }
  { s1 with abs := { s1.abs with marks := smSet {} s1.abs.marks c m } }

/-- The step, or a draft sub-step, starts on the partition's cores: the step table, s56 to s63, the queues, of which queue 0 is
served first (R131), the rotation pointer 0 (R163), and, at the start of the step, the step mark. -/
def State.startCores (s : State) (p pid : Nat) (draft mark : Bool) : State :=
  let x := s.part p
  let (s0, table) := s.stepTable x.set
  let rows := (x.set.map (·.rows)).foldl (· + ·) 0
  let drows := ((x.set.filter (fun e => e.kind = 0)).map (·.rows)).foldl (· + ·) 0
  let gam := x.set.any (fun e => decide (e.gambits > 0))
  let addr := s.fld pgFore 0 p rForeStepAddr 20 6 * 64
  let dev := if s.fab.isMember then s.fab.device else 0
  let words : List (Nat × Nat) :=
    [(56, x.steps - 1), (57, addr), (58, x.set.length), (59, rows), (60, drows),
     (61, b2n gam + b2n draft <<< 1 + pid <<< 16), (62, p + dev <<< 8), (63, s.timeUs)]
  match x.pattern pid with
  | none => s0
  | some pat =>
    (x.cores.filter (fun c => s.coreActive c)).foldl (fun s c =>
      let s1 := s.stockWrite c addr table
      let s2 := words.foldl (fun s w => s.setSreg c w.1 (BitVec.ofNat 64 w.2)) s1
      let s3 := (s2.startQueues c pat).modCore c (fun x => { x with lastQ := 3, rot := 0 })
      if mark then s3.markCore c else s3) s0

/-- Rows of a set numbered in ascending stream number (R276). -/
def numberRows (set : List StepEntry) : List StepEntry :=
  ((set.mergeSort (fun a b => decide (a.stream ≤ b.stream))).foldl (fun (acc : List StepEntry × Nat) e =>
    (acc.1 ++ [{ e with firstRow := acc.2 % 65536 }], acc.2 + e.rows)) ([], 0)).1

/-- A formed set becomes the running step; the streams enter it (R272, R274, R276). -/
def State.beginStep (s : State) (p pid : Nat) (set : List StepEntry) (drafts : Nat) : State :=
  let x := s.part p
  let s1 := set.foldl (fun s e => s.modStream e.stream (fun y =>
    { y with inStep := true, lastStep := x.steps % 4294967296, st := if y.st = .admitted && e.kind != 3 then .prefill else y.st })) s
  let s2 := s1.modPart p (fun x => { x with
    running := true, set := set, steps := x.steps + 1, stepPattern := pid, draftPhase := decide (drafts > 0), drafts := drafts,
    draftsLeft := drafts, rolledBack := false,
    lastPattern := some pid })
  let s3 := s2.bump pgFore 0 p rForeSteps 1
  let s4 := if (s3.part p).admitHeld then s3.noteHeld p else s3
  if drafts = 0 then s4.startCores p pid false true else s4

/-- A core returns to its step mark (R420, R458). What its units still hold of the abandoned step goes. -/
def State.toMark (s : State) (c : Nat) : State :=
  let m := (s.core c).mark
  s.modCore c (fun x => { x with
    sregs := m.sregs, ctrs := m.ctrs, rot := m.rot, lastQ := m.last, alm := m.alm,
    qs := x.qs.mapIdx (fun q y => { y with index := m.idx.getD q 0, running := false })
    flights := [], sigs := [], rest := 0, restAt := 0, looms := x.looms.map (fun l => ({ avg := l.avg, level := l.level } : Loom)),
    shelf := [[], [], [], []], eng := { x.eng with runs := [] }, tally := [], jobs := [], inbox := [], retIn := [], msgIn := [], partsIn := [] })

/-- The orders of an abandoned step that move bytes or write pages have completed (R458). An order that is still under way
otherwise waits for work that the abandonment has taken away, and ends without effect when the step runs again. -/
def State.rollQuiet (s : State) (p : Nat) : Bool :=
  (s.part p).cores.all (fun c => !(s.core c).flights.any (fun f =>
    opUnit f.op = .transfer || opUnit f.op = .bank || f.op = 0x21))

/-- Every core of a partition returns to its step mark, and the abandoned step runs again from its start (R425, R458,
R467). -/
def State.rerunStep (s : State) (p : Nat) : State :=
  let x := s.part p
  let s1 := s.modPart p (fun x => { x with
    rolledBack := false, joins := [], draftPhase := decide (x.drafts > 0), draftsLeft := x.drafts - 1,
    set := x.set.map (fun e => { e with tokens := [], voided := false, uncounted := false }) })
  let cores := x.cores.filter (fun c => s.coreActive c)
  if !x.running then cores.foldl (fun s c => s.toMark c) s1
  else
    let pid := match x.pattern x.stepPattern with
      | some q => if x.drafts > 0 then q.draftId else x.stepPattern
      | none => x.stepPattern
    let s2 := (cores.foldl (fun s c => s.toMark c) s1).startCores p pid (decide (x.drafts > 0)) false
    cores.foldl (fun s c =>
      let m := (s.core c).mark
      let s3 := s.modCore c (fun y => { y with sregs := m.sregs, rot := m.rot, lastQ := m.last })
      (List.range 4).foldl (fun s q =>
        s.modQueue c q (fun y => ({ y with index := m.idx.getD q 0 } : OrderQ).trim (s.queueLen c q))) s3) s2

/-- The step of a partition starts (R274): the set is formed, and its main step starts, or waits for its draft sub-steps;
once those have run the main step starts. -/
def State.stepStart (s : State) (p : Nat) : State :=
  let x := s.part p
  if x.rolledBack then (if s.partHeld p || !s.rollQuiet p then s else s.rerunStep p)
  else if !s.partQuiet p then s
  else if x.running then
    if x.draftPhase && x.draftsLeft = 0 && !s.partHeld p then
      (s.modPart p (fun x => { x with draftPhase := false })).startCores p x.stepPattern false false
    else s
  else if !s.partRuns p || !s.staggerOk p then s
  else match s.chooseStep p with
  | none => s
  | some (pid, set) =>
    let (s1, set1) := set.foldl (fun (acc : State × List StepEntry) e =>
      let (s', g, t) := if e.kind = 0 then acc.1.offer p e.stream else (acc.1, 0, [])
      (s', acc.2 ++ [{ e with gambits := g, gtoks := t, rows := if e.kind = 0 then 1 + g else e.rows }])) (s, [])
    let drafts := set1.foldl (fun m e => if (s1.stream e.stream).gsrc = 1 then max m e.gambits else m) 0
    s1.beginStep p pid (numberRows set1) drafts

/-- A draft sub-step starts (R284). -/
def State.draftStart (s : State) (p : Nat) : State :=
  let x := s.part p
  if !x.running || !x.draftPhase || x.draftsLeft = 0 || x.rolledBack || !s.partQuiet p || s.partHeld p then s
  else
    let s1 := s.modPart p (fun x => { x with draftsLeft := x.draftsLeft - 1 })
    match x.pattern x.stepPattern with
    | some q => s1.startCores p q.draftId true (x.draftsLeft = x.drafts)
    | none => s1

/-- The first position of a stream whose page is to be recomputed, and how many positions the page still needs. -/
def State.recomputeAt (s : State) (n : Nat) : Option (Nat × Nat) :=
  let e := s.stream n
  if e.rebuildTo > 0 then some (e.rebuildAt, e.rebuildTo - e.rebuildAt) else
  let es := s.ledgAll.filter (fun x => x.2.st != .free && !x.2.held && x.2.stream = n && x.2.gen = e.gen)
  let lost := es.filterMap (fun x =>
    let pg := s.entryPage x.1
    let cap := if x.2.geo = 0 then pg.fill else x.2.geo
    if pg.st = .recompute && decide (pg.rebuilt < x.2.fill) then some (x.2.page * cap + pg.rebuilt, x.2.fill - pg.rebuilt) else none)
  lost.foldl (fun m x => match m with
    | some y => if x.1 < y.1 then some x else m
    | none => some x) none

/-- A stream of which a recompute step may be run (R327): it holds pages, all of them near or lost, and no step runs it. The rule
names no state (assumption 131). -/
def State.canRecompute (s : State) (n : Nat) : Bool :=
  let e := s.stream n
  (e.st = .admitted || e.st = .prefill || e.st = .decode || e.st = .parked)
    && (s.ledgAll.filter (fun x => x.2.st != .free && !x.2.held && x.2.stream = n && x.2.gen = e.gen)).all (fun x =>
      let y := s.entryPage x.1
      y.st = .near || y.st = .recompute)

/-- A recompute step of a stream (R327): its set is that stream alone; a history that cannot be read ends the stream. -/
def State.recomputeStart (s : State) (n : Nat) : State :=
  let e := s.stream n
  let p := e.part
  let x := s.part p
  if x.running || !s.partQuiet p || !s.partRuns p || !s.canRecompute n then s
  else match s.recomputeAt n with
  | none => s
  | some (pos, left) =>
    let rows := min left (s.fld pgFore 0 p rForeStepCfg 29 16)
    match s.histRead p e.hist pos rows with
    | none => s.drain n endError stLost false
    | some _ =>
      if rows = 0 then s
      else
        let en : StepEntry := { stream := n, rows := rows, pos := pos, firstRow := 0, gambits := 0, kind := 3, tokens := [],
                                voided := false, uncounted := false, replayed := false, old := e.lastTok, oldStep := e.lastStep,
                                gtoks := [] }
        (s.histFetched p e.hist rows).beginStep p e.pattern [en] 0

/-! ### Parking (R279, R280) -/

/-- Frames of a partition's KV windows: all, and free. -/
def State.kvFrames (s : State) (p : Nat) : Nat × Nat :=
  (s.part p).cores.foldl (fun acc c =>
    let n := s.fld pgAtt c 0 rAttKvwin 31 16
    let used := ((s.framesUsed c).map (·.2)).foldl (· + ·) 0
    (acc.1 + n, acc.2 + (n - used))) (0, 0)

/-- Frames of a stream's own pages that stand near, or far. -/
def State.streamFrames (s : State) (n : Nat) (near : Bool) : Nat :=
  let e := s.stream n
  ((s.ledgAll.filter (fun x => x.2.st != .free && !x.2.held && x.2.stream = n && x.2.gen = e.gen
    && (if near then x.2.isNear else x.2.st = .far))).map (fun x => pageBytes x.2.z / 32768)).foldl (· + ·) 0

/-- A stream becomes PARKED (R272). -/
def State.parkStream (s : State) (n : Nat) (pin : Bool) : State :=
  let e := s.stream n
  if e.st = .prefill || e.st = .decode then
    ((s.modStream n (fun e => { e with st := .parked, pinned := pin, wasDecode := e.st = .decode })).bump pgFore 0 e.part
      rForeParks 1).mirrorEntry n 0
  else if e.st = .parked then (s.modStream n (fun e => { e with pinned := pin })).mirrorEntry n 0
  else s

/-- The parking round after a step. -/
def State.parkRound (s : State) (p : Nat) : State :=
  let (all, free) := s.kvFrames p
  let low := s.fld pgFore 0 p rForePolicy 14 8
  let high := s.fld pgFore 0 p rForePolicy 22 16
  let x := s.part p
  let full := x.farFull
  let s0 := s.modPart p (fun x => { x with farFull := false })
  if all = 0 then s0
  else if free * 100 < low * all then
    if full then s0
    else
      let next := match s0.chooseStep p with | some r => r.2.map (fun (e : StepEntry) => e.stream) | none => []
      let cand := (s0.streamsOf p).filter (fun e => (e.2.st = .prefill || e.2.st = .decode)
        && (x.parkFirst.contains e.1 || !next.contains e.1))
      let rank (e : Stream) : Nat := (3 - e.cls) * 2 ^ 64 + (2 ^ 64 - 1 - e.deadline.toNat)
      let sorted := cand.mergeSort (fun a b => decide (rank a.2 < rank b.2) || (decide (rank a.2 = rank b.2) && decide (a.1 ≥ b.1)))
      let first := sorted.filter (fun e => x.parkFirst.contains e.1) ++ sorted.filter (fun e => !x.parkFirst.contains e.1)
      (first.foldl (fun (acc : State × Nat) e =>
        if acc.2 * 100 ≥ high * all then acc
        else
          let s1 := acc.1.parkStream e.1 false
          (s1.modPart p (fun x => { x with parkFirst := x.parkFirst.filter (· != e.1) }), acc.2 + acc.1.streamFrames e.1 true)) (s0, free)).1
  else if free * 100 ≥ high * all then
    let cand := (s0.streamsOf p).filter (fun e => e.2.st = .parked && !e.2.pinned && !x.unpark.contains e.1
      && decide (e.2.maxNew > 0 || (e.2.uncached > 0 && !e.2.wasDecode)))
    -- the reverse of the parking order: ascending class, earliest deadline, lowest stream number
    let sorted := byKey (fun e => e.cls * 2 ^ 64 + e.deadline.toNat) cand
    -- the first whose pages do not fit ends the round
    (sorted.foldl (fun (acc : State × Option Nat) e =>
      let need := acc.1.streamFrames e.1 false
      match acc.2 with
      | none => acc
      | some left =>
        if (left - need) * 100 < high * all || left < need then (acc.1, none)
        else ((acc.1.modPart p (fun x => { x with unpark := x.unpark ++ [e.1] })).bump pgFore 0 p rForeUnparks 1, some (left - need)))
      (s0, some free)).1
  else s0

/-! ### Step ends (R278, R281) -/

/-- The tokens that a turn keeps: up to its allowance, and to its stop token. -/
def keptToks (stop : Nat) (k : Nat) (l : List (Nat × Bool)) : List (Nat × Bool) :=
  match k, l with
  | 0, _ => []
  | _, [] => []
  | k + 1, t :: r => if t.1 = stop && stop != tokNone then [t] else t :: keptToks stop k r

/-- A voided stream (R281): its roll does not advance but for voided, and at the limit it ends. -/
def State.voidStream (s : State) (p : Nat) (e : StepEntry) : State :=
  let s1 := (s.modStream e.stream (fun x => { x with
    lastTok := e.old, lastStep := e.oldStep, inStep := false, voided := if e.uncounted then x.voided else min 15 (x.voided + 1) }))
  let s2 := (s1.bump pgFore 0 p rForeVoided 1).setErr pgFore 0 2
  if !e.uncounted && decide ((s2.stream e.stream).voided ≥ s2.fld pgFore 0 p rForePolicy 27 24) then
    (s2.drain e.stream endError stLost false).mirrorEntry e.stream 0
  else s2.mirrorEntry e.stream 0

/-- A stream that the step has run advances (R270, R272, R278). -/
def State.advance (s : State) (p : Nat) (e : StepEntry) : State :=
  let n := e.stream
  let x := s.stream n
  let kept := if e.kind = 1 then [] else keptToks x.stop x.maxNew e.tokens
  let k := kept.length
  let lastT := match kept.getLast? with | some t => t.1 | none => x.lastTok
  let pos := if e.kind = 0 then x.pos + k else x.pos + e.rows
  let cached := x.st = .prefill && decide (pos ≥ x.total)
  -- history first, then the roll
  let s1 := (kept.mapIdx (fun i t => (i, t))).foldl (fun s t => s.histWrite p x.hist (x.total + t.1) t.2.1) s
  let stopped := kept.any (fun t => t.1 = x.stop && x.stop != tokNone)
  let left := x.maxNew - k
  let turn := decide (k > 0) && (stopped || left = 0)
  let quietEnd := cached && k = 0 && x.maxNew = 0
  let over_ := turn && !x.keepOpen && x.admittedMax
  let acc := (kept.filter (fun t => t.2)).length
  let dl := if x.emitted + k > 0 then s.deadlineIn x.tbt else s.deadlineIn x.ttft
  let y : Stream := { x with
    pos := pos, emitted := x.emitted + k, maxNew := if turn then 0 else left, lastTok := lastT, voided := 0, inStep := false,
    offered := min 4294967295 (x.offered + e.gambits), accepted := min 4294967295 (x.accepted + acc), deadline := dl,
    st := if cached then .decode else x.st }
  let s2 := s1.setStream n y
  let s4 := if cached then s2.insertPrompt p n else s2
  let s5 := (s4.mirrorToks n x.total (kept.map (·.1))).mirrorEntry n k
  let st := if e.replayed then stReplayed else stOk
  let s6 := (kept.mapIdx (fun i t => (i, t))).foldl (fun s t =>
    s.streamRec n t.2.1 (if turn && t.1 + 1 = k then endStop else endNone) st (x.total + t.1) t.2.2 x.deadline) s5
  let s7 := if quietEnd then s6.endRec n endStop st else s6
  if over_ then (s7.drain n endStop st true).mirrorEntry n k else s7

/-- What waited for the end of the step (R136, R273). -/
def State.afterStepDo (s : State) (p : Nat) (a : AfterStep) : State :=
  match a with
  | .park n pin => s.parkStream n pin
  | .cancel n =>
    let e := s.stream n
    if e.part = p && (e.st = .admitted || e.st = .prefill || e.st = .decode || e.st = .parked) then
      (s.drain n endCancel stOk false).mirrorEntry n 0
    else s
  | .castle _ => s
  | .quiesce _ => s.modPart p (fun x => { x with st := .quiesced })

/-- A recompute step ends. An adopted stream goes on where the mirrored one stood once its pages are rebuilt (R475). -/
def Stream.recomputed (x : Stream) (rows : Nat) : Stream :=
  if x.rebuildTo = 0 then { x with inStep := false }
  else if x.rebuildAt + rows < x.rebuildTo then { x with inStep := false, rebuildAt := x.rebuildAt + rows }
  else { x with inStep := false, pos := x.rebuildTo, rebuildTo := 0, rebuildAt := 0, wasRunning := false,
                st := if x.wasRunning then .decode else .prefill }

/-- The step ends: every core meets R130 again (R278). Answers the tags of QUIESCE commands that complete with it. -/
def State.stepFinish (s : State) (p : Nat) : State × List Nat :=
  let x := s.part p
  if !x.running || x.draftPhase || x.rolledBack || s.partHeld p || !s.partQuiet p then (s, [])
  else
    let s1 := s.modPart p (fun x => { x with running := false, set := [], after := [] })
    let s2 := x.set.foldl (fun s e =>
      let y := s.stream e.stream
      let runs := y.st = .prefill || y.st = .decode || (e.kind = 3 && (y.st = .admitted || y.st = .parked))
      if !runs then s.modStream e.stream (fun y => { y with inStep := false })
      else if e.voided then s.voidStream p e
      else if e.kind = 3 then s.modStream e.stream (fun y => y.recomputed e.rows)
      else s.advance p e) s1
    let s3 := x.after.foldl (fun s a => s.afterStepDo p a) s2
    let s4 := (s3.flushEnds p).parkRound p
    (s4.pollRing p, x.after.filterMap (fun a => match a with | .quiesce (some t) => some t | _ => none))

/-! ### Page moves (R198, R243, R244) -/

/-- The streams that use a page: its owner, and those whose entries alias it. -/
def State.pageUsers (s : State) (i : Nat) : List Nat :=
  let e := s.ledg i
  (if e.held then [] else [e.stream])
    ++ (s.ledgAll.filter (fun x => x.2.st = .alias_ && x.2.frame = i)).map (fun x => x.2.stream)

/-- No stream that uses a page is in a running step set. -/
def State.pageIdle (s : State) (i : Nat) : Bool :=
  (s.pageUsers i).all (fun n => !(s.stream n).inStep)

/-- Far frames that pages use on a port: (first frame, count). -/
def State.farFramesUsed (s : State) (port : Nat) : List (Nat × Nat) :=
  s.ledgAll.flatMap (fun e =>
    let n := pageBytes e.2.z / 32768
    (if (e.2.st = .far || (e.2.st = .moving && !e.2.toFar)) && e.2.vault = port then [(e.2.frame, n)] else [])
      ++ (if e.2.st = .moving && e.2.toFar && e.2.toVault = port then [(e.2.toFrame, n)] else []))

/-- Frames that a partition's mirror area takes on its port (R472). -/
def State.mirrorFrames (s : State) (p port : Nat) : Nat × Nat :=
  let (q, off) := s.mirrorBase p
  if s.fld pgStw 0 p rStwMirrorIn 31 31 = 1 && q = port then
    (off / 32768, ceilDiv (536870912 + s.fld pgStw 0 p rStwMirrorPages 23 0 * 65536) 32768 + 1)
  else (0, 0)

/-- The lowest free far frame of a partition for a page of a vault (R197, R390): on the vault's own port, on the other port
of its half while that is DOWN, or on the other half's while both are. -/
def State.farFrame (s : State) (p v z : Nat) : Option (Nat × Nat) :=
  let up (q : Nat) : Bool := (s.farPort q).st = .up || (s.farPort q).st = .upDegraded
  let h := coreHalf v
  let own := 2 * h + v % 2
  let other := 2 * h + 1 - v % 2
  let ports := if up own then [own] else if up other then [other] else [2 * (1 - h), 2 * (1 - h) + 1].filter up
  let n := pageBytes z / 32768
  ports.findSome? (fun q =>
    let w := (s.part p).far.getD q (0, 0)
    let used := s.mirrorFrames p q :: s.farFramesUsed q
    let lo := ceilDiv w.1 (32768 * n) * n
    -- a free place begins at the window's base or behind a used range
    let starts := lo :: used.map (fun u => ceilDiv (u.1 + u.2) n * n)
    let ok (f : Nat) : Bool := decide (lo ≤ f) && decide ((f + n) * 32768 ≤ w.1 + w.2)
      && used.all (fun u => decide (u.2 = 0) || decide (f + n ≤ u.1) || decide (u.1 + u.2 ≤ f))
    ((starts.filter ok).foldl (fun m f => match m with | some x => some (min x f) | none => some f) none).map (fun f => (q, f)))

/-- A page of a PARKED stream begins its move to the far tier; where that has no room, parking stops (R244, R280). -/
def State.pageDemote (s : State) (i : Nat) : State :=
  let e := s.ledg i
  let x := s.stream e.stream
  if e.st != .near || e.held || x.gen != e.gen || x.st != .parked || (s.part x.part).unpark.contains e.stream || !s.pageIdle i then s
  else match s.farFrame x.part e.vault e.z with
  | none => s.modPart x.part (fun y => { y with farFull := true })
  | some (q, f) => s.setLedg i { e with st := .moving, toFar := true, toVault := q, toFrame := f, home := e.vault }

/-- A far page begins its move back (R244, R279): a stream that uses it is being unparked, or waits for it. -/
def State.pagePromote (s : State) (i : Nat) : State :=
  let e := s.ledg i
  let wanted := (s.pageUsers i).any (fun n =>
    let x := s.stream n
    (s.part x.part).unpark.contains n || x.st = .admitted || x.st = .prefill || x.st = .decode)
  if e.st != .far || !wanted || !s.pageIdle i then s
  else match s.freeFrame e.home e.z with
  | none => s
  | some f => s.setLedg i { e with st := .moving, toFar := false, toVault := e.home, toFrame := f }

/-- The copy of a moving page completes, and its entry takes its new state and place in one update; a near page's
granules are cleared only then (R198, R244). The foreman's traffic waits for the regulators (R24). A line lost on the way makes the page RECOMPUTE (R327). -/
def State.pageMoved (s : State) (i : Nat) : State :=
  let e := s.ledg i
  let n := pageBytes e.z
  if e.st != .moving then s
  else if e.toFar then
    let from_ : Loc := .vault e.vault (e.frame * 32768)
    let dest_ : Loc := .far e.toVault (e.toFrame * 32768)
    let cost := s.flowCost (s.partOfStream e.stream) (foremanAgent e.vault) from_ dest_ n
    if !s.placeReady from_ n true || !s.placeReady dest_ n false then s
    else s.gated cost (fun s =>
      let (s1, b) := (s.guestLines none from_ n).readRestored from_ n
      match b with
      | none => s1
      | some bs =>
        let s2 := (s1.writeLoc dest_ bs).setLedg i { e with st := .far, vault := e.toVault, frame := e.toFrame, toFar := false }
        match s2.vaultOf e.vault with
        | some p => s2.clearPage p (e.frame * 8) (n / 4096)
        | none => s2) id
  else
    let from_ : Loc := .far e.vault (e.frame * 32768)
    let dest_ : Loc := .vault e.toVault (e.toFrame * 32768)
    let cost := s.flowCost (s.partOfStream e.stream) (foremanAgent e.toVault) from_ dest_ n
    if !s.placeReady from_ n true || !s.placeReady dest_ n false then s
    else s.gated cost (fun s =>
      let (s1, b) := s.readLoc from_ n
      match b with
      | some bs => ((s1.guestLines none dest_ n).writeLoc dest_ bs).setLedg i { e with st := .near, vault := e.toVault, frame := e.toFrame }
      -- the far copy cannot be read: the page is recomputed in its new place
      | none => s1.setLedg i { e with st := .recompute, vault := e.toVault, frame := e.toFrame, rebuilt := 0 }) id

/-- A PARKED stream whose pages are all NEAR again goes on (R272). -/
def State.unparkStream (s : State) (n : Nat) : State :=
  let e := s.stream n
  let es := s.ledgAll.filter (fun x => x.2.st != .free && !x.2.held && x.2.stream = n && x.2.gen = e.gen)
  if e.st != .parked || !(s.part e.part).unpark.contains n || !es.all (fun x => (s.entryPage x.1).st = .near) then s
  else
    ((s.modStream n (fun e => { e with st := if e.wasDecode then .decode else .prefill })).modPart e.part
      (fun x => { x with unpark := x.unpark.filter (· != n) })).mirrorEntry n 0

/-- A held page without users is freed once the orders that started before have completed (R243). -/
def State.pageFree (s : State) (i : Nat) : State :=
  let e := s.ledg i
  if e.st = .free || e.st = .alias_ || !e.held || e.refs != 0 then s
  else if e.waits.any (fun w => ((s.core w.1).flight w.2).isSome) then s
  else s.dropEntry i

/-- The driver's token head has passed the end record of a stream: it is none of the records that it has yet to consume. -/
def State.endPassed (s : State) (e : Stream) : Bool :=
  let m := 2 * 2 ^ s.tokLog e.part
  let x := s.part e.part
  decide ((e.endAt % m + m - x.tokHead % m) % m ≥ (x.tokTail % m + m - x.tokHead % m) % m)

/-- A DRAINING stream whose end record is written is DONE, and FREE at once where the driver has consumed that record already
(R272). -/
def State.drainDone (s : State) (n : Nat) : State :=
  let e := s.stream n
  if e.st = .draining && e.endDone then
    let s1 := (s.modStream n (fun e => { e with st := .done })).mirrorEntry n 0
    let s2 := { s1 with abs := { s1.abs with mirrorOff := s1.abs.mirrorOff.filter (· != n) } }
    if s.endPassed e then s2.freeStream n else s2
  else s

end Sys2Proof.Machine
end

