-- ==== Sys2Proof/Machine/Pattern.lean ====
section
/-! DEFINITION. Patterns: LOAD_PATTERN with its manifest (R292 to R296), DROP_PATTERN, and the restore of a context
(R450, R451, R479). Each operation answers its completion status. -/

namespace Sys2Proof.Machine

/-- The result of an admin command: the state, its status, and Words 1 to 3 of its completion. -/
abbrev AdmRes := State × Nat × List Nat

/-- Bytes of a place whose spaces the admin commands name. -/
def State.readPlace (s : State) (a n : Nat) : State × Option (List Byte) := s.readLoc (locOf 0 a) n

/-- The manifest address after its clamp (R293): HOST or FAR. -/
def manifestAddr (a : Nat) : Nat × Nat := if spaceOf a = 5 || spaceOf a = 6 then (a, 0) else (inSpace 6 60 a, 1)

/-- A region entry of the manifest (R295), and what is wrong with it: an invalid manifest, or a refusal. -/
structure RegEntry where
  region : Region
  bad : Bool
  outside : Bool
deriving DecidableEq, Repr

/-- Region entry r of a manifest for a partition; `hs` are its page hashes. -/
def State.regEntry (s : State) (p : Nat) (e : List Byte) (hashes : List (List Byte)) : RegEntry :=
  let v := leNat e
  let x := s.part p
  let w0 := ordW v 0
  let w1 := ordW v 1
  let kind := bits w0 31 28
  let dst := ordW64 v 2
  let len := ordW64 v 4
  let gold := ordW64 v 6
  let rank := bits w1 7 0
  let core := x.cores.getD rank 256
  let space := spaceOf dst
  let off := if space = 1 then bits dst 29 0 else bits dst 20 0
  let vaultOk := space = 1 && (kind = 0 || kind = 1) && off % 4096 = 0 && decide (off + len ≤ 1073741824)
  let stockOk := space = 0 && kind != 0 && off % 256 = 0 && decide (off + len ≤ 2097152)
  let goldOk := (spaceOf gold = 5 || spaceOf gold = 6) && s.inWindows p (locOf 0 gold) len
  { region := { kind := kind, core := core, queue := bits w0 27 26, entry := bit w0 25, orders := bits w0 15 0, start := bits w1 31 16,
                space := space, off := off, len := len, golden := gold, hashes := hashes, regionHash := e.drop 32 },
    bad := decide (kind > 3) || len = 0 || decide (len > 1073741824)
      || (kind = 1 && (len != 128 * bits w0 15 0 || decide (bits w1 31 16 > bits w0 15 0))),
    outside := decide (rank ≥ x.cores.length) || !(vaultOk || stockOk) || !goldOk }

/-- Two regions share a byte of one core's vault or stockroom. -/
def Region.overlaps (a b : Region) : Bool :=
  a.core = b.core && a.space = b.space && decide (a.off < b.off + b.len) && decide (b.off < a.off + a.len)

/-- Some two entries of a list are related. -/
def anyPair (f : Region → Region → Bool) (l : List Region) : Bool :=
  match l with
  | [] => false
  | a :: r => r.any (f a) || anyPair f r

/-- The regions of a manifest, their page hashes taken in order (R295). -/
def State.regEntries (s : State) (p : Nat) (m : List Byte) : List RegEntry :=
  let n := leNat ((m.drop 8).take 4)
  let h0 := leNat ((m.drop 16).take 8)
  let n' := min n ((m.length - 4096) / 64)
  ((List.range n').foldl (fun (acc : List RegEntry × Nat) r =>
    let e := (m.drop (4096 + 64 * r)).take 64
    let k := ceilDiv (leNat ((e.drop 16).take 8)) 65536
    let hs := (List.range (min k 16385)).map (fun i => (m.drop (h0 + 32 * (acc.2 + i))).take 32)
    (acc.1 ++ [s.regEntry p e hs], acc.2 + k)) ([], 0)).1

/-- A region's bytes are copied into place, each golden page checked, under the partition's IN regulators (R296, R393). -/
def State.copyRegion (s : State) (p : Nat) (r : Region) : State × Bool :=
  (List.range (ceilDiv r.len 65536)).foldl (fun (acc : State × Bool) i =>
    if !acc.2 then acc
    else
      let (s0, b) := acc.1.goldenPage r.core r i
      let s1 := s0.dmaCharge p (locOf 0 r.golden) false (min 65536 (r.len - i * 65536))
      match b with
      | none =>
        let v := (s1.vaultOf r.core).getD 511
        let info : LogInfo := { cls := 2, vault := if r.space = 1 then v else 511, part := p, addr := r.off + i * 65536 }
        ((s1.log 0x0E info).setErr pgFore 0 3, false)
      | some bs =>
        if r.space = 1 then
          -- whole granules are written; what lies behind the region's end is not stated
          let (s2, tail) := s1.freeBytes ((4096 - bs.length % 4096) % 4096)
          (s2.vaultWrite r.core (r.off + i * 65536) (bs ++ tail), true)
        else (s1.stockWrite r.core (r.off + i * 65536) bs, true)) (s, true)

/-- LOAD_PATTERN (R293 to R296). -/
def State.loadPattern (s : State) (p : Nat) (w : List Nat) : AdmRes :=
  let g (i : Nat) : Nat := w.getD i 0 % 4294967296
  let x := s.part p
  let id := bits (g 1) 15 0
  let draft := bit (g 1) 17
  let (man, k1) := manifestAddr (g 2 + g 3 <<< 32)
  let pages := max 1 (bits (g 4) 15 0)
  let den := bit (g 5) 16 && !draft
  let did := bits (g 5) 15 0
  let clamps := k1 + b2n (bits (g 4) 15 0 = 0) + b2n (bit (g 5) 16 && draft)
  let len := pages * 4096
  if !(x.st = .configured || x.st = .loaded || x.st = .quiesced) then (s, stState, [0, 0, 0])
  else
    let quota0 := (x.pattern id).isSome || decide (x.patterns.length ≥ 16)
      || (den && !x.patterns.any (fun q => q.id = did && q.draft)) || !s.inWindows p (locOf 0 man) len
    let (s1, b) := if quota0 then (s, none) else s.readPlace man len
    match b with
    | none => if quota0 then (s, stQuota, [0, 0, 0]) else (s1.noteClamps pgFore 0 clamps, stLost, [0, 0, 0])
    | some m =>
      let u (i n : Nat) : Nat := leNat ((m.drop i).take n)
      let head := u 0 4 = 0x54415052 && u 4 2 = 1
      let es := s1.regEntries p m
      let rs := es.map (·.region)
      let entries := rs.filter (fun r => r.kind = 1 && r.entry)
      let old := x.patterns.flatMap (·.regions)
      let quota := u 12 2 != x.cores.length || es.any (fun e => !e.bad && e.outside) || anyPair Region.overlaps rs
        || rs.any (fun r => old.any (fun o => r.overlaps o)) || anyPair (fun a b => a.core = b.core && a.queue = b.queue) entries
      -- the page hashes lie in the reserve vaults of the half of each region's core (R292)
      let noRoom := rs.any (fun r => !s.vaults.any (fun v => v.2.role = .reserve && siteHalf v.1 = coreHalf r.core))
      let nh := (rs.map (fun r => ceilDiv r.len 65536)).foldl (· + ·) 0
      let lost := !head || u 8 4 = 0 || decide (u 8 4 > 262144) || decide (4096 + 64 * u 8 4 > len) || es.any (·.bad)
        || u 24 8 != nh || u 16 8 % 64 != 0 || decide (u 16 8 + 32 * nh > len)
      if head && (quota || noRoom) then (s1, stQuota, [0, 0, 0])
      else
        let s2 := s1.noteClamps pgFore 0 clamps
        if lost then (s2, stLost, [0, 0, 0])
        else
          let (s3, ok) := rs.foldl (fun (acc : State × Bool) r => if acc.2 then acc.1.copyRegion p r else acc) (s2, true)
          if !ok then (s3, stLost, [0, 0, 0])
          else
            let q : Pattern := { id := id, draft := draft, draftEn := den, draftId := did, hash := sha256 m, regions := rs, record := w }
            let ins := (x.patterns.filter (fun y => decide (y.id < id))) ++ [q] ++ (x.patterns.filter (fun y => decide (y.id > id)))
            -- no queue keeps orders that it fetched before from the place of an order stream
            let s3 := (rs.filter (fun r => r.kind = 1)).foldl (fun s r =>
              s.modCore r.core (fun x => { x with qs := x.qs.map (fun q => { q with buf := [] }) })) s3
            (s3.modPart p (fun y => { y with patterns := ins, loads := y.loads.filter (· != id) ++ [id], st := if y.st = .configured then .loaded else y.st }),
              if clamps > 0 then stClamped else stOk, [0, 0, 0])

/-- DROP_PATTERN (R263, R264, R296). Its pattern_id stands in Word 1 [15:0], as LOAD_PATTERN's does. -/
def State.dropPattern (s : State) (p : Nat) (w : List Nat) : AdmRes :=
  let x := s.part p
  let id := bits (w.getD 1 0) 15 0
  let used := (s.streamsOf p).any (fun e => e.2.pattern = id) || x.patterns.any (fun q => q.draftEn && q.draftId = id)
  if !(x.st = .loaded || x.st = .quiesced) || (x.pattern id).isNone || used then (s, stState, [0, 0, 0])
  else
    let rest := x.patterns.filter (fun q => q.id != id)
    (s.modPart p (fun x => { x with patterns := rest, loads := x.loads.filter (· != id), st := if rest.isEmpty then .configured else x.st }), stOk, [0, 0, 0])

/-! ### Contexts (R450, R451) -/

/-- The 1 KiB core record, and carry registers of a core with carry_live. Where the spec gives the order of its fields
only, they follow each other: indices of 2 B, rotation pointers of 1 B each, the almanac counter of 4 B at a multiple of
4, and the flag (assumption 61). -/
def coreRecord (c : Nat) (x : Core) (lanes : Nat) : List Byte :=
  let alm := x.alm + BitVec.ofNat 32 (c * 16777216)
  let r := (List.range 64).flatMap (fun i => leBytes 8 (smGet (0 : DWord) x.sregs i).toNat)
    ++ (List.range 64).flatMap (fun i => leBytes 4 (smGet (0 : Word) x.ctrs i).toNat)
    ++ (List.range 4).flatMap (fun q => leBytes 2 (x.qs.getD q {}).index)
    ++ leBytes 1 x.rot ++ leBytes 1 x.lastQ ++ leBytes 2 0 ++ leBytes 4 alm.toNat ++ leBytes 1 (b2n x.eng.carryLive)
  r ++ List.replicate (1024 - r.length) 0 ++
    (if x.eng.carryLive then
      (List.range lanes).flatMap (fun i => leBytes 4 (smGet (0 : Word) x.eng.carry6 i).toNat)
        ++ (List.range lanes).flatMap (fun i => leBytes 4 (smGet (0 : Word) x.eng.carry7 i).toNat)
    else [])

/-- A core record is written back. Answers the bytes it took. -/
def State.putCoreRecord (s : State) (c lanes : Nat) (r carry : List Byte) : State × Nat :=
  let w (i n : Nat) : Nat := leNat ((r.drop i).take n)
  let live := bit (w 784 1) 0
  let regs := (List.range 64).foldl (fun m i => smSet (0 : DWord) m i (BitVec.ofNat 64 (w (8 * i) 8))) []
  let ctrs := (List.range 64).foldl (fun m i => smSet (0 : Word) m i (BitVec.ofNat 32 (w (512 + 4 * i) 4))) []
  let f32s (b : List Byte) : SMap Word := (List.range lanes).foldl (fun m i => smSet (0 : Word) m i (BitVec.ofNat 32 (leNat ((b.drop (4 * i)).take 4)))) []
  (s.modCore c (fun x => { x with
    sregs := regs, ctrs := ctrs, qs := x.qs.mapIdx (fun q y => { y with index := w (768 + 2 * q) 2 }),
    rot := w 776 1 % 4, lastQ := w 777 1 % 4, alm := BitVec.ofNat 32 (w 780 4) - BitVec.ofNat 32 (c * 16777216)
    eng := { x.eng with carryLive := live, carry6 := if live then f32s carry else [], carry7 := if live then f32s (carry.drop (4 * lanes)) else [] } }),
   1024 + (if live then 8 * lanes else 0))

/-- Cores of a group mask (R448). -/
def groupCores (mask : Nat) : List Nat := (List.range 256).filter (fun c => bit mask (c / 4))
def groupMask (cores : List Nat) : Nat := (List.range 64).foldl (fun m j => if cores.contains (4 * j) then m + 1 <<< j else m) 0

/-- The stream numbers of a context's roll entries: a stream with cached positions is named by its ledger entries, in
ascending number; the others take the lowest FREE numbers (assumption 62). -/
def contextNumbers (roll : List Stream) (ledg : List LEntry) (taken : List Nat) : List Nat :=
  let named := ((ledg.map (·.stream)).eraseDups).mergeSort (fun a b => decide (a ≤ b))
  (roll.foldl (fun (acc : List Nat × List Nat × List Nat) e =>
    match acc.2.1 with
    | n :: r => if e.pos > 0 then (acc.1 ++ [n], r, acc.2.2)
        else let k := lowestFree acc.2.2 0; (acc.1 ++ [k], acc.2.1, insNat acc.2.2 k)
    | [] => let k := lowestFree acc.2.2 0; (acc.1 ++ [k], [], insNat acc.2.2 k))
    ([], named, (taken ++ named).mergeSort (fun a b => decide (a ≤ b)) |>.eraseDups)).1

/-- A saved ledger entry is cut to the positions below p (R479): nothing where its page lies wholly beyond. -/
def LEntry.cutAt (e : LEntry) (cap p : Nat) : Option LEntry :=
  if cap = 0 || p ≤ e.page * cap then (if e.page = 0 && cap = 0 then some { e with fill := min e.fill p } else none)
  else some { e with fill := min e.fill (p - e.page * cap) }

/-- The restore of a context (R451, R479). -/
def State.restoreContext (s : State) (p : Nat) (w : List Nat) : AdmRes :=
  let addr := w.getD 2 0 % 4294967296 + (w.getD 3 0 % 4294967296) <<< 32
  let x := s.part p
  let place (i : Nat) : Loc := (locOf 0 addr).plus i
  let inside := s.inWindows p (place 0) 4096
  let (s1, h) := if inside then s.readLoc (place 0) 4096 else (s, none)
  let hd := h.getD []
  let u (i n : Nat) : Nat := leNat ((hd.drop i).take n)
  let lanesBad := h.isSome && bit (u 5 1) 0 && u 4 1 != s.boot.lanes % 256
  let mask := u 8 8
  let cores := groupCores mask
  let formatBad := h.isNone || u 0 4 != 1 || u 36 4 != crc32 (hd.take 36 ++ [0, 0, 0, 0] ++ hd.drop 40)
  if lanesBad then (s1, stLane, [0, 0, 0])
  else if x.st != .configured then (s1, stState, [0, 0, 0])
  else if !inside || (!formatBad && mask != groupMask x.cores) then (s1, stQuota, [0, 0, 0])
  else if formatBad then (s1, stLost, [0, 0, 0])
  else
    -- core records, roll entries and ledger entries are read before anything changes
    let lanes := u 4 1
    let nRoll := u 16 4
    let nLedg := u 20 4
    let nGran := u 24 8
    let rd (s : State) (a n : Nat) : State × List Byte × Bool :=
      let (s', b) := s.readLoc (place a) n
      match b with | some bs => (s', bs, true) | none => (s', [], false)
    let (s2, recs, a1, ok1) := cores.foldl (fun (acc : State × List (Nat × List Byte × List Byte) × Nat × Bool) c =>
      let (s', r, k) := rd acc.1 acc.2.2.1 1024
      let live := bit (leNat ((r.drop 784).take 1)) 0
      let (s'', cy, k2) := if live then rd s' (acc.2.2.1 + 1024) (8 * lanes) else (s', [], true)
      (s'', acc.2.1 ++ [(c, r, cy)], acc.2.2.1 + 1024 + cy.length, acc.2.2.2 && k && k2)) (s1, [], 4096, true)
    let (s3, rollB, ok2) := rd s2 a1 (256 * nRoll)
    let (s4, ledB, ok3) := rd s3 (a1 + 256 * nRoll) (16 * nLedg)
    let a2 := a1 + 256 * nRoll + 16 * nLedg
    let roll := (List.range nRoll).map (fun i => Stream.ofImage ((rollB.drop (256 * i)).take 256))
    let ledg := (List.range nLedg).map (fun i => LEntry.ofImage ((ledB.drop (16 * i)).take 16))
    let size := a2 + 4104 * nGran
    let fits := s.inWindows p (place 0) size
      && ledg.all (fun e => !(e.isNear) || x.cores.contains e.vault)
      && decide (ledg.length + s.ledgUsed p ≤ s.fld pgLedg 0 p rLedgPartQuota 25 0)
    if !fits then (s1, stQuota, [0, 0, 0])
    else if !(ok1 && ok2 && ok3) then (s4, stLost, [0, 0, 0])
    else
      -- the recorded patterns
      let (s5, stp) := (List.range (min 16 (u 32 1))).foldl (fun (acc : State × Nat) i =>
        if !statusValid acc.2 then acc
        else
          let r := (List.range 16).map (fun k => u (64 + 64 * i + 4 * k) 4)
          let (s', st, _) := acc.1.loadPattern p r
          (s', statusJoin acc.2 st)) (s4, stOk)
      if !statusValid stp then (s4, stLost, [0, 0, 0])
      else
        let taken := (s5.rollAll.filter (fun e => e.2.st != .free)).map (·.1)
        let nums := contextNumbers roll ledg taken
        let s6 := recs.foldl (fun s r => (s.putCoreRecord r.1 lanes r.2.1 r.2.2).1) s5
        let s7 := (nums.zip roll).foldl (fun s e =>
          let v := { e.2 with part := p, inStep := false }
          { s with rollA := smSet {} s.rollA e.1 v, rollB := smSet {} s.rollB e.1 v }) s6
        -- R479: positions at or beyond a stream's pos are discarded
        let capOf (e : LEntry) : Nat :=
          (ledg.filter (fun y => y.stream = e.stream && y.gen = e.gen && y.slot = e.slot)).foldl (fun m y => max m y.fill) 0
        let s8 := ledg.foldl (fun s e =>
          let e1 := if e.held then some e else e.cutAt (capOf e) (s.stream e.stream).pos
          match e1 with
          | none => s
          | some e2 =>
            let (s', at_) := s.ledgPlace (x.cores.headD 0) e2.stream e2.gen e2.slot e2.page
            match at_ with
            | some i => { s' with ledgA := smSet {} s'.ledgA i { e2 with geo := capOf e }, ledgB := smSet {} s'.ledgB i { e2 with geo := capOf e } }
            | none => s') s7
        let (s9, ok9) := (List.range nGran).foldl (fun (acc : State × Bool) i =>
          let (s', b, k) := rd acc.1 (a2 + 4104 * i) 4104
          let id := leNat (b.take 8)
          if k then (s'.vaultWrite (bits id 37 30) (bits id 29 0) (b.drop 8), acc.2) else (s', false)) (s8, true)
        if ok9 then (s9.modPart p (fun x => { x with st := .loaded }), stOk, [0, 0, 0])
        else (s4, stLost, [0, 0, 0])

end Sys2Proof.Machine
end

