-- ==== Sys2Proof/Machine/Partition.lean ====
section
/-! DEFINITION. The partition and stream commands of the admin ring (R263 to R267, R273, R448), each as an operation
that answers its completion status. -/

namespace Sys2Proof.Machine

/-! ### Resets of cores and counters (R136, R266, R507) -/

/-- Every counter of a page becomes 0. -/
def State.clearCounters (s : State) (code inst bank : Nat) : State :=
  ((regTable code).filter (fun d => decide (d = counterReg d.off d.banked))).foldl (fun s d => s.setReg code inst bank d.off 0) s

/-- The counters, clamps and refusals of a core's pages become 0. -/
def State.clearCorePages (s : State) (c : Nat) : State :=
  [pgClerk, pgLoom, pgElem, pgTally, pgAtt].foldl (fun s pg =>
    ((s.clearCounters pg c 0).setReg pg c 0 hClamp 0).setReg pg c 0 hRefuse 0) s

/-- A core after the reset of its partition: queues IDLE, s-registers and counters 0, no order started, the almanac
counter at its start (R309); its stockroom keeps its bytes. -/
def Core.afterReset (x : Core) : Core :=
  { stock := x.stock, stockBad := x.stockBad, stockPtr := x.stockPtr, nextId := x.nextId, cgFailed := x.cgFailed }

/-- Cores halt: their orders, programs, transfers and contributions end without effect. -/
def State.haltCores (s : State) (cores : List Nat) : State :=
  let s1 := cores.foldl (fun s c => s.modCore c Core.afterReset) s
  let mine (c : Nat) : Bool := cores.contains c
  let dropProg (v : Vault) : Vault := { v with
    progs := v.progs.filter (fun g => !mine g.core)
    run := v.run.map (fun r => if mine r.prog.core then { r with left := [], units := [] } else r) }
  let hit := (s1.vaults.filter (fun e => e.2.progs.any (fun g => mine g.core)
    || (match e.2.run with | some r => mine r.prog.core | none => false))).map (·.1)
  let s2 := hit.foldl (fun s p => s.modVault p dropProg) s1
  { s2 with fab := { s2.fab with
      outs := s2.fab.outs.filter (fun t => decide (t.kind = .mirror) || !mine t.core)
      bars := s2.fab.bars.map (fun b => { b with waiting := b.waiting.filter (fun w => !mine w.1) })
      colls := s2.fab.colls.map (fun (c : CollSt) => { c with joined := c.joined.filter (fun j => !mine j.1) }) } }

/-- The cores of a partition are reset (R136, R266), and so are their pages' counters (R507). -/
def State.resetCores (s : State) (cores : List Nat) : State :=
  let s1 := cores.foldl (fun s c => s.clearCorePages c) (s.haltCores cores)
  { s1 with abs := { s1.abs with marks := s1.abs.marks.filter (fun e => !cores.contains e.1) } }

/-- The streams of a partition become FREE with their gen advanced, no record is written for them, and every ledger entry
of the partition's streams is freed (R266). -/
def State.resetStreams (s : State) (p : Nat) : State :=
  let es := (s.ledgAll.filter (fun x => x.2.st != .free && s.partOfStream x.2.stream = p)).map (·.1)
  let ss := (s.streamsOf p).map (·.1)
  let s0 := (s.streamsOf p).foldl (fun s e => if adoptedHist e.2.hist then s.poolFree p (s.poolOf p e.2.hist) else s) s
  let s1 := es.foldl (fun s i => s.dropEntry i) s0
  let s2 := ss.foldl (fun s n => s.modStream n (fun e => { gen := (e.gen + 1) % 16, part := p, epoch := e.epoch })) s1
  { s2 with abs := { s2.abs with
      heldRecs := s2.abs.heldRecs.filter (fun r => r.1 != p)
      mirrorOff := s2.abs.mirrorOff.filter (fun n => !ss.contains n) } }

/-- The valid bits of the vaults of some cores are all cleared (R191). -/
def State.clearVaults (s : State) (cores : List Nat) (part : Option Nat) : State :=
  cores.foldl (fun s c => match s.vaultOf c with
    | some v => (s.clearRange v 0 262144).modVault v (fun v => { v with part := part })
    | none => s) s

/-! ### The end of a migration (R460, R461) -/

/-- The castling that runs in a half. -/
def State.castOf (s : State) (h : Nat) : Option CastRun := if h = 0 then s.abs.castA else s.abs.castB
def State.setCast (s : State) (h : Nat) (x : Option CastRun) : State :=
  { s with abs := if h = 0 then { s.abs with castA := x } else { s.abs with castB := x } }

/-- A castling ends: CASTLE_DONE is logged and STW_CAST busy clears. -/
def State.castDone (s : State) (h l : Nat) : State :=
  (s.setCast h none).log 0x11 { core := l, vault := (s.vaultOf l).getD 511, part := (s.partOfCore l).getD 0 }

/-- A migration with no granule left ends: the old vaults take the role that R456 gives them. -/
def State.migrateEnd (s : State) (l : Nat) : State :=
  match s.abs.migs.find? (fun m => m.logical = l) with
  | none => s
  | some m =>
    if !m.left.isEmpty then s
    else
      let orphans := (m.old, m.roleAfter) :: m.srcs.map (fun x => (x.1, x.2.2))
      let s1 := orphans.foldl (fun s v => s.modVault v.1 (fun x => { x with
        role := v.2, logical := 0, part := none, valid := [], wq := [], mb := [], guests := [], held := [] })) s
      ({ s1 with abs := { s1.abs with migs := s1.abs.migs.filter (fun x => x.logical != l) } }).castDone (coreHalf l) l

/-- The partition of a core that is castling is reset: the valid bits of its vaults clear, so its migration ends (R480). -/
def State.resetMigrations (s : State) (cores : List Nat) : State :=
  let hit := cores.filter (fun c => s.abs.migs.any (fun m => m.logical = c))
  if hit.isEmpty then s
  else
    let s1 := cores.foldl (fun s c => match s.vaultOf c with
      | some v => s.clearRange v 0 262144
      | none => s) s
    let none_ (m : Migrate) : Migrate := { m with left := [] }
    hit.foldl (fun s c =>
      let l := s.abs.migs.map (fun (m : Migrate) => if m.logical = c then none_ m else m)
      ({ s with abs := { s.abs with migs := l } }).migrateEnd c) s1

/-! ### CREATE_PARTITION (R448) -/

/-- A far window in bytes from its word, its size reduced to what the port's device holds; and the clamps. -/
def State.farWindow (s : State) (n w : Nat) : (Nat × Nat) × Nat :=
  let base := bits w 9 0
  let size := bits w 20 10
  let cap := (s.farPort n).cap / 4
  let size' := if base + size > cap then cap - base else size
  ((base * 1073741824, size' * 1073741824), b2n (size' != size))

/-- Two byte ranges share a byte. -/
def rangesMeet (a b : Nat × Nat) : Bool := decide (a.1 < b.1 + b.2) && decide (b.1 < a.1 + a.2) && a.2 != 0 && b.2 != 0

def State.createPartition (s : State) (p : Nat) (w : List Nat) : AdmRes :=
  let g (i : Nat) : Nat := w.getD i 0 % 4294967296
  let mask := g 1 + g 2 <<< 32
  let cores := groupCores mask
  let wins := (List.range 4).map (fun n => s.farWindow n (g (3 + n)))
  let far := wins.map (·.1)
  let host := ((g 7 + g 8 <<< 32) / 4096 * 4096, g 9 * 4096)
  let sq := min 262144 (bits (g 10) 18 0)
  let lq := min 33554432 (bits (g 11) 25 0)
  let k := (wins.map (·.2)).foldl (· + ·) 0 + b2n (bits (g 10) 18 0 > 262144) + b2n (bits (g 11) 25 0 > 33554432)
  let taken := cores.any (fun c => (smFind s.boot.coreSite c).isNone || (s.partOfCore c).isSome)
  let meets := s.parts.any (fun q => (List.range 4).any (fun n => rangesMeet (far.getD n (0, 0)) (q.2.far.getD n (0, 0))))
  if (s.part p).st != .empty then (s, stState, [0, 0, 0])
  else if mask = 0 || taken || meets then (s, stQuota, [0, 0, 0])
  else
    let s1 := s.modPart p (fun x => { x with st := .configured, cores := cores, far := far, host := host, steps := 0 })
    let s2 := (s1.resetCores cores).clearVaults cores (some p)
    let s3 := ((s2.setFld pgFore 0 p rForeStreamQuota 18 0 sq).setFld pgLedg 0 p rLedgPartQuota 25 0 lq).setFld pgLedg 1 p rLedgPartQuota 25 0 lq
    let s4 := ((((s3.setFld pgMesh 0 p rMeshReg 31 16 0).setFld pgMesh 1 p rMeshReg 31 16 0).setFld pgD2d 0 p rD2dReg 31 16 0).setFld
      pgD2d 1 p rD2dReg 31 16 0).setFld pgHost 0 p rHostRegOut 31 16 0 |>.setFld pgHost 0 p rHostRegIn 31 16 0
    let s5 := (List.range 4).foldl (fun s n => (s.setFld pgFarp n p rFarpRegOut 31 16 0).setFld pgFarp n p rFarpRegIn 31 16 0) s4
    (s5.noteClamps pgFore 0 k, if k > 0 then stClamped else stOk, [0, 0, 0])

/-! ### Policy, serving, reset and destruction -/

/-- SET_POLICY (R263): the policy registers take the values that the arguments give them, clamped as their tables state. -/
def State.setPolicy (s : State) (p : Nat) (w : List Nat) : AdmRes :=
  let x := s.part p
  if x.st = .empty || x.st = .resetting then (s, stState, [0, 0, 0])
  else
    let v := Config.policyOf (w.drop 1)
    let clamped := [(pgFore, rForeStepCfg, 0), (pgFore, rForeClass, 1), (pgFore, rForeStagger, 2), (pgFore, rForePolicy, 3),
      (pgPort, rPortCfg, 4)].foldl (fun (acc : State × Bool) r =>
        (acc.1.putReg r.1 0 p r.2.1 (v r.2.2), acc.2 || decide ((acc.1.regTakes r.1 0 p r.2.1 (v r.2.2)).2 > 0))) (s, false)
    (clamped.1, if clamped.2 then stClamped else stOk, [0, 0, 0])

/-- SERVE (R264, R274): steps may start. -/
def State.serve (s : State) (p : Nat) : AdmRes :=
  let x := s.part p
  if x.st = .loaded || x.st = .quiesced then ((s.modPart p (fun x => { x with st := .serving })).pollRing p, stOk, [0, 0, 0])
  else (s, stState, [0, 0, 0])

/-- QUIESCE (R136, R264): no further step; the command completes (nothing is answered yet) when the running step ends. -/
def State.quiesce (s : State) (p : Nat) (tag : Option Nat) : State × Option Nat :=
  let x := s.part p
  if x.st != .serving then (s, some stState)
  else if x.running then (s.modPart p (fun x => { x with after := x.after ++ [.quiesce tag] }), none)
  else (s.modPart p (fun x => { x with st := .quiesced }), some stOk)

/-- RESET_PARTITION (R266). -/
def State.resetPartition (s : State) (p : Nat) : AdmRes :=
  let x := s.part p
  if x.st = .empty || x.st = .resetting then (s, stState, [0, 0, 0])
  else
    let s1 := s.modPart p (fun x => { x with
      st := .resetting, steps := 0, running := false, draftPhase := false, drafts := 0, draftsLeft := 0, rolledBack := false, set := [], after := [], nonrepro := false,
      routeDep := false, admitHeld := false, parkFirst := [], selFrom := [], farFull := false, joins := [], heldAt := none, unpark := [] })
    let s2 := ((s1.resetCores x.cores).resetStreams p).resetMigrations x.cores
    ((s2.clearCounters pgFore 0 p).clearCounters pgPort 0 p, stOk, [0, 0, 0])

/-- A partition leaves RESETTING (R266); not while a half that it has cores in is lost (R465, R468), and not where a core has
no tile (R462). -/
def State.partitionResetDone (s : State) (p : Nat) : State :=
  let x := s.part p
  if x.st != .resetting || x.cores.any (fun c => s.fencedHalf = some (coreHalf c) || (smFind s.boot.coreSite c).isNone) then s
  else (s.modPart p (fun x => { x with st := if x.patterns.isEmpty then .configured else .loaded })).pollRing p

/-- DESTROY_PARTITION (R191, R263); NONREPRODUCIBLE stays until RESET_PARTITION (R311). -/
def State.destroyPartition (s : State) (p : Nat) : AdmRes :=
  let x := s.part p
  if !(x.st = .configured || x.st = .loaded || x.st = .quiesced) then (s, stState, [0, 0, 0])
  else
    let s1 := ((s.resetCores x.cores).resetStreams p).clearVaults x.cores none
    (s1.setPart p { reqHead := x.reqHead, reqTail := x.reqTail, tokTail := x.tokTail, tokHead := x.tokHead, tokTimes := x.tokTimes, msixAt := x.msixAt,
                       nonrepro := x.nonrepro },
      stOk, [0, 0, 0])

/-! ### Stream commands (R263, R267, R273) -/

/-- OPEN_STREAM. Its words give no pattern and no class: the lowest-numbered loaded pattern that is no draft, and class
0. -/
def State.openStream (s : State) (p : Nat) (w : List Nat) : AdmRes :=
  let x := s.part p
  let f := reqFields w
  if !(x.st = .loaded || x.st = .serving || x.st = .quiesced) then (s, stState, [0, 0, 0])
  else match x.patterns.find? (fun q => !q.draft) with
  | none => (s, stState, [0, 0, 0])
  | some q =>
    if !s.histInWindow p f.hist (f.nPrompt + f.maxNew) then (s, stQuota, [0, 0, 0])
    else match s.takeStream p with
    | none => (s, stQuota, [0, 0, 0])
    | some n =>
      let s1 := (s.admitStream p n f q.id 0 f.clamps).modStream n (fun e => { e with clampNote := false })
      (s1, if f.clamps > 0 then stClamped else stOk, [n + (s1.stream n).gen <<< 18, 0, 0])

/-- PARK_STREAM; for a stream of the running step set it takes effect after that step. -/
def State.parkCmd (s : State) (p : Nat) (w : List Nat) : AdmRes :=
  let x := s.part p
  let n := bits (w.getD 1 0) 17 0
  let e := s.stream n
  let pin := bit (w.getD 1 0) 31
  if !(x.st = .serving || x.st = .quiesced) || e.part != p || e.gen != bits (w.getD 1 0) 21 18
      || !(e.st = .prefill || e.st = .decode || e.st = .parked) then (s, stState, [0, 0, 0])
  else if e.inStep then (s.modPart p (fun x => { x with after := x.after ++ [.park n pin] }), stOk, [0, 0, 0])
  else (s.parkStream n pin, stOk, [0, 0, 0])

/-- CANCEL_STREAM; for a stream of the running step set it takes effect after that step. -/
def State.cancelCmd (s : State) (p : Nat) (w : List Nat) : AdmRes :=
  let x := s.part p
  let n := bits (w.getD 1 0) 17 0
  let e := s.stream n
  if !(x.st = .loaded || x.st = .serving || x.st = .quiesced) || e.part != p || e.gen != bits (w.getD 1 0) 21 18
      || !(e.st = .admitted || e.st = .prefill || e.st = .decode || e.st = .parked) then (s, stState, [0, 0, 0])
  else if e.inStep then (s.modPart p (fun x => { x with after := x.after ++ [.cancel n] }), stOk, [0, 0, 0])
  else (s.afterStepDo p (.cancel n), stOk, [0, 0, 0])

end Sys2Proof.Machine
end

