-- ==== Sys2Proof/Machine/Snap.lean ====
section
/-! DEFINITION. Snapshots (R371 to R373, R377, R450): the cut, the marker, and the background copy. -/

namespace Sys2Proof.Machine

/-- This device is the guildmaster of its guild (R363). -/
def State.isMaster (s : State) : Bool := s.fab.isMember && s.fab.master = s.fab.device

/-- This device is the market master: the guildmaster of guild 0 (R363). -/
def State.isMarketMaster (s : State) : Bool := s.isMaster && s.fab.guild = 0 && s.fab.market.isSome

/-- A cut without an image: the snap tag flips, and the snapshot has a number (R372). -/
def State.flipTag (s : State) (num : Nat) : State :=
  { s with fab := { s.fab with snapTag := !s.fab.snapTag, snapNum := num % 65536 } }

/-- A message from a device shows its snap tag. One that has changed to the other of this device's tag is the new snapshot's:
the device takes its cut (R372). -/
def State.cutSeen (s : State) (m : FMsg) : State :=
  let k := m.srcGuild * 64 + m.srcDev
  let last := smGet false s.fab.seenTags k
  let s1 := { s with fab := { s.fab with seenTags := smSet false s.fab.seenTags k m.snap } }
  if m.snap != s.fab.snapTag && m.snap != last then s1.flipTag (s.fab.snapNum + 1) else s1

/-- A message that is for this device has its effect. A device outside a guild takes part in no guild traffic, and a
guildmaster ignores that of a device that has not joined (R478, R498), but for the JOIN messages. -/
def State.forMe (s : State) (m : FMsg) (f : State → State) : State :=
  let stranger := s.isMaster && m.srcGuild = s.fab.guild && m.srcDev != s.fab.device && (smFind s.fab.members m.srcDev).isNone
  if !s.isMine m || !s.fab.isMember || stranger then s else f (s.cutSeen m)

/-- A market message that meets a device other than the guildmaster goes on to it. -/
def State.toMaster (s : State) (m : FMsg) (f : State → State) : State :=
  if m.srcGuild != s.fab.guild && !s.isMaster then s.forwardMsg { m with dstDev := s.fab.master } (msgVc m) none false else f s

/-- Guilds directly below this one on the market tree (R361). -/
def State.childGuilds (s : State) : List Nat :=
  match s.fab.market with
  | some g => ((List.range 64).map (fun i => 64 * s.fab.guild + 1 + i)).filter (fun x => decide (x < g))
  | none => []

/-- A message along every path of a scope below this guildmaster: the members, and at MARKET scope the guilds below. -/
def State.floodScope (s : State) (market : Bool) (ty info : Nat) (data : List Byte) : State :=
  let s1 := s.flood ty info data
  if market then s.childGuilds.foldl (fun s g => s.sendMsg ⟨ty, 0, 0, g, 0, false, info, data⟩) s1 else s1

/-- A roll entry as the snapshot has it: of a stream in a running step, its state before that step. -/
def State.snapStream (s : State) (p n : Nat) (e : Stream) : Stream :=
  match (s.part p).set.find? (fun x => x.stream = n) with
  | some x => if (s.part p).running then { e with lastTok := x.old, inStep := false } else e
  | none => e

/-- The granules that a core's logical vault holds. -/
def State.validGranules (s : State) (l : Nat) : List Nat :=
  match s.abs.migs.find? (fun m => m.logical = l) with
  | some m =>
    let own := (s.vault m.new).valid
    ((m.left.filter (fun g => !m.oldLost && (s.vault (m.src g)).isValid g)).foldl insNat own)
  | none => match s.vaultOf l with | some p => (s.vault p).valid | none => []

/-- The sections of a partition's image before its vault data, and the granules that follow (R450). -/
def State.contextHead (s : State) (p num : Nat) : List Byte × List Byte × List Nat :=
  let x := s.part p
  let lanes := s.boot.lanes
  let roll := s.streamsOf p
  let ledg := s.ledgAll.filter (fun e => e.2.st != .free && s.partOfStream e.2.stream = p)
  let grans := x.cores.flatMap (fun c => (s.validGranules c).map (granuleKey c))
  let carry := x.cores.any (fun c => (s.core c).eng.carryLive)
  let recs := x.patterns.flatMap (fun q => q.record.flatMap (leBytes 4))
  let h0 := leBytes 4 1 ++ leBytes 1 lanes ++ leBytes 1 (b2n carry) ++ leBytes 2 num ++ leBytes 8 (groupMask x.cores)
    ++ leBytes 4 roll.length ++ leBytes 4 ledg.length ++ leBytes 8 0 ++ leBytes 1 x.patterns.length ++ List.replicate 31 0
  let h1 := h0 ++ recs.take 1024 ++ List.replicate (1024 - recs.length) 0 ++ List.replicate (4096 - 64 - 1024) 0
  (imageHead h1 grans.length,
   x.cores.flatMap (fun c => coreRecord c (s.core c) lanes) ++ roll.flatMap (fun e => (s.snapStream p e.1 e.2).image)
     ++ ledg.flatMap (fun e => e.2.image),
   grans)

/-- The cut of a partition at this device (R372): its image begins, and every granule is uncopied. Writes that wait in the
guest queues were sent before it. -/
def State.cut (s : State) (p dest num : Nat) : State :=
  let (head, rest, grans) := s.contextHead p num
  let s1 := (s.flipTag num).imagePut (locOf 0 dest) (head ++ rest)
  let s2 := { s1 with snap := some { number := num % 65536, part := p, dest := dest, uncopied := grans, head := head,
                                     fill := head.length + rest.length, placed := [] } }
  let olds := (s.part p).cores.flatMap (fun c => match s.vaultOf c with
    | some v => (s.vault v).guests.filterMap (fun q => match q with | .write _ a d => some (c, a, d) | _ => none)
    | none => [])
  olds.foldl (fun s o => s.snapOld o.1 o.2.1 o.2.2) s2

/-- Granules are still to be copied (FAB_SNAP copy_busy). -/
def State.copyBusy (s : State) : Bool := match s.snap with | some x => !x.uncopied.isEmpty | none => false

/-- SNAPSHOT (R371, R372). -/
def State.snapshotCmd (s : State) (p : Nat) (w : List Nat) : AdmRes :=
  let g (i : Nat) : Nat := w.getD i 0 % 4294967296
  let dest := g 1 + g 2 <<< 32
  let scope := if bits (g 3) 1 0 = 3 then 0 else bits (g 3) 1 0
  let x := s.part p
  let (head, rest, grans) := s.contextHead p (s.fab.snapNum + 1)
  let size := head.length + rest.length + 4104 * grans.length
  let wrong := !(x.st = .serving || x.st = .quiesced) || (scope = 1 && !s.isMaster) || (scope = 2 && !s.isMarketMaster) || s.copyBusy
  let here := match locOf 0 dest with | .guild _ _ => false | .market _ _ _ _ => false | _ => true
  if wrong then (s, stState, [0, 0, 0])
  else if !here || spaceOf dest > 8 || !s.inWindows p (locOf 0 dest) size then (s, stQuota, [0, 0, 0])
  else
    let num := (s.fab.snapNum + 1) % 65536
    let s1 := s.cut p dest num
    let s2 := if scope = 0 then s1 else s1.floodScope (scope = 2) 0x08 (num + scope <<< 16) []
    (s2.noteClamps pgFore 0 (b2n (bits (g 3) 1 0 = 3)), if bits (g 3) 1 0 = 3 then stClamped else stOk, [num, 0, 0])

/-- SNAP_MARK: a device that has not taken its cut takes it, and keeps the number; a guildmaster passes a market marker on. -/
def execSnapMark (m : FMsg) (s : State) : Host.Outcome State Fault Refusal :=
  .next (reachLink.take s (s.forMe m (fun s => s.toMaster m (fun s =>
    let s1 := { s with fab := { s.fab with snapNum := bits m.info 15 0 } }
    if bits m.info 17 16 = 2 && m.srcGuild != s.fab.guild then s1.floodScope true 0x08 (m.info % 262144) [] else s1))))

/-- The background copy takes the next granule (R373); it pauses while a half is lost (R480). -/
def execSnapshotCopy (s : State) : Host.Outcome State Fault Refusal :=
  .next (reachServe.take s (
    match s.snap with
    | some x =>
      match x.uncopied with
      | k :: _ => if s.fencedHalf.isSome then s else s.snapGranule (k / 262144) (k % 262144)
      | [] => s
    | none => s))

end Sys2Proof.Machine
end

