-- ==== Sys2Proof/Machine/FabMsg.lean ====
section
/-! DEFINITION. Fabric messages at their device: puts, gets and market messages (R360, R362, R364 to R366, R465), their
acknowledgements and resends (R463, R473, R478), and the guildmaster (R363). -/

namespace Sys2Proof.Machine

/-! ### Messages for a fenced half (R465, R468) -/

/-- Bytes of messages as the hold counts them: header and data. -/
def heldSize (l : List FMsg) : Nat := (l.map (fun (m : FMsg) => 16 + m.data.length)).foldl (· + ·) 0

/-- A message for logical cores or vaults: while one of them lies in a fenced half it is held, up to 8 MiB, and answered with
ACK fenced beyond that; after an escalation it is answered with ACK refused. -/
def State.heldOr (s : State) (m : FMsg) (id : Nat) (ls : List Nat) (f : State → State) : State :=
  match s.abs.fence with
  | none => f s
  | some x =>
    if x.stage ≥ 4 || !ls.any (fun l => coreHalf l = x.half) then f s
    else if x.escalated then s.sendAck m id ackRefused
    else if heldSize x.msgs + 16 + m.data.length ≤ 8388608 then
      { s with abs := { s.abs with fence := some { x with msgs := x.msgs ++ [m] } } }
    else s.sendAck m id ackFenced

/-! ### PUT, GET_REQ, GET_RSP and MSG -/

/-- A PUT message (R360, R365). One from another guild writes nothing (R29). -/
def State.putArrives (s : State) (m : FMsg) : State :=
  if m.srcGuild != s.fab.guild then s else
  let ls := (nearParts (putOff m) (putBody m).length).map (·.1)
  s.heldOr m (putId m) ls (fun s =>
    let (s1, first) := s.receive m (putId m) (putIdx m) (bits (putTail m) 9 0 + 1)
    if first then s1.putTry m else s1)

/-- A GET_REQ (R366). One from another guild reads nothing (R29). -/
def State.getArrives (s : State) (m : FMsg) : State :=
  if m.srcGuild != s.fab.guild then s
  else s.heldOr m (bits m.info 49 38) ((nearParts (bits m.info 37 0) (bits (leNat m.data) 19 0)).map (·.1)) (fun s => s.getTry m)

/-- A GET_RSP (R366); a second copy is discarded and counted. -/
def State.rspArrives (s : State) (m : FMsg) : State :=
  match s.getOf m with
  | none => s
  | some t => if t.got.contains (bits m.info 19 10) then s.bump pgFab 0 0 rFabDups 1 else s.rspTry m

/-- A MSG (R362): the data goes to the named core's stockroom, and dst_ctr is signalled by 1; a core that is not ACTIVE in a
SERVING or QUIESCED partition answers with ACK refused. -/
def State.msgArrives (s : State) (m : FMsg) : State :=
  let c := bits m.info 7 0
  let id := bits m.info 26 15
  s.heldOr m id [c] (fun s =>
    let ok := match s.partOfCore c with
      | some p => s.coreActive c && ((s.part p).st = .serving || (s.part p).st = .quiesced)
      | none => false
    if !ok then s.sendAck m id ackRefused
    else
      let (s1, first) := s.receive m id 0 1
      if !first then s1
      else
        let body := m.data.drop 8
        let at_ := bits (leNat (m.data.take 8)) 20 0
        let s2 := if body.isEmpty then s1 else (s1.stockWrite c at_ body).modCore c (fun x => { x with
          inbox := x.inbox.filter (fun e => e.1 != at_)
          msgIn := x.msgIn.filter (fun e => e.1 != at_) ++ [(at_, body.length, m.srcDev)] })
        let s3 := if bit m.info 14 then s2.signal c (bits m.info 13 8) 1 else s2
        (s3.madeVisible m id).1.sendAck m id 0)

/-- The messages that a fence holds, when they go on. -/
def State.heldMsg (s : State) (m : FMsg) : State :=
  match m.ty with
  | 0x01 => s.putArrives m
  | 0x02 => s.getArrives m
  | 0x0D => s.msgArrives m
  | _ => s

def execPut (m : FMsg) (s : State) : Host.Outcome State Fault Refusal :=
  .next (reachLink.take s (s.forMe m (fun s => s.putArrives m)))

def execGetReq (m : FMsg) (s : State) : Host.Outcome State Fault Refusal :=
  .next (reachLink.take s (s.forMe m (fun s => s.getArrives m)))

def execGetRsp (m : FMsg) (s : State) : Host.Outcome State Fault Refusal :=
  .next (reachLink.take s (s.forMe m (fun s => s.rspArrives m)))

def execMsg (m : FMsg) (s : State) : Host.Outcome State Fault Refusal :=
  .next (reachLink.take s (s.forMe m (fun s => s.msgArrives m)))

/-! ### Leaving the guild, and self-fencing (R478) -/

/-- The device is no longer a member. -/
def State.leaveGuild (s : State) : State :=
  { s with fab := { s.fab with formed := s.fab.members.any (fun e => e.1 != s.fab.device), isMember := false, members := [], links := [], routes := [], joining := none, challenged := [] } }

/-- The mirrored partitions of a list are reset without token records (R266, R478). -/
def State.selfFence (s : State) (ps : List Nat) : State :=
  let mine := ps.filter (fun p => s.fld pgStw 0 p rStwMirrorOut 31 31 = 1)
  let s1 := mine.foldl (fun s p => (s.resetPartition p).1) s
  let s2 := mine.foldl (fun s p => { s with fab := { s.fab with outs := s.fab.outs.filter (fun (t : XferOut) => !(decide (t.kind = .mirror) && t.core = p)) } }) s1
  if mine.isEmpty then s2 else (s2.log 0x1A { part := mine.headD 0 }).bump pgStw 0 0 rStwSelfFences 1

/-- The buddy takes no mirror of a stream: it is mirrored no further until DONE, and its records go on (R473). -/
def State.mirrorRefused (s : State) (p n : Nat) : State :=
  let s1 := if s.abs.mirrorOff.contains n then s
    else ({ s with abs := { s.abs with mirrorOff := insNat s.abs.mirrorOff n } }).log 0x19 { part := p, stream := some ((s.stream n).gen, n) }
  let s2 := { s1 with fab := { s1.fab with outs := s1.fab.outs.filter (fun (t : XferOut) => !(decide (t.kind = XKind.mirror) && t.core = p && t.flight = n)) } }
  s2.tokRelease p n

/-! ### ACK and resends (R360, R463) -/

/-- An order ends with DATA_LOST: none of its transfers stays open. -/
def State.failFlight (s : State) (c id : Nat) : State :=
  ({ s with fab := { s.fab with outs := s.fab.outs.filter (fun (t : XferOut) => t.kind = XKind.mirror || !(t.core = c && t.flight = id)) } }).xferLost c id

/-- An ACK at the initiator. -/
def State.ackArrives (s : State) (m : FMsg) : State :=
  match s.fab.outs.find? (fun t => t.id = bits m.info 11 0 && t.guild = m.srcGuild && t.dev = m.srcDev) with
  | none => s
  | some t =>
    if bit m.info 15 then
      { s with fab := { s.fab with outs := s.fab.outs.map (fun (x : XferOut) => if x.id = t.id then { x with fenced := true } else x) } }
    else if t.kind = .mirror then
      if bit m.info 14 then s.selfFence [t.core]
      else if bit m.info 13 then s.mirrorRefused t.core t.flight
      else (s.closeXfer t.id).tokRelease t.core t.flight
    else if bit m.info 13 then s.failFlight t.core t.flight
    else if t.kind = .get then s
    else (s.closeXfer t.id).xferRetry t.core t.flight

def execAck (m : FMsg) (s : State) : Host.Outcome State Fault Refusal :=
  .next (reachLink.take s (s.forMe m (fun s => s.ackArrives m)))

/-- A transfer has had no ACK within e2e_timeout: its messages leave again, at most 3 times where none of the resends was
answered with fenced; then, and for an unreachable device, its order is lost. A MIRROR is sent again without limit, since no
record leaves before its acknowledgement (R471). A market message whose pair of guilds is cut waits until a link returns (R361). -/
def execE2eTimeout (id : Nat) (s : State) : Host.Outcome State Fault Refusal :=
  .next (reachLink.take s (
    match s.fab.outs.find? (fun t => t.id = id) with
    | none => s
    | some t =>
      let n := if t.fenced then t.resends - 1 else t.resends
      if t.guild != s.fab.guild && (s.marketLink t.guild).isNone then s
      else if t.kind != .mirror && (s.unreachable t.guild t.dev || decide (n ≥ 3)) then
        ((s.bump pgFab 0 0 rFabUnreachable 1).setErr pgFab 0 2).failFlight t.core t.flight
      else
        let s1 := { s with fab := { s.fab with outs := s.fab.outs.map (fun (x : XferOut) =>
          if x.id = t.id then { x with resends := n + 1, fenced := false } else x) } }
        t.msgs.foldl (fun s m => s.sendMsg m) ((s1.bump pgFab 0 0 rFabResends t.msgs.length).setErr pgFab 0 0)))

/-! ### The guildmaster (R363) -/

/-- The succession list: the configured guildmaster, then every other member by ascending fused serial. -/
def State.succession (s : State) : List Nat :=
  let cfg := s.fld pgFab 0 0 rFabGuild 11 6
  cfg :: ((s.fab.members.filter (fun e => e.1 != cfg)).mergeSort (fun a b => decide (a.2 ≤ b.2))).map (·.1)

/-- A master is obeyed. -/
def State.obey (s : State) (term dev : Nat) : State :=
  let s1 := { s with fab := { s.fab with term := term, master := dev } }
  if s.fab.master = dev then s1 else s1.setErr pgFab 0 1

/-- A HEARTBEAT: the highest term is obeyed, equal terms by their masters' places in the list. A
device that is joining learns the master from it (R499). -/
def execHeartbeat (m : FMsg) (s : State) : Host.Outcome State Fault Refusal :=
  .next (reachLink.take s (
    let hear (s : State) : State :=
      let term := bits m.info 31 0
      let dev := bits m.info 37 32
      let l := s.succession
      let rank (d : Nat) : Nat := (l.findIdx? (· = d)).getD 64
      if term > s.fab.term || (term = s.fab.term && decide (rank dev < rank s.fab.master)) then s.obey term dev else s
    if s.fab.joining.isSome && s.isMine m && m.srcGuild = s.fab.guild then hear s else s.forMe m hear))

/-- The guildmaster's heartbeat period elapses. -/
def State.sendHeartbeat (s : State) : State := s.flood 0x09 (s.fab.term % 4294967296 + (s.fab.device % 64) <<< 32) []

def execHeartbeatSend (s : State) : Host.Outcome State Fault Refusal :=
  .next (reachLink.take s (if s.isMaster then s.sendHeartbeat else s))

/-- A device of the guild is reachable, as this device's link state shows it. -/
def State.reachable (s : State) (d : Nat) : Bool := d = s.fab.device || s.routeTo d != (none, none)

/-- No HEARTBEAT for hb_period × hb_loss: the first reachable device after the master in the list is the successor; this
device, if it is the one, takes office. Behind the list's end the search goes on at its head (DESIGN CHOICE, assumption 126: R28
and R363 do not say). -/
def execHeartbeatLoss (s : State) : Host.Outcome State Fault Refusal :=
  .next (reachLink.take s (
    if !s.fab.isMember || s.isMaster then s
    else
      let l := s.succession
      let i := (l.findIdx? (· = s.fab.master)).getD 0
      match (l.drop (i + 1) ++ l.take i).find? (fun d => s.reachable d) with
      | none => s
      | some d =>
        if d = s.fab.device then (s.obey ((s.fab.term + 1) % 4294967296) d).sendHeartbeat
        else s.obey s.fab.term d))

end Sys2Proof.Machine
end

