-- ==== Sys2Proof/Machine/Coll.lean ====
section
/-! DEFINITION. Collectives (R367, R368) and barriers (R156, R369, R370). -/

namespace Sys2Proof.Machine

/-! ### The fields of COLLECTIVE -/

/-- Words 4 to 11 of COLLECTIVE after their clamps. -/
structure CvF where
  op : Nat
  fn : Nat
  scope : Nat
  id : Nat
  root : Nat
  src : Nat
  dst : Nat
  len : Nat
  fmt : Nat
  first : Nat
  last : Nat
  mask : Nat
  clamps : Nat
deriving DecidableEq, Repr

/-- The reducing ops: ALLREDUCE, REDUCE, REDUCESCATTER. -/
def cvReduces (op : Nat) : Bool := op = 0 || op = 1 || op = 4

/-- Bytes of an element. -/
def cvWidth (fmt : Nat) : Nat := fmtWidth fmt / 8

/-- The participants of an order (R367). -/
def CvF.members (s : State) (p : Nat) (f : CvF) : List Nat :=
  if f.scope = 0 then (s.part p).cores.filter (fun c => decide (f.first ≤ c) && decide (c ≤ f.last))
  else if f.mask = 0 then s.fab.members.map (·.1)
  else (List.range 64).filter (fun d => bit f.mask d)

/-- The op of an order: 5 to 15 become ALLREDUCE. -/
def cvOp (o : Nat) : Nat := if ordF o 4 3 0 > 4 then 0 else ordF o 4 3 0

/-- The fields of an order but for the rounding of len. -/
def cvRaw (o : Nat) : CvF :=
  let op := cvOp o
  let red := cvReduces op
  let fn := if ordF o 4 5 4 = 3 then 0 else ordF o 4 5 4
  let sc := if ordF o 4 7 6 > 1 then 0 else ordF o 4 7 6
  let len := max 1 (ordF o 7 20 0)
  let code := ordF o 8 3 0
  let fmtOk := if fn = 0 then code = 0 else [0, 1, 2, 3, 4, 13, 15].contains code
  { op := op, fn := fn, scope := sc, id := ordF o 4 13 8, root := ordF o 4 21 16, src := ordF o 5 20 0, dst := ordF o 6 20 0, len := len,
    fmt := if fmtOk then code else 0, first := ordF o 9 7 0, last := ordF o 9 7 0 + ordF o 9 15 8, mask := ordW64 o 10,
    clamps := b2n (ordF o 4 3 0 > 4) + b2n (red && ordF o 4 5 4 = 3) + b2n (ordF o 4 7 6 > 1) + b2n (ordF o 7 20 0 = 0)
      + b2n (red && !fmtOk) }

/-- A core range that reaches beyond the partition is reduced, which is a clamp of the field (R8). -/
def State.cvRange (s : State) (p : Nat) (f : CvF) : CvF :=
  if f.scope = 0 && (List.range (f.last + 1 - f.first)).any (fun i => !(s.part p).cores.contains (f.first + i)) then
    { f with clamps := f.clamps + 1 }
  else f

/-- The fields after the rounding of len (R368): one clamp of the field, be it for 0 or for its rounding. -/
def State.cvFields (s : State) (p o : Nat) : CvF :=
  let f := s.cvRange p (cvRaw o)
  if !cvReduces f.op then f
  else
    let n := if f.op = 4 then max 1 (f.members s p).length else 1
    let unit := n * cvWidth f.fmt
    let len := f.len / unit * unit
    { f with len := len, clamps := f.clamps + b2n (len != f.len && ordF o 7 20 0 != 0) }

/-! ### Element results (R368) -/

/-- Whether element x ranks below y (R115, integers numerically). -/
def cvLt (fmt x y : Nat) : Bool :=
  if fmtIsInt fmt then decide (elemInt fmt x < elemInt fmt y)
  else
    let a := elemVal fmt x
    let b := elemVal fmt y
    if fpIsNan a then false else if fpIsNan b then true else fpLt a b

/-- Two elements combined: SUM, MAX, MIN; the selected element keeps its bits, and equal ones the lower rank's. -/
def cvOne (fn fmt x y : Nat) : Nat :=
  match fn with
  | 0 => (f32Add (BitVec.ofNat 32 x) (BitVec.ofNat 32 y)).toNat
  | 1 => if cvLt fmt x y then y else x
  | _ => if cvLt fmt y x then y else x

/-- A contribution joins the accumulator, element by element. -/
def cvCombine (fn fmt : Nat) (acc bs : List Byte) : List Byte :=
  let w := cvWidth fmt
  let e (l : List Byte) (i : Nat) : Nat := leNat ((l.drop (w * i)).take w)
  (List.range (acc.length / w)).flatMap (fun i => leBytes w (cvOne fn fmt (e acc i) (e bs i)))

/-- What a rank writes at its dst, from the contributions in rank order. -/
def cvResult (f : CvF) (rank : Nat) (cs : List (List Byte)) : Option (List Byte) :=
  let sum := (cs.drop 1).foldl (cvCombine f.fn f.fmt) (cs.headD [])
  let slice := f.len / max 1 cs.length
  match f.op with
  | 0 => some sum
  | 1 => if rank = f.root then some sum else none
  | 2 => some (cs.getD f.root [])
  | 3 => some (cs.flatMap (fun (c : List Byte) => c))
  | _ => some ((sum.drop (rank * slice)).take slice)

/-! ### PARTITION scope -/

/-- Fields in which every participant must agree with rank 0. -/
def CollSt.agrees (r : CollSt) (f : CvF) (members : List Nat) : Bool :=
  r.op = f.op && r.fn = f.fn && r.len = f.len && r.fmt = f.fmt && r.members = members && (r.root = f.root || !(f.op = 1 || f.op = 2))

def State.putColls (s : State) (l : List CollSt) : State := { s with fab := { s.fab with colls := l } }

/-- All orders of a collective end with a status. -/
def State.cvEnd (s : State) (r : CollSt) (st : Nat) : State := r.joined.foldl (fun s j => s.finish j.1 j.2.1 st) s

/-- Every participant of a partition collective has joined: the results are formed and written. -/
def State.cvPartition (s : State) (r : CollSt) (f : CvF) : State :=
  let order := r.joined.mergeSort (fun a b => decide (a.1 ≤ b.1))
  let (s1, cs, ok) := order.foldl (fun (acc : State × List (List Byte) × Bool) j =>
    let (s', b, k) := acc.1.readOrFree (.stock j.1 j.2.2.1) f.len
    (s', acc.2.1 ++ [b], acc.2.2 && k)) (s, [], true)
  let s2 := (order.mapIdx (fun i j => (i, j))).foldl (fun s q =>
    match cvResult f q.1 cs with
    | some bs => s.stockWrite q.2.1 q.2.2.2.2 bs
    | none => s) s1
  s2.cvEnd r (if ok then stOk else stLost)

/-- A core joins a collective of its partition; the last participant completes it. -/
def State.cvJoinPart (s : State) (c id p : Nat) (f : CvF) (members : List Nat) : State :=
  let mine (r : CollSt) : Bool := r.scope = 0 && r.part = p && r.id = f.id
  let j := (c, id, f.src, f.dst)
  let r0 : CollSt := (s.fab.colls.find? mine).getD
    { id := f.id, scope := 0, op := f.op, fn := f.fn, len := f.len, fmt := f.fmt, root := f.root, members := members, part := p, joined := [],
      bad := false, own := [], sent := [], came := [] }
  let r : CollSt := { r0 with joined := r0.joined ++ [j], bad := r0.bad || !r0.agrees f members || decide (f.root = 64) }
  let rest := s.fab.colls.filter (fun x => !mine x)
  if !members.all (fun m => r.joined.any (fun x => x.1 = m)) then s.putColls (rest ++ [r])
  else
    let s1 := s.putColls rest
    if r.bad then
      let open_ := r.joined.filter (fun j => match (s1.core j.1).flight j.2.1 with | some y => !y.done | none => false)
      (open_.foldl (fun s _ => s.noteRefuse pgFab 0) s1).cvEnd { r with joined := open_ } stState
    else s1.cvPartition r f

/-- An order of a partition collective whose root is no participant has been refused; the other participants' orders differ
from it, or are refused like it (R367). -/
def State.cvBadRoot (s : State) (c id p : Nat) (f : CvF) (members : List Nat) : State :=
  if f.scope = 0 then s.cvJoinPart c id p { f with root := 64 } members else s

/-! ### GUILD scope -/

/-- 576 B chunk i of some bytes. -/
def chunkOf (bs : List Byte) (i : Nat) : List Byte := (bs.drop (576 * i)).take 576
def CollSt.chunks (r : CollSt) : Nat := ceilDiv r.len 576
def CollSt.rankOf (r : CollSt) (d : Nat) : Nat := (r.members.findIdx? (· = d)).getD 0
def CollSt.n (r : CollSt) : Nat := r.members.length

/-- Whether a rank's destination takes part of chunk i of the result. -/
def CollSt.wants (r : CollSt) (rank i : Nat) : Bool :=
  match r.op with
  | 0 => true
  | 1 => rank = r.root
  | _ =>
    let sl := r.len / max 1 r.n
    decide (576 * i < (rank + 1) * sl) && decide (rank * sl < 576 * i + 576)

/-- A COLL message (R357): op 15 tells the participants that the collective is refused. -/
def State.collSend (s : State) (r : CollSt) (to_ chunk rank op : Nat) (bs : List Byte) : State :=
  s.sendMsg ⟨0x05, to_, 0, s.fab.guild, 0, false, r.id % 64 + (chunk % 65536) <<< 6 + (rank % 64) <<< 22 + (op % 16) <<< 28, bs⟩

def State.putColl (s : State) (r : CollSt) : State :=
  s.putColls (s.fab.colls.filter (fun x => !(decide (x.scope = 1) && x.id = r.id)) ++ [r])
def State.dropColl (s : State) (id : Nat) : State :=
  s.putColls (s.fab.colls.filter (fun x => !(decide (x.scope = 1) && x.id = id)))

/-- Bytes for this device's destination, at a distance from dst_addr. -/
def CollSt.hold (r : CollSt) (off : Nat) (bs : List Byte) : CollSt :=
  match r.joined.head? with
  | none => r
  | some j => { r with held := r.held ++ [(j.2.2.2 + off, bs)] }

/-- A chunk of the reduction stands ready for this device's destination. -/
def CollSt.holdChunk (r : CollSt) (rank i : Nat) (bs : List Byte) : CollSt :=
  if r.op = 4 then
    let sl := r.len / max 1 r.n
    let lo := max (576 * i) (rank * sl)
    let hi := min (576 * i + bs.length) ((rank + 1) * sl)
    r.hold (lo - rank * sl) ((bs.drop (lo - 576 * i)).take (hi - lo))
  else r.hold (576 * i) bs

/-- The collective completes at this device: its destination is written, and its order ends (R368). -/
def State.collDone (s : State) (r : CollSt) : State :=
  let s1 := match r.joined.head? with
    | some j => r.held.foldl (fun (s : State) (w : Nat × List Byte) => s.stockWrite j.1 w.1 w.2) (s.dropColl r.id)
    | none => s.dropColl r.id
  s1.cvEnd r stOk

/-- The collective is done at this device: every chunk passed on, and all of its own result there. -/
def CollSt.over (r : CollSt) (rank : Nat) : Bool :=
  let all := List.range r.chunks
  if cvReduces r.op then
    all.all (fun i => r.sent.contains i && (!r.wants rank i || r.came.contains i))
  else if r.op = 2 then rank = r.root || all.all (fun i => r.came.contains i)
  else (List.range r.n).all (fun q => q = rank || all.all (fun i => r.came.contains (q * 65536 + i)))

/-- A chunk of the running sum at this rank: it goes to the next rank, or as the result to those that want it. -/
def State.collPass (s : State) (r : CollSt) (rank i : Nat) (acc : List Byte) : State × CollSt :=
  let r1 : CollSt := { r with sent := r.sent ++ [i] }
  if rank + 1 < r.n then (s.collSend r (r.members.getD (rank + 1) 0) i rank r.op acc, r1)
  else
    let s1 := (List.range r.n).foldl (fun s q =>
      if q = rank || !r.wants q i then s else s.collSend r (r.members.getD q 0) i rank r.op acc) s
    if r.wants rank i then (s1, { (r1.holdChunk rank i acc) with came := r1.came ++ [i] }) else (s1, r1)

/-- The collective is refused here, and at every participant. -/
def State.collRefuse (s : State) (r : CollSt) (tell : Bool) : State :=
  let s1 := ((s.dropColl r.id).noteRefuse pgFab 0).cvEnd r stState
  if tell then (r.members.filter (· != s.fab.device)).foldl (fun s d => s.collSend r d 0 0 15 []) s1 else s1

/-- A COLL message meets a collective that this device has joined. -/
def State.collTake (s : State) (r : CollSt) (m : FMsg) : State :=
  let rank := r.rankOf s.fab.device
  let i := bits m.info 21 6
  let q := bits m.info 27 22
  let op := bits m.info 31 28
  let size := min 576 (r.len - 576 * i)
  if op = 15 then s.collRefuse r false
  else if op != r.op || decide (i ≥ r.chunks) || decide (m.data.length < size) then s.collRefuse r true
  else
    let bs := m.data.take size
    let (s1, r1) :=
      if cvReduces r.op then
        if decide (0 < rank) && q + 1 = rank then
          if r.sent.contains i then (s, r) else s.collPass r rank i (cvCombine r.fn r.fmt bs (chunkOf r.own i))
        else if r.came.contains i then (s, r)
        else (s, { (r.holdChunk rank i bs) with came := r.came ++ [i] })
      else
        let key := if r.op = 2 then i else q * 65536 + i
        (s, { (r.hold ((if r.op = 2 then 0 else q * r.len) + 576 * i) bs) with came := insNat r.came key })
    if r1.over rank then s1.collDone r1 else s1.putColl r1

/-- The device joins a guild collective. What has come for it already is looked at first: an order that differs is refused
before anything is read or sent (R10, R367). -/
def State.cvJoinGuild (s : State) (c id : Nat) (f : CvF) (members : List Nat) : State :=
  let mine := s.fab.early.filter (fun m => bits m.info 5 0 = f.id)
  let sE := { s with fab := { s.fab with early := s.fab.early.filter (fun m => bits m.info 5 0 != f.id) } }
  let refused : CollSt := { id := f.id, scope := 1, op := f.op, fn := f.fn, len := f.len, fmt := f.fmt, root := f.root, members := members,
                            part := 0, joined := [(c, id, f.src, f.dst)], bad := true, own := [], sent := [], came := [] }
  if mine.any (fun m => bits m.info 31 28 = 15) then sE.collRefuse refused false
  else if mine.any (fun m => bits m.info 31 28 != f.op) then sE.collRefuse refused true
  else
  let (s0, own, ok) := sE.readOrFree (.stock c f.src) f.len
  let s1 := if ok then s0 else s0.modFlight c id (fun x => { x with status := statusJoin x.status stLost })
  let r : CollSt := { id := f.id, scope := 1, op := f.op, fn := f.fn, len := f.len, fmt := f.fmt, root := f.root, members := members, part := 0,
                      joined := [(c, id, f.src, f.dst)], bad := false, own := own, sent := [], came := [] }
  let rank := r.rankOf s.fab.device
  let others := members.filter (· != s.fab.device)
  let all := List.range r.chunks
  let (s2, r2) : State × CollSt :=
    if cvReduces f.op then
      if rank = 0 then all.foldl (fun (acc : State × CollSt) i => acc.1.collPass acc.2 0 i (chunkOf own i)) (s1, r) else (s1, r)
    else if f.op = 2 then
      if rank = f.root then
        (all.foldl (fun s i => others.foldl (fun s d => s.collSend r d i rank 2 (chunkOf own i)) s) s1, r.hold 0 own)
      else (s1, r)
    else
      (all.foldl (fun s i => others.foldl (fun s d => s.collSend r d i rank 3 (chunkOf own i)) s) s1, r.hold (rank * f.len) own)
  if r2.over rank then s2.collDone r2
  else mine.foldl (fun s m =>
    match s.fab.colls.find? (fun x => decide (x.scope = 1) && x.id = f.id) with
    | some x => s.collTake x m
    | none => s) (s2.putColl r2)

/-- A COLL message (R357, R367); one that comes before this device joins waits for it. -/
def execColl (m : FMsg) (s : State) : Host.Outcome State Fault Refusal :=
  .next (reachLink.take s (s.forMe m (fun s =>
    match s.fab.colls.find? (fun (x : CollSt) => decide (x.scope = 1) && x.id = bits m.info 5 0) with
    | some r => s.collTake r m
    | none => { s with fab := { s.fab with early := s.fab.early ++ [m] } })))

/-- A COLLECTIVE order of op k starts (R367). -/
def State.collective (s : State) (core k : Nat) : State :=
  s.runOrder core (fun st => st.op = 0x48 && cvOp st.ord = k) (fun s st =>
    match s.partOfCore core with
    | none => s.refuseOrder core st stState
    | some p =>
      let f := s.cvFields p st.ord
      let members := f.members s p
      let me := if f.scope = 0 then core else s.fab.device
      let open_ := s.fab.colls.any (fun (r : CollSt) => r.id = f.id && r.scope = f.scope
        && (f.scope = 1 || (r.part = p && r.joined.any (fun j => j.1 = core))))
      let outside := if f.scope = 0 then decide (core < f.first) || decide (f.last < core) else !members.contains me
      if (f.scope = 1 && !s.fab.isMember) || open_ || outside then s.refuseOrder core st stState
      else if (k = 1 || k = 2) && decide (f.root ≥ members.length) then
        (s.refuseOrder core st stState).cvBadRoot core (s.core core).freshId p f members
      else
        let (s1, id) := s.startLate core st
        let s2 := s1.oweClamps core id pgFab 0 f.clamps
        if f.scope = 0 then s2.cvJoinPart core id p f members else s2.cvJoinGuild core id f members)

def execAllreduce (core : Nat) (s : State) : Host.Outcome State Fault Refusal := .next (reachOrder.take s (s.collective core 0))
def execReduce (core : Nat) (s : State) : Host.Outcome State Fault Refusal := .next (reachOrder.take s (s.collective core 1))
def execBroadcast (core : Nat) (s : State) : Host.Outcome State Fault Refusal := .next (reachOrder.take s (s.collective core 2))
def execAllgather (core : Nat) (s : State) : Host.Outcome State Fault Refusal := .next (reachOrder.take s (s.collective core 3))
def execReducescatter (core : Nat) (s : State) : Host.Outcome State Fault Refusal := .next (reachOrder.take s (s.collective core 4))

/-! ### Barriers (R156, R369, R370) -/

/-- The scope of a BARRIER_JOIN: 3 becomes PARTITION. -/
def barScope (o : Nat) : Nat := if ordF o 4 1 0 = 3 then 0 else ordF o 4 1 0

/-- The parent of a device on the guild's barrier tree: the next device toward the guildmaster in dimension order, or the
guildmaster itself where that is no member. -/
def State.barParent (s : State) (d : Nat) : Nat :=
  let m := s.fab.master
  match torusDim d m with
  | none => m
  | some i =>
    let p := torusNext d (torusPort d m i)
    if (smFind s.fab.members p).isSome then p else m

/-- Members whose parent is this device. -/
def State.barChildren (s : State) : List Nat :=
  (s.fab.members.map (·.1)).filter (fun d => d != s.fab.master && d != s.fab.device && s.barParent d = s.fab.device)

/-- An order that has joined a barrier gets its epoch and is done. -/
def State.barDone (s : State) (epoch : Nat) (l : List (Nat × Nat)) : State :=
  l.foldl (fun s w =>
    match (s.core w.1).flight w.2 with
    | none => s
    | some f =>
      let s1 := if bit (ordW f.ord 4) 22 then s.setSreg w.1 (ordF f.ord 4 21 16) (BitVec.ofNat 64 epoch) else s
      s1.finish w.1 w.2 stOk) s

def State.putBar (s : State) (b : BarSt) : State :=
  { s with fab := { s.fab with bars := s.fab.bars.filter (fun x => !(decide (x.id = b.id) && x.scope = b.scope)) ++ [b] } }
def State.bar (s : State) (id scope : Nat) : BarSt :=
  (s.fab.bars.find? (fun x => x.id = id && x.scope = scope)).getD ⟨id, scope, [], false, false, [], 0⟩

/-- A barrier message. -/
def State.barMsg (s : State) (ty dev guild id scope epoch : Nat) : State :=
  s.sendMsg ⟨ty, dev, 0, guild, 0, false, id % 64 + (scope % 4) <<< 6, leBytes 8 epoch⟩

/-- A barrier is released at this device: its epoch is set, its orders are done, and the release goes down the tree. -/
def State.barRelease (s : State) (id scope epoch : Nat) : State :=
  let b := s.bar id scope
  let s1 := { s with fab := { s.fab with
    epoch := epoch % 18446744073709551616
    bars := s.fab.bars.filter (fun x => !(decide (x.id = id) && x.scope = scope)) } }
  let s2 := s.barChildren.foldl (fun s d => s.barMsg 0x07 d s.fab.guild id scope epoch) s1
  let s3 := if scope = 2 && s.isMaster then s.childGuilds.foldl (fun s g => s.barMsg 0x07 0 g id scope epoch) s2 else s2
  s3.barDone epoch b.waiting

/-- A barrier that is whole below this device goes up, or is assigned its epoch by the guildmaster or the market master. -/
def State.barGather (s : State) (id scope : Nat) : State :=
  let b := s.bar id scope
  let below := s.barChildren.all (fun d => b.children.contains d)
  let guilds := scope != 2 || !s.isMaster || s.childGuilds.all (fun g => b.children.contains (64 + g))
  if b.passed || !b.self || !below || !guilds then s
  else if !s.isMaster then (s.putBar { b with passed := true }).barMsg 0x06 (s.barParent s.fab.device) s.fab.guild id scope 0
  else if scope = 1 then s.barRelease id scope (s.fab.epoch + 1)
  else if s.isMarketMaster then s.barRelease id scope (max b.top s.fab.epoch + 1)
  else (s.putBar { b with passed := true }).barMsg 0x06 0 ((s.fab.guild - 1) / 64) id scope (max b.top s.fab.epoch)

/-- The ACTIVE cores of a partition that have joined a barrier, all of them: it completes at PARTITION scope, or the device
joins. -/
def State.barJoined (s : State) (p scope id : Nat) : State :=
  let x := s.part p
  match x.joins.find? (fun j => j.1 = scope && j.2.1 = id) with
  | none => s
  | some j =>
    if !(x.cores.filter (fun c => s.coreActive c)).all (fun c => j.2.2.any (fun w => w.1 = c)) then s
    else
      let s1 := s.modPart p (fun x => { x with joins := x.joins.filter (fun y => !(decide (y.1 = scope) && y.2.1 = id)) })
      if scope = 0 then s1.barDone (if s.fab.isMember then s.fab.epoch else 0) j.2.2
      else
        let b := s1.bar id scope
        (s1.putBar { b with self := true, waiting := b.waiting ++ j.2.2 }).barGather id scope

def execBarrierJoin (core : Nat) (s : State) : Host.Outcome State Fault Refusal :=
  .next (reachOrder.take s (s.runOrder core (fun st => st.op = 0x61) (fun s st =>
    let scope := barScope st.ord
    let id := ordF st.ord 4 13 8
    match s.partOfCore core with
    | none => s.refuseOrder core st stState
    | some p =>
      if (scope = 1 && !s.fab.isMember) || (scope = 2 && (!s.fab.isMember || s.fab.market.isNone)) then s.refuseOrder core st stState
      else
        let (s1, f) := s.startOrder core { st with clamps := st.clamps + b2n (ordF st.ord 4 1 0 = 3) }
        let old := match (s1.part p).joins.find? (fun j => j.1 = scope && j.2.1 = id) with | some j => j.2.2 | none => []
        let s2 := s1.modPart p (fun x => { x with
          joins := x.joins.filter (fun y => !(decide (y.1 = scope) && y.2.1 = id)) ++ [(scope, id, old ++ [(core, f)])] })
        s2.barJoined p scope id)))

/-- BAR_JOIN from a device or a guild below. -/
def execBarJoin (m : FMsg) (s : State) : Host.Outcome State Fault Refusal :=
  .next (reachLink.take s (s.forMe m (fun s => s.toMaster m (fun s =>
    let id := bits m.info 5 0
    let scope := bits m.info 7 6
    let who := if m.srcGuild = s.fab.guild then m.srcDev else 64 + m.srcGuild
    let b := s.bar id scope
    (s.putBar { b with children := insNat b.children who, top := max b.top (leNat (m.data.take 8)) }).barGather id scope))))

/-- BAR_RELEASE from above. -/
def execBarRelease (m : FMsg) (s : State) : Host.Outcome State Fault Refusal :=
  .next (reachLink.take s (s.forMe m (fun s => s.toMaster m (fun s =>
    s.barRelease (bits m.info 5 0) (bits m.info 7 6) (leNat (m.data.take 8))))))

end Sys2Proof.Machine
end

