-- ==== Sys2Proof/Machine/Sample.lean ====
section
/-! DEFINITION. SAMPLE and GAMBIT_VERIFY (R282 to R286, R307). Both work on a list of step-table entries in the stockroom;
both read logits of the rows of the listed streams, in list order. -/

namespace Sys2Proof.Machine

/-- Words 4 to 10 after their clamps. -/
structure SampF where
  logit : Nat
  v : Nat
  list : Nat
  n : Nat
  out : Nat
  draft : Bool
  j : Nat
  cand : Nat
  clamps : Nat
deriving DecidableEq, Repr

def sampFields (o : Nat) : SampF :=
  let v := clampNat 1 1048576 (ordF o 5 20 0)
  let n := max 1 (ordF o 7 15 0)
  { logit := ordF o 4 20 0, v := v, list := ordF o 6 20 0, n := n, out := ordF o 8 20 0, draft := bit (ordW o 9) 31,
    j := ordF o 9 3 0, cand := ordF o 10 20 0, clamps := b2n (v != ordF o 5 20 0) + b2n (n != ordF o 7 15 0) }

/-- ARGMAX of R115. -/
def argmaxOf (l : List Word) : Nat :=
  match bestOf rankAbove (l.mapIdx (fun i w => (w, i))) with
  | some b => b.2
  | none => 0

/-- A sum in the order of the list. -/
def seqSum (l : List Word) : Word :=
  match l with
  | [] => 0
  | x :: r => r.foldl f32Add x

/-- The greedy form: temperature zero, or a row with a NaN or an infinity (R282). -/
def greedy (e : Stream) (l : List Word) : Bool :=
  f32IsZero e.temp || l.any (fun w => fpIsNan (f32Val w) || fpIsInf (f32Val w))

/-- z of R282. -/
def scaled (e : Stream) (l : List Word) : List Word :=
  let b := f32Mul (funRecip e.temp) 0x3FB8AA3B#32
  l.map (fun w => f32Mul w b)

/-- The candidates up to the first at which the running sum reaches the limit. -/
def cutAtSum (lim acc : Word) (l : List (Nat × Word)) : List (Nat × Word) :=
  match l with
  | [] => []
  | x :: r => let a := f32Add acc x.2; if f32Le lim a then [x] else x :: cutAtSum lim a r

/-- The kept candidates (token, w) of the truncated form, in rank order (R282). -/
def truncated (e : Stream) (l : List Word) : List (Nat × Word) :=
  let z := scaled e l
  let k := if e.topK = 0 then 64 else e.topK
  let c := topOf (min k l.length) (z.mapIdx (fun i w => (w, i)))
  let z0 := (c.headD (0, 0)).1
  let w := c.map (fun x => (x.2, funExp2 (f32Sub x.1 z0)))
  let w1 := if f32Lt 0 e.minP then w.takeWhile (fun x => f32Le e.minP x.2) else w
  if f32Lt e.topP f32One then cutAtSum (f32Mul e.topP (seqSum (w1.map (·.2)))) 0 w1 else w1

/-- The first token at which the running sum passes t, else the last. -/
def pickAt (t acc : Word) (l : List (Nat × Word)) : Option Nat :=
  match l with
  | [] => none
  | [x] => some x.1
  | x :: r => let a := f32Add acc x.2; if f32Lt t a then some x.1 else pickAt t a r

/-- rand_u(σ, n, x, i) of R307, and whether the draw was lost (R308). -/
def State.randAt (s : State) (c : Nat) (e : Stream) (x : Nat) (i : Nat) : State × Word × Bool :=
  let (s1, d, lost) := s.draw c e.seed e.rng (BitVec.ofNat 64 x) (BitVec.ofNat 32 i)
  (s1, randU 0 d.y0, lost)

/-- An inverse-CDF draw over weights; of no weights at all the token is a free value. -/
def State.drawOver (s : State) (c : Nat) (e : Stream) (x beta v : Nat) (ws : List (Nat × Word)) : State × Nat × Bool :=
  let (s1, u, lost) := s.randAt c e x beta
  let t := f32Mul u (seqSum (ws.map (·.2)))
  match pickAt t 0 ws with
  | some k => (s1, k, lost)
  | none => (s1.freeUsed, s1.freeVal.toNat % v, lost)

/-- What a row gives: token, P(token), keep, and the kept pairs where the form has them. -/
structure SampRes where
  tok : Nat
  prob : Word
  keep : Nat
  pairs : Option (List (Nat × Word))
  lost : Bool
deriving DecidableEq, Repr

/-- P(c) of kept candidates. -/
def probs (l : List (Nat × Word)) : List (Nat × Word) :=
  let r := funRecip (seqSum (l.map (·.2)))
  l.map (fun x => (x.1, f32Mul x.2 r))

def probOf (l : List (Nat × Word)) (t : Nat) : Word := match l.find? (fun x => x.1 = t) with | some x => x.2 | none => 0

/-- R282 for one row. The greedy and the full-vocabulary form state no P and no keep: free values. -/
def State.sampleRow (s : State) (c : Nat) (e : Stream) (l : List Word) (x beta : Nat) (draft : Bool) : State × SampRes :=
  let open_ (s : State) (tok : Nat) (lost : Bool) : State × SampRes :=
    (s.freeUsed.freeUsed, ⟨tok, s.freeVal.truncate 32, s.freeUsed.freeVal.toNat % 4294967296, none, lost⟩)
  if greedy e l then open_ s (argmaxOf l) false
  else if decide (e.topK > 0) || f32Lt e.topP f32One || f32Lt 0 e.minP || decide (e.nGambit > 0) || draft then
    let ws := truncated e l
    let (s1, tok, lost) := s.drawOver c e x beta l.length ws
    let ps := probs ws
    (s1, ⟨tok, probOf ps tok, ws.length, some ps, lost⟩)
  else
    let z := scaled e l
    let (s1, keys, lost) := (z.mapIdx (fun i w => (i, w))).foldl (fun (acc : State × List Word × Bool) y =>
      let (s', u, lo) := acc.1.randAt c e x y.1
      (s', acc.2.1 ++ [f32Sub y.2 (funLog2 (f32Neg (funLog2 u)))], acc.2.2 || lo)) (s, [], false)
    open_ s1 (argmaxOf keys) lost

/-! ### Lists -/

/-- A listed step-table entry: stream, gen, pos and gambits (R276). -/
structure SampEnt where
  stream : Nat
  gen : Nat
  nNew : Nat
  pos : Nat
  gambits : Nat
deriving DecidableEq, Repr

def sampEnt (bs : List Byte) : SampEnt :=
  let w (i : Nat) : Nat := leNat ((bs.drop (4 * i)).take 4)
  { stream := bits (w 0) 17 0, gen := bits (w 0) 21 18, nNew := bits (w 0) 25 22, pos := bits (w 1) 22 0, gambits := bits (w 3) 7 4 }

/-- The stream may sample (R273) for a core: in PREFILL or DECODE in the core's partition, with the named gen. -/
def State.sampOk (s : State) (c : Nat) (e : SampEnt) : Bool :=
  let x := s.stream e.stream
  (x.st = .prefill || x.st = .decode) && x.gen = e.gen && s.partOfCore c = some x.part

/-- The running step's entry of a stream. -/
def State.stepEntry (s : State) (n : Nat) : Option StepEntry := (s.part (s.stream n).part).set.find? (fun e => e.stream = n)

/-- Rows that a listed stream takes in the step: n_new holds four bits of it. -/
def State.rowsOf (s : State) (e : SampEnt) : Nat :=
  match s.stepEntry e.stream with
  | some x => x.rows
  | none => max 1 e.nNew

/-- FP32 values of a stockroom range, and whether every word of it is good. -/
def State.stockWords32 (s : State) (c a n : Nat) : State × List Word × Bool :=
  let (s1, bs, ok) := s.readOrFree (.stock c (a % 2097152)) (4 * n)
  (s1, (List.range n).map (fun i => BitVec.ofNat 32 (leNat ((bs.drop (4 * i)).take 4))), ok)

/-- A stream's step has produced its tokens: they are kept for the step's end, and the roll's last_token follows (R283). -/
def State.produced (s : State) (n : Nat) (toks : List (Nat × Bool)) : State :=
  match toks.getLast? with
  | none => s
  | some t =>
    (s.modStream n (fun e => { e with lastTok := t.1 })).modPart (s.stream n).part (fun x =>
      { x with set := x.set.map (fun e => if e.stream = n then { e with tokens := toks } else e) })

/-- A listed stream lost its data (R144). -/
def State.sampLost (s : State) (c id n : Nat) : State := s.modFlight c id (fun x => { x with lost := insNat x.lost n })

/-- Where the candidate set of draft j of a block stands. -/
def candAt (blk j : Nat) : Nat := blk + 64 + 512 * j + 2097152 - 512

/-- One row of a SAMPLE order. -/
def State.sampleOne (s : State) (c id : Nat) (f : SampF) (i : Nat) : State × Nat :=
  let (s0, bs, ok0) := s.readOrFree (.stock c ((f.list + 16 * i) % 2097152)) 16
  let e := sampEnt bs
  let out := f.out + 16 * i
  if !ok0 then (s0, stLost)
  else if !s0.sampOk c e then (s0.stockWrite c (out + 12) (leBytes 4 stState), stState)
  else
    let x := s0.stream e.stream
    let (s1, l, ok) := s0.stockWords32 c (f.logit + 4 * f.v * i) f.v
    let pos := if f.draft then e.pos + f.j else e.pos + s1.rowsOf e
    let (s2, r) := s1.sampleRow c x l pos (if f.draft then 0x20000000 + f.j else 0) f.draft
    let st := if ok && !r.lost then stOk else stLost
    let s3 := s2.stockWrite c out (leBytes 4 r.tok ++ leBytes 4 r.prob.toNat ++ leBytes 4 r.keep ++ leBytes 4 st)
    if st = stLost then (s3.sampLost c id e.stream, st)
    else if f.draft then
      let blk := f.cand + 4160 * i
      let (s4, pairs) := match r.pairs with
        | some ps => (s3, (ps.flatMap (fun (p : Nat × Word) => leBytes 4 p.1 ++ leBytes 4 p.2.toNat))
            ++ (List.replicate (64 - ps.length) (leBytes 4 0xFFFFFFFF ++ leBytes 4 0)).flatten)
        | none => s3.freeBytes 512
      ((s4.stockWrite c (blk + 4 * f.j + 2097152 - 4) (leBytes 4 r.tok)).stockWrite c (candAt blk f.j) pairs, st)
    else (s3.produced e.stream [(r.tok, false)], st)

/-- SAMPLE (R282, R283); `mism`: how often running the CG copies mismatch at the order's first draw (R308). -/
def execSample (core mism : Nat) (s : State) : Host.Outcome State Fault Refusal :=
  .next (reachOrder.take s (s.withMismatch core mism (fun s => s.runOrder core (fun st => st.op = 0x38) (fun s st =>
    let f := sampFields st.ord
    let (s1, id) := s.startOrder core st
    let s2 := s1.orderClamps core id pgFore 0 f.clamps
    let (s3, status) := (List.range f.n).foldl (fun (acc : State × Nat) i =>
      let (s', st') := acc.1.sampleOne core id f i
      (s', statusJoin acc.2 st')) (s2, stOk)
    s3.finish core id status))))

/-! ### GAMBIT_VERIFY -/

/-- What the verification of one stream reads: its stream-roll entry, C, the logits of its rows, its gambits, and Q_j. -/
structure Verify where
  core : Nat
  e : Stream
  pos : Nat
  v : Nat
  rows : List (List Word)
  gambits : List Nat
  q : List (List (Nat × Word))
deriving DecidableEq, Repr

/-- R286 from gambit j on, k of them left; answers the emitted tokens, each with whether it is an accepted gambit. -/
def State.verifyFrom (s : State) (y : Verify) (k j : Nat) : State × List (Nat × Bool) × Bool :=
  let row := y.rows.getD (j - 1) []
  match k with
  | 0 =>
    let (s1, r) := s.sampleRow y.core y.e row (y.pos + j) 0 false
    (s1, [(r.tok, false)], r.lost)
  | k + 1 =>
    let g := y.gambits.getD (j - 1) 0
    if greedy y.e row then
      let a := argmaxOf row
      if g = a then
        let (s1, l, lost) := s.verifyFrom y k (j + 1)
        (s1, (g, true) :: l, lost)
      else (s, [(a, false)], false)
    else
      let ws := truncated y.e row
      let ps := probs ws
      let qs := y.q.getD (j - 1) []
      let (s1, u, lost) := s.randAt y.core y.e (y.pos + j) (0x30000000 + j)
      if f32Lt (f32Mul u (probOf qs g)) (probOf ps g) then
        let (s2, l, lost2) := s1.verifyFrom y k (j + 1)
        (s2, (g, true) :: l, lost || lost2)
      else
        let r := ps.map (fun x => (x.1, f32Max 0 (f32Sub x.2 (probOf qs x.1))))
        let over_ := if f32IsZero (seqSum (r.map (·.2))) then ws else r
        let (s2, tok, lost2) := s1.drawOver y.core y.e (y.pos + j) (0x31000000 + j) y.v over_
        (s2, [(tok, false)], lost || lost2)

/-- One stream of a GAMBIT_VERIFY order; its rows begin at row `first` of the order's logits. -/
def State.verifyOne (s : State) (c id : Nat) (f : SampF) (i first : Nat) (e : SampEnt) : State × Nat :=
  if !s.sampOk c e then (s, stState)
  else
    let x := s.stream e.stream
    let g := min 8 e.gambits
    let blk := f.cand + 4160 * i
    let (s1, rows, ok) := (List.range (g + 1)).foldl (fun (acc : State × List (List Word) × Bool) j =>
      let (s', l, k) := acc.1.stockWords32 c (f.logit + 4 * f.v * (first + j)) f.v
      (s', acc.2.1 ++ [l], acc.2.2 && k)) (s, [], true)
    let (s2, b, ok2) := s1.readOrFree (.stock c (blk % 2097152)) 4160
    let w (a : Nat) : Nat := leNat ((b.drop a).take 4)
    let book := x.gsrc = 2
    let gam := if book then (match s2.stepEntry e.stream with | some y => y.gtoks | none => [])
      else (List.range g).map (fun j => w (4 * j))
    let q := (List.range g).map (fun j =>
      if book then [(gam.getD j 0, f32One)]
      else (List.range 64).map (fun k => (w (64 + 512 * j + 8 * k), BitVec.ofNat 32 (w (64 + 512 * j + 8 * k + 4)))))
    let (s3, toks, lost) := s2.verifyFrom ⟨c, x, e.pos, f.v, rows, gam, q⟩ g 1
    if !(ok && ok2) || lost then (s3.sampLost c id e.stream, stLost)
    else
      let a := toks.length - 1
      let s4 := s3.stockWrite c (f.out + 64 * i) (leBytes 4 (a + toks.length <<< 4) ++ toks.flatMap (fun t => leBytes 4 t.1))
      let s5 := (s4.bump pgFore 0 x.part rForeGambitsOffered g).bump pgFore 0 x.part rForeGambitsAccepted a
      (s5.produced e.stream toks, stOk)

/-- GAMBIT_VERIFY (R285, R286); `mism` as for SAMPLE. -/
def execGambitVerify (core mism : Nat) (s : State) : Host.Outcome State Fault Refusal :=
  .next (reachOrder.take s (s.withMismatch core mism (fun s => s.runOrder core (fun st => st.op = 0x39) (fun s st =>
    let f := sampFields st.ord
    let (s1, id) := s.startOrder core st
    let s2 := s1.orderClamps core id pgFore 0 f.clamps
    let (s3, bs, ok) := s2.readOrFree (.stock core f.list) (16 * f.n)
    if !ok then s3.finish core id stLost
    else
      let es := (List.range f.n).map (fun i => sampEnt ((bs.drop (16 * i)).take 16))
      let r := es.foldl (fun (acc : State × Nat × Nat × Nat) e =>
        let (s', st') := acc.1.verifyOne core id f acc.2.1 acc.2.2.1 e
        (s', acc.2.1 + 1, acc.2.2.1 + 1 + min 8 e.gambits, statusJoin acc.2.2.2 st')) (s3, 0, 0, stOk)
      r.1.finish core id r.2.2.2))))

end Sys2Proof.Machine
end

