-- ==== Sys2Proof/Machine/Porter.lean ====
section
/-! DEFINITION. The porter: DISPATCH and COLLECT (R287 to R291). A layer's DISPATCH orders claim together: those of one
partition that name the same expert map (assumption 63). -/

namespace Sys2Proof.Machine

/-- Words 4 to 13 of DISPATCH after their clamps. -/
structure DispF where
  gate : Nat
  policy : Nat
  norm : Nat
  k : Nat
  ne : Nat
  n : Nat
  x : Nat
  bytes : Nat
  map : Nat
  route : Nat
  cap : Nat
  ctr : Nat
  inbox : Nat
  clamps : Nat
deriving DecidableEq, Repr

/-- The expert map lies in a vault of VAULT_OWN or VAULT_CORE. -/
def mapClamp (a : Nat) : Nat × Nat := if spaceOf a = 1 || spaceOf a = 3 then (a, 0) else (inSpace 1 30 a, 1)

def dispFields (o : Nat) : DispF :=
  let ne := clampNat 1 512 (ordF o 5 9 0)
  let k := min ne (clampNat 1 16 (ordF o 5 20 16))
  let nm := ordF o 5 23 22
  let n := clampNat 1 4096 (ordF o 6 15 0)
  let b0 := ordF o 8 16 0
  let b := clampNat 64 65536 (ceilDiv b0 64 * 64)
  let (m, km) := mapClamp (ordW64 o 9)
  { gate := ordF o 4 20 0, policy := ordF o 5 25 24, norm := if nm = 3 then 0 else nm, k := k, ne := ne, n := n, x := ordF o 7 20 0,
    bytes := b, map := m, route := ordF o 11 20 0, cap := ordF o 12 15 0, ctr := ordF o 13 26 21, inbox := ordF o 13 20 0,
    clamps := b2n (ne != ordF o 5 9 0) + b2n (k != ordF o 5 20 16) + b2n (nm = 3) + b2n (n != ordF o 6 15 0) + b2n (b != b0) + km }

/-- An expert of the map: its location, its team, and its stand-in team, as (first core, number of cores). -/
structure Expert where
  loc : Nat
  dev : Nat
  team : Nat × Nat
  stand : Nat × Nat
deriving DecidableEq, Repr

def expertOf (bs : List Byte) : Expert :=
  let w0 := leNat (bs.take 4)
  let w1 := leNat ((bs.drop 4).take 4)
  { loc := if bits w0 12 11 = 3 then 0 else bits w0 12 11, dev := bits w0 18 13, team := (bits w0 7 0, 2 ^ min 4 (bits w0 10 8)),
    stand := (bits w1 7 0, 2 ^ min 4 (bits w1 10 8)) }

def teamCores (t : Nat × Nat) : List Nat := (List.range t.2).map (fun j => (t.1 + j) % 256)

/-! ### Claims (R288) -/

/-- A granted claim: source core, row, choice slot, expert, pass (first 0, spill 1, stand-in 2), and whether it moved. -/
structure Claim where
  core : Nat
  row : Nat
  slot : Nat
  expert : Nat
  pass : Nat
  moved : Bool
deriving DecidableEq, Repr

/-- What the claims need: a source's fields, with the policy and the capacity in force, and the ranking of each row. -/
structure DispSrc where
  core : Nat
  f : DispF
  policy : Nat
  depth : Nat
  cap : Nat
  ranks : List (List Nat)
  logits : List (List Word)
deriving DecidableEq, Repr

/-- Claims so far: granted ones, and first-pass rows of each expert. -/
structure Claims where
  l : List Claim
  count : SMap Nat
  overflow : Nat
deriving DecidableEq, Repr

/-- The claim of choice r of a row. -/
def Claims.claim (a : Claims) (m : List Expert) (x : DispSrc) (row r : Nat) : Claims :=
  let rank := x.ranks.getD row []
  let e := rank.getD r 0
  let room (e : Nat) : Bool := decide (smGet 0 a.count e < x.cap)
  let put (e pass : Nat) (moved : Bool) (over_ : Nat) : Claims :=
    { l := a.l ++ [⟨x.core, row, r, e, pass, moved⟩],
      count := if pass = 0 then smSet 0 a.count e (smGet 0 a.count e + 1) else a.count,
      overflow := a.overflow + over_ }
  if (m.getD e (expertOf [])).loc = 1 then put e 2 false 0
  else if room e then put e 0 false 0
  else if x.policy = 2 then put e 2 false 1
  else if x.policy = 1 then
    let cands := (rank.drop x.f.k).take x.depth
    match cands.find? room with
    | some c => put c (if (m.getD c (expertOf [])).loc = 1 then 2 else 0) true 1
    | none => put e 1 false 1
  else put e 1 false 1

/-- All claims of a layer in ascending (choice rank, source core, row). -/
def allClaims (m : List Expert) (xs : List DispSrc) : Claims :=
  (List.range 16).foldl (fun a r => xs.foldl (fun a x =>
    if r < x.f.k then (List.range x.f.n).foldl (fun a row => a.claim m x row r) a else a) a) ⟨[], [], 0⟩

/-- The gates of a row over its final choices, in choice order (R287). -/
def gatesOf (norm : Nat) (logits : List Word) (choices : List Nat) : List Word :=
  let z (e : Nat) : Word := logits.getD e 0
  let z0 := z (choices.headD 0)
  let term (x : Word) : Word := funExp2 (f32Mul (f32Sub x z0) 0x3FB8AA3B#32)
  match norm with
  | 2 => choices.map (fun e => funRecip (f32Add f32One (funExp2 (f32Mul (z e) 0xBFB8AA3B#32))))
  | 1 =>
    let r := funRecip (rowSum (logits.mapIdx (fun i x => (i, term x, 0))) logits.length none)
    choices.map (fun e => f32Mul (term (z e)) r)
  | _ =>
    let r := funRecip (seqSum (choices.map (fun e => term (z e))))
    choices.map (fun e => f32Mul (term (z e)) r)

/-! ### Delivery (R290) -/

/-- Bytes of an inbox: the header's row counts, free bytes behind them, the rows, and their tags. -/
def State.inboxBytes (s : State) (rows : List (Claim × List Byte)) : State × List Byte :=
  let n (pass : Nat) : Nat := (rows.filter (fun r => r.1.pass = pass)).length
  let (s1, rest) := s.freeBytes 52
  (s1, leBytes 4 (n 0) ++ leBytes 4 (n 1) ++ leBytes 4 (n 2) ++ rest ++ rows.flatMap (fun (r : Claim × List Byte) => r.2)
    ++ rows.flatMap (fun (r : Claim × List Byte) => leBytes 8 (Config.inboxTag r.1.core r.1.row r.1.slot).toNat))

/-- Where a claim's rows go: device of the guild (own: none), and the cores of the team. -/
def State.claimTeam (s : State) (m : List Expert) (c : Claim) : Option Nat × (Nat × Nat) :=
  let e := m.getD c.expert (expertOf [])
  if c.pass = 2 then (none, e.stand)
  else if e.loc = 2 && e.dev != s.fab.device then (some e.dev, e.team) else (none, e.team)

/-- One market message to a core of a device of the guild (R362). -/
def State.porterMsg (s : State) (core id dev dst off : Nat) (ctr : Option Nat) (bs : List Byte) : State :=
  let x := s.freeXfer
  let m : FMsg := ⟨0x0D, dev, 0, s.fab.guild, 0, false, dst + (ctr.getD 0) <<< 8 + b2n ctr.isSome <<< 14 + x <<< 15,
    leBytes 8 (off % 2097152) ++ bs⟩
  let t : XferOut := ⟨x, .msg, s.fab.guild, dev, core, id, [m], 0, 0, bs.length, [], false⟩
  ({ s with fab := { s.fab with nextXfer := (x + 1) % 4096, outs := s.fab.outs ++ [t] } }).sendMsg m

/-- The teams that get an inbox although no row of theirs may come (R290): every expert's own; the stand-in team of one that
is FAR, and under STREAM of any. Of this device's cores, those of the partition (assumption 120). -/
def State.quietTeams (s : State) (p : Nat) (m : List Expert) (stream : Bool) : List (Option Nat × (Nat × Nat)) :=
  m.flatMap (fun e =>
    let own : List (Option Nat × (Nat × Nat)) :=
      if e.loc = 1 then []
      else if e.loc = 2 && e.dev != s.fab.device then (if s.fab.isMember then [(some e.dev, e.team)] else [])
      else [(none, e.team)]
    let all := if e.loc = 1 || stream then own ++ [(none, e.stand)] else own
    all.filter (fun t => t.1.isSome || (teamCores t.2).all (fun c => (s.part p).cores.contains c)))

/-- The claims that reach a member core of a device, in inbox order: first pass, spill, stand-in; then by source core and
row. -/
def State.inboxOf (s : State) (m : List Expert) (cl : List Claim) (dev : Option Nat) (core : Nat) : List (Claim × InboxRow) :=
  let mine := cl.filterMap (fun c =>
    let (d, t) := s.claimTeam m c
    if d = dev then
      (match (teamCores t).findIdx? (· = core) with
       | some j => some (c, (⟨c.core, c.row, c.slot, j, t.2⟩ : InboxRow))
       | none => none)
    else none)
  let key (c : Claim) : Nat := ((c.pass * 256 + c.core) * 4096 + c.row) * 16 + c.slot
  mine.mergeSort (fun a b => decide (key a.1 ≤ key b.1))

/-- The inbox of one core of this device is written, and arr_ctr signalled. -/
def State.deliverHere (s : State) (f : DispF) (core : Nat) (rows : List (Claim × InboxRow)) (data : Claim → List Byte) : State :=
  let (s1, bs) := s.inboxBytes (rows.map (fun r => (r.1, data r.1)))
  let s2 := (s1.stockWrite core f.inbox bs).modCore core (fun x => { x with
    inbox := smSet [] x.inbox f.inbox (rows.map (·.2))
    msgIn := x.msgIn.filter (fun e => !(decide (f.inbox ≤ e.1) && decide (e.1 < f.inbox + bs.length))) })
  s2.signal core f.ctr 1

/-- The inbox of a core of another device leaves as messages of 576 B at most. -/
def State.deliverThere (s : State) (f : DispF) (c id dev core : Nat) (rows : List (Claim × InboxRow)) (data : Claim → List Byte) : State :=
  let (s1, bs) := s.inboxBytes (rows.map (fun r => (r.1, data r.1)))
  (List.range (ceilDiv bs.length 576)).foldl (fun s i =>
    s.porterMsg c id dev core (f.inbox + 576 * i) none ((bs.drop (576 * i)).take 576)) s1

/-! ### DISPATCH -/

/-- The started DISPATCH orders of a partition for one expert map that have not claimed yet, one for each core. -/
def State.dispGroup (s : State) (p : Nat) (map : Loc) : List (Nat × Flight) :=
  (s.part p).cores.filterMap (fun c =>
    ((s.core c).flights.find? (fun f => f.op = 0x40 && !f.done && f.aux.isEmpty && locOf c (dispFields f.ord).map = map)).map (fun f => (c, f)))

/-- The layer's orders are all there: their rows are the step's, or no other core of the partition can still start one. -/
def State.dispAll (s : State) (p : Nat) (g : List (Nat × Flight)) : Bool :=
  let rows : Nat := (g.map (fun (x : Nat × Flight) => (dispFields x.2.ord).n)).foldl (· + ·) 0
  let due : Nat := ((s.part p).set.map (fun (e : StepEntry) => e.rows)).foldl (· + ·) 0
  decide (rows ≥ due) || (s.part p).cores.all (fun c => g.any (fun x => x.1 = c) || s.coreQuiet c)

/-- A source as the claims need it. -/
def State.dispSrc (s : State) (p rows : Nat) (x : Nat × Flight) : State × DispSrc × Bool :=
  let f := dispFields x.2.ord
  let cfg := (s.reg pgPort 0 p rPortCfg).toNat
  let (s1, ws, ok) := s.stockWords32 x.1 f.gate (f.n * f.ne)
  let logits := (List.range f.n).map (fun i => (ws.drop (f.ne * i)).take f.ne)
  let ranks := logits.map (fun (l : List Word) => (topOf f.ne (l.mapIdx (fun i w => (w, i)))).map (·.2))
  let depth := if bits cfg 19 16 = 0 then 16 else bits cfg 19 16
  let cap := if f.cap != 0 then f.cap else ceilDiv (bits cfg 15 8 * rows * f.k) (16 * f.ne)
  (s1, ⟨x.1, f, if f.policy = 3 then bits cfg 1 0 else f.policy, depth, cap, ranks, logits⟩, ok)

/-- The routes of a source's rows: k entries of 8 B each. -/
def DispSrc.routes (x : DispSrc) (cl : List Claim) : List Byte :=
  (List.range x.f.n).flatMap (fun row =>
    let mine := (cl.filter (fun c => c.core = x.core && c.row = row)).mergeSort (fun a b => decide (a.slot ≤ b.slot))
    let gs := gatesOf x.f.norm (x.logits.getD row []) (mine.map (·.expert))
    (mine.zip gs).flatMap (fun (y : Claim × Word) =>
      leBytes 4 (y.1.expert % 512 + (y.1.slot % 16) <<< 9 + b2n y.1.moved <<< 15) ++ leBytes 4 y.2.toNat))

/-- Every order of a group ends with a status. -/
def State.finishAll (s : State) (g : List (Nat × Flight)) (st : Nat) : State := g.foldl (fun s x => s.finish x.1 x.2.id st) s

/-- A layer's orders claim, and their rows move, once the porter's regulators let them in (R24). -/
def State.dispFire (s : State) (p : Nat) (g : List (Nat × Flight)) (map : Loc) (ne : Nat) : State :=
  let rows := (g.map (fun x => (dispFields x.2.ord).n)).foldl (· + ·) 0
  let (s0, mb, okM) := s.readOrFree map (16 * ne)
  let m := (List.range ne).map (fun e => expertOf ((mb.drop (16 * e)).take 16))
  let (s1, xs, okX) := g.foldl (fun (acc : State × List DispSrc × Bool) x =>
    let (s', y, ok) := acc.1.dispSrc p rows x
    (s', acc.2.1 ++ [y], acc.2.2 && ok)) (s0, [], okM)
  if !okX then (s1.setErr pgPort 0 0).finishAll g stLost
  else
    let cs := allClaims m xs
    let cl := cs.l
    let teams := cl.map (fun c => s1.claimTeam m c)
    let inPart := teams.all (fun t => t.1.isSome || (teamCores t.2).all (fun c => (s1.part p).cores.contains c))
    let guild := teams.any (fun t => t.1.isSome)
    if guild && !s1.fab.isMember then (s1.noteRefuse pgPort 0).finishAll g stState
    else if !inPart then (s1.noteRefuse pgPort 0).finishAll g stQuota
    else
      -- source rows
      let (s2, dat, okD) := xs.foldl (fun (acc : State × List (Nat × Nat × List Byte) × Bool) x =>
        let (s', b, ok) := acc.1.readOrFree (.stock x.core x.f.x) (x.f.n * x.f.bytes)
        (s', acc.2.1 ++ [(x.core, x.f.bytes, b)], acc.2.2 && ok)) (s1, [], true)
      let size (c : Claim) : Nat := match dat.find? (fun d => d.1 = c.core) with | some d => d.2.1 | none => 0
      let cost := tileCost p porterAgent (cl.flatMap (fun c =>
        let t := s1.claimTeam m c
        (teamCores t.2).map (fun x => (c.core, (match t.1 with | some d => s.portNode (s.portFor d) | none => x), size c))))
      let reached := teams ++ s1.quietTeams p m (xs.any (fun x => x.policy = 2))
      if !okD then (s2.setErr pgPort 0 0).finishAll g stLost
      else if !s.gatesOpen cost then s.gatesHeld cost
      else
        let s2 := s2.gatesTake cost
        let data (c : Claim) : List Byte := match dat.find? (fun d => d.1 = c.core) with
          | some d => (d.2.2.drop (d.2.1 * c.row)).take d.2.1
          | none => []
        let f := match xs.head? with | some x => x.f | none => dispFields 0
        let c0 := match g.head? with | some x => x.1 | none => 0
        let id0 := match g.head? with | some x => x.2.id | none => 0
        let here := ((reached.filter (fun t => t.1.isNone)).flatMap (fun t => teamCores t.2)).eraseDups.mergeSort (fun a b => decide (a ≤ b))
        let s3 := here.foldl (fun s core => s.deliverHere f core (s.inboxOf m cl none core) data) s2
        let there := (reached.flatMap (fun t => match t.1 with
          | some d => (teamCores t.2).map (fun c => d * 256 + c)
          | none => [])).eraseDups.mergeSort (fun a b => decide (a ≤ b))
        let s4 := there.foldl (fun s k => s.deliverThere f c0 id0 (k / 256) (k % 256) (s.inboxOf m cl (some (k / 256)) (k % 256)) data) s3
        let s5 := xs.foldl (fun s x => s.stockWrite x.core x.f.route (x.routes cl)) s4
        let n (q : Claim → Bool) : Nat := (cl.filter q).length
        let moved := n (fun c => c.moved)
        let sent := (cl.map (fun c => (s.claimTeam m c).2.2 * (data c).length)).foldl (· + ·) 0
        let s6 := (((((s5.bump pgPort 0 p rPortRows rows).bump pgPort 0 p rPortOverflow cs.overflow).bump pgPort 0 p rPortRerouted moved).bump
          pgPort 0 p rPortSpilled (n (fun c => c.pass = 1))).bump pgPort 0 p rPortStreamed (n (fun c => c.pass = 2))).bump pgPort 0 p rPortBytes sent
        let s7 := if moved > 0 then s6.modPart p (fun x => { x with routeDep := true }) else s6
        if there.isEmpty then s7.finishAll g stOk
        else
          -- the first order of the layer carries the messages; the others end with it
          let s8 := g.foldl (fun s x => s.modFlight x.1 x.2.id (fun y => { y with aux := [1, c0, id0] })) s7
          s8.modCore c0 (fun x => { x with jobs := x.jobs ++ [⟨id0, 1, there, []⟩] })

/-- A DISPATCH order does what it can now. -/
def State.dispTry (s : State) (c id : Nat) : State :=
  match (s.core c).flight id, s.partOfCore c with
  | some fl, some p =>
    if fl.done || fl.op != 0x40 then s
    else if fl.aux.isEmpty then
      let f := dispFields fl.ord
      let map := locOf c f.map
      let g := s.dispGroup p map
      let ne := (g.map (fun x => (dispFields x.2.ord).ne)).foldl max 1
      if s.dispAll p g && s.placeReady map (16 * ne) true then s.dispFire p g map ne else s
    else
      let c0 := fl.aux.getD 1 0
      let id0 := fl.aux.getD 2 0
      if c = c0 && id = id0 then
        if s.fab.outs.any (fun t => t.core = c && t.flight = id && t.kind != .mirror) then s
        else match s.job c id with
        | some j =>
          if j.phase = 1 then
            -- every row has landed: arr_ctr is signalled at each member
            let f := dispFields fl.ord
            j.todo.foldl (fun s k => s.porterMsg c id (k / 256) (k % 256) f.inbox (some f.ctr) []) (s.modJob c id (fun j => { j with phase := 2 }))
          else (s.dropJob c id).finish c id stOk
        | none => s.finish c id stOk
      else match (s.core c0).flight id0 with
        | some f0 => if f0.done then s.finish c id f0.status else s
        | none => s.finish c id stOk
  | _, _ => s

/-- DISPATCH (R287 to R290). -/
def execDispatch (core : Nat) (s : State) : Host.Outcome State Fault Refusal :=
  .next (reachOrder.take s (s.runOrder core (fun st => st.op = 0x40) (fun s st =>
    let f := dispFields st.ord
    let window := match s.partOfCore core with | some p => s.inWindows p (locOf core f.map) (16 * f.ne) | none => false
    if !window then s.refuseOrder core st stQuota
    else
      let (s1, id) := s.startOrder core st
      (s1.orderClamps core id pgPort 0 f.clamps).dispTry core id)))

/-! ### COLLECT (R291) -/

/-- Words 4 to 10 of COLLECT after their clamps. -/
structure CollF where
  gather : Bool
  addr : Nat
  data : Nat
  n : Nat
  d : Nat
  ctr : Nat
  k : Nat
  seg : Nat
  ret : Nat
  clamps : Nat
deriving DecidableEq, Repr

def collFields (o : Nat) : CollF :=
  let n := clampNat 1 4096 (ordF o 7 15 0)
  let d := clampNat 1 16384 (ordF o 8 14 0)
  let g := max 1 (ordF o 9 3 0)
  { gather := bit (ordW o 4) 0, addr := ordF o 5 20 0, data := ordF o 6 20 0, n := n, d := d, ctr := ordF o 9 29 24,
    k := ordF o 9 20 16, seg := g, ret := ordF o 10 20 0,
    clamps := b2n (n != ordF o 7 15 0) + b2n (d != ordF o 8 14 0) + b2n (g != ordF o 9 3 0) }

/-- One inbox row's segments go back to its source core: a member of a team of u holds n_seg ÷ u of them. -/
def State.returnRow (s : State) (f : CollF) (i : Nat) (r : InboxRow) (bs : List Byte) : State :=
  let m := max 1 (f.seg / r.u)
  (List.range m).foldl (fun s t =>
    let sg := r.j * m + t
    if sg ≥ f.seg then s
    else
      let k := (r.row * f.k + r.slot) * f.seg + sg
      (s.stockWrite r.core (f.ret + k * 4 * f.d) ((bs.drop ((i * m + t) * 4 * f.d)).take (4 * f.d))).modCore r.core
        (fun x => { x with retIn := x.retIn.filter (· != (f.ret, k)) ++ [(f.ret, k)] })) s

/-- The n bytes at a place all came by messages of one device: which (R362). -/
def Core.msgFrom (x : Core) (a n : Nat) : Option Nat :=
  match x.msgIn.find? (fun e => decide (e.1 ≤ a) && decide (a < e.1 + e.2.1)) with
  | none => none
  | some e0 =>
    -- the messages of an inbox or a segment follow each other in ascending places
    let end_ := ((x.msgIn.filter (fun e => e.2.2 = e0.2.2)).mergeSort (fun b c => decide (b.1 ≤ c.1))).foldl
      (fun k e => if decide (e.1 ≤ k) && decide (k < e.1 + e.2.1) then e.1 + e.2.1 else k) a
    if end_ ≥ a + n then some e0.2.2 else none

/-- The bytes from a place on that the messages of one device have filled. -/
def Core.msgLen (x : Core) (a dev : Nat) : Nat :=
  ((x.msgIn.filter (fun e => e.2.2 = dev)).mergeSort (fun b c => decide (b.1 ≤ c.1))).foldl
    (fun k e => if decide (e.1 ≤ k) && decide (k < e.1 + e.2.1) then e.1 + e.2.1 else k) a - a

/-- The rows of an inbox that another device sent: the device and, from each row's tag, what R290 says it names. -/
def State.farInbox (s : State) (c a : Nat) : Option (Nat × List InboxRow) :=
  match (s.core c).msgFrom a 64 with
  | none => none
  | some dev =>
    let w (i : Nat) : Nat := leNat (s.stockBytes c (a + 4 * i) 4)
    let n := min 65536 (w 0 + w 1 + w 2)
    let len := (s.core c).msgLen a dev
    some (dev, (List.range n).map (fun i =>
      let t : BitVec 64 := BitVec.ofNat 64 (leNat (s.stockBytes c (a + len - 8 * n + 8 * i) 8))
      let f (k m : Nat) : Nat := Config.tagField t k % m
      ⟨f 0 256, f 1 4096, f 2 16, f 3 16, 1 + f 4 16⟩))

/-- One inbox row's segments go back to a source core of another device, and its counter is signalled once they have all
left (R291, R362). -/
def State.returnFar (s : State) (c id dev : Nat) (f : CollF) (i : Nat) (r : InboxRow) (bs : List Byte) : State :=
  let m := max 1 (f.seg / r.u)
  (List.range m).foldl (fun s t =>
    let sg := r.j * m + t
    if sg ≥ f.seg then s
    else
      let k := (r.row * f.k + r.slot) * f.seg + sg
      let seg := (bs.drop ((i * m + t) * 4 * f.d)).take (4 * f.d)
      (List.range (ceilDiv seg.length 576)).foldl (fun s q =>
        s.porterMsg c id dev r.core (f.ret + k * 4 * f.d + 576 * q) none ((seg.drop (576 * q)).take 576)) s) s

/-- COLLECT RETURN does what it can now: it waits while a source core's half is fenced (R465), and for the porter's
regulators (R24). -/
def State.returnTry (s : State) (c id : Nat) : State :=
  match (s.core c).flight id, s.partOfCore c with
  | some fl, some p =>
    let f := collFields fl.ord
    if !fl.aux.isEmpty then
      -- the rows of another device have left: they have landed, and then the signals have
      if s.fab.outs.any (fun t => t.core = c && t.flight = id && t.kind != .mirror) then s
      else match s.job c id with
      | some j =>
        if j.phase = 1 then j.todo.foldl (fun s x => s.porterMsg c id (fl.aux.getD 0 0) x 0 (some f.ctr) []) (s.modJob c id (fun j => { j with phase := 2 }))
        else (s.dropJob c id).finish c id stOk
      | none => s.finish c id stOk
    else match (if (smFind (s.core c).inbox f.addr).isSome then none else s.farInbox c f.addr) with
    | some (dev, all) =>
      let rows := all.take f.n
      let m := (rows.map (fun (r : InboxRow) => max 1 (f.seg / r.u))).foldl max 1
      let (s1, bs, ok) := s.readOrFree (.stock c f.data) (rows.length * m * 4 * f.d)
      let cost := tileCost p porterAgent (rows.map (fun (r : InboxRow) => (c, s.portNode (s.portFor dev), max 1 (f.seg / r.u) * 4 * f.d)))
      if fl.done || fl.op != 0x41 || f.gather || !s.fab.isMember then s
      else if !ok then (s1.setErr pgPort 0 0).finish c id stLost
      else if !s.gatesOpen cost then s.gatesHeld cost
      else
        let s2 := (rows.mapIdx (fun i r => (i, r))).foldl (fun s x => s.returnFar c id dev f x.1 x.2 bs) (s1.gatesTake cost)
        let s3 := (s2.bump pgPort 0 p rPortBytes (rows.length * m * 4 * f.d)).modFlight c id (fun y => { y with aux := [dev] })
        let len := (s.core c).msgLen f.addr dev
        s3.modCore c (fun x => { x with
          jobs := x.jobs ++ [⟨id, 1, (rows.map (·.core)).eraseDups, []⟩]
          msgIn := x.msgIn.filter (fun e => !(e.2.2 = dev && decide (f.addr ≤ e.1) && decide (e.1 < f.addr + len))) })
    | none =>
    let rows := ((smGet [] (s.core c).inbox f.addr).take f.n)
    let m := (rows.map (fun (r : InboxRow) => max 1 (f.seg / r.u))).foldl max 1
    if fl.done || fl.op != 0x41 || f.gather || rows.any (fun r => s.locFenced (.stock r.core 0) 1) then s
    else
      let (s1, bs, ok) := s.readOrFree (.stock c f.data) (rows.length * m * 4 * f.d)
      let cost := tileCost p porterAgent (rows.map (fun (r : InboxRow) => (c, r.core, max 1 (f.seg / r.u) * 4 * f.d)))
      if !ok then (s1.setErr pgPort 0 0).finish c id stLost
      else if !s.gatesOpen cost then s.gatesHeld cost
      else
        let s1 := s1.gatesTake cost
        let s2 := (rows.mapIdx (fun i r => (i, r))).foldl (fun s x => s.returnRow f x.1 x.2 bs) s1
        let srcs := (rows.map (·.core)).eraseDups
        let s3 := srcs.foldl (fun s x => s.signal x f.ctr 1) s2
        (s3.bump pgPort 0 p rPortBytes (rows.length * m * 4 * f.d)).finish c id stOk
  | _, _ => s

/-- y of one row (R291). -/
def gatherRow (d k seg : Nat) (gates : List Word) (el : Nat → Nat → Nat → Word) : List Word :=
  (List.range d).map (fun c =>
    let e (r : Nat) : Word := (List.range (seg - 1)).foldl (fun a s => f32Add a (el r (s + 1) c)) (el r 0 c)
    (List.range (k - 1)).foldl (fun a r => f32Add a (f32Mul (gates.getD (r + 1) 0) (e (r + 1)))) (f32Mul (gates.getD 0 0) (e 0)))

/-- COLLECT GATHER does what it can now: it waits for every segment of its rows. -/
def State.gatherTry (s : State) (c id : Nat) : State :=
  match (s.core c).flight id with
  | none => s
  | some fl =>
    let f := collFields fl.ord
    let all := f.n * f.k * f.seg
    let have_ := ((s.core c).retIn.filter (fun (x : Nat × Nat) => x.1 = f.ret)).map (·.2)
    let come (k : Nat) : Bool := have_.contains k || ((s.core c).msgFrom (f.ret + k * 4 * f.d) (4 * f.d)).isSome
    if fl.done || fl.op != 0x41 || !f.gather || !(List.range all).all come then s
    else
      let (s1, ws, ok1) := s.stockWords32 c f.ret (all * f.d)
      let (s2, rs, ok2) := s1.stockWords32 c f.addr (2 * f.n * f.k)
      let s3 := s2.modCore c (fun x => { x with 
        retIn := x.retIn.filter (fun (y : Nat × Nat) => y.1 != f.ret)
        msgIn := x.msgIn.filter (fun e => !(decide (f.ret ≤ e.1) && decide (e.1 < f.ret + all * 4 * f.d))) })
      if !(ok1 && ok2) then (s3.setErr pgPort 0 0).finish c id stLost
      else
        let y := (List.range f.n).flatMap (fun i =>
          let gates := (List.range f.k).map (fun r => rs.getD (2 * (i * f.k + r) + 1) 0)
          gatherRow f.d f.k f.seg gates (fun r sg e => ws.getD (((i * f.k + r) * f.seg + sg) * f.d + e) 0))
        (s3.stockWrite c f.data (y.flatMap (fun (w : Word) => leBytes 4 w.toNat))).finish c id stOk

/-- COLLECT of one mode starts. -/
def State.collectStart (s : State) (c : Nat) (gather : Bool) : State :=
  s.runOrder c (fun st => st.op = 0x41 && bit (ordW st.ord 4) 0 = gather) (fun s st =>
    let f := collFields st.ord
    let (s1, id) := s.startOrder c st
    let s2 := s1.orderClamps c id pgPort 0 f.clamps
    if gather then s2.gatherTry c id else s2.returnTry c id)

def execCollectReturn (core : Nat) (s : State) : Host.Outcome State Fault Refusal := .next (reachOrder.take s (s.collectStart core false))
def execCollectGather (core : Nat) (s : State) : Host.Outcome State Fault Refusal := .next (reachOrder.take s (s.collectStart core true))

end Sys2Proof.Machine
end

