-- ==== Sys2Proof/Machine/Castle.lean ====
section
/-! DEFINITION. Spanning partitions and the rollback of a step (R420, R421, R454, R458), castling and migration (R455 to
R462, R480). -/

namespace Sys2Proof.Machine

/-! ### Spanning partitions (R454) -/

/-- A line as its vault holds it now, without the effects of a read. -/
def State.peekLine (s : State) (l ln : Nat) : List Byte :=
  match s.holder l (ln / 64) with
  | none => List.replicate 64 0
  | some p =>
    let v := s.vault p
    match v.wq.find? (fun e => e.1 = ln) with
    | some e => e.2
    | none =>
      let base := if v.isValid (ln / 64) then (v.stored ln).take 64 else List.replicate 64 0
      match v.mb.find? (fun e => e.line = ln) with
      | some e => overlay e.data base
      | none => base

/-- n bytes at a place of a core's STOCK or VAULT spaces, as they stand. -/
def State.peek (s : State) (x : Loc) (n : Nat) : List Byte :=
  match x with
  | .stock c o => s.stockBytes c o n
  | .vault l o =>
    (((List.range (ceilDiv (o % 64 + n) 64)).flatMap (fun i => s.peekLine l ((o / 64 + i) % 16777216))).drop (o % 64)).take n
  | _ => List.replicate n 0

/-- An order of a core reaches beyond the device (R454). -/
def State.orderSpans (s : State) (core o : Nat) : Bool :=
  match orderOp o with
  | 0x01 => spaceOf (ordW64 o 4) = 7 || spaceOf (ordW64 o 6) = 7
  | 0x02 => spaceOf (ordW64 o 4) = 7 || spaceOf (ordW64 o 6) = 7
  | 0x03 => spaceOf (ordW64 o 4) = 7 || spaceOf (ordW64 o 6) = 7
  | 0x40 =>
    let f := dispFields o
    let m := s.peek (locOf core f.map) (16 * f.ne)
    (List.range f.ne).any (fun e => (expertOf ((m.drop (16 * e)).take 16)).loc = 2)
  | 0x48 => (cvRaw o).scope = 1
  | 0x61 => barScope o != 0
  | _ => false

/-- Some order of a partition's loaded patterns. -/
def State.someOrder (s : State) (p : Nat) (f : Nat → Nat → Bool) : Bool :=
  (s.part p).patterns.any (fun q => (q.regions.filter (fun r => r.kind = 1)).any (fun r =>
    (List.range r.orders).any (fun i => f r.core (leNat (s.peek (locOf r.core (r.space <<< 60 + r.off + 128 * i)) 128)))))

/-- A partition is spanning (R454). -/
def State.spans (s : State) (p : Nat) : Bool := s.someOrder p s.orderSpans

/-- A partition's patterns use GUILD addresses (R265). -/
def State.usesGuild (s : State) (p : Nat) : Bool :=
  s.someOrder p (fun _ o => (orderOp o = 0x01 || orderOp o = 0x02 || orderOp o = 0x03)
    && (spaceOf (ordW64 o 4) = 7 || spaceOf (ordW64 o 6) = 7))

/-! ### Streams that end with their partition (R454, R462, R468) -/

/-- A stream still owes its end record. -/
def Stream.owesEnd (e : Stream) : Bool :=
  e.st = .admitted || e.st = .prefill || e.st = .decode || e.st = .parked || (e.st = .draining && !e.endDone)

/-- A stream's record with end ERROR and status DATA_LOST, as far as its ring has room; its position is a free value. -/
def State.lostRec (s : State) (p n : Nat) : State :=
  let e := s.stream n
  if s.tokRoom p = 0 then s
  else s.freeUsed.tokOwn p n (tokRec e.tag tokNone endError stLost (s.freeVal.toNat % 8388608) n e.gen false)

/-- The streams of a partition that satisfy a condition end with DATA_LOST. -/
def State.endStreams (s : State) (p : Nat) (f : Nat → Bool) : State :=
  ((s.streamsOf p).filter (fun e => e.2.owesEnd && f e.1)).foldl (fun s e => s.lostRec p e.1) s

/-- A spanning partition meets a fault that needs a rollback (R454). -/
def State.endSpanning (s : State) (p : Nat) : State :=
  let s1 := { (s.endStreams p (fun _ => true)) with abs := { (s.endStreams p (fun _ => true)).abs with heldParts := s.abs.heldParts.filter (· != p) } }
  (s1.resetPartition p).1

/-- A DEVICE_LOST message (R474) to every other member. -/
def State.floodLost (s : State) (dev : Nat) (all : Bool) (p term : Nat) : State :=
  s.flood 0x0E (dev % 64 + b2n all <<< 6 + (p % 64) <<< 7 + (term % 4294967296) <<< 13) []

/-- A partition cannot go on (R462, R468): its mirrored streams are left to the buddy, the others end, and it is reset. -/
def State.partLost (s : State) (p : Nat) : State :=
  let mir := s.fld pgStw 0 p rStwMirrorOut 31 31 = 1 && s.fab.isMember
  let s1 := if mir then s.floodLost s.fab.device false p s.fab.term else s
  let s2 := s1.endStreams p (fun n => !s.mirrors p n)
  let s3 := { s2 with abs := { s2.abs with heldParts := s2.abs.heldParts.filter (· != p) } }
  (s3.resetPartition p).1

/-! ### Abandoning a step (R421, R458, R465) -/

/-- The running step of a partition is abandoned: its streams are voided without counting toward the limit, and no further
order starts. -/
def State.abandonStep (s : State) (p : Nat) : State :=
  let x := s.part p
  if x.rolledBack || !x.running then s
  else
    let s1 := x.set.foldl (fun s e => s.modStream e.stream (fun y => { y with lastTok := e.old })) s
    let s2 := (s1.bump pgFore 0 p rForeVoided x.set.length).setErr pgFore 0 2
    let s3 := x.cores.foldl (fun s c => s.modCore c (fun y => { y with qs := y.qs.map (fun q => { q with running := false }) })) s2
    s3.modPart p (fun x => { x with rolledBack := true })

/-- A partition is held. -/
def State.holdPart (s : State) (p : Nat) : State := { s with abs := { s.abs with heldParts := insNat s.abs.heldParts p } }

/-- The cores of a partition that runs no step return to their marks at once. -/
def State.idleToMark (s : State) (p : Nat) : State :=
  let x := s.part p
  if x.running || x.steps = 0 then s else x.cores.foldl (fun s c => s.toMark c) s

/-- R458: the rollback of a core's partition; a spanning one has none (R454). -/
def State.rollBack (s : State) (c : Nat) : State :=
  match s.partOfCore c with
  | none => s
  | some p =>
    if (s.part p).st = .resetting then s
    else if s.spans p then s.endSpanning p
    else ((s.abandonStep p).idleToMark p).holdPart p

/-! ### The destination of a castling (R456) -/

/-- Mesh hops between two sites of a half. -/
def meshHops (a b : Nat) : Nat :=
  let d (x y : Nat) : Nat := if x < y then y - x else x - y
  d (a % 12) (b % 12) + d (a % 144 / 12) (b % 144 / 12)

/-- The nearest site of a half that satisfies a condition; the lower number among equals. -/
def State.nearestSite (s : State) (at_ : Nat) (f : Site → Bool) : Option Nat :=
  let l := ((List.range 144).map (fun i => 144 * siteHalf at_ + i)).filter (fun n => f (s.site n))
  l.foldl (fun m n => match m with
    | some x => if meshHops at_ n < meshHops at_ x then some n else m
    | none => some n) none

/-- Kind (SPARE 0, LEND 1, BORROW 2, NONE 3) and destination of a castling. -/
def State.castDest (s : State) (r : CastReq) : Nat × Nat :=
  match smFind s.boot.coreSite r.logical with
  | none => (3, 511)
  | some at_ =>
    match s.nearestSite at_ (fun x => x.core = 2) with
    | some t => (0, t)
    | none =>
      if !r.vault then
        match s.nearestSite at_ (fun x => x.cls = 1 && x.core = 3) with
        | some t => (1, t)
        | none => (3, 511)
      else
        let l := ((List.range 144).map (fun i => 144 * siteHalf at_ + i)).filter (fun v => (s.vault v).role = .reserve)
        if l.length ≥ 5 then (2, l.getLastD 511) else (3, 511)

/-- What STW_CAST shows but for busy. -/
def castValue (r : CastReq) (kind from_ dest_ : Nat) : Nat :=
  r.logical % 256 + (dest_ % 512) <<< 8 + (from_ % 512) <<< 17 + (kind % 4) <<< 26 + (r.cause % 8) <<< 28

/-! ### Castling (R457, R458, R462) -/

/-- The class of a site whose logic, or whose vault, is lost: G 0, L 1, V 2, X 3. -/
def clsNoLogic (c : Nat) : Nat := if c = 0 then 2 else if c = 1 then 3 else c
def clsNoVault (c : Nat) : Nat := if c = 0 then 1 else if c = 2 then 3 else c

def State.modSite (s : State) (n : Nat) (f : Site → Site) : State := s.setSite n (f (s.site n))

/-- A trigger is served: it waits no longer. -/
def State.castTaken (s : State) (r : CastReq) : State :=
  { s with abs := { s.abs with castWait := s.abs.castWait.filter (fun q => !(q.logical = r.logical && q.vault = r.vault)) } }

/-- A tile fault has no destination: the core is DISABLED, and its partition cannot go on (R462). -/
def State.coreLost (s : State) (c : Nat) : State :=
  let p := s.partOfCore c
  let s1 := match smFind s.boot.coreSite c with
    | some n => s.modSite n (fun x => { x with core := 3, cls := clsNoLogic x.cls, valid := false, logical := 0, partner := 511 })
    | none => s
  let s2 := match s1.vaultOf c with
    | some v => s1.modVault v (fun x => { x with role := .disabled, logical := 0, part := none, valid := [], wq := [], mb := [] })
    | none => s1
  let s3 := { s2 with boot := { s2.boot with
    coreSite := smErase s2.boot.coreSite c
    coresA := if coreHalf c = 0 then s2.boot.coresA - 1 else s2.boot.coresA
    coresB := if coreHalf c = 1 then s2.boot.coresB - 1 else s2.boot.coresB } }
  let s4 := match p with | some p => s3.partLost p | none => s3
  ({ s4 with abs := { s4.abs with castWait := s4.abs.castWait.filter (fun q => q.logical != c) } }).checkState

/-- A castling that has no destination: CASTLE_NONE (R456, R462). -/
def State.castNone (s : State) (r : CastReq) : State :=
  let s1 := (s.castTaken r).log 0x12 { core := r.logical, vault := (s.vaultOf r.logical).getD 511, part := (s.partOfCore r.logical).getD 0 }
  let s2 := { s1 with abs := { s1.abs with castShown := castValue r 3 ((smFind s.boot.coreSite r.logical).getD 511) 511 } }
  if r.vault || (smFind s.boot.coreSite r.logical).isNone then s2 else s2.coreLost r.logical

/-- A castling begins: the core becomes CASTLING, its partition is held, and the old vault drains. -/
def State.castBegin (s : State) (r : CastReq) (kind dest_ : Nat) : State :=
  let c := r.logical
  let h := coreHalf c
  let at_ := (smFind s.boot.coreSite c).getD 511
  let s1 := (s.castTaken r).modSite at_ (fun x => { x with core := 1 })
  let s2 := (s1.bump pgStw 0 0 rStwCastlings 1).log 0x10
    { core := c, vault := (s1.vaultOf c).getD 511, part := (s1.partOfCore c).getD 0, count := r.cause }
  let run : CastRun := { req := r, kind := kind, fromSite := at_, toSite := dest_, copied := true, switched := false }
  let s3 := { (s2.setCast h (some run)) with abs := { (s2.setCast h (some run)).abs with castShown := castValue r kind at_ dest_ } }
  let s4 := match s3.partOfCore c with | some p => s3.holdPart p | none => s3
  match s4.vaultOf c with | some v => s4.drainVault v | none => s4

/-- A core's state as it is copied to its destination (R457): what the units of the old tile hold does not go with it. -/
def Core.moved (x : Core) : Core :=
  { x with looms := [{}, {}, {}, {}], shelf := [[], [], [], []], eng := {}, tally := [], jobs := [], rest := 0, restAt := 0, cgFailed := false }

/-- The partition's cores stand at a step boundary, or its abandoned step's orders have completed. -/
def State.atBoundary (s : State) (c : Nat) : Bool :=
  match s.partOfCore c with
  | none => (s.core c).flights.isEmpty
  | some p => let x := s.part p
    if x.rolledBack then s.rollQuiet p else !x.running && (x.st = .resetting || s.partQuiet p)

/-- The graceful castling that is due in a half (R457 steps 1 and 2). -/
def execCastlingGraceful (half : Nat) (s : State) : Host.Outcome State Fault Refusal :=
  .next (reachLink.take s (
    match s.castDue half with
    | none => s
    | some r =>
      let (k, t) := s.castDest r
      if r.abrupt then s
      else if k = 3 then s.castNone r
      else if !s.atBoundary r.logical then s
      else (s.castBegin r k t).modCore r.logical Core.moved))

/-- Stockroom placements of the partition's patterns for a core are written from their golden copies (R458, R467). -/
def State.placeStock (s : State) (c : Nat) : State :=
  match s.partOfCore c with
  | none => s
  | some p => (((s.part p).patterns.flatMap (·.regions)).filter (fun r => r.core = c && r.space = 0)).foldl
      (fun s r => (s.copyRegion p r).1) s

/-- The abrupt castling that is due in a half (R458 steps 3 and 4): the failed tile's state is not read. -/
def execCastlingAbrupt (half : Nat) (s : State) : Host.Outcome State Fault Refusal :=
  .next (reachLink.take s (
    match s.castDue half with
    | none => s
    | some r =>
      let c := r.logical
      let (k, t) := s.castDest r
      if !r.abrupt then s
      else if k = 3 then s.castNone r
      else
        let mark := smGet {} s.abs.marks c
        let s1 := (s.castBegin r k t).haltCores [c]
        let s2 := s1.modCore c (fun x => { x with stock := [], stockBad := [], cgFailed := false, mark := mark })
        (s2.toMark c).placeStock c))

/-- A partition is held no longer by a castling: no abrupt trigger waits for a core of it and no switch is due. -/
def State.castFree (s : State) (p : Nat) : State :=
  let mine (c : Nat) : Bool := (s.part p).cores.contains c
  let busy := s.abs.castWait.any (fun r => r.abrupt && mine r.logical)
    || [s.abs.castA, s.abs.castB].any (fun x => match x with | some y => !y.switched && mine y.req.logical | none => false)
    || (match s.abs.fence with | some f => f.parts.contains p | none => false)
  if busy then s else { s with abs := { s.abs with heldParts := s.abs.heldParts.filter (· != p) } }

/-- Requests for a logical vault go to a new physical vault; what the old one holds is to migrate (R460, R480). -/
def State.startMigration (s : State) (c old new : Nat) (role after : VRole) : State :=
  let v := s.vault old
  let prev := s.abs.migs.find? (fun m => m.logical = c)
  let (srcs, more) : List (Nat × List Nat × VRole) × List Nat := match prev with
    | some m => ((m.old, m.left.filter (fun g => m.src g = m.old), m.roleAfter) :: m.srcs, m.left)
    | none => ([], [])
  let m : Migrate := { logical := c, old := old, new := new, left := more.foldl insNat v.valid, roleAfter := after, srcs := srcs,
                       oldLost := match prev with | some m => m.oldLost | none => false }
  let s1 := s.modVault old (fun x => { x with role := .orphan })
  let s2 := s1.modVault new (fun x => { x with
    role := role, logical := c, part := v.part, valid := [], flags := [], wq := [], mb := [], rewrites := [], lostLines := [], filling := [], clears := [] })
  { s2 with abs := { s2.abs with migs := s2.abs.migs.filter (fun x => x.logical != c) ++ [m] } }

/-- The floor plan's new entry (R456, R457 step 3). -/
def State.castPlan (s : State) (x : CastRun) : State :=
  let c := x.req.logical
  let v := (s.vaultOf c).getD 511
  let s0 := if v != x.fromSite then s.modSite v (fun y => { y with partner := 511, cls := if x.req.vault then clsNoVault y.cls else y.cls }) else s
  let leave (y : Site) : Site := { y with
    core := 3, valid := false, logical := 0, partner := 511
    cls := if x.req.vault then (if v = x.fromSite then clsNoVault y.cls else y.cls) else clsNoLogic y.cls }
  let arrive (partner : Nat) (y : Site) : Site := { y with core := 0, valid := true, logical := c, partner := partner }
  let setSiteOf (s : State) (t : Nat) : State := { s with boot := { s.boot with coreSite := smPut s.boot.coreSite c t } }
  let after : VRole := if x.req.vault then .disabled else .reserve
  match x.kind with
  | 0 => ((setSiteOf ((s0.modSite x.fromSite leave).modSite x.toSite (arrive 511)) x.toSite)).startMigration c v x.toSite .logical after
  | 1 =>
    let s1 := setSiteOf (((s0.modSite x.fromSite leave).modSite x.toSite (arrive v)).modSite v (fun y => { y with partner := x.toSite })) x.toSite
    s1.modVault v (fun y => { y with role := .borrowed })
  | _ =>
    let own (y : Site) : Site := { y with core := 0, partner := x.toSite, cls := if v = x.fromSite then clsNoVault y.cls else y.cls }
    ((s0.modSite x.fromSite own).modSite x.toSite (fun y => { y with partner := x.fromSite })).startMigration c v x.toSite .borrowed after

/-- The switch: the core is ACTIVE on its new tile, and the held step starts, or runs again (R457 steps 3 and 4, R458 step
5). -/
def execCastleSwitch (half : Nat) (s : State) : Host.Outcome State Fault Refusal :=
  .next (reachLink.take s (
    match s.castOf half with
    | none => s
    | some x =>
      if !x.copied || x.switched || s.fencedHalf = some half then s
      else
        let c := x.req.logical
        let s1 := (s.castPlan x).setCast half (some { x with switched := true })
        let s2 := if x.kind = 1 then s1.castDone half c else s1.migrateEnd c
        match s2.partOfCore c with
        | some p => (s2.castFree p).stepStart p
        | none => s2))

/-! ### Triggers and migration (R455, R460, R461) -/

/-- An abrupt trigger: the partition rolls back at once; with no destination the core is lost (R455, R462). -/
def State.abruptTrigger (s : State) (c cause : Nat) : State :=
  let r : CastReq := ⟨c, cause, true, false⟩
  let s1 := (s.castTrigger r).rollBack c
  if (s1.castDue (coreHalf c)).any (fun q => q.logical = c && q.abrupt) && (s1.castDest r).1 = 3 then s1.castNone r else s1

/-- The clerk misses two heartbeats in a row (R455). -/
def execClerkHeartbeatMiss (core : Nat) (s : State) : Host.Outcome State Fault Refusal :=
  .next (reachLink.take s (if s.coreActive core then s.abruptTrigger core 1 else s))

/-- A double-bit error in an s-register or counter (R168, R455): all four queues stop, DATA_LOST is reported for the
core's step set, and an abrupt castling is triggered. -/
def execClerkRegUe (core : Nat) (s : State) : Host.Outcome State Fault Refusal :=
  .next (reachLink.take s (
    let s1 := s.setErr pgClerk core 2
    let s2 := s1.modCore core (fun x => { x with qs := x.qs.map (fun q => { q with stopped := true }) })
    let s3 := s2.reportLost core none
    if s3.coreActive core then s3.abruptTrigger core 2 else s3))

/-- STW_CAST_REQ (R455, R481): the trigger of a graceful castling. Answers whether the write is refused. -/
def State.castRequest (s : State) (w : Nat) : State × Bool :=
  let r : CastReq := ⟨bits w 7 0, 0, false, bit w 8⟩
  if (s.castOf (coreHalf r.logical)).isSome || !s.coreActive r.logical || (s.castDest r).1 = 3 then (s, true)
  else (s.castTrigger r, false)

/-- The next granule of a migration, or the one that a request names (R460); a lost half's migration pauses (R480). -/
def execMigrateGranule (logical granule : Nat) (demand : Bool) (s : State) : Host.Outcome State Fault Refusal :=
  .next (reachLink.take s (
    match s.abs.migs.find? (fun m => m.logical = logical) with
    | none => s
    | some m =>
      if s.fencedHalf = some (coreHalf logical) then s
      else
        let g := if demand then granule else m.left.headD 262144
        (s.migrateGranule logical g).migrateEnd logical))

/-- The old shell stops answering: every unmigrated granule is uncorrectable, and recovered as its class is (R461). -/
def execOldShellLost (logical : Nat) (s : State) : Host.Outcome State Fault Refusal :=
  .next (reachLink.take s (
    match s.abs.migs.find? (fun m => m.logical = logical) with
    | none => s
    | some m =>
      let lost (x : Migrate) : Migrate := if x.logical = logical then { x with oldLost := true } else x
      let s1 := { s with abs := { s.abs with migs := s.abs.migs.map lost } }
      let s2 := m.left.foldl (fun s g =>
        let s' := s.migrateGranule logical g
        if (s'.regionAt logical (g * 4096)).isSome then (s'.patternRestore m.new g).1 else s') s1
      s2.migrateEnd logical))

end Sys2Proof.Machine
end

