-- ==== Sys2Proof/Machine/D2d.lean ====
section
/-! DEFINITION. The die-to-die link: flows, replay buffers, disabling and retraining a module, and mesh packets (R338, R341
to R347). A flit of the link is kept as the data of its mesh flits: an empty list is a header flit. -/

namespace Sys2Proof.Machine

def State.mod (s : State) (m : Nat) : D2dMod := s.d2d.getD m {}
def State.modMod (s : State) (m : Nat) (f : D2dMod → D2dMod) : State := { s with d2d := fixSet 16 {} s.d2d m (f (s.mod m)) }

/-- The modules that are UP, ascending. -/
def State.upMods (s : State) : List Nat := (List.range 16).filter (fun m => (s.mod m).st = .up)

/-- The flow-table entry of a flow between physical routers (R345). -/
def flowEntry (src dst : Nat) : Nat := (src + 3 * dst) % 64

/-- The module that an entry of a sending half's table names; reset entry mod 16 (DESIGN CHOICE, assumption 40). -/
def State.flowMod (s : State) (half e : Nat) : Nat := smGet (e % 16) (s.mesh half).flows e

def State.setFlow (s : State) (half e m : Nat) : State :=
  let x := s.mesh half
  s.setMesh half { x with flows := smSet (e % 16) x.flows e m }

/-- A sequence of 10 bits is at or after another, within half its range. -/
def seqFrom (a b : Nat) : Bool := decide ((b + 1024 - a) % 1024 < 512)

/-- A flit of a flow goes onto a module; its replay buffer holds 64 flits, and what follows waits for their acknowledgement
(R344). -/
def State.d2dPut (s : State) (half e m : Nat) (slots : List (List Byte)) : State :=
  let x := s.mod m
  let q := x.tx.getD half 0
  let r := x.replay.getD half []
  let s1 := s.modMod m (fun x => { x with tx := x.tx.set half ((q + 1) % 1024), replay := x.replay.set half (r ++ [(q, e, slots)]) })
  if r.length < 64 then s1.emit (.d2dFlit m half q slots) else s1

/-- Flits of a replay buffer are sent, in order. -/
def State.d2dSend (s : State) (half m : Nat) (l : List (Nat × Nat × List (List Byte))) : State :=
  l.foldl (fun s f => s.emit (.d2dFlit m half f.1 f.2.2)) s

/-- The other half has accepted every flit up to a sequence (R344). -/
def State.d2dAcked (s : State) (half m ack : Nat) : State :=
  let r := (s.mod m).replay.getD half []
  let keep := r.filter (fun f => seqFrom ((ack + 1) % 1024) f.1)
  let s1 := s.modMod m (fun x => { x with replay := x.replay.set half keep })
  s1.d2dSend half m ((keep.take 64).drop (min 64 r.length - (r.length - keep.length)))

/-- A NAK: everything after the flit that it names is sent again (R344). -/
def State.d2dNaked (s : State) (half m ack : Nat) : State :=
  let keep := ((s.mod m).replay.getD half []).filter (fun f => seqFrom ((ack + 1) % 1024) f.1)
  (s.modMod m (fun x => { x with replay := x.replay.set half keep })).d2dSend half m (keep.take 64)

/-- The flits of a module that the other half has not accepted, oldest first (R345). -/
def State.d2dLater (s : State) (half m : Nat) : List (Nat × Nat × List (List Byte)) :=
  ((s.mod m).replay.getD half []).filter (fun f => seqFrom ((s.mod m).rx.getD (1 - half) 0) f.1)

/-- The entries that name a module go to the working modules in turn, and its later flits with them (R345). -/
def State.reassign (s : State) (half m : Nat) : State :=
  match s.upMods with
  | [] => s
  | w :: ws =>
    let es := (List.range 64).filter (fun e => s.flowMod half e = m)
    let s1 := (es.zipIdx).foldl (fun s e => s.setFlow half e.1 ((w :: ws).getD (e.2 % (ws.length + 1)) w)) s
    let later := s.d2dLater half m
    let s2 := s1.modMod m (fun x => { x with replay := x.replay.set half [] })
    later.foldl (fun s f => s.d2dPut half f.2.1 (s.flowMod half f.2.1) f.2.2) s2

/-- Modules that were UP are disabled (R346): then their flows move, in both directions. -/
def State.modsOff (s : State) (recv : Nat) (ms : List Nat) : State :=
  let s1 := ms.foldl (fun s m => ((s.modMod m (fun x => { x with st := .disabled, since := s.timeUs, retries := 0 })).bump pgD2d recv 0
    rD2dDisables 1).setErr pgD2d recv 1) s
  ms.foldl (fun s m => (s.reassign 0 m).reassign 1 m) s1

/-- A trained module: sequences from 0, and the flits that the other half has not accepted numbered again (R346). -/
def D2dMod.retrained (x : D2dMod) : D2dMod :=
  let left (h : Nat) : List (Nat × Nat × List (List Byte)) :=
    (((x.replay.getD h []).filter (fun f => seqFrom (x.rx.getD (1 - h) 0) f.1)).zipIdx).map (fun f => (f.2 % 1024, f.1.2.1, f.1.2.2))
  { replay := [left 0, left 1], tx := [(left 0).length % 1024, (left 1).length % 1024] }

/-- A module that trained gets back the entries that were its own, and the flits of those flows that the other half has not
accepted (R345 in reverse). -/
def State.modBack (s : State) (half m : Nat) : State :=
  let es := (List.range 64).filter (fun e => e % 16 = m && s.flowMod half e != m)
  let s1 := es.foldl (fun s e => s.setFlow half e m) s
  let moved := s.upMods.flatMap (fun n => if n = m then [] else (s.d2dLater half n).filter (fun f => es.contains f.2.1))
  let s2 := s1.upMods.foldl (fun s n => if n = m then s else
    s.modMod n (fun x => { x with replay := x.replay.set half ((x.replay.getD half []).filter (fun f => !es.contains f.2.1)) })) s1
  moved.foldl (fun s f => s.d2dPut half f.2.1 m f.2.2) s2

/-- The unaccepted flits toward a half cross again, in sequence (R467 stage 4). -/
def State.d2dReplay (s : State) (half : Nat) : State :=
  s.upMods.foldl (fun s m => s.d2dSend half m ((s.d2dLater half m).take 64)) s

/-! ### Mesh packets -/

/-- The partition of the core or the vault at a router: a logical core that stands there, or a logical vault that lies there. -/
def State.sitePart (s : State) (p : Nat) : Option Nat :=
  match s.boot.coreSite.find? (fun e => e.2 = p || s.vaultOf e.1 = some p) with
  | some e => s.partOfCore e.1
  | none => none

/-- A packet leaves the mesh at its destination, or is discarded there where the partition is in RESETTING (R341). -/
def State.packetOut (s : State) (dst : Nat) (bs : List Byte) : State :=
  match s.sitePart dst with
  | some p => if (s.part p).st = .resetting then s.bump pgMesh (siteHalf dst) 0 rMeshDiscarded 1 else s.emit (.eject (siteHalf dst) (dst % 144) bs)
  | none => s.emit (.eject (siteHalf dst) (dst % 144) bs)

/-- A list cut into pieces of n. -/
def chunks {α : Type} (n : Nat) (l : List α) : List (List α) :=
  (List.range ((l.length + n - 1) / n)).map (fun i => (l.drop (i * n)).take n)

/-- The mesh flits of a packet: a header flit and its data flits, three to a flit of the link (R337, R343). -/
def packetFlits (bs : List Byte) : List (List (List Byte)) :=
  let fl := [] :: chunks 64 bs
  chunks 3 fl

/-- A packet for the other half crosses on the module of its flow (R338, R345). -/
def State.packetCross (s : State) (half src dst : Nat) (bs : List Byte) : State :=
  let e := flowEntry (src % 144) (dst % 144)
  ((packetFlits bs).foldl (fun s f => s.d2dPut half e (s.flowMod half e) f) s).packetOut dst bs

/-- The packets held for a half cross, in the order of their injection (R348, R467). -/
def State.packetsGo (s : State) (half : Nat) : State :=
  let x := s.mesh half
  x.packets.foldl (fun s p => s.packetCross half p.1 p.2.1 p.2.2) (s.setMesh half { x with packets := [] })

end Sys2Proof.Machine
end

