-- ==== Sys2Proof/Machine/VaultCmd.lean ====
section
/-! DEFINITION. Commands of a vault and of the stockroom scrubber (R179 to R196, R318 to R333). -/

namespace Sys2Proof.Machine

/-- A write of bytes: whole lines enter the write queue, parts of lines the merge buffer (R183, R184). -/
def execVaultWrite (vault addr : Nat) (bs : List Byte) (s : State) : Host.Outcome State Fault Refusal :=
  .next (reachVault.take s (s.guestArrive vault (.write none (addr % 1073741824) bs)))

/-- A granule is materialised (R189). -/
def execGranuleMaterialise (vault granule : Nat) (s : State) : Host.Outcome State Fault Refusal :=
  .next (reachVault.take s (if (s.vault vault).mode != .memory then s else s.materialise vault (granule % 262144) 64))

/-- n bytes from local address a touch a bank. -/
def touchesBank (a n bank : Nat) : Bool :=
  n != 0 && (decide ((a + n - 1) / 2048 - a / 2048 ≥ 127) ||
    (List.range ((a + n - 1) / 2048 - a / 2048 + 1)).any (fun i => (a / 2048 + i) % 128 = bank))

/-- A request that waits at a vault of logical number l waits for a bank of it (R193). -/
def State.reqBank (s : State) (l bank : Nat) (q : GuestReq) : Bool :=
  match q with
  | .hostRead _ _ a n => touchesBank a n bank
  | .hostNext _ _ v a n => v = l && touchesBank a n bank
  | .line a => touchesBank a 1 bank
  | .write _ a d => touchesBank a d.length bank
  | .transfer c f => ((s.core c).flight f).any (fun f =>
      let x := xferOf c f.op f.ord
      (List.range x.rows).any (fun r => ((x.srcAt c r).parts x.len ++ (x.dstAt c r).parts x.len).any (fun y =>
        y.1 = l && touchesBank y.2.1 y.2.2 bank)))
  | .fab m =>
    if m.ty = 0x03 then ((s.getOf m).bind (fun t => s.getPlace t m)).any (fun x =>
      (x.parts m.data.length).any (fun y => y.1 = l && touchesBank y.2.1 y.2.2 bank))
    else (nearParts (bits m.info 37 0) (if m.ty = 0x01 then (putBody m).length else bits (leNat m.data) 19 0)).any
      (fun y => y.1 = l && touchesBank y.2.1 y.2.2.1 bank)

/-- A refresh of a bank falls due (R193): it is issued while no request waits for the bank and no item runs in it, owed
otherwise, and forced when the bank would fall nine behind. An idle bank takes one owed command with it. -/
def execRefreshCommand (vault bank : Nat) (s : State) : Host.Outcome State Fault Refusal :=
  .next (reachVault.take s (
    let v := s.vault vault
    let busy := (match v.run with | some r => r.units.any (fun u => u.bank = bank) | none => false)
      || (v.guests ++ v.held).any (fun q => s.reqBank v.logical bank q)
    let d := smGet 0 v.debt bank
    if v.mode = .retention then s
    else if !busy then s.modVault vault (fun v => { v with debt := smSet 0 v.debt bank (d - 1) })
    else if d ≥ 8 then s.bump pgVlt vault 0 rVltRefForced 1
    else s.modVault vault (fun v => { v with debt := smSet 0 v.debt bank (d + 1) })))

/-- The interface re-centres: 48 VAULT cycles without a transfer, and no other effect (R196). -/
def execInterfaceRecentre (vault : Nat) (s : State) : Host.Outcome State Fault Refusal :=
  .next (reachVault.take s (s.modVault vault id))

/-- A row segment is to be spared. -/
def Vault.spareSoon (v : Vault) (seg : Nat) : Vault :=
  { v with toSpare := if v.toSpare.contains seg then v.toSpare else v.toSpare ++ [seg] }

/-- The bucket leaks by 1 (R320). -/
def execBucketLeak (vault : Nat) (s : State) : Host.Outcome State Fault Refusal :=
  .next (reachVault.take s (s.modVault vault (fun v => { v with bucket := v.bucket - 1 })))

/-- The lowest-numbered unused spare row of a bank (R323). -/
def Vault.freeSpare (v : Vault) (k : Nat) : Option Nat :=
  (List.range 32).find? (fun i => !v.remap.any (fun e => e.2 = 32 * k + i))

/-- A vault's remap table goes to the reserve vaults' copy, and to both copies of the configuration image with the epoch
advanced (R325). -/
def State.saveRemap (s : State) (p : Nat) : State :=
  let put (n : Nor) : Nor := { n with cfg := { n.cfg with epoch := n.cfg.epoch + 1, remaps := smPut n.cfg.remaps p (s.vault p).remap } }
  ({ s with sec := { s.sec with norA := put s.sec.norA, norB := put s.sec.norB } }).modVault p (fun v => { v with remapCopy := v.remap })

/-- Remap words have a double-bit error (`words`: their row segments): requests to their banks are held. With no word named, the
words in error are reloaded from the reserve vaults' copy, and what was held goes on (R325). -/
def execRemapReload (vault : Nat) (words : List Nat) (s : State) : Host.Outcome State Fault Refusal :=
  .next (reachVault.take s (
    if !words.isEmpty then s.modVault vault (fun v => { v with remapBad := words.foldl insNat v.remapBad })
    else
      let load (v : Vault) (m : SMap Nat) (w : Nat) : SMap Nat := match smFind v.remapCopy w with
        | some x => smPut m w x
        | none => smErase m w
      (s.modVault vault (fun v => { v with remap := v.remapBad.foldl (load v) v.remap, remapBad := [] })).releaseHeld vault))

/-- The granule of a lost pattern line is restored from its golden page, and what waited for it goes on (R329); where that
fails, the reads that waited for it end without data (R326). -/
def execPatternRestore (vault granule : Nat) (s : State) : Host.Outcome State Fault Refusal :=
  .next (reachVault.take s (
    let g := granule % 262144
    if (s.vault vault).mode = .memory && (s.vault vault).lostLines.any (fun e => e.1 / 64 = g && e.2 = 2) then
      let (s1, ok) := s.patternRestore vault g
      if ok then s1.releaseHeld vault
      else
        let here (q : GuestReq) : Bool := match q with | .line a => a / 4096 = g | _ => false
        let s2 := ((s1.vault vault).held.filter here).foldl (fun s q => match q with
          | .line a => (s.bump pgVlt vault 0 rVltGuestLines 1).emit (.line vault a none)
          | _ => s) s1
        (s2.modVault vault (fun v => { v with held := v.held.filter (fun q => !here q) })).releaseHeld vault
    else s))

/-- The stockroom scrubber reads its next line (R333). `errs`: the words of the line with an error, and whether it is
of 1 or 2 bits. -/
def execStockroomScrub (core : Nat) (errs : List (Nat × Nat)) (s : State) : Host.Outcome State Fault Refusal :=
  .next (reachOrder.take s (
    let l := (s.core core).stockPtr
    let s1 := errs.foldl (fun s e =>
      let w := l * 8 + e.1 % 8
      if (s.core core).stockBad.contains w then s.sramUe core (8 * w)
      else if e.2 = 1 then (s.bump pgStw 0 0 rStwSramCe 1).tileError core
      else if e.2 = 2 then (s.modCore core (fun x => { x with stockBad := insNat x.stockBad w })).sramUe core (8 * w)
      else s) s
    s1.modCore core (fun x => { x with stockPtr := (l + 1) % 32768 })))

end Sys2Proof.Machine
end

