-- ==== Sys2Proof/Machine/HostLink.lean ====
section
/-! DEFINITION. The host link and the far ports (R16, R23, R173 to R177, R330, R376 to R392). Functions are numbered: PF0 0,
PF1 1, VF k as 1 + k. -/

namespace Sys2Proof.Machine

/-- What the host's functions and the links can reach: the links' reach, and the management session. -/
def reachHost : Reach := { reachLink with sec := true }

/-! ### BAR2 (R176, R177, R380) -/

/-- The vault pieces of a BAR2 access: logical vault, local address, length, distance from its start. -/
def bar2Parts (addr n : Nat) : List (Nat × Nat × Nat × Nat) :=
  (pieces addr n).map (fun q =>
    let o := q.1 % 274877906944
    if q.1 / 274877906944 % 2 = 0 then (let x := nearSplit o; (x.1, x.2, q.2.1, q.2.2))
    else (o / 1073741824, o % 1073741824, q.2.1, q.2.2))

/-- A function may reach these vaults in BAR2: PF0 all of them, a VF those of its partition, PF1 none. -/
def State.bar2Ok (s : State) (fn addr n : Nat) (ps : List (Nat × Nat × Nat × Nat)) : Bool :=
  fn != 1 && decide (addr + n ≤ 549755813888) && !(s.boot.state = .boot && s.sec.image = 2)
    && (fn = 0 || ps.all (fun q => (s.part (fn - 2)).cores.contains q.1))

/-- A logical vault lies in a half that is fenced, its requests not replayed yet (R387), or that the host does not reach
(R16). A half that is out of reach is treated as a fenced one (DESIGN CHOICE, assumption 114). -/
def State.vaultFenced (s : State) (l : Nat) : Bool := s.locFenced (.vault l 0) 1 || (coreHalf l = 1 && s.spurCut)

/-- Nothing of BAR2 answers in these states (R424). -/
def State.bar2Asleep (s : State) : Bool := s.boot.state = .adjourned || s.boot.state = .halted

/-- A host read of BAR2: it completes after earlier posted writes are visible (R23), is held for a fenced half (R387), and
completes with Completer Abort while ADJOURNED (R424). -/
def execHostNearRead (fn tag addr len : Nat) (s : State) : Host.Outcome State Fault Refusal :=
  .next (reachLink.take s (
    let ps := bar2Parts addr len
    if s.bar2Asleep then s.emit (.cpl fn tag 2)
    else if !s.bar2Ok fn addr len ps then (s.bump pgHost 0 0 rHostUr 1).emit (.cpl fn tag 1)
    else ps.foldl (fun s q =>
      if s.vaultFenced q.1 then
        (if (match s.abs.fence with | some f => f.escalated | none => false) then s.emit (.cpl fn tag 2)
         else { s with host := { s.host with reads := s.host.reads ++ [(fn, tag, q.1, q.2.1, q.2.2.1, s.timeUs)] } })
      else s.hostReadTry fn tag q.1 q.2.1 q.2.2.1) s))

/-- A piece of a posted write reaches its vault. -/
def State.hostPut (s : State) (fn l a : Nat) (bs : List Byte) : State :=
  match s.vaultOf l with
  | none => s
  | some p => s.guestArrive p (.write (some fn) a bs)

/-- A piece of a posted write is buffered for a half that it does not reach; the full buffer withholds posted credits from then on
(R387). -/
def State.hostBuffer (s : State) (fn l a : Nat) (bs : List Byte) : State :=
  let held := s.host.posted ++ [(l, a, bs, s.fab.snapTag, fn)]
  let s1 := { s with host := { s.host with posted := held } }
  if held.foldl (fun n w => n + w.2.2.1.length) 0 ≥ 4194304 then s1.setReg pgHost 0 0 rHostHeldCyc 1 else s1

/-- A posted host write to BAR2: it is split at 4 KiB boundaries and sent to its vaults; for a fenced half it is buffered in
the order of acceptance (R387); while ADJOURNED it is discarded and counted (R424). -/
def execHostNearWrite (fn addr : Nat) (bs : List Byte) (s : State) : Host.Outcome State Fault Refusal :=
  .next (reachLink.take s (
    let ps := bar2Parts addr bs.length
    if s.bar2Asleep then s.bump pgPwr 0 0 rPwrHostDrop 1
    else if !s.bar2Ok fn addr bs.length ps then s.bump pgHost 0 0 rHostUr 1
    else ps.foldl (fun s q =>
      let d := (bs.drop q.2.2.2).take q.2.2.1
      if s.vaultFenced q.1 then
        (if (match s.abs.fence with | some f => f.escalated | none => false) then s
         else s.hostBuffer fn q.1 q.2.1 d)
      else s.hostPut fn q.1 q.2.1 d) s))

/-- A held read reaches fence_hold (R387). -/
def execFenceHoldExpired (fn tag : Nat) (s : State) : Host.Outcome State Fault Refusal :=
  .next (reachLink.take s (
    if s.host.reads.any (fun r => r.1 = fn && r.2.1 = tag) then
      ((({ s with host := { s.host with reads := s.host.reads.filter (fun r => !(r.1 = fn && r.2.1 = tag)) } }).bump pgHost 0 0
        rHostFenceCa 1).setErr pgHost 0 2).emit (.cpl fn tag 2)
    else s))

/-! ### The link (R383 to R386) -/

/-- Bus Master Enable of a function, by which a VF owns its partition's host traffic (R381). -/
def State.setBme (s : State) (fn : Nat) (on : Bool) : State :=
  let rest := s.host.bme.filter (· != fn)
  { s with host := { s.host with bme := if on then rest ++ [fn] else rest } }

/-- A configuration request: Request Retry Status before the identity page is loaded (R384). `bme`: what it writes to Bus Master
Enable, if it does. -/
def execHostConfigRequest (fn tag : Nat) (bme : Option Bool) (s : State) : Host.Outcome State Fault Refusal :=
  .next (reachLink.take s (
    if !s.hostUp then s
    else if !s.boot.idLoaded then s.emit (.cpl fn tag 3)
    else
      let s1 := match bme with
        | some on => if isHostFn fn then s.setBme fn on else s
        | none => s
      s1.emit (.cpl fn tag 0)))

/-- A failed outbound read is counted: one without a completion in HOST_CPL_TIMEOUT, one that returned UR or CA in HOST_UR
(R383). -/
def State.readFailed (s : State) (key how : Nat) : State :=
  let s1 := { s with host := { s.host with retried := s.host.retried.filter (· != key) } }
  if how = 0 then (s1.bump pgHost 0 0 rHostCplTimeout 1).setErr pgHost 0 1 else s1.bump pgHost 0 0 rHostUr 1

/-- An outbound read had no completion, and is issued once more; the second time, or where a read returns UR or CA, its purpose
decides (R383). `purpose`: part of a work order 0 (`id` is core + 256 × flight), a golden copy 1, the request ring 2, a history
buffer in a recompute 3 (`id` is the stream). -/
def execHostReadTimeout (part purpose id how : Nat) (s : State) : Host.Outcome State Fault Refusal :=
  .next (reachHost.take s (
    let key := purpose % 4 + 4 * (part % 64) + 256 * id
    if how = 0 && !s.host.retried.contains key then { s with host := { s.host with retried := s.host.retried ++ [key] } }
    else
      let s1 := s.readFailed key how
      match purpose % 4 with
      | 0 => if ((s1.core (id % 256)).flight (id / 256)).any (fun f => !f.done) then s1.failFlight (id % 256) (id / 256) else s1
      | 1 => (s1.log 0x0E { cls := 2, part := part }).setErr pgFore 0 3
      | 2 => s1
      | _ => if (s1.stream id).part = part && ((s1.stream id).st = .prefill || (s1.stream id).st = .decode) then (s1.drain id endError stLost false).mirrorEntry id 0 else s1))

/-- The ring enables of a partition, or of the admin ring and the error log, are cleared. -/
def State.closeRings (s : State) (p : Nat) : State := (s.setFld pgFore 0 p rForeReqCfg 31 31 0).setFld pgFore 0 p rForeTokCfg 31 31 0
def State.closePf1 (s : State) : State :=
  let s1 := (s.setFld pgFore 0 0 rForeAdmCfg 31 31 0).setFld pgStw 0 0 rStwElogCfg 31 31 0
  { s1 with sec := { s1.sec with pf1 := { s1.sec.pf1 with opened := false } } }

/-- PERST# assertion, a hot reset or a surprise link down (R385): the PCIe function state is reset, and every SERVING
partition becomes QUIESCED after its running step. -/
def execHostLinkLoss (s : State) : Host.Outcome State Fault Refusal :=
  .next (reachHost.take s (
    let s1 := { s with host := { s.host with width := 0, rate := 0, flit := false, bme := [], reads := [], retried := [] }, latch := [], staged := [] }
    let s2 := ((s1.setFld pgHost 0 0 rHostState 18 18 1).bump pgHost 0 0 rHostLinkDowns 1).setErr pgHost 0 0
    let s3 := (List.range 64).foldl (fun s p => ((s.quiesce p none).1).closeRings p) s2
    s3.closePf1))

/-- PERST# deasserts and the link trains (R376, R384). -/
def execPerstDeassert (width rate : Nat) (flit : Bool) (s : State) : Host.Outcome State Fault Refusal :=
  .next (reachHost.take s (
    if s.boot.state = .off || s.boot.state = .aon then { s with host := { s.host with perst := false } }
    else { s with host := { s.host with perst := false, width := min 16 width, rate := min 5 rate, flit := flit } }))

/-- A Function Level Reset of a VF (R386). -/
def execFlrVf (vf : Nat) (s : State) : Host.Outcome State Fault Refusal :=
  .next (reachHost.take s (
    if vf = 0 || vf > 64 then s
    else ({ s with host := { s.host with bme := s.host.bme.filter (· != vf + 1) } }).resetPartition (vf - 1) |>.1))

/-- A Function Level Reset of PF0: every partition that its VF does not own is reset (R381, R386). -/
def execFlrPf0 (s : State) : Host.Outcome State Fault Refusal :=
  .next (reachHost.take s (
    (List.range 64).foldl (fun s p => if s.host.bme.contains (p + 2) then s else (s.resetPartition p).1)
      { s with host := { s.host with bme := s.host.bme.filter (· != 0) } }))

/-- A Function Level Reset of PF1 (R386). -/
def execFlrPf1 (s : State) : Host.Outcome State Fault Refusal :=
  .next (reachHost.take s (({ s with host := { s.host with bme := s.host.bme.filter (· != 1) } }).closePf1))

/-- The host spur loses its training, and may train again (R16, R445). -/
def execHostSpurDown (s : State) : Host.Outcome State Fault Refusal :=
  .next (reachHost.take s (({ s with host := { s.host with spur := false }, boot := { s.boot with trained := smSet 0 s.boot.trained 288 0 } }).checkState))

/-! ### The far ports (R388 to R392) -/

/-- A ledger page whose far copy cannot be read becomes RECOMPUTE in a near frame of its team core (R327, R391): the one that
its promotion has, or a free one. -/
def State.farLost (s : State) (port o : Nat) : State :=
  let hits := s.ledgAll.filter (fun e => (e.2.st = .far || (e.2.st = .moving && !e.2.toFar)) && e.2.vault = port
    && decide (e.2.frame * 32768 ≤ o) && decide (o < e.2.frame * 32768 + pageBytes e.2.z))
  hits.foldl (fun s e =>
    if e.2.st = .moving then s.setLedg e.1 { e.2 with st := .recompute, vault := e.2.toVault, frame := e.2.toFrame, rebuilt := 0 }
    else match s.freeFrame e.2.home e.2.z with
    | some f => s.setLedg e.1 { e.2 with st := .recompute, vault := e.2.home, frame := f, rebuilt := 0 }
    | none => s) s

/-- Transfer orders that wait for a byte of a far port: (core, flight). -/
def State.farWaiters (s : State) (port o : Nat) : List (Nat × Nat) :=
  s.cores.flatMap (fun c => (c.2.flights.filter (fun f => opUnit f.op = .transfer && !f.done &&
    (let x := xferOf c.1 f.op f.ord
     (List.range x.rows).any (fun r => match x.srcAt c.1 r with
       | .far p a => p = port && decide (a ≤ o) && decide (o < a + x.len)
       | _ => false)))).map (fun f => (c.1, f.id)))

/-- A far read returns poison, or fails: a poisoned line stays unreadable, and the read is handled by what it reads: a page of
the ledger becomes RECOMPUTE, a golden copy's read fails (R292), an order that waits for the byte ends with DATA_LOST (R391). -/
def execFarReadFail (port addr how : Nat) (s : State) : Host.Outcome State Fault Refusal :=
  .next (reachLink.take s (
    if port ≥ 4 then s
    else
      let o := addr % 1099511627776
      let s1 := if how = 0
        then ((s.modFar port (fun f => { f with poison := insNat f.poison (o / 64) })).bump pgFarp port 0 rFarpPoison 1).setErr pgFarp port 2
        else (s.bump pgFarp port 0 rFarpTimeout 1).setErr pgFarp port 1
      let s2 := (s1.log 0x02 { cls := s.farClass port o, addr := o, status := stLost }).farLost port o
      if how = 0 then s2
      else
        let s3 := if s.farClass port o = 2 then (s2.log 0x0E { cls := 2, addr := o }).setErr pgFore 0 3 else s2
        (s.farWaiters port o).foldl (fun s w => s.failFlight w.1 w.2) s3))

/-- A read on a DOWN port has waited far_hold, and is handled as a poisoned read (R392). -/
def execFarHoldExpired (port addr : Nat) (s : State) : Host.Outcome State Fault Refusal :=
  .next (reachLink.take s (
    let o := addr % 1099511627776
    if port ≥ 4 || (s.farPort port).st = .up || (s.farPort port).st = .upDegraded then s
    else
      let s1 := ((s.bump pgFarp port 0 rFarpPoison 1).setErr pgFarp port 2).log 0x02 { cls := s.farClass port o, addr := o, status := stLost }
      (s.farWaiters port o).foldl (fun s w => s.failFlight w.1 w.2) (s1.farLost port o)))

/-- The steward logs a far device's event records (R388). The spec gives them no event code of the error log: it is a free
value. -/
def execFarEventPoll (port : Nat) (events : List Nat) (s : State) : Host.Outcome State Fault Refusal :=
  .next (reachLink.take s (
    if port ≥ 4 then s
    else events.foldl (fun s e => (s.freeUsed).log (s.freeVal.toNat % 256) { cls := 0, addr := e, bank := port }) s))

/-- A far port goes DOWN (R390, R445). -/
def execFarPortDown (port : Nat) (s : State) : Host.Outcome State Fault Refusal :=
  .next (reachLink.take s (
    if port ≥ 4 then s else s.farDown port))

end Sys2Proof.Machine
end

