-- ==== Sys2Proof/Machine/RegHalf.lean ====
section
/-! DEFINITION. Register pages: where a BAR0 access falls (R379, R380, R387, R424, R486, R503, R510), what the registers of
the half pages read as, and what writing them does (R7, R8, R82, R88, R169, R191, R192, R202, R226, R254, R297, R375, R394,
R502 to R507). -/

namespace Sys2Proof.Machine

/-! ### Pages (R509, R510) -/

/-- The page at a page number of the BAR0 map: type code and instance. -/
def pageAt (k : Nat) : Option (Nat × Nat) :=
  if k = 0 then some (pgDir, 0) else if k = 1 then some (pgIdent, 0) else if k = 2 then some (pgStw, 0)
  else if k = 4 then some (pgPwr, 0) else if k = 5 then some (pgThm, 0) else if k = 6 then some (pgSec, 0)
  else if k = 7 then some (pgFuse, 0)
  else if 0x18 ≤ k && k ≤ 0x1D then some (pgLedg + (k - 0x18), 0)
  else if 0x108 ≤ k && k ≤ 0x10D then some (pgLedg + (k - 0x108), 1)
  else if k = 0x200 then some (pgHost, 0) else if k = 0x203 then some (pgRng, 0) else if k = 0x204 then some (pgFab, 0)
  else if 0x208 ≤ k && k ≤ 0x20F then some (pgFabp, k - 0x208)
  else if 0x210 ≤ k && k ≤ 0x213 then some (pgFarp, k - 0x210)
  else if 0x1000 ≤ k && k < 0x2000 then (if k % 16 < 5 then some (pgClerk + k % 16, (k - 0x1000) / 16) else none)
  else if 0x2000 ≤ k && k < 0x3200 then (if k % 16 < 2 then some (pgVlt + k % 16, (k - 0x2000) / 16) else none)
  else none

/-- The half that serves a page (R510), if it is not a hub page. -/
def pageHalf (code inst : Nat) : Option Nat :=
  if isCorePage code then some (coreHalf inst)
  else if isVaultPage code then some (siteHalf inst)
  else if pgLedg ≤ code && code ≤ pgD2d then some inst
  else if code = pgFabp then some (portHalf inst)
  else if code = pgFarp then some (inst / 2)
  else none

/-- What an access to BAR0 meets. -/
inductive PageHit where
  /-- no request arrives: the link is down -/
  | lost
  /-- Unsupported Request -/
  | ur
  /-- nothing that answers: reads are 0, writes have no effect -/
  | absent
  /-- only BLK_ID answers (R503) -/
  | idOnly (code inst off : Nat)
  /-- the page's half is fenced (R387) -/
  | fenced
  | page (code inst off : Nat)
deriving DecidableEq, Repr

/-- A page's half is fenced, its requests not replayed yet (R387). -/
def State.pageFenced (s : State) (code inst : Nat) : Bool :=
  match s.abs.fence with
  | some f => decide (f.stage < 4) && pageHalf code inst = some f.half
  | none => false

/-- The core-island pages read as 0 while ADJOURNED (R424), and those of the mesh island as well while HALTED (R426, R427). -/
def State.pageAsleep (s : State) (code inst : Nat) : Bool :=
  (pageHalf code inst).isSome && ((s.boot.state = .adjourned && code != pgMesh) || s.boot.state = .halted)

/-- A page of a DISABLED logical core or physical vault (R503). -/
def State.pageDisabled (s : State) (code inst : Nat) : Bool :=
  if isCorePage code then (smFind s.boot.coreSite inst).isNone
  else isVaultPage code && (s.vault inst).role = .disabled

/-- While no firmware image is accepted, only these pages answer (R486). -/
def romPage (code : Nat) : Bool := code = pgDir || code = pgIdent || code = pgStw || code = pgSec || code = pgFuse

def State.romOnly (s : State) : Bool := s.boot.state = .boot && s.sec.image = 2

/-- An access of a function to a page's offset. -/
def State.hitPage (s : State) (fn code inst off : Nat) : PageHit :=
  if isHostFn fn && !s.hostUp then .lost
  else if s.romOnly && !romPage code then .absent
  else if isVf fn && !(isCorePage code && (s.part (fn - 2)).cores.contains inst) then .ur
  else if s.pageFenced code inst || (isHostFn fn && s.spurCut && pageHalf code inst = some 1) then .fenced
  else if s.pageAsleep code inst then .absent
  else if s.pageDisabled code inst then .idOnly code inst off
  else .page code inst off

/-- An access of a function to a BAR0 offset: a VF's BAR0 holds the core pages of its partition's cores (R379). -/
def State.hitAt (s : State) (fn off : Nat) : PageHit :=
  if isVf fn then
    match (s.part (fn - 2)).cores[off / 65536]? with
    | none => if s.hostUp then .ur else .lost
    | some c => if off % 65536 / 4096 < 5 then s.hitPage fn (pgClerk + off % 65536 / 4096) c (off % 4096) else if s.hostUp then .absent else .lost
  else
    match pageAt (off / 4096) with
    | some (code, inst) => s.hitPage fn code inst (off % 4096)
    | none => if isHostFn fn && !s.hostUp then .lost else .absent

/-! ### Values of the half pages -/

/-- The bank that a register of a page shows: the partition of the page's selector. -/
def State.bankOf (s : State) (code inst : Nat) : Nat :=
  if code = pgLedg then s.fld pgLedg inst 0 rLedgPartSel 5 0
  else if code = pgFore || code = pgPort then s.fld pgFore 0 0 rForePartSel 5 0
  else if code = pgRng then s.fld pgRng 0 0 rRngPartSel 5 0
  else if code = pgMesh then s.fld pgMesh inst 0 rMeshRegSel 5 0
  else if code = pgD2d then s.fld pgD2d inst 0 rD2dRegSel 5 0
  else if code = pgHost then s.fld pgHost 0 0 rHostRegSel 5 0
  else if code = pgFarp then s.fld pgFarp inst 0 rFarpRegSel 5 0
  else if code = pgStw then s.fld pgStw 0 0 rStwMirrorSel 5 0
  else 0

/-- The state a loom shows (LOOM_STATE): IDLE 0, FILLING 1, STREAMING 2, STALL_WEIGHT 3, STALL_SHELF 4, TREADLE 5,
RECOMPUTE 6. A loom with an order shows what the order does or waits for, one without shows the treadle that it runs (DESIGN
CHOICE, assumption 118). -/
def State.loomShown (s : State) (c i : Nat) : Nat :=
  let l := s.loom c i
  match s.loomCur c i with
  | none => if l.fixedBy.isSome || l.level != 0 then 5 else if l.ords.isEmpty then 0 else 2
  | some o =>
    match o.rows with
    | none => 1
    | some _ => if o.bad then 6 else if l.ords.any (·.pause) then 2 else if !o.begun then 4
      else if l.shadow.isNone && l.stage.isEmpty then 3 else 2

def State.loomState (s : State) (c : Nat) : Nat :=
  let x := s.core c
  let st (i : Nat) : Nat := s.loomShown c i <<< (4 * i)
  let used := (x.shelf.map List.length).foldl (· + ·) 0
  (16 - used) <<< 24 + st 3 + st 2 + st 1 + st 0

def State.elemState (s : State) (c : Nat) : Nat :=
  let e := (s.core c).eng
  let live := b2n e.carryLive <<< 24
  match e.runs with
  | [] => live
  | r :: _ => live + r.uops.length <<< 16 + b2n (!r.lanes.isEmpty) <<< 8
      + (if !r.lanes.isEmpty then 1 else if r.kinds.contains 1 && !r.unitOn then 2 else 1)

def State.tallyState (s : State) (c : Nat) : Nat :=
  match (s.core c).tally with
  | [] => 0
  | t :: _ => (t.rows.length % 128) <<< 8 + (t.op % 16) <<< 4 + (if t.closed then 3 else if t.isOrder then 2 else 1)

def State.clerkState (s : State) (c : Nat) : Nat :=
  let x := s.core c
  (x.rot % 4) <<< 24 + (x.lastOp % 256) <<< 16 + s.queueState c 3 <<< 12 + s.queueState c 2 <<< 8 + s.queueState c 1 <<< 4 + s.queueState c 0

/-- The attention sequencer (ATT_STATE): SELECT 2, EXACT 3, APPEND 5, BACKWARD 6. -/
def State.attState (s : State) (c : Nat) : Nat :=
  let x := s.core c
  match x.flights.find? (fun f => (f.op = 0x20 || f.op = 0x21 || f.op = 0x30) && !f.done) with
  | none => 0
  | some f =>
    if f.op = 0x30 then 5 else if f.op = 0x21 then 6
    else match x.jobs.find? (fun j => j.flight = f.id) with
    | some j => (j.phase % 512) <<< 8 + (if j.todo.isEmpty then 3 else 2)
    | none => 3

def VMode.code (m : VMode) : Nat := match m with | .memory => 0 | .bankCompute => 1 | .resealing => 2 | .retention => 3
def VRole.code (r : VRole) : Nat := match r with | .logical => 0 | .reserve => 1 | .orphan => 2 | .borrowed => 3 | .disabled => 4

def Vault.stateWord (v : Vault) : Nat :=
  v.mode.code <<< 30 + (v.band % 4) <<< 28 + b2n v.discard.isSome <<< 27 + b2n (!v.filling.isEmpty) <<< 26
    + (v.mb.length % 128) <<< 16 + (v.guests.length % 128) <<< 8 + v.wq.length % 128

def Vault.mapWord (v : Vault) : Nat :=
  v.role.code <<< 29 + (match v.part with | some p => 1 <<< 22 + (p % 64) <<< 16 | none => 0)
    + (if v.role = .logical || v.role = .borrowed || v.role = .orphan then v.logical % 256 else 0)

/-- VLT_ECC_STATE: banks with no unused spare row, spare rows in use, bucket level. -/
def Vault.eccWord (v : Vault) : Nat :=
  let out := ((List.range 128).filter (fun k => (v.freeSpare k).isNone)).length
  out <<< 24 + (min 4095 v.remap.length) <<< 12 + min 4095 v.bucket

def Vault.bankWord (v : Vault) : Nat :=
  b2n v.run.isSome <<< 31 + (min 4 v.progs.length) <<< 28 + (min 2048 v.changeUsed) <<< 16 + (v.grant % 64) <<< 8
    + (match v.run with | some r => r.units.length % 64 | none => 0)

/-- The half that holds a partition's lead replica (R255), or the one that has taken over from a fenced half. -/
def State.leadHalf (s : State) (p : Nat) : Nat :=
  let h := coreHalf ((s.part p).cores.headD 0)
  if s.fencedHalf = some h then 1 - h else h

def PState.code (x : PState) : Nat :=
  match x with | .empty => 0 | .configured => 1 | .loaded => 2 | .serving => 3 | .quiesced => 4 | .resetting => 5

def Part.stsWord (x : Part) : Nat :=
  x.st.code <<< 29 + b2n x.nonrepro <<< 28 + b2n x.routeDep <<< 27 + (if x.running then x.set.length % 16384 else 0)

/-- PORT_STATE of a partition: what its porter orders do, and the rows of its DISPATCH orders. -/
def State.porterState (s : State) (p : Nat) : Nat :=
  let fs := (s.part p).cores.flatMap (fun c => (s.core c).flights.filter (fun f => opUnit f.op = .porter && !f.done))
  match fs with
  | [] => 0
  | f :: _ =>
    let rows := ((fs.filter (fun f => f.op = 0x40)).map (fun f => (dispFields f.ord).n)).foldl (· + ·) 0
    (if f.op = 0x40 then 2 else if bit (ordW f.ord 4) 0 then 4 else 3) <<< 28 + rows % 65536

def ModSt.code (m : ModSt) : Nat := match m with | .up => 0 | .disabled => 1 | .training => 2 | .failed => 3
def PortSt.code (x : PortSt) : Nat :=
  match x with | .down => 0 | .laserWait => 1 | .ringLock => 2 | .align => 3 | .up => 4 | .upHalf => 5 | .failed => 6
def FarSt.code (x : FarSt) : Nat :=
  match x with | .down => 0 | .training => 1 | .up => 2 | .upDegraded => 3 | .failed => 4 | .absent => 5

def FPort.stateWord (x : FPort) : Nat :=
  x.st.code <<< 28 + x.lanes.toNat <<< 12 + b2n x.cold <<< 11 + (x.peerPort % 8) <<< 6 + x.peerDev % 64

/-- What a register of a half page shows that the state holds elsewhere. -/
def State.halfLive (s : State) (code inst bank off : Nat) : Option Nat :=
  if code = pgLoom then (if off = rLoomState then some (s.loomState inst) else none)
  else if code = pgElem then (if off = rElemState then some (s.elemState inst) else none)
  else if code = pgTally then (if off = rTallyState then some (s.tallyState inst) else none)
  else if code = pgClerk then
    if off = rClerkState then some (s.clerkState inst)
    else if rClerkQPtr ≤ off && off < rClerkQPtr + 16 then some ((s.queue inst ((off - rClerkQPtr) / 4)).index % 65536)
    else if rClerkSregn ≤ off && off < rClerkSregn + 512 then some (s.sreg inst ((off - rClerkSregn) / 8)).toNat
    else if rClerkCtrn ≤ off && off < rClerkCtrn + 256 then some (s.ctr inst ((off - rClerkCtrn) / 4)).toNat
    else none
  else if code = pgVlt then
    let v := s.vault inst
    if off = rVltState then some v.stateWord
    else if off = rVltMap then some v.mapWord
    else if off = rVltTemp then some ((v.sensor % 128) <<< 16 + v.temp.toNat)
    else if off = rVltEccState then some v.eccWord
    else if off = rVltScrubPtr then some (b2n v.scrubWrapped <<< 31 + v.scrub % 8388608)
    else none
  else if code = pgBank then (if off = rBankState then some (s.vault inst).bankWord else none)
  else if code = pgAtt then (if off = rAttState then some (s.attState inst) else none)
  else if code = pgLedg then
    if off = rLedgState then some (((if inst = 0 then s.ledgA else s.ledgB).filter (fun e => e.2.st != .free)).length)
    else if off = rLedgPartUsed then some (s.ledgUsed bank)
    else none
  else if code = pgBook then
    if off = 0x044 then some (min 2097151 ((s.book.filter (fun e => e.2.live && e.1 / 2097152 = inst)).length)) else none
  else if code = pgFore then
    let x := s.part bank
    if off = rForeState then
      some (s.leadHalf bank <<< 24 + (s.parts.filter (fun e => decide (e.2.st = .serving))).length)
    else if off = rForePartSts then some x.stsWord
    else if off = rForeReqPtr then some x.reqHead
    else if off = rForeTokPtr then some x.tokTail
    else if off = rForeAdmPtr then some ((s.acqTail % 8192) <<< 16 + s.admHead % 8192)
    else if off = rForeTime then some s.timeUs
    else none
  else if code = pgPort then (if off = rPortState then some (s.porterState bank) else none)
  else if code = pgMesh then
    (if off = rMeshState then some (b2n (s.mesh inst).fault <<< 31 + (s.mesh inst).site % 256) else none)
  else if code = pgD2d then
    if off = rD2dMod then some ((List.range 16).foldl (fun a m => a + (s.d2d.getD m {}).st.code <<< (2 * m)) 0)
    else if off = rD2dState then some (b2n (s.fencedHalf = some (1 - inst)) <<< 31 + s.modsUp)
    else none
  else if code = pgFabp then
    let x := s.fport inst
    if off = rFabpState then some x.stateWord
    else if off = rFabpTemp then some (x.die.toNat <<< 16 + x.lift.toNat)
    else none
  else if code = pgFarp then
    let x := s.farPort inst
    if off = rFarpState then some (x.st.code <<< 28 + (x.width % 32) <<< 8 + b2n x.flit256)
    else if off = rFarpCap then some (x.cap % 8192)
    else none
  else none

/-- Counters of clock cycles, and a counter that needs them, which the model does not run: once what they count can have come
they read as free values, and as their reset value 0 before (DESIGN CHOICE, assumption 70): before a vault transfers, a bank
program runs or a request waits, a loom has an order, the element engine a RECIPE and the clerk an order or a queue that runs. A
stored 1 says of a regulator's or the host link's hold counter that it can have counted. -/
def State.untimed (s : State) (code inst bank off : Nat) : Bool :=
  let some_ (off : Nat) : Bool := s.reg code inst bank off != 0
  if code = pgVlt && off = rVltBusy then some_ rVltRdLines || some_ rVltWrLines
  else if code = pgBank && off = rBankTokenCyc then some_ rBankPrograms
  else if code = pgBank && off = rBankHoldMax then some_ rBankGuestHeld
  else if code = pgLoom && (off = rLoomStallWeight || off = rLoomStallShelf) then
    some_ rLoomRows || some_ rLoomSkippedRows || (s.core inst).looms.any (fun l => !l.ords.isEmpty)
  else if code = pgElem && (off = rElemStallIn || off = rElemStallOut) then some_ rElemGroups || !(s.core inst).eng.runs.isEmpty
  else if code = pgClerk && (off = rClerkWaitCyc || off = rClerkUnitFullCyc) then
    some_ rClerkOrders || (s.core inst).qs.any (·.running)
  else ((code = pgMesh && off = rMeshHeldCyc) || (code = pgD2d && off = rD2dHeldCyc) || (code = pgHost && off = rHostHeldCyc)
    || (code = pgFarp && off = rFarpHeldCyc)) && some_ off

/-- Bits of a register that reads show: all but those of WO fields and of reserved ones (R7). -/
def RegDef.shown (d : RegDef) (v : Nat) : Nat :=
  d.fields.foldl (fun a f => if f.acc = .wo then a else a + bits v f.hi f.lo <<< f.lo) 0

/-- Where the register starts whose first byte or high half stands at an offset. -/
def regStart (code off : Nat) : Option (RegDef × Nat) :=
  match regFind code off with
  | some d => some (d, off)
  | none =>
    match (if off ≥ 4 then regFind code (off - 4) else none) with
    | some d => if d.wide then some (d, off - 4) else none
    | none => none

/-- What a word of the common header reads as (R505). -/
def State.headWord (s : State) (code inst off : Nat) : Nat :=
  let r (o : Nat) : Nat := (s.reg code inst 0 o).toNat
  if off = hId then code <<< 24 + inst % 512
  else if off = hVer then 0x100
  else if off = hCap then (if code = pgElem then 24 <<< 14 + 10 <<< 8 + s.boot.lanes % 256 else 0)
  else if off = hSts then bits (r hSts) 31 30 <<< 30 + b2n (r hErr != 0) <<< 29 + b2n (r hIntSts &&& r hIntEn != 0) <<< 28
  else if off = hErr || off = hClamp || off = hRefuse || off = hIntEn || off = hIntSts then r off % 4294967296
  else 0

/-- The value of the register that starts at an offset, by a page's own values: 64 bits. -/
def State.startWord (s : State) (live : State → Nat → Nat → Nat → Nat → Option Nat) (code inst off : Nat) (d : RegDef) : State × Nat :=
  let bank := if d.banked || (code = pgFore && off = rForeState) then s.bankOf code inst else 0
  if s.untimed code inst bank off then (s.freeUsed, d.shown s.freeVal.toNat)
  else match live s code inst bank off with
  | some v => (s, d.shown v)
  | none => (s, d.shown (s.reg code inst bank off).toNat)

/-- A 4 B read of a page, latches aside. -/
def State.word4 (s : State) (live : State → Nat → Nat → Nat → Nat → Option Nat) (code inst off : Nat) : State × Nat :=
  if off < 0x40 then (s, s.headWord code inst off)
  else match regStart code off with
  | none => (s, 0)
  | some (d, o) =>
    let (s1, v) := s.startWord live code inst o d
    (s1, if o = off then v % 4294967296 else v / 4294967296)

/-! ### Reads (R502) -/

/-- The latch of a function for a page. -/
def latchKey (fn code inst : Nat) : Nat := (fn * 256 + code) * 512 + inst

def State.dropLatch (s : State) (fn code inst : Nat) : State := { s with latch := smErase s.latch (latchKey fn code inst) }

/-- A 4 B read by a function: the low half of a 64-bit register latches its high half, which the function's next read
returns if it makes no other access to the page in between. -/
def State.read4 (s : State) (live : State → Nat → Nat → Nat → Nat → Option Nat) (fn code inst off : Nat) : State × Nat :=
  let k := latchKey fn code inst
  let held := smFind s.latch k
  let s0 := s.dropLatch fn code inst
  match regFind code off with
  | some d =>
    if d.wide then
      let (s1, v) := s0.startWord live code inst off d
      ({ s1 with latch := smPut s1.latch k (off + 4, BitVec.ofNat 64 (v / 4294967296)) }, v % 4294967296)
    else s0.word4 live code inst off
  | none =>
    match held with
    | some (o, v) => if o = off then (s0, v.toNat) else s0.word4 live code inst off
    | none => s0.word4 live code inst off

/-- An aligned read of 4 B or 8 B: 8 B of a 64-bit register are read at once, any other 8 B as two reads of 4 B. -/
def State.readPage (s : State) (live : State → Nat → Nat → Nat → Nat → Option Nat) (fn code inst off : Nat) (wide : Bool) : State × Nat :=
  if !wide then s.read4 live fn code inst off
  else match regFind code off with
  | some d =>
    if d.wide then (s.dropLatch fn code inst).startWord live code inst off d
    else
      let (s1, a) := s.read4 live fn code inst off
      let (s2, b) := s1.read4 live fn code inst (off + 4)
      (s2, a + b * 4294967296)
  | none =>
    let (s1, a) := s.read4 live fn code inst off
    let (s2, b) := s1.read4 live fn code inst (off + 4)
    (s2, a + b * 4294967296)

/-- The same where only BLK_ID answers. -/
def idRead (code inst off : Nat) : Nat := if off = hId then code <<< 24 + inst % 512 else 0

/-! ### Writes of the common header (R505 to R507) -/

/-- The interrupt bits that a page's chapter gives. -/
def intBits (code : Nat) : Nat := if code = pgVlt then 7 else if code = pgThm then 15 else if code = pgStw then 3 else 0

def State.clearCounts (s : State) (code inst : Nat) : State := (s.setReg code inst 0 hClamp 0).setReg code inst 0 hRefuse 0

/-- A page's interrupt bits are forced (R507). -/
def State.intForce (s : State) (code inst v : Nat) : State := s.setInt code inst (v &&& intBits code)

def State.writeHead (s : State) (code inst off v : Nat) : State :=
  let r (o : Nat) : Nat := (s.reg code inst 0 o).toNat
  if off = hCtl then (if bit v 31 then s.clearCounts code inst else s)
  else if off = hSts then s.setReg code inst 0 hSts (BitVec.ofNat 64 (r hSts &&& (bits v 31 30 <<< 30)))
  else if off = hErr then s.setReg code inst 0 hErr (BitVec.ofNat 64 (r hErr &&& (v % 4294967296)))
  else if off = hIntEn then s.setIntRegs code inst (r hIntSts) (v &&& intBits code)
  else if off = hIntSts then s.setIntRegs code inst (r hIntSts &&& (4294967295 - v % 4294967296)) (r hIntEn)
  else if off = hIntForce then s.intForce code inst v
  else s

/-! ### Writes of the half pages -/

/-- The partition of a vault, or of a core, is SERVING. -/
def State.servingPart (s : State) (p : Option Nat) : Bool :=
  match p with | some p => (s.part p).st = .serving | none => false

/-- The window of a core's KV frames holds a page of the ledger (R254). -/
def State.windowHeld (s : State) (c : Nat) : Bool :=
  let base := s.fld pgAtt c 0 rAttKvwin 14 0
  let n := s.fld pgAtt c 0 rAttKvwin 31 16
  s.ledgAll.any (fun e => e.2.isNear && e.2.vault = c && decide (base ≤ e.2.frame) && decide (e.2.frame < base + n))

/-- Registers that a write through PF0 does not reach: the admin ring's (R297), the mailbox's (R514), and those of management
sessions (R500). -/
def pf1Only (code off : Nat) : Bool :=
  (code = pgFore && (off = rForeAdmBase || off = rForeAcqBase || off = rForeAdmCfg))
    || (code = pgStw && (off = rStwMboxCmd || (rStwMboxArgn ≤ off && off < rStwMboxArgn + 32) || 0x800 ≤ off))
    || (code = pgSec && (off = rSecSvnCommit || off = rSecSession || off = rSecSpdmAlg || (rSecRespn ≤ off && off < rSecRespn + 32)))

/-- An access, at the register's start or its high half, to a register of PF1 alone. -/
def pf1Access (code off : Nat) : Bool := match regStart code off with | some (_, o) => pf1Only code o | none => pf1Only code off

/-- A write that has no effect and counts as a refusal: of a half page. -/
def State.halfRefuses (s : State) (code inst bank off : Nat) : Bool :=
  if code = pgClerk then
    s.servingPart (s.partOfCore inst) && (off = rClerkCfg || (rClerkQBase ≤ off && off < rClerkQPtr)
      || (rClerkSregn ≤ off && off < rClerkSregn + 512))
  else if code = pgVlt then
    off = rVltDiscard && (s.servingPart (s.vault inst).part || (s.vault inst).discard.isSome || (s.vault inst).mode != .memory)
  else if code = pgBank then off = rBankCfg && ((s.vault inst).mode != .memory || !(s.vault inst).progs.isEmpty)
  else if code = pgAtt then off = rAttKvwin && (s.servingPart (s.partOfCore inst) || s.windowHeld inst)
  else if code = pgFore then
    (off = rForeReqBase || off = rForeReqCfg || off = rForeTokBase || off = rForeTokCfg || off = rForeStepAddr)
      && (s.part bank).st = .serving
  else if code = pgFabp then off = rFabpCfg && (s.fport inst).st != .down
  else if code = pgFarp then
    off = rFarpCfg && s.ledgAll.any (fun e => (e.2.st = .far || (e.2.st = .moving && !e.2.toFar)) && e.2.vault = inst)
  else false

/-- Clamps of half pages that no range of one field says: shelf quotas (R88), the order stream's space and start, the KV
window, and the ties of the serving registers. `w` is the value written, `v` that after its fields' ranges. -/
def halfTies (code off w v : Nat) : Nat × Nat :=
  if code = pgLoom && off = rLoomShelf then
    let q (i : Nat) : Nat := bits w (4 * i + 3) (4 * i)
    if (List.range 4).all (fun i => 1 ≤ q i && q i ≤ 13) && q 0 + q 1 + q 2 + q 3 = 16 then (v, 0) else (0x4444, 1)
  else if code = pgClerk && rClerkQBase ≤ off && off < rClerkQSpan then
    if bits v 63 60 > 1 then (setBits v 63 60 1, 1) else (v, 0)
  else if code = pgClerk && rClerkQSpan ≤ off && off < rClerkQPtr then
    if bits v 31 16 > bits v 15 0 then (setBits v 31 16 (bits v 15 0), 1) else (v, 0)
  else if code = pgAtt && off = rAttKvwin then
    let room := 32768 - bits v 14 0
    if bits v 31 16 > room then (setBits v 31 16 room, 1) else (v, 0)
  else fieldTies code off w v

/-- The stored value after a write: RW and WO fields take the value written within their range, W1C fields lose the bits
written 1, every other bit stands; and the fields clamped. -/
def RegDef.takes (d : RegDef) (old new : Nat) : Nat × Nat :=
  d.fields.foldl (fun (acc : Nat × Nat) f =>
    let v := bits new f.hi f.lo
    match f.acc with
    | .rw => (setBits acc.1 f.hi f.lo (clampNat f.min f.max v), acc.2 + b2n (clampNat f.min f.max v != v))
    | .w1c => (setBits acc.1 f.hi f.lo (bits old f.hi f.lo &&& (2 ^ (f.hi + 1 - f.lo) - 1 - v)), acc.2)
    | _ => acc) (old, 0)

/-- A discard is accepted (R191, R192): its range is cleared of data and of what was accepted before, and what addresses it
waits until the discard is done. -/
def State.discardStart (s : State) (p w : Nat) : State :=
  let first := bits w 17 0
  let n := bits w 50 32
  let c := min (clampNat 1 262144 n) (262144 - first)
  (s.clearRange p first c).modVault p (fun v => { v with discard := some (first, c) }) |>.noteClamps pgVlt p (b2n (c != n))

/-- A port's enable is written: it is miscabled no longer, and trains where it may (R351, R447). -/
def State.portWritten (s : State) (n : Nat) : State :=
  let s1 := s.modFport n (fun x => { x with miscabled := false })
  if s1.portTrains n then s1.modFport n (fun x => { x with st := .laserWait }) else s1

/-- A whole register of a half page is written. -/
def State.writeHalf (s : State) (code inst off w : Nat) : State :=
  match regFind code off with
  | none => s
  | some d =>
    let bank := if d.banked then s.bankOf code inst else 0
    if s.halfRefuses code inst bank off then s.noteRefuse code inst
    else if code = pgVlt && off = rVltDiscard then s.discardStart inst w
    else if code = pgClerk && rClerkSregn ≤ off && off < rClerkSregn + 512 then
      s.setSreg inst ((off - rClerkSregn) / 8) (BitVec.ofNat 64 w)
    else
      let (v0, k0) := d.takes (s.reg code inst bank off).toNat w
      let (v1, k1) := halfTies code off w v0
      let s1 := (s.setReg code inst bank off (BitVec.ofNat 64 v1)).noteClamps code inst (k0 + k1)
      if code = pgClerk && rClerkQBase ≤ off && off < rClerkQSpan then
        s1.modQueue inst ((off - rClerkQBase) / 8) (fun q => { q with buf := [] })
      else if code = pgFabp && off = rFabpCfg then s1.portWritten inst
      else if code = pgFarp && off = rFarpCfg then s1.farWritten inst (s.farEnabled inst)
      else s1

/-- The low 32 bits that a register holds. -/
def State.lowHalf (s : State) (code inst bank off : Nat) : Nat :=
  (if code = pgClerk && rClerkSregn ≤ off && off < rClerkSregn + 512 then (s.sreg inst ((off - rClerkSregn) / 8)).toNat
    else (s.reg code inst bank off).toNat) % 4294967296

/-- A write that would be refused now: of a half page. -/
def State.halfDenies (s : State) (code inst off : Nat) : Bool :=
  match regFind code off with
  | some d => s.halfRefuses code inst (if d.banked then s.bankOf code inst else 0) off
  | none => false

/-- A 4 B write: the low half of a 64-bit register is staged, and a write of its high half applies both (R502). A half of a
write that is refused now has no effect but the refusal (R10). -/
def State.write4 (s : State) (apply : State → Nat → Nat → Nat → Nat → State) (deny : State → Nat → Nat → Nat → Bool)
    (code inst off v : Nat) : State :=
  let k := regKey code (regInst code inst) 0
  if off < 0x40 then s.writeHead code inst off v
  else match regStart code off with
  | none => s
  | some (d, o) =>
    if !d.wide || deny s code inst o then apply s code inst o v
    else if o = off then { s with staged := smPut s.staged (k o) (BitVec.ofNat 64 v) }
    else
      let low := match smFind s.staged (k o) with
        | some x => x.toNat
        | none => s.lowHalf code inst (if d.banked then s.bankOf code inst else 0) o
      apply { s with staged := smErase s.staged (k o) } code inst o (low + v * 4294967296)

/-- An aligned write of 4 B or 8 B: 8 B of a 64-bit register are written at once, any other 8 B as two writes of 4 B. -/
def State.writePage (s : State) (apply : State → Nat → Nat → Nat → Nat → State) (deny : State → Nat → Nat → Nat → Bool)
    (fn code inst off : Nat) (wide : Bool) (v : Nat) : State :=
  let s0 := s.dropLatch fn code inst
  let two : State := (s0.write4 apply deny code inst off (v % 4294967296)).write4 apply deny code inst (off + 4) (v / 4294967296 % 4294967296)
  if !wide then s0.write4 apply deny code inst off (v % 4294967296)
  else match regFind code off with
  | some d => if d.wide then apply s0 code inst off v else two
  | none => two

/-! ### Accesses that waited for a fenced half (R387) -/

/-- The number by which held accesses to a register page are told from those to a logical vault. -/
abbrev heldReg := 1000

/-- A held register read is answered. -/
def State.regReadHeld (s : State) (fn tag off len : Nat) : State :=
  match s.hitAt fn off with
  | .page code inst o =>
    let (s1, v) := s.readPage State.halfLive fn code inst o (len = 8)
    s1.emit (.data fn tag (BitVec.ofNat 64 v))
  | .idOnly code inst o => s.emit (.data fn tag (BitVec.ofNat 64 (idRead code inst o)))
  | .ur => s.emit (.cpl fn tag 1)
  | .fenced => s.emit (.cpl fn tag 2)
  | _ => s.emit (.data fn tag 0)

/-- A held register write of a function is replayed. -/
def State.regWriteHeld (s : State) (fn off : Nat) (bs : List Byte) : State :=
  match pageAt (off / 4096) with
  | none => s
  | some (code, inst) =>
    if s.pageDisabled code inst || (fn = 0 && pf1Access code (off % 4096)) then s
    else s.writePage State.writeHalf State.halfDenies fn code inst (off % 4096) (bs.length = 8) (leNat bs)

end Sys2Proof.Machine
end

