-- ==== Sys2Proof/Machine/Watch.lean ====
section
/-! DEFINITION. Refresh bands and watchman refresh (R194, R195, R224, R225, R409). -/

namespace Sys2Proof.Machine

/-! ### Sensors and bands -/

/-- The last readings of the 352 sensors by device number (R409, R410), in 1/16 °C; an absent one is 0. -/
def State.reading (s : State) (n : Nat) : Int := (s.thm.hist.headD []).getD n 0

/-- BROKEN (R411). -/
def State.broken (s : State) (n : Nat) : Bool := smGet 0 s.thm.status n = 2

/-- The lower bound of a band above 0, in 1/16 °C (R195). -/
def bandLower (b : Nat) : Int := if b = 1 then 1360 else if b = 2 then 1520 else 1680

/-- The band of a temperature, without hysteresis. -/
def bandAt (t : Int) : Nat := if t ≤ 1360 then 0 else if t ≤ 1520 then 1 else if t ≤ 1680 then 2 else 3

/-- A band rises at once, and falls by one where the temperature lies at least 4 °C below its lower bound (R194). -/
def nextBand (b : Nat) (t : Int) : Nat :=
  if bandAt t > b then bandAt t else if b > 0 && decide (t ≤ bandLower b - 64) then b - 1 else b

/-- The highest reading of a stack's 128 DRAM-layer sensors; one that does not answer counts as 106 °C (R224). -/
def State.stackTop (s : State) (half : Nat) : Int :=
  (List.range 128).foldl (fun m i =>
    let n := 176 * half + 48 + i
    max m (if s.broken n then 1696 else s.reading n)) (-640)

/-! ### The watchman (R224, R225) -/

/-- The physical vaults of a half. -/
def halfVaults (half : Nat) : List Nat := (List.range 144).map (fun i => 144 * (half % 2) + i)

/-- The watchman takes over every vault of a stack: items in progress stop there. -/
def State.watchOn (s : State) (half : Nat) : State :=
  let t := s.stackTop half
  (halfVaults half).foldl (fun s p =>
    let v := s.vault p
    if v.watchman.isSome then s
    else
      let stop (r : BankRun) : BankRun := if r.units.isEmpty then r else { r with units := [], stopped := true }
      (s.setVault p { v with mode := .retention, watchman := some (nextBand v.band t), run := v.run.map stop }).bump pgBank p 0
        rBankWatchman 1) s

/-- The shells resume: the watchman stops, and each vault goes to RESEALING or MEMORY. -/
def State.watchOff (s : State) (half : Nat) : State :=
  (halfVaults half).foldl (fun s p =>
    let v := s.vault p
    if v.watchman.isNone then s
    else if !v.change.isEmpty || v.changeLost then s.setVault p { v with watchman := none, mode := .resealing }
    else (s.setVault p { v with watchman := none }).memoryAgain p) s

/-- A program that was stopped in the middle of an item runs again from its first item, or its order loses its data (R225). -/
def State.rerunStopped (s : State) (p : Nat) : State :=
  match (s.vault p).run with
  | some r => if r.stopped && (s.vault p).mode = .memory then s.stopProgram p { r with stopped := false } r.prog.idem else s
  | none => s

def execWatchmanTakeover (half : Nat) (s : State) : Host.Outcome State Fault Refusal :=
  .next (reachOrder.take s (if half < 2 then s.watchOn half else s))

/-- The watchman hands back; stopped programs whose vault is in MEMORY go on at once, the others after their re-seal. -/
def execWatchmanHandback (half : Nat) (s : State) : Host.Outcome State Fault Refusal :=
  .next (reachOrder.take s (
    if half ≥ 2 then s
    else (halfVaults half).foldl (fun s p => if s.fencedHalf = some half then s else s.rerunStopped p) (s.watchOff half)))

/-- The watchman reselects the band of a stack in RETENTION. -/
def execWatchmanBandSelect (half : Nat) (s : State) : Host.Outcome State Fault Refusal :=
  .next (reachVault.take s (
    if half ≥ 2 then s
    else
      let t := s.stackTop half
      (halfVaults half).foldl (fun s p => match (s.vault p).watchman with
        | some b => s.modVault p (fun v => { v with watchman := some (nextBand b t) })
        | none => s) s))

end Sys2Proof.Machine
end

