-- ==== Sys2Proof/Machine/Absorb.lean ====
section
/-! DEFINITION. Losing a half: the fence, the rejoin stages, escalation and retraining (R348, R387, R464 to R468, R480). -/

namespace Sys2Proof.Machine

def State.setFence (s : State) (f : Option Fence) : State := { s with abs := { s.abs with fence := f } }

/-- The copy of the stream roll and of the ledger in a half is written from the other half's (R241, R268). -/
def State.syncTables (s : State) (half : Nat) : State :=
  if half = 0 then { s with rollA := s.rollB, ledgA := s.ledgB } else { s with rollB := s.rollA, ledgB := s.ledgA }

/-- The partitions with a core in a half. -/
def State.partsIn (s : State) (half : Nat) : List Nat :=
  (s.parts.filter (fun e => e.2.cores.any (fun c => coreHalf c = half))).map (·.1)

/-- Mioquin ports of a half. -/
def halfPorts (half : Nat) : List Nat := (List.range 8).filter (fun n => portHalf n = half)

/-- The steps of partitions with a core in the lost half are abandoned; a spanning partition ends (R454, R465). -/
def State.fenceParts (s : State) (ps : List Nat) : State :=
  ps.foldl (fun s p =>
    if (s.part p).st = .resetting then s
    else if s.spans p then s.endSpanning p
    else (s.abandonStep p).holdPart p) s

/-- A half is fenced (R348, R465). -/
def State.fenceNew (s : State) (half : Nat) (sramLost : Bool) : State :=
  let ps := s.partsIn half
  let f : Fence := { half := half, since := s.timeUs, stage := 0, escalated := false, sramLost := sramLost, parts := ps, msgs := [], orders := [] }
  let s1 := { s with abs := { s.abs with fence := some f, fenceUs := 0, lastHalf := half } }
  let s2 := (((s1.bump pgStw 0 0 rStwFences 1).setErr pgD2d (1 - half) 2).log 0x13 { core := 128 * half }).fenceParts ps
  (halfPorts half).foldl (fun s n => s.portDown n) s2

/-- The ports of a half that may train again do so. -/
def State.portsTrain (s : State) (half : Nat) : State :=
  (halfPorts half).foldl (fun s n =>
    if s.portTrains n then s.modFport n (fun p => if p.st = .down then { p with st := .laserWait } else p) else s) s

/-- The half that seemed lost survives after all: its tables, its ports and its partitions are its own again (R464). -/
def State.fenceOff (s : State) (f : Fence) : State :=
  f.parts.foldl (fun s p => s.castFree p) (((s.syncTables f.half).setFence none).portsTrain f.half)

/-- A half is lost (R464). Where the other half was fenced within the same 1 ms, half A survives; where neither can survive,
a device reset is asked for (R468), which the next housekeeping round lets begin (R428; DEDUCED, assumption 79). -/
def State.fenceHalf (s : State) (half : Nat) (sramLost : Bool) : State :=
  match s.abs.fence with
  | none => s.fenceNew half sramLost
  | some f =>
    if f.half = half then s.setFence (some { f with sramLost := f.sramLost || sramLost })
    else if !f.escalated && s.timeUs < f.since + 1000 then
      (if half = 0 then s else (s.fenceOff f).fenceNew 1 sramLost)
    else { s with boot := { s.boot with resetRequested := true } }

/-! ### The rejoin (R467) -/

/-- The fence is at a rejoin stage that a half whose SRAM survived goes through, the stages before it done. -/
def State.atStage (s : State) (k : Nat) : Option Fence :=
  match s.abs.fence with
  | some f => if f.stage + 1 = k && !f.escalated && !f.sramLost then some f else none
  | none => none

/-- The rails of a half are on again (R523). -/
def State.railsUp (s : State) (half : Nat) : State :=
  { s with boot := { s.boot with rails := s.boot.rails.mapIdx (fun i on => on || i % 2 = half) } }

/-- Stage 1: the half restarts, and its routers pass their self-test. The reset of the core island leaves the routers' state
(R15, R341). -/
def execRejoinRestart (s : State) : Host.Outcome State Fault Refusal :=
  .next (reachLink.take s (
    match s.atStage 1 with
    | none => s
    | some f => (s.railsUp f.half).setFence (some { f with stage := 1 })))

/-- Every module that has not FAILED, and the host spur, train. -/
def State.trainLinks (s : State) : State :=
  ({ s with d2d := s.d2d.map (fun (m : D2dMod) => if m.st = ModSt.failed || m.st = ModSt.up then m else m.retrained),
            host := { s.host with spur := true } }).checkState

/-- Stage 2: vault interfaces, modules and host spur train. -/
def execRejoinTrain (s : State) : Host.Outcome State Fault Refusal :=
  .next (reachLink.take s (
    match s.atStage 2 with
    | none => s
    | some f => s.trainLinks.setFence (some { f with stage := 2 })))

/-- A vault's shell is restored: the watchman hands back, flagged lines are re-sealed, a program in progress stops and runs
again or is lost, and the write queue and merge buffer drain (R199, R223 to R225). -/
def State.shellRestore (s : State) (p : Nat) : State :=
  let v := s.vault p
  let ls := if v.changeLost then v.flags else v.flags.filter (fun l => v.change.contains (l / 2))
  let s1 := (s.setVault p { v.reseal ls with mode := .memory, watchman := none, change := [], changeLost := false }).bump pgBank p 0
    rBankResealPairs (if v.changeLost then (v.flags.map (· / 2)).eraseDups.length else v.change.length)
  let s2 := if v.changeLost then s1.setErr pgBank p 3 else s1
  let s3 := match v.run with
    | some r => s2.stopProgram p { r with stopped := false, units := [] } r.prog.idem
    | none => s2
  (s3.drainVault p).memoryAgain p

/-- Stage 3: shell restore. -/
def execRejoinShellRestore (s : State) : Host.Outcome State Fault Refusal :=
  .next (reachLink.take s (
    match s.atStage 3 with
    | none => s
    | some f =>
      let s1 := (halfVaults f.half).foldl (fun s p => if (s.vault p).role = .disabled then s else s.shellRestore p) s
      match s1.abs.fence with
      | some g => s1.setFence (some { g with stage := 3 })
      | none => s1))

/-- Token records that waited for the replay are written; those that wait for a mirror stay. -/
def State.releaseRecs (s : State) : State :=
  ((s.abs.heldRecs.map (fun r => (r.1, r.2.1))).eraseDups).foldl (fun s k => s.tokRelease k.1 k.2) s

/-- A buffered host write is replayed with the snap tag of its acceptance (R377, R387). -/
def State.replayWrite (s : State) (fn l a : Nat) (bs : List Byte) (tag : Bool) : State :=
  let s1 := if tag = s.fab.snapTag then s else s.snapOld l a bs
  s1.hostPut fn l a bs

/-- Stage 4: held table updates, requests, host writes and reads, and fabric messages are replayed, each in the order of its
acceptance. -/
def execRejoinReplay (s : State) : Host.Outcome State Fault Refusal :=
  .next (reachLink.take s (
    match s.atStage 4 with
    | none => s
    | some f =>
      let s1 := (s.syncTables f.half).setFence (some { f with stage := 4, msgs := [], orders := [] })
      let s2 := (({ s1 with host := { s1.host with posted := [], reads := [] } }).d2dReplay (1 - f.half)).packetsGo (1 - f.half)
      let s3 := f.orders.foldl (fun s o => (s.modFlight o.1 o.2 (fun x => { x with replayed := true })).xferRetry o.1 o.2) s2.releaseRecs
      let s4 := s.host.posted.foldl (fun s w => if w.1 = heldReg then s.regWriteHeld w.2.2.2.2 w.2.1 w.2.2.1
        else s.replayWrite w.2.2.2.2 w.1 w.2.1 w.2.2.1 w.2.2.2.1) s3
      let s5 := s.host.reads.foldl (fun s r => if r.2.2.1 = heldReg then s.regReadHeld r.1 r.2.1 r.2.2.2.1 r.2.2.2.2.1
        else s.hostReadTry r.1 r.2.1 r.2.2.1 r.2.2.2.1 r.2.2.2.2.1) s4
      f.msgs.foldl (fun s m => s.heldMsg m) s5))

/-- Stage 5: the cores of the lost half's partitions return to their step marks, and the lost half's cores get their
stockroom placements again. -/
def execRejoinCoreRestore (s : State) : Host.Outcome State Fault Refusal :=
  .next (reachLink.take s (
    match s.atStage 5 with
    | none => s
    | some f =>
      let s1 := f.parts.foldl (fun s p =>
        let lost := (s.part p).cores.filter (fun c => coreHalf c = f.half)
        let marks := lost.map (fun c => (c, (s.core c).mark))
        let s' := (s.haltCores lost).idleToMark p
        marks.foldl (fun s m => ((s.modCore m.1 (fun x => { x with mark := m.2 })).toMark m.1).placeStock m.1) s') s
      match s1.abs.fence with
      | some g => s1.setFence (some { g with stage := 5 })
      | none => s1))

/-- The fence is lifted: its duration stands, the half's ports train, and the tables agree. -/
def State.unfence (s : State) (f : Fence) : State :=
  let s1 := (s.syncTables f.half).setFence none
  let s2 := { s1 with abs := { s1.abs with fenceUs := min 1048575 (s.timeUs - f.since) } }
  (s2.portsTrain f.half).log 0x14 { core := 128 * f.half }

/-- Stage 6: the lead replicas return and the held steps start. -/
def execRejoinResume (s : State) : Host.Outcome State Fault Refusal :=
  .next (reachLink.take s (
    match s.atStage 6 with
    | none => s
    | some f => f.parts.foldl (fun s p => (s.castFree p).stepStart p) (s.unfence f)))

/-! ### Escalation (R468, R480) -/

/-- The transfer id of a held fabric message. -/
def heldId (m : FMsg) : Nat := if m.ty = 0x01 then putId m else if m.ty = 0x02 then bits m.info 49 38 else bits m.info 26 15

/-- Partitions with a core in the lost half cannot go on; a spanning one ends (R454, R468 step 3). -/
def State.escalateParts (s : State) (ps : List Nat) : State :=
  ps.foldl (fun s p => if (s.part p).st = .resetting then s else s.partLost p) s

/-- Castlings and migrations of a half are abandoned (R480). -/
def State.dropCasts (s : State) (half : Nat) : State :=
  let s1 := s.setCast half none
  { s1 with abs := { s1.abs with
      castWait := s1.abs.castWait.filter (fun r => coreHalf r.logical != half)
      migs := s1.abs.migs.filter (fun m => coreHalf m.logical != half) } }

/-- The loss escalates: the survivor's copies become sole, and what was held for the lost half ends. -/
def execHalfEscalate (s : State) : Host.Outcome State Fault Refusal :=
  .next (reachLink.take s (
    match s.abs.fence with
    | none => s
    | some f =>
      if f.escalated then s
      else
        let s1 := s.setFence (some { f with escalated := true, msgs := [], orders := [] })
        let s2 := ((s1.bump pgStw 0 0 rStwEscalations 1).log 0x15 { core := 128 * f.half }).checkState
        let s3 := (s2.releaseRecs.dropCasts f.half).escalateParts f.parts
        let s4 := { s3 with host := { s3.host with reads := [], posted := [] }, d2d := s3.d2d.map (fun (m : D2dMod) => { m with replay := [[], []] }),
                            meshA := { s3.meshA with packets := [] }, meshB := { s3.meshB with packets := [] } }
        let s5 := s.host.reads.foldl (fun s r => s.emit (.cpl r.1 r.2.1 2)) s4
        let s6 := f.orders.foldl (fun s o => s.failFlight o.1 o.2) s5
        let s7 := f.msgs.foldl (fun s m => s.sendAck m (heldId m) ackRefused) s6
        match s7.snap with
        | some x => ({ s7 with snap := none }).log 0x1B { part := x.part }
        | none => s7))

/-- An escalated half retrains, once a second (R468 step 5): where it comes back, its vaults hold nothing, its tables are
rewritten from the survivor's, and half_lost clears. Stockrooms that lost their supply hold no word that passes its ECC. -/
def execHalfRetrain (ok : Bool) (s : State) : Host.Outcome State Fault Refusal :=
  .next (reachLink.take s (
    match s.abs.fence with
    | none => s
    | some f =>
      if !f.escalated || !ok then s
      else
        let s1 := s.railsUp f.half
        let s2 := (halfVaults f.half).foldl (fun s p => s.modVault p (fun v => { v.clearValid 0 262144 with
          mode := .memory, watchman := none, run := none, progs := [], guests := [], held := [], clears := [], change := [], changeLost := false, flags := [] })) s1
        let cores := (List.range 128).map (fun i => 128 * f.half + i)
        let s3 := s2.haltCores cores
        let s4 := if f.sramLost then cores.foldl (fun s c =>
            if (smFind s.boot.coreSite c).isSome then s.modCore c (fun x => { x with stock := [], stockBad := List.range 262144 }) else s) s3
          else s3
        (s4.unfence f).trainLinks))

end Sys2Proof.Machine
end

