-- ==== Sys2Proof/Machine/Mesh.lean ====
section
/-! DEFINITION. The mesh and die-to-die commands (R337 to R348). -/

namespace Sys2Proof.Machine

/-- A router faults: its half is fenced as a lost half (R340). Which end of the link is the fault's site is not stated: a free
value. -/
def State.routerFault (s : State) (half src dst : Nat) : State :=
  let site := if bit s.freeVal.toNat 0 then src else dst
  let x := s.mesh half
  ((s.freeUsed.setMesh half { x with fault := true, site := site }).setErr pgMesh half 1).fenceHalf half false

/-! ### Routers (R337 to R340) -/

/-- The mesh of a half runs: not while its half is lost, its supply is off, or the logic clocks are stopped (R15, R423, R426). -/
def State.meshRuns (s : State) (half : Nat) : Bool :=
  s.fencedHalf != some half && s.boot.rails.getD (2 + half) false && s.boot.state != .adjourned && s.boot.state != .halted

/-- The router that a flit at router r goes to next: along the rank to the destination's file, then along the file (R338);
r itself where it has arrived. -/
def nextRouter (r d : Nat) : Nat :=
  if r % 12 < d % 12 then r + 1 else if d % 12 < r % 12 then r - 1
  else if r / 12 < d / 12 then r + 12 else if d / 12 < r / 12 then r - 12 else r

/-- The router at which module m attaches, file l and rank ⌊3m ÷ 4⌋ + 1, in both halves (R338). -/
def attachRouter (m : Nat) : Nat := 12 * (3 * m / 4) + 11

/-- The router of a half that a flit goes to: its destination, or for the other half the attach router of its flow's module
(R338, R345). -/
def MeshHalf.goal (x : MeshHalf) (half : Nat) (f : MFlit) : Nat :=
  if siteHalf f.dst = half then f.dst % 144 else attachRouter (smGet (f.flow % 16) x.flows f.flow)

/-- The input at which a flit from one router reaches the next; 0 is the tile's network interface. -/
def inputOf (src dst : Nat) : Nat :=
  if dst = src + 1 then 1 else if dst + 1 = src then 2 else if dst = src + 12 then 3 else if dst + 12 = src then 4 else 0

/-- The number of a class buffer, and of an output of a router with a class. -/
def bufKey (r port cls : Nat) : Nat := (r * 8 + port) * 4 + cls % 4

def MeshHalf.buf (x : MeshHalf) (r port cls : Nat) : List MFlit := smGet [] x.bufs (bufKey r port cls)

/-- Inputs and classes (input × 4 + class) whose oldest flit can take the output of router r toward router d now: the next
buffer of its class has room for it, and no other input's packet of the class has the output. -/
def MeshHalf.ready (x : MeshHalf) (half r d : Nat) : List Nat :=
  (List.range 20).filter (fun k =>
    match x.buf r (k / 4) (k % 4) with
    | [] => false
    | f :: _ =>
      let h := smGet 0 x.hold (bufKey r (inputOf r d) (k % 4))
      nextRouter r (x.goal half f) = d && (d = r || decide ((x.buf d (inputOf r d) (k % 4)).length < 4)) && (h = 0 || h = k / 4 + 1))

/-- The flit that an output serves: CTL first, the other classes round robin among the inputs (R339). -/
def MeshHalf.pick (x : MeshHalf) (half r d : Nat) : Option Nat :=
  let t := smGet 0 x.turn (r * 8 + inputOf r d)
  let l := (((List.range 20).map (fun k => (t + k) % 20)).filter (fun k => (x.ready half r d).contains k))
  match l.find? (fun k => k % 4 = 2) with
  | some k => some k
  | none => l.head?

/-- A flit moves over the output of router r toward router d. -/
def MeshHalf.move (x : MeshHalf) (r d k : Nat) (f : MFlit) : MeshHalf :=
  let b := smSet [] x.bufs (bufKey r (k / 4) (k % 4)) ((x.buf r (k / 4) (k % 4)).drop 1)
  let at_ := bufKey d (inputOf r d) (k % 4)
  { x with
    bufs := if d = r then b else smSet [] b at_ (smGet [] b at_ ++ [f])
    turn := smSet 0 x.turn (r * 8 + inputOf r d) ((k + 1) % 20)
    hold := smSet 0 x.hold (bufKey r (inputOf r d) (k % 4)) (if f.tail then 0 else k / 4 + 1) }

/-- A flit for the other half leaves the mesh at its attach router, onto the module of its flow (R338, R345). For a fenced half it
is held in the module's replay buffer (R348), or dropped once the fence has escalated (R468). -/
def State.flitCross (s : State) (half : Nat) (f : MFlit) : State :=
  let m := s.flowMod half f.flow
  let t := s.d2dPut half f.flow m [f.data]
  match s.abs.fence with
  | none => t
  | some x => if x.half = half || 4 ≤ x.stage then t else if x.escalated then s else { t with sent := s.sent }

/-- A flit leaves the mesh at its router; at a partition in RESETTING it is discarded, and its packet counts with its head
(R341). -/
def State.flitOut (s : State) (half r : Nat) (f : MFlit) : State :=
  match s.sitePart (144 * half + r) with
  | some p =>
    if (s.part p).st = .resetting then s.bump pgMesh half 0 rMeshDiscarded (b2n f.head) else s.emit (.eject half r f.data)
  | none => s.emit (.eject half r f.data)

/-- A flit fails its CRC: it is discarded, and its sender keeps it to replay; the sixteenth time running is a router fault
(R340). -/
def State.flitBad (s : State) (half src dst : Nat) : State :=
  let x := s.mesh half
  let n := smGet 0 x.replays (src * 144 + dst) + 1
  let s1 := ((s.setMesh half { x with replays := smSet 0 x.replays (src * 144 + dst) n }).bump pgMesh half 0 rMeshReplays 1).setErr pgMesh half 0
  if n = 16 then s1.routerFault half src dst else s1

/-- A flit has crossed a link: its replays are over, and it counts. -/
def State.flitGood (s : State) (half src dst : Nat) : State :=
  let x := s.mesh half
  (s.setMesh half { x with replays := smSet 0 x.replays (src * 144 + dst) 0 }).bump pgMesh half 0 rMeshFlits 1

/-- The regulator that a flit of the tile at a router passes (R342). -/
def State.flitCost (s : State) (half r : Nat) : List (Gate × Nat) :=
  match s.sitePart (144 * half + r), s.boot.coreSite.find? (fun e => e.2 = 144 * half + r) with
  | some p, some e => [(.mesh p e.1, 64)]
  | _, _ => []

/-- The regulators of a flit that is injected: the die-to-die one too where it is for the other half (R342). -/
def State.injectCost (s : State) (half r : Nat) (f : MFlit) : List (Gate × Nat) :=
  s.flitCost half r ++
    (match s.sitePart (144 * half + r) with
     | some p => if siteHalf f.dst = half then [] else [(.d2d p half, 64)]
     | none => [])

/-- The flit as its network interface sends it. -/
def MFlit.sent (f : MFlit) (r : Nat) : MFlit := { f with flow := flowEntry r (f.dst % 144) }

/-- MESH_FLIT (R337 to R342): one flit crosses a link. With `flit`, from the network interface of router `src` into its class
buffer, if that has room and the regulators the tokens; otherwise the flit that the output of `src` toward `dst` serves, to the
network interface, or onto the die-to-die link, where the two are one. With `ok` false it fails its CRC. -/
def execMeshFlit (half src dst : Nat) (flit : Option MFlit) (ok : Bool) (s : State) : Host.Outcome State Fault Refusal :=
  .next (reachLink.take s (
    let x := s.mesh half
    if !s.meshRuns half then s
    else match flit with
    | some f =>
      if decide (4 ≤ (x.buf src 0 f.cls).length) then s
      else if !ok then s.flitBad half src src
      else s.gated (s.injectCost half src f) (fun s => (s.setMesh half { s.mesh half with
          bufs := smSet [] x.bufs (bufKey src 0 f.cls) (x.buf src 0 f.cls ++ [f.sent src]) }).flitGood half src src) id
    | none =>
      match x.pick half src dst with
      | none => s
      | some k =>
        match x.buf src (k / 4) (k % 4) with
        | [] => s
        | f :: _ =>
          let crosses := siteHalf f.dst != half
          if !ok then s.flitBad half src dst
          else
            let s1 := (s.setMesh half (x.move src dst k f)).flitGood half src dst
            if src != dst then s1 else if crosses then s1.flitCross half f else s1.flitOut half src f))

/-- What a packet costs its partition: 64 B for each flit at the network interface of the tile that it leaves, and at the module
distributor of a half that it leaves (R342). -/
def State.packetCost (s : State) (half src : Nat) (bs : List Byte) : List (Gate × Nat) :=
  (s.flitCost half (src % 144)).map (fun e => (e.1, 64 * (1 + ceilDiv bs.length 64)))
def State.crossCost (s : State) (half src : Nat) (bs : List Byte) : List (Gate × Nat) :=
  match s.sitePart (144 * half + src % 144) with
  | some p => [(.d2d p half, 64 * (1 + ceilDiv bs.length 64))]
  | none => []

/-- MESH_PACKET (R338, R341): a packet from a router of a half to a physical router of the device. One for a fenced half is held
(R348). -/
def execMeshPacket (half src dst : Nat) (bs : List Byte) (s : State) : Host.Outcome State Fault Refusal :=
  .next (reachLink.take s (
    if !s.meshRuns half then s
    else if siteHalf dst = half then s.gated (s.packetCost half src bs) (fun s => s.packetOut dst bs) id
    else if s.fencedHalf = some (siteHalf dst) then
      (match s.abs.fence with
       | some f =>
         if f.escalated then s
         else
           let x := s.mesh half
           s.setMesh half { x with packets := x.packets ++ [(src, dst, bs)] }
       | none => s)
    else s.gated (s.packetCost half src bs ++ s.crossCost half src bs) (fun s => s.packetCross half src dst bs) id))

/-- What follows a module's loss: with none UP, half B is lost (R347). -/
def State.modsChecked (s : State) : State :=
  if s.modsUp = 0 then s.fenceHalf 1 false else s.checkState

/-- A flit is discarded: at most one NAK is outstanding, and a module above its retry limit is disabled (R344, R346). -/
def State.d2dDiscard (s : State) (m half : Nat) : State :=
  let x := s.mod m
  if x.nak.getD half false then s
  else
    let s1 := s.modMod m (fun x => { x with nak := x.nak.set half true, retries := x.retries + 1 })
    let s2 := ((s1.bump pgD2d half 0 rD2dRetries 1).setErr pgD2d half 0).emit (.d2dAck m half ((x.rx.getD half 0 + 1023) % 1024) true)
    if s.fld pgD2d half 0 rD2dCfg 23 16 < x.retries + 1 then (s2.modsOff half [m]).modsChecked else s2

/-- A flit is accepted: its acknowledgement, its NAK and its reset notice act (R343, R344, R348). -/
def State.d2dAccept (s : State) (m half : Nat) (bs : List Byte) : State :=
  let h := leNat (bs.take 2)
  let a := leNat ((bs.drop 2).take 2)
  let s1 := s.modMod m (fun x => { x with rx := x.rx.set half ((bits h 9 0 + 1) % 1024), nak := x.nak.set half false })
  let s2 := (s1.bump pgD2d half 0 rD2dFlits 1).emit (.d2dAck m half (bits h 9 0) false)
  let s3 := if bit a 11 then s2.d2dNaked half m (bits a 9 0) else if bit a 10 then s2.d2dAcked half m (bits a 9 0) else s2
  if bit a 12 then s3.fenceHalf (1 - half) false else s3

/-- D2D_FLIT (R343, R344): module `m` receives a flit in a half. The mesh flits that it carries go on as MESH_PACKET commands. -/
def execD2dFlit (m half : Nat) (flit : BitVec 2048) (s : State) : Host.Outcome State Fault Refusal :=
  .next (reachLink.take s (
    let bs := leBytes 256 flit.toNat
    if (s.mod m).st != ModSt.up || s.fencedHalf = some half then s
    else if leNat (bs.drop 252) = crc32 (bs.take 252) && bits flit.toNat 9 0 = (s.mod m).rx.getD half 0 then s.d2dAccept m half bs
    else s.d2dDiscard m half))

/-- D2D_CLOCK_SILENCE (R346, R348): in one 32-cycle window a half sees no edge on the forwarded clocks of the modules in a set.
Where every module that was UP falls silent, the other half is lost. -/
def execD2dClockSilence (mods : BitVec 16) (half : Nat) (s : State) : Host.Outcome State Fault Refusal :=
  .next (reachLink.take s (
    let ups := s.upMods
    let gone := ups.filter (fun m => mods.getLsbD m)
    if s.fencedHalf = some half || gone.isEmpty then s
    else
      let s1 := if gone = ups then s.fenceHalf (1 - half) false else s
      (s1.modsOff half gone).checkState))

/-- D2D_RETRAIN (R346): a disabled module trains, no sooner than retrain_delay after it was disabled. A module that a fuse or
the start-up test marks out stays out (R439). -/
def execD2dRetrain (m : Nat) (ok : Bool) (s : State) : Host.Outcome State Fault Refusal :=
  .next (reachLink.take s (
    let x := s.mod m
    if x.st != ModSt.disabled || s.timeUs < x.since + 100000 * s.fld pgD2d 0 0 rD2dCfg 15 8 || s.abs.fence.isSome
        || s.boot.d2dFused.testBit m || s.boot.d2dTest.testBit m then s
    else if ok then (((s.modMod m D2dMod.retrained).modBack 0 m).modBack 1 m).checkState
    else if x.fails + 1 = 3 then (s.modMod m (fun x => { x with st := .failed, fails := 3 })).checkState
    else s.modMod m (fun x => { x with fails := x.fails + 1 })))

end Sys2Proof.Machine
end

