-- ==== Sys2Proof/Machine/Mirror.lean ====
section
/-! DEFINITION. Mirrors at the buddy, the loss of a device, and adoption (R469 to R478). -/

namespace Sys2Proof.Machine

/-! ### Mirror records (R470, R472, R473) -/

/-- Fields of a MIRROR message. -/
def mirStream (m : FMsg) : Nat := bits m.info 17 0
def mirGen (m : FMsg) : Nat := bits m.info 21 18
def mirFirst (m : FMsg) : Nat := bits m.info 46 24
def mirId (m : FMsg) : Nat := bits m.info 58 47

/-- The partitions that accept mirrors from a device: (adopting partition, partition on the source). -/
def State.mirrorIns (s : State) (dev : Nat) : List (Nat × Nat) :=
  (List.range 64).filterMap (fun p =>
    if s.fld pgStw 0 p rStwMirrorIn 31 31 = 1 && s.fld pgStw 0 p rStwMirrorIn 21 16 = dev then some (p, s.fld pgStw 0 p rStwMirrorIn 13 8)
    else none)

/-- Where the record of a source stream lies: far port and offset; and its FAR order address (R472). -/
def State.mirrorRec (s : State) (p src : Nat) : Nat × Nat := let b := s.mirrorBase p; (b.1, b.2 + src * 2048)
def State.mirrorHist (s : State) (p src : Nat) : Nat :=
  let r := s.mirrorRec p src
  5 <<< 60 + r.1 <<< 40 + r.2 % 1099511627776

/-- A source partition of a device has been adopted here (R473). -/
def State.isAdopted (s : State) (dev part : Nat) : Bool := s.abs.adopted.contains (dev, part)

/-- The answer to a MIRROR for which no adopting partition is found, or whose partition has been adopted. -/
def State.mirrorNo (s : State) (m : FMsg) : State :=
  s.sendAck m (mirId m) (if s.abs.adopted.any (fun a => a.1 = m.srcDev) then ackAdopted else ackRefused)

/-- One epoch is ahead of another (R268). -/
def epochAhead (a b : Nat) : Bool := decide (1 ≤ (a + 2 ^ 32 - b % 2 ^ 32) % 2 ^ 32) && decide ((a + 2 ^ 32 - b % 2 ^ 32) % 2 ^ 32 < 2 ^ 31)

/-- ENTRY: the record takes the roll entry, unless its epoch is not ahead of the stored one (R472). -/
def execMirrorEntry (m : FMsg) (s : State) : Host.Outcome State Fault Refusal :=
  .next (reachLink.take s (s.forMe m (fun s =>
    let e := m.data.take 256
    let src := bits (leNat (e.take 4)) 12 7
    match (s.mirrorIns m.srcDev).find? (fun x => x.2 = src) with
    | none => s.mirrorNo m
    | some (p, _) =>
      if s.isAdopted m.srcDev src then s.sendAck m (mirId m) ackAdopted
      else
        let (port, at_) := s.mirrorRec p (mirStream m)
        let old := s.farBytes port at_ 260
        let word := leNat (old.drop 256)
        if !epochAhead (leNat ((e.drop 100).take 4)) (leNat ((old.drop 100).take 4)) then s.sendAck m (mirId m) 0
        else
          let held := if bit word 31 then bits word 22 0 else 0
          let w := 1 <<< 31 + (leNat (m.data.drop 256) % 16) <<< 23 + held
          let s1 := s.farPut port at_ (e ++ leBytes 4 w)
          let s2 := { s1 with abs := { s1.abs with mirLive := smSet [] s1.abs.mirLive p (insNat (smGet [] s1.abs.mirLive p) (mirStream m)) } }
          s2.sendAck m (mirId m) 0)))

/-- The adopting partition that holds a live record of a source stream. -/
def State.mirrorOf (s : State) (m : FMsg) : Option (Nat × Nat) :=
  (s.mirrorIns m.srcDev).find? (fun x => (smGet [] s.abs.mirLive x.1).contains (mirStream m))

/-- TOKENS: the tokens are stored in the record's history pages; without a free page the mirror is refused (R472, R473). -/
def execMirrorTokens (m : FMsg) (s : State) : Host.Outcome State Fault Refusal :=
  .next (reachLink.take s (s.forMe m (fun s =>
    match s.mirrorOf m with
    | none => s.mirrorNo m
    | some (p, src) =>
      if s.isAdopted m.srcDev src then s.sendAck m (mirId m) ackAdopted
      else
        let h := s.mirrorHist p (mirStream m)
        let (s1, ok) := (List.range (min 144 (m.data.length / 4))).foldl (fun (acc : State × Bool) i =>
          if !acc.2 then acc
          else
            let (s', k) := acc.1.poolPage p (bits h 39 0) (mirFirst m + i)
            if k then (s'.histWrite p h (mirFirst m + i) (leNat ((m.data.drop (4 * i)).take 4)), true) else (s', false)) (s, true)
        s1.sendAck m (mirId m) (if ok then 0 else ackRefused))))

/-- RELEASE: the record and its pages are freed (R472). -/
def execMirrorRelease (m : FMsg) (s : State) : Host.Outcome State Fault Refusal :=
  .next (reachLink.take s (s.forMe m (fun s =>
    match s.mirrorOf m with
    | none => s.sendAck m (mirId m) (if s.abs.adopted.any (fun a => a.1 = m.srcDev) then ackAdopted else 0)
    | some (p, src) =>
      if s.isAdopted m.srcDev src then s.sendAck m (mirId m) ackAdopted
      else (s.poolFree p (mirStream m)).sendAck m (mirId m) 0)))

/-! ### Adoption (R475, R476) -/

/-- The record of a source stream, and its last_step_tokens. -/
def State.mirrorRead (s : State) (p src : Nat) : Stream × Nat :=
  let (port, at_) := s.mirrorRec p src
  let b := s.farBytes port at_ 260
  (Stream.ofImage (b.take 256), bits (leNat (b.drop 256)) 26 23)

/-- A record whose stream had ended gets its end record only. Its end and its position, and the stream that it names, are
free values: the record holds none of them. -/
def State.adoptEnd (s : State) (p src : Nat) (x : Stream) : State :=
  let v := s.freeVal.toNat
  let s1 := s.freeUsed.tokSend p (262144 + src) (tokRec x.tag tokNone (1 + v % 3) stOk (v / 4 % 8388608) (v / 2 ^ 27 % 262144) (v / 2 ^ 45 % 16) false)
  s1.poolFree p src

/-- The last step's tokens are written again (R475 step 3): the position of the last is p. Which of them was an accepted
gambit is a free value. -/
def State.adoptRecords (s : State) (p n : Nat) (x : Stream) (h k : Nat) : State :=
  (List.range k).foldl (fun s i =>
    let pos := x.pos + 1 + i - k
    let a := s.poolTok p h pos
    let tok := leNat (s.farBytes a.1 a.2 4)
    let last := decide (i + 1 = k) && x.maxNew = 0
    let r := tokRec x.tag tok (if last then endStop else endNone) stOk pos n (s.stream n).gen (s.freeVal.toNat % 2 = 1)
    let s1 := s.freeUsed
    if s1.tokSpace p = 0 then { s1 with abs := { s1.abs with heldRecs := s1.abs.heldRecs ++ [(p, n, [r, leBytes 8 0xFFFFFFFFFFFFFFFF])] } } else s1.tokSend p n r) s

/-- A live record becomes a stream of the adopting partition, if one can be taken (R475). -/
def State.adoptOne (s : State) (p src dev : Nat) : State × Bool :=
  let (x, k) := s.mirrorRead p src
  if x.st = .draining || x.st = .done || x.st = .free then (s.adoptEnd p src x, true)
  else match s.takeStream p with
  | none => (s, false)
  | some n =>
    let old := s.stream n
    let h := s.mirrorHist p src
    let e : Stream := { x with
      part := p, gen := (old.gen + 1) % 16, hist := h, pos := 0, st := .prefill, inStep := false, pinned := false, epoch := old.epoch
      clampNote := false, noted := true, rebuildTo := x.pos, rebuildAt := 0
      wasRunning := x.st = .decode || (x.st = .parked && x.wasDecode) }
    let s1 := s.setStream n e
    let s2 := s1.adoptRecords p n x h k
    ((s2.bump pgStw 0 0 rStwAdoptions 1).log 0x17 { part := p, addr := src + dev <<< 18, stream := some (e.gen, n) }, true)

/-- Every live record of an adopting partition is adopted; those without a stream wait (R475). -/
def State.adoptAll (s : State) (p dev part : Nat) : State :=
  if s.isAdopted dev part then s
  else
    let s1 := { s with abs := { s.abs with adopted := s.abs.adopted ++ [(dev, part)] } }
    let limit := s.timeUs + 1000000 * s.fld pgStw 0 p rStwMirrorIn 7 0
    (smGet [] s.abs.mirLive p).foldl (fun s src =>
      let (s', ok) := s.adoptOne p src dev
      if ok then s' else { s' with abs := { s'.abs with adoptWait := s'.abs.adoptWait ++ [(p, src, dev, limit)] } }) s1

/-- Records that wait for a stream are tried again, oldest first. -/
def State.adoptRetry (s : State) (p : Nat) : State :=
  (s.abs.adoptWait.filter (fun w => w.1 = p)).foldl (fun s w =>
    let (s', ok) := s.adoptOne w.1 w.2.1 w.2.2.1
    if ok then { s' with abs := { s'.abs with adoptWait := s'.abs.adoptWait.filter (· != w) } } else s') s

/-- No stream could be taken within adopt_timeout (R475). -/
def execAdoptTimeout (part stream : Nat) (s : State) : Host.Outcome State Fault Refusal :=
  .next (reachLink.take s (
    let s0 := s.adoptRetry part
    match s0.abs.adoptWait.find? (fun w => w.1 = part && w.2.1 = stream) with
    | none => s0
    | some w =>
      let (x, _) := s0.mirrorRead part stream
      let v := s0.freeVal.toNat
      let s1 := s0.freeUsed.tokSend part (262144 + stream) (tokRec x.tag tokNone endError stLost (v % 8388608) (v / 2 ^ 23 % 262144) (v / 2 ^ 41 % 16) false)
      let s2 := { s1 with abs := { s1.abs with adoptWait := s1.abs.adoptWait.filter (· != w) } }
      ((s2.poolFree part stream).bump pgStw 0 0 rStwAdoptFails 1).log 0x18 { part := part, addr := stream + w.2.2.1 <<< 18 }))

/-! ### The loss of a device (R474, R478) -/

/-- A device of the guild is lost, whole or one partition of it. -/
def State.deviceLost (s : State) (dev : Nat) (all : Bool) (part : Nat) : State :=
  if dev = s.fab.device then
    let s1 := s.selfFence (if all then List.range 64 else [part])
    if all then s1.leaveGuild else s1
  else
    let s1 := s.log 0x16 { part := if all then 0 else part, addr := dev }
    -- the device was the buddy of a partition here (R473)
    let mine := (List.range 64).filter (fun p => s.fld pgStw 0 p rStwMirrorOut 31 31 = 1 && s.fld pgStw 0 p rStwMirrorOut 13 8 = dev
      && (all || s.fld pgStw 0 p rStwMirrorOut 5 0 = part))
    let s2 := mine.foldl (fun s p => (s.streamsOf p).foldl (fun s e => s.mirrorRefused p e.1) s) s1
    let s3 := ((s.mirrorIns dev).filter (fun x => all || x.2 = part)).foldl (fun s x => s.adoptAll x.1 dev x.2) s2
    if all then { s3 with fab := { s3.fab with members := smErase s3.fab.members dev } } else s3

/-- DEVICE_LOST: acted on if its term is at least the highest term seen (R474). -/
def execDeviceLost (m : FMsg) (s : State) : Host.Outcome State Fault Refusal :=
  .next (reachLink.take s (s.forMe m (fun s =>
    if bits m.info 44 13 < s.fab.term then s else s.deviceLost (bits m.info 5 0) (bit m.info 6) (bits m.info 12 7))))

/-- The guildmaster has had no route to a member for device_hold (R474). -/
def execDeviceHoldExpired (dev : Nat) (s : State) : Host.Outcome State Fault Refusal :=
  .next (reachLink.take s (
    if !s.isMaster || dev = s.fab.device || (smFind s.fab.members dev).isNone || s.reachable dev then s
    else (s.floodLost dev true 0 s.fab.term).deviceLost dev true 0))

end Sys2Proof.Machine
end

