-- ==== Sys2Proof/Machine/Admin.lean ====
section
/-! DEFINITION. Admin commands (R258, R263 to R265, R297, R496): the ring, the completions, and what each command does. -/

namespace Sys2Proof.Machine

/-- What an admin command can reach. -/
def reachAdmin : Reach := { reachServe with sec := true }

/-- The command codes (R263). -/
abbrev admQuiesce := 0x06
abbrev admJoin := 0x30

/-- Places of the completion ring that no record holds which the driver has not consumed. -/
def State.acqSpace (s : State) : Nat :=
  let n := s.fld pgFore 0 0 rForeAdmCfg 12 8
  2 ^ n - (s.acqTail + 2 * 2 ^ n - s.acqHead % (2 * 2 ^ n)) % (2 * 2 ^ n)

/-- The 16 B completion of an admin command, and its interrupt (R263, R379). -/
def State.admPut (s : State) (tag st : Nat) (r : List Nat) : State :=
  let n := s.fld pgFore 0 0 rForeAdmCfg 12 8
  let i := s.acqTail % (2 * 2 ^ n)
  let phase := 1 - i / 2 ^ n
  let bs := leBytes 4 (tag % 65536 + st <<< 24 + phase <<< 31) ++ (List.range 3).flatMap (fun k => leBytes 4 (r.getD k 0))
  let s1 := s.hostWrite (s.fld pgFore 0 0 rForeAcqBase 63 4 * 16 + (i % 2 ^ n) * 16) bs
  ({ s1 with acqTail := (i + 1) % (2 * 2 ^ n) }).emit (.msix 1 0)

/-- A command completes; STATE_REFUSED and QUOTA_REFUSED count in the FORE_ page (R10). -/
def State.admDone (s : State) (tag st : Nat) (r : List Nat) : State :=
  ((if st = stState || st = stQuota then s.noteRefuse pgFore 0 else s)).admPut tag st r

/-- The device is READY or DEGRADED. -/
def State.inService (s : State) : Bool := s.boot.state = .ready || s.boot.state = .degraded

/-! ### The guild (R265, R488, R498) -/

/-- The steward spreads the stagger phases of a guild's devices over each partition's grid (R277). -/
def State.setPhases (s : State) : State :=
  (List.range 64).foldl (fun s p => s.setFld pgFore 0 p rForeStagger 31 16
    (s.fab.device * s.fld pgFore 0 p rForeStagger 15 0 / 64)) s

/-- This device is a member of its guild, obeys a master and knows it (R498); its guild epoch begins at 0 (R30), and its stagger
phases are set (R277). -/
def State.becomeMember (s : State) (master : Nat) : State :=
  let ms := smPut (smPut s.fab.members s.fab.device s.boot.serial) master (s.serialOf master)
  ({ s with fab := { s.fab with isMember := true, master := master, members := ms, joining := none, epoch := 0 } }).setPhases

/-- JOIN_CHAL to the guildmaster (R498 step 1). -/
def State.sendChal (s : State) (nonce : List Byte) : State :=
  s.sendMsg ⟨0x10, s.fab.master, 0, s.fab.guild, 0, false, 0, nonce⟩

/-- JOIN_GUILD (R265, R488, R498). The configured guildmaster of a guild that has not yet formed forms it. -/
def State.joinGuild (s : State) (tag : Nat) : State × Option (Nat × List Nat) :=
  let cfg := s.fld pgFab 0 0 rFabGuild 11 6
  let s1 := { s with fab := { s.fab with guild := s.boot.chartGuild, device := s.boot.chartDevice } }
  if !s.inService || s.fab.isMember then (s, some (stState, []))
  else if s.sec.guildKey.isNone then (s, some (stAuth, []))
  else if cfg = s.boot.chartDevice && !s.fab.formed then ((s1.becomeMember cfg).linkChange, some (stOk, []))
  else
    let nonce := leBytes 32 (Config.entropy s.sec.draws).toNat
    let s2 := { s1 with sec := { s1.sec with draws := s1.sec.draws + 1 } }
    let s3 := { s2 with fab := { s2.fab with joining := some (tag, nonce), master := if s.fab.formed then s.fab.master else cfg } }
    (s3.sendChal nonce, none)

/-- LEAVE_GUILD (R265). Mirrors that still wait for their buddy end. -/
def State.leaveCmd (s : State) : State × Nat :=
  let busy := s.parts.any (fun e => decide (e.2.st = .serving) && s.usesGuild e.1)
  if !s.inService || !s.fab.isMember || busy then (s, stState)
  else
    let s1 := { s with fab := { s.fab with outs := s.fab.outs.filter (fun (t : XferOut) => t.kind != XKind.mirror) } }
    (s1.leaveGuild.releaseRecs, stOk)

/-! ### The commands -/

/-- An admin command takes effect. It answers its completion, or nothing while it stays open. An unlisted code is refused
(DESIGN CHOICE, assumption 41). -/
def State.admExec (s : State) (code p tag : Nat) (w : List Nat) : State × Option (Nat × List Nat) :=
  let say (r : AdmRes) : State × Option (Nat × List Nat) := (r.1, some r.2)
  match code with
  | 0x01 => say (s.createPartition p w)
  | 0x02 => say (if bit (w.getD 1 0) 31 then s.restoreContext p w else s.loadPattern p w)
  | 0x03 => say (s.dropPattern p w)
  | 0x04 => say (s.setPolicy p w)
  | 0x05 => say (s.serve p)
  | 0x06 => let (s1, r) := s.quiesce p (some tag); (s1, r.map (fun st => (st, [])))
  | 0x07 => say (s.resetPartition p)
  | 0x08 => say (s.destroyPartition p)
  | 0x10 => say (s.openStream p w)
  | 0x11 => say (s.parkCmd p w)
  | 0x12 => say (s.cancelCmd p w)
  | 0x20 => say (s.snapshotCmd p w)
  | 0x30 => s.joinGuild tag
  | 0x31 => let (s1, st) := s.leaveCmd; (s1, some (st, []))
  | _ => (s, some (stState, []))

/-- The foreman takes a command (R263, R496): it runs inside an open session of PF1, and completes with AUTH_REFUSED
without one. -/
def State.admRun (s : State) (code : Nat) (w : List Nat) : State :=
  let w0 := w.getD 0 0
  let tag := bits w0 31 16
  let p := bits w0 13 8
  if !s.sec.pf1.opened then s.admDone tag stAuth []
  else
    let s0 := { s with sec := { s.sec with pf1 := { s.sec.pf1 with last := s.timeUs } } }
    match s0.admExec code p tag w with
    | (s1, some (st, r)) => s1.admDone tag st r
    | (s1, none) => { s1 with admOpen := s1.admOpen ++ [(tag, code, p)] }

/-- A QUIESCE that waited for its step completes once the partition no longer owes it (R136, R264); where the partition left
SERVING otherwise it is refused. -/
def State.admSettle (s : State) : State :=
  match s.admOpen with
  | (tag, code, p) :: rest =>
    let x := s.part p
    if code = admQuiesce && !x.after.any (fun a => match a with | .quiesce (some t) => t = tag | _ => false) then
      ({ s with admOpen := rest }).admDone tag (if decide (x.st = PState.quiesced) then stOk else stState) []
    else s
  | [] => s

/-- A command that came while another was open waits; once it is its turn it is taken before the ring's head (R263). -/
def State.admNext (s : State) : Option (State × Nat × List Nat) :=
  match s.admWait with
  | x :: r => if s.admOpen.isEmpty then some ({ s with admWait := r }, x.1, x.2) else none
  | [] => none

/-- The record at the head of the admin ring, if one is there to be taken (R257, R424): one command runs at a time, and its
completion has room. -/
def State.admHeadRec (s : State) : Option (List Nat) :=
  let n := s.fld pgFore 0 0 rForeAdmCfg 4 0
  if s.fld pgFore 0 0 rForeAdmCfg 31 31 != 1 || !s.admOpen.isEmpty || s.acqSpace = 0 || !s.hostUp
      || s.boot.state = .adjourned || s.boot.state = .halted
      || s.admHead % (2 * 2 ^ n) = s.admTail % (2 * 2 ^ n) then none
  else
    let bs := s.hostBytes (s.fld pgFore 0 0 rForeAdmBase 63 6 * 64 + (s.admHead % 2 ^ n) * 64) 64
    some ((List.range 16).map (fun i => leNat ((bs.drop (4 * i)).take 4)))

/-- Commands are taken in their order, at most k. -/
def State.admTake (s : State) (k : Nat) : State :=
  match k with
  | 0 => s
  | k + 1 =>
    match s.admNext with
    | some (s1, code, w) => (s1.admRun code w).admTake k
    | none =>
      match s.admHeadRec with
      | none => s
      | some w =>
        let n := s.fld pgFore 0 0 rForeAdmCfg 4 0
        (({ s with admHead := (s.admHead + 1) % (2 * 2 ^ n) }).admRun (bits (w.getD 0 0) 7 0) w).admTake k

/-- An open command that is over completes, and the ring is read on. -/
def State.admPump (s : State) : State := s.admSettle.admTake (2 ^ s.fld pgFore 0 0 rForeAdmCfg 4 0 + s.admWait.length)

/-- An open JOIN_GUILD completes (R498), and the ring is read on. -/
def State.joinEnd (s : State) (tag st : Nat) : State :=
  let s1 := { s with admOpen := s.admOpen.filter (fun a => !(a.1 = tag && a.2.1 = admJoin)), fab := { s.fab with joining := none } }
  (s1.admDone tag st []).admPump

/-- A command that the foreman takes from elsewhere than the ring's head: it waits its turn while another is open. -/
def State.admDirect (s : State) (code : Nat) (w : List Nat) : State :=
  if s.admOpen.isEmpty && s.admWait.isEmpty then s.admRun code w else { s with admWait := s.admWait ++ [(code, w)] }

/-! ### The commands of the ring -/

/-- A tail or head index that a doorbell gives, clamped to at most `room` beyond `from_` (R257). -/
def bellIndex (n from_ room v : Nat) : Nat × Nat :=
  let m := 2 * 2 ^ n
  if (v % m + m - from_ % m) % m > room then ((from_ + room) % m, 1) else (v % m, 0)

/-- ADMIN_DOORBELL (R257, R258). -/
def execAdminDoorbell (tail : Nat) (s : State) : Host.Outcome State Fault Refusal :=
  .next (reachAdmin.take s (
    let n := s.fld pgFore 0 0 rForeAdmCfg 4 0
    let (t, k) := bellIndex n s.admHead (2 ^ n) tail
    ((({ s with admTail := t }).noteClamps pgFore 0 k)).admPump))

/-- ADMIN_CQ_HEAD_DOORBELL (R258): completions are consumed. -/
def execAdminCqHeadDoorbell (head : Nat) (s : State) : Host.Outcome State Fault Refusal :=
  .next (reachAdmin.take s (
    let n := s.fld pgFore 0 0 rForeAdmCfg 12 8
    let (h, k) := bellIndex n s.acqHead ((s.acqTail + 2 * 2 ^ n - s.acqHead % (2 * 2 ^ n)) % (2 * 2 ^ n)) head
    ((({ s with acqHead := h }).noteClamps pgFore 0 k)).admPump))

def execCreatePartition (rec : List Nat) (s : State) : Host.Outcome State Fault Refusal :=
  .next (reachAdmin.take s ((s.admDirect 0x01 rec).admPump))

/-- LOAD_PATTERN: Word 1 [31] clear. -/
def execLoadPattern (rec : List Nat) (s : State) : Host.Outcome State Fault Refusal :=
  .next (reachAdmin.take s ((s.admDirect 0x02 (rec.set 1 (rec.getD 1 0 % 2147483648))).admPump))

/-- RESTORE_CONTEXT: a LOAD_PATTERN with Word 1 [31] set (R451). -/
def execRestoreContext (rec : List Nat) (s : State) : Host.Outcome State Fault Refusal :=
  .next (reachAdmin.take s ((s.admDirect 0x02 (rec.set 1 (rec.getD 1 0 % 2147483648 + 2147483648))).admPump))

def execDropPattern (rec : List Nat) (s : State) : Host.Outcome State Fault Refusal :=
  .next (reachAdmin.take s ((s.admDirect 0x03 rec).admPump))

def execSetPolicy (rec : List Nat) (s : State) : Host.Outcome State Fault Refusal :=
  .next (reachAdmin.take s ((s.admDirect 0x04 rec).admPump))

def execServe (rec : List Nat) (s : State) : Host.Outcome State Fault Refusal :=
  .next (reachAdmin.take s ((s.admDirect 0x05 rec).admPump))

def execQuiesce (rec : List Nat) (s : State) : Host.Outcome State Fault Refusal :=
  .next (reachAdmin.take s ((s.admDirect 0x06 rec).admPump))

def execResetPartition (rec : List Nat) (s : State) : Host.Outcome State Fault Refusal :=
  .next (reachAdmin.take s ((s.admDirect 0x07 rec).admPump))

def execDestroyPartition (rec : List Nat) (s : State) : Host.Outcome State Fault Refusal :=
  .next (reachAdmin.take s ((s.admDirect 0x08 rec).admPump))

def execOpenStream (rec : List Nat) (s : State) : Host.Outcome State Fault Refusal :=
  .next (reachAdmin.take s ((s.admDirect 0x10 rec).admPump))

def execParkStream (rec : List Nat) (s : State) : Host.Outcome State Fault Refusal :=
  .next (reachAdmin.take s ((s.admDirect 0x11 rec).admPump))

def execCancelStream (rec : List Nat) (s : State) : Host.Outcome State Fault Refusal :=
  .next (reachAdmin.take s ((s.admDirect 0x12 rec).admPump))

def execSnapshot (rec : List Nat) (s : State) : Host.Outcome State Fault Refusal :=
  .next (reachAdmin.take s ((s.admDirect 0x20 rec).admPump))

def execJoinGuild (rec : List Nat) (s : State) : Host.Outcome State Fault Refusal :=
  .next (reachAdmin.take s ((s.admDirect 0x30 rec).admPump))

def execLeaveGuild (rec : List Nat) (s : State) : Host.Outcome State Fault Refusal :=
  .next (reachAdmin.take s ((s.admDirect 0x31 rec).admPump))

/-- PARTITION_RESET_DONE (R266). -/
def execPartitionResetDone (part : Nat) (s : State) : Host.Outcome State Fault Refusal :=
  .next (reachAdmin.take s ((s.partitionResetDone part).admPump))

/-! ### Joining a guild (R498, R499) -/

/-- JOIN_TIMEOUT: no guildmaster answered within 100 ms. -/
def execJoinTimeout (s : State) : Host.Outcome State Fault Refusal :=
  .next (reachAdmin.take s (
    match s.fab.joining with
    | some (tag, _) => s.joinEnd tag stAuth
    | none => s))

/-- g of the challenge. -/
def joinGuildBytes (s : State) : List Byte := leBytes 2 s.fab.guild

/-- The guildmaster's proof of JOIN_RESP, and the joiner's of JOIN_DONE. -/
def State.masterProof (s : State) (nj ng : List Byte) (master : Nat) : List Byte :=
  hmac256 (s.sec.guildKey.getD []) (asciiBytes "RSNL-GMST" ++ nj ++ ng ++ joinGuildBytes s ++ leBytes 8 (s.serialOf master))
def State.joinerProof (s : State) (nj ng : List Byte) (x : Nat) : List Byte :=
  hmac256 (s.sec.guildKey.getD []) (asciiBytes "RSNL-GILD" ++ ng ++ nj ++ joinGuildBytes s ++ leBytes 1 x ++ leBytes 8 (s.serialOf x))

/-- JOIN_CHAL at the guildmaster (R498 step 2). -/
def execJoinChal (m : FMsg) (s : State) : Host.Outcome State Fault Refusal :=
  .next (reachAdmin.take s (
    if !s.isMine m || !s.isMaster || m.srcGuild != s.fab.guild || s.sec.guildKey.isNone then s
    else
      let nj := m.data.take 32
      let ng := leBytes 32 (Config.entropy s.sec.draws).toNat
      let s1 := { s with sec := { s.sec with draws := s.sec.draws + 1 },
                         fab := { s.fab with challenged := smPut s.fab.challenged m.srcDev (s.serialOf m.srcDev, nj, ng) } }
      s1.sendMsg ⟨0x11, m.srcDev, 0, m.srcGuild, 0, false, 0, ng ++ s.masterProof nj ng s.fab.device⟩))

/-- JOIN_RESP at the joiner (R498 step 3). A response from a device other than the master of the highest term seen is ignored,
and the joiner challenges again (R499). -/
def execJoinResp (m : FMsg) (s : State) : Host.Outcome State Fault Refusal :=
  .next (reachAdmin.take s (
    match s.fab.joining with
    | none => s
    | some (tag, nj) =>
      if !s.isMine m || m.srcGuild != s.fab.guild then s
      else if m.srcDev != s.fab.master then s.sendChal nj
      else
        let ng := m.data.take 32
        if m.data.drop 32 != s.masterProof nj ng m.srcDev then s.joinEnd tag stAuth
        else
          let s1 := s.sendMsg ⟨0x12, m.srcDev, 0, m.srcGuild, 0, false, 0, s.joinerProof nj ng s.fab.device⟩
          ((s1.becomeMember m.srcDev).linkChange).joinEnd tag stOk))

/-- JOIN_DONE at the guildmaster: a joiner whose proof holds is a member; the traffic of another stays ignored. -/
def execJoinDone (m : FMsg) (s : State) : Host.Outcome State Fault Refusal :=
  .next (reachAdmin.take s (
    match smFind s.fab.challenged m.srcDev with
    | none => s
    | some (serial, nj, ng) =>
      if !s.isMine m || !s.isMaster || m.srcGuild != s.fab.guild then s
      else
        let s1 := { s with fab := { s.fab with challenged := smErase s.fab.challenged m.srcDev } }
        if m.data != s.joinerProof nj ng m.srcDev then s1
        else { s1 with fab := { s1.fab with members := smPut s1.fab.members m.srcDev serial } }))

end Sys2Proof.Machine
end

