-- ==== Sys2Proof/Machine/ServeCmd.lean ====
section
/-! DEFINITION. The foreman's commands: the doorbells and rings of a partition, its steps, its streams' pages, and the
completion of an order (R143, R257 to R262, R272 to R284, R415). -/

namespace Sys2Proof.Machine

/-- What a step start can reach. -/
def reachFore : Reach := { reachServe with pwr := true }

/-! ### Doorbells and rings -/

/-- A doorbell of a partition takes effect: its VF's always; PF0's while no VF owns the partition's traffic (R381). -/
def State.bellOpen (s : State) (fn p : Nat) : Bool := fn = p + 2 || (fn = 0 && !s.host.bme.contains (p + 2))

/-- The foreman observes a request doorbell (R257): the tail, at most 2^n records beyond the head; the ring is read. -/
def State.requestBell (s : State) (part tail : Nat) : State :=
  let n := s.fld pgFore 0 part rForeReqCfg 4 0
  let (t, k) := bellIndex n (s.part part).reqHead (2 ^ n) tail
  (((s.modPart part (fun x => { x with reqTail := t })).noteClamps pgFore 0 k)).pollRing part

/-- The streams of a partition that are DONE and whose end record the driver has consumed become FREE (R272). -/
def State.freeDone (s : State) (p oldHead moved : Nat) : State :=
  let n := s.fld pgFore 0 p rForeTokCfg 4 0
  let m := 2 * 2 ^ n
  ((s.streamsOf p).filter (fun e => e.2.st = SState.done && decide ((e.2.endAt % m + m - oldHead % m) % m < moved))).foldl
    (fun s e => s.freeStream e.1) s

/-- Records that waited for room in the token ring of a partition are written. -/
def State.releasePart (s : State) (p : Nat) : State :=
  ((s.abs.heldRecs.filter (fun r => r.1 = p)).map (·.2.1)).eraseDups.foldl (fun s n => s.tokRelease p n) s

/-- The foreman observes a token-head doorbell (R260): records are consumed, and what waited for room in the ring goes on. -/
def State.tokenBell (s : State) (part head : Nat) : State :=
  let n := s.fld pgFore 0 part rForeTokCfg 4 0
  let m := 2 * 2 ^ n
  let x := s.part part
  let used := (x.tokTail + m - x.tokHead % m) % m
  let (h, k) := bellIndex n x.tokHead used head
  let moved := (h + m - x.tokHead % m) % m
  let s1 := (s.modPart part (fun y => { y with tokHead := h, tokTimes := y.tokTimes.drop moved })).noteClamps pgFore 0 k
  let s2 := (s1.freeDone part x.tokHead moved).releasePart part
  ((s2.flushEnds part).adoptRetry part).pollRing part

/-- A doorbell write of a function is observed, or waits until every earlier posted write of the function to BAR2 is visible
(R23). `kind`: 0 request tail, 1 token head. -/
def State.bell (s : State) (b : Nat × Nat × Nat × Nat) : State :=
  let (fn, part, kind, v) := b
  if !s.bellOpen fn part then s
  else if !s.writesSeen fn then { s with host := { s.host with bells := s.host.bells ++ [b] } }
  else if kind = 0 then s.requestBell part v else s.tokenBell part v

/-- Doorbells that waited are looked at again, in their order (R23). -/
def State.bellsGo (s : State) : State :=
  s.host.bells.foldl (fun s b => s.bell b) { s with host := { s.host with bells := [] } }

/-- REQUEST_DOORBELL (R23, R257). -/
def execRequestDoorbell (fn part tail : Nat) (s : State) : Host.Outcome State Fault Refusal :=
  .next (reachServe.take s (s.bellsGo.bell (fn, part, 0, tail)))

/-- TOKEN_HEAD_DOORBELL (R23, R260). -/
def execTokenHeadDoorbell (fn part head : Nat) (s : State) : Host.Outcome State Fault Refusal :=
  .next (reachServe.take s (s.bellsGo.bell (fn, part, 1, head)))

/-- TOKEN_MSIX (R262, R381): the token interrupt fires while records enough are unacknowledged, or the oldest is old enough;
the delay starts again with it. -/
def execTokenMsix (part : Nat) (s : State) : Host.Outcome State Fault Refusal :=
  .next (reachServe.take s (
    let x := s.part part
    let count := s.fld pgFore 0 part rForeMsix 12 0
    let delay := s.fld pgFore 0 part rForeMsix 31 16
    match x.tokTimes with
    | [] => s
    | t :: _ =>
      let from_ := match x.msixAt with | some a => max a t | none => t
      if decide (x.tokTimes.length ≥ count) || decide (s.timeUs ≥ from_ + delay) then
        (s.modPart part (fun x => { x with msixAt := some s.timeUs })).emit
          (if s.host.bme.contains (part + 2) then .msix (part + 2) 0 else .msix 0 part)
      else s))

/-- SUBMIT (R259): the record at the ring head, where it is no CONTINUE, is taken or held. -/
def execSubmit (part : Nat) (s : State) : Host.Outcome State Fault Refusal :=
  .next (reachServe.take s (
    let s := s.bellsGo
    match s.ringHead part with
    | some w => if bits (w.getD 0 0) 7 0 = 2 then s else (s.consumeOne part w).1.putHead part (s.part part).reqHead
    | none => s))

/-- CONTINUE (R259, R270). -/
def execContinue (part : Nat) (s : State) : Host.Outcome State Fault Refusal :=
  .next (reachServe.take s (
    let s := s.bellsGo
    match s.ringHead part with
    | some w => if bits (w.getD 0 0) 7 0 = 2 then (s.consumeOne part w).1.putHead part (s.part part).reqHead else s
    | none => s))

/-! ### Steps -/

/-- Every loom_steps-th step start of a partition advances lrot (R415). -/
def State.loomRotate (s : State) (p : Nat) : State :=
  let k := s.fld pgPwr 0 0 rPwrRotate 15 0
  let n := smGet 0 s.pwr.rotSteps p + 1
  if k = 0 then s
  else if n < k then { s with pwr := { s.pwr with rotSteps := smSet 0 s.pwr.rotSteps p n } }
  else { s with pwr := { s.pwr with rotSteps := smSet 0 s.pwr.rotSteps p 0, lrot := smSet 0 s.pwr.lrot p ((smGet 0 s.pwr.lrot p + 1) % 4) } }

/-- STEP_START (R274, R415). -/
def execStepStart (part : Nat) (s : State) : Host.Outcome State Fault Refusal :=
  .next (reachFore.take s (
    let s := s.bellsGo
    let s1 := s.stepStart part
    if (s1.part part).steps = (s.part part).steps then s1 else s1.loomRotate part))

/-- DRAFT_SUBSTEP (R284). -/
def execDraftSubstep (part : Nat) (s : State) : Host.Outcome State Fault Refusal :=
  .next (reachServe.take s (s.draftStart part))

/-- STEP_END (R278), after which a QUIESCE that waited completes. -/
def execStepEnd (part : Nat) (s : State) : Host.Outcome State Fault Refusal :=
  .next (reachAdmin.take s ((s.bellsGo.stepFinish part).1.admPump))

/-! ### Streams and pages -/

def execStreamUnpark (stream : Nat) (s : State) : Host.Outcome State Fault Refusal :=
  .next (reachServe.take s (s.unparkStream stream))

def execStreamDrainDone (stream : Nat) (s : State) : Host.Outcome State Fault Refusal :=
  .next (reachServe.take s (s.drainDone stream))

def execPageDemote (entry : Nat) (s : State) : Host.Outcome State Fault Refusal :=
  .next (reachServe.take s (s.pageDemote entry))

def execPagePromote (entry : Nat) (s : State) : Host.Outcome State Fault Refusal :=
  .next (reachServe.take s (s.pagePromote entry))

def execPageMoveDone (entry : Nat) (s : State) : Host.Outcome State Fault Refusal :=
  .next (reachServe.take s (s.pageMoved entry))

def execLedgerPageFree (entry : Nat) (s : State) : Host.Outcome State Fault Refusal :=
  .next (reachServe.take s (s.pageFree entry))

/-- RECOMPUTE_STEP (R327). -/
def execRecomputeStep (stream : Nat) (s : State) : Host.Outcome State Fault Refusal :=
  .next (reachServe.take s (s.recomputeStart stream))

/-! ### The completion of an order (R143) -/

/-- KV_APPEND does what it can; one with nothing to write goes on to its completion. -/
def State.kvGo (s : State) (c id : Nat) : State :=
  let s1 := s.kvTry c id
  match s1.job c id with
  | some j => if j.phase = 1 && j.todo.isEmpty then s1.kvTry c id else s1
  | none => s1

/-- What a started order waits for is tried now. -/
def State.settle (s : State) (c id : Nat) : State :=
  match (s.core c).flight id with
  | none => s
  | some f =>
    if f.done then s
    else match f.op with
    | 0x01 => s.xferRetry c id
    | 0x02 => s.xferRetry c id
    | 0x03 => s.xferRetry c id
    | 0x18 => (s.elemSettle c).tallyEnd c
    | 0x19 => (s.elemSettle c).tallyEnd c
    | 0x20 => s.attendTry c id
    | 0x21 => s.backTry c id
    | 0x30 => s.kvGo c id
    | 0x31 => s.bookTry c id
    | 0x40 => s.dispTry c id
    | 0x41 => (s.returnTry c id).gatherTry c id
    | 0x51 => if s.waitMet c f.ord (BitVec.ofNat 32 (f.aux.getD 0 0)) then s.finish c id stOk else s
    | 0x5B => if (s.core c).flights.any (fun g => f.aux.contains g.id) then s else s.finish c id stOk
    | _ => s

/-- An order whose completion updates the stream roll or the ledger (R465). -/
def tableOp (op : Nat) : Bool := op = 0x30 || op = 0x31 || op = 0x38 || op = 0x39

/-- Its row of R145 lists HALF_LOST_REPLAYED. -/
def tellsReplay (op : Nat) : Bool := op = 0x30 || op = 0x31

/-- A core whose step is abandoned: of its started orders only those that move bytes or write pages complete (R458). -/
def State.abandoned (s : State) (c : Nat) : Bool :=
  match s.partOfCore c with
  | some p => (s.part p).rolledBack
  | none => false

/-- ORDER_COMPLETE (R143): an order whose effects are done completes. Where it updates the tables it waits while a half's
copies are to be replayed (R465). -/
def execOrderComplete (core flight : Nat) (s : State) : Host.Outcome State Fault Refusal :=
  .next (reachOrder.take s (
    match (s.core core).flight flight with
    | none => s
    | some f =>
      if s.abandoned core && !(opUnit f.op = .transfer || opUnit f.op = .bank || f.op = 0x21) then s
      else
        let s1 := s.settle core flight
        match (s1.core core).flight flight with
        | none => s1
        | some g =>
          if !g.done then s1
          else if tableOp g.op && s1.replayHolds then s1.modFlight core flight (fun x => { x with replayed := x.replayed || tellsReplay g.op })
          else s1.complete core flight))

end Sys2Proof.Machine
end

