-- ==== Sys2Proof/Machine/Power.lean ====
section
/-! DEFINITION. The power governor: limits, the target, shedding, and the means of control (R396 to R408). -/

namespace Sys2Proof.Machine

/-! ### Shedding (R404 to R406) -/

/-- The shed level in force, W: the lower of the pin's and the message's (R404, R405). The pin is honoured from BOOT onward
(R525). -/
def State.shedLevel (s : State) : Option Nat :=
  let pin := if s.pwr.pinShed && s.boot.state != .off && s.boot.state != .aon && s.fld pgPwr 0 0 rPwrShed 31 31 = 1 then some (s.fld pgPwr 0 0 rPwrShed 11 0) else none
  let msg := if s.pwr.msgShed = 0 then none else some s.pwr.msgShed
  match pin, msg with
  | some a, some b => some (min a b)
  | some a, none => some a
  | none, b => b

/-- Entries into shedding are counted (R406). -/
def State.shedCheck (s : State) : State :=
  let on := s.shedLevel.isSome
  let s1 := if on && !s.pwr.shedding then s.bump pgPwr 0 0 rPwrSheds 1 else s
  { s1 with pwr := { s1.pwr with shedding := on } }

/-- A sequence is ahead of another (R405). -/
def shedAhead (a b : Nat) : Bool := decide (1 ≤ (a + 65536 - b) % 65536) && decide ((a + 65536 - b) % 65536 ≤ 32767)

/-- The next sequence number of this device's SHED messages: past the last that it sent or accepted. -/
def State.nextShed (s : State) : Nat :=
  ((if shedAhead s.pwr.shedTx s.pwr.shedRx then s.pwr.shedTx else s.pwr.shedRx) + 1) % 65536

/-- A SHED message with the next sequence number (R404, R405). -/
def State.floodShed (s : State) (level : Nat) : State :=
  let q := s.nextShed
  ({ s with pwr := { s.pwr with shedTx := q } }).flood 0x0B (level % 65536 + q <<< 16) []

/-- A message level is accepted (R405): 0 releases, others clamp to 350 to 2,400 W. -/
def State.shedTake (s : State) (level q : Nat) : State :=
  let v := if level = 0 then 0 else clampNat 350 2400 level
  ((({ s with pwr := { s.pwr with msgShed := v, shedRx := q } }).noteClamps pgPwr 0 (b2n (v != level))).shedCheck)

/-- The pin changes (R404). -/
def State.pinChange (s : State) (on : Bool) : State :=
  let s1 := ({ s with pwr := { s.pwr with pinShed := on } }).shedCheck
  if s.fld pgPwr 0 0 rPwrShed 29 29 = 1 && s.fab.isMember then s1.floodShed (if on then s.fld pgPwr 0 0 rPwrShed 11 0 else 0) else s1

def execGridShedAssert (s : State) : Host.Outcome State Fault Refusal :=
  .next (reachDev.take s (if s.pwr.pinShed then s else s.pinChange true))

def execGridShedRelease (s : State) : Host.Outcome State Fault Refusal :=
  .next (reachDev.take s (if s.pwr.pinShed then s.pinChange false else s))

/-- SHED (R405). -/
def execShed (m : FMsg) (s : State) : Host.Outcome State Fault Refusal :=
  .next (reachDev.take s (s.forMe m (fun s =>
    let q := bits m.info 31 16
    if s.fld pgPwr 0 0 rPwrShed 30 30 = 1 && shedAhead q s.pwr.shedRx then s.shedTake (bits m.info 15 0) q else s)))

/-- The effect of a write to PWR_SHED_TX (R405): the message, and the level at this device. -/
def State.shedWrite (s : State) (level : Nat) : State :=
  let q := s.nextShed
  (s.floodShed level).shedTake level q

/-! ### Limits and the target (R396, R397) -/

/-- The limits that are active: limiter code and W. -/
def State.limits (s : State) : List (Nat × Nat) :=
  [(1, s.fld pgPwr 0 0 rPwrCap 11 0)]
    ++ (match s.thm.predict with | some v => [(2, v)] | none => [])
    ++ (if s.thm.capA || s.thm.capB then [(3, 1200)] else [])
    ++ (match s.shedLevel with | some v => [(4, v)] | none => [])
    ++ (if s.thm.phase = 1 || s.thm.phase = 2 then [(5, 288)] else [])

/-- The least limit, the lowest code where several are least. -/
def leastLimit (l : List (Nat × Nat)) : Nat × Nat :=
  l.foldl (fun m x => if x.2 < m.2 then x else m) (l.headD (0, 2400))

/-- P_T after 10 µs, in units of 5 mW (200 to the watt): it moves toward the least of demand and L (R396, R397, R399). -/
def State.nextTarget (s : State) (demand : Nat) : Nat :=
  let lim := (leastLimit s.limits).2
  let goal := 200 * min demand lim
  let pt := s.pwr.target
  let half (n : Nat) : Nat := if s.pwr.halved then n else 2 * n
  if pt ≤ goal then min goal (pt + half (s.fld pgPwr 0 0 rPwrSlew 7 0))
  else
    let byFall := max goal (pt - half (s.fld pgPwr 0 0 rPwrSlew 23 16))
    let byShed := match s.shedLevel with
      | some v => if pt > 200 * v then max (200 * v) (pt - 2 * s.fld pgPwr 0 0 rPwrShed 24 16) else byFall
      | none => byFall
    let low := min byFall byShed
    if s.thm.phase = 1 || s.thm.phase = 2 then min low (200 * 288) else low

/-- The limiter shown: RISE or FALL while a slew holds P_T, else the least limit where it binds. -/
def State.limiterNow (s : State) (demand pt : Nat) : Nat :=
  let (k, lim) := leastLimit s.limits
  let goal := 200 * min demand lim
  if pt < goal then 6 else if pt > goal then 7 else if demand ≤ lim then 0 else k

/-- Flat-power mode is in force: enabled, and no SHED, ADJOURN or BROKEN binds L (R407). -/
def State.flatOn (s : State) : Bool :=
  let k := (leastLimit s.limits).1
  s.fld pgPwr 0 0 rPwrFlat 31 31 = 1 && k != 3 && k != 4 && k != 5

/-- The floor, in units of 5 mW (R397, R407). -/
def State.powerFloor (s : State) (pt : Nat) : Nat :=
  let f := pt - 200 * 48
  if s.flatOn then max f (s.pwr.flatAvg * (100 - s.fld pgPwr 0 0 rPwrFlat 23 16) / 100) else f

/-- The running average A after 10 µs, a step of 10 µs ÷ tau toward the estimate (R407); its rounding is not stated. -/
def State.flatNext (s : State) (est : Nat) : Nat :=
  let d := 1000 * max 1 (s.fld pgPwr 0 0 rPwrFlat 6 0)
  (s.pwr.flatAvg * (d - 1) + 200 * est) / d

/-! ### Means of control (R400, R401) -/

/-- φ of the site of a logical core, and of a physical vault. -/
def State.phiCore (s : State) (c : Nat) : Nat := match smFind s.boot.coreSite c with | some p => smGet 0 s.thm.phi p | none => 0

/-- Rests of the ACTIVE cores: a rest that is in force ends at the later end (R165, R400). -/
def State.giveRests (s : State) : State :=
  (s.parts.flatMap (fun e => e.2.cores)).foldl (fun s c =>
    let d := max s.pwr.theta (s.phiCore c) * 33000 / 64
    if !s.coreActive c || d = 0 then s
    else s.modCore c (fun x =>
      if x.rest = 0 then { x with rest := d, restAt := s.timeUs }
      -- 3,300 cycles a microsecond have gone by since the first of the two began
      else { x with rest := max x.rest (3300 * (s.timeUs - x.restAt) + d) })) s

/-- Bank-token grants (R400, R421); a pause of bank programs ends with the grant, but in an adjournment (R212). -/
def State.giveGrants (s : State) : State :=
  (List.range 288).foldl (fun s p => s.modVault p (fun v => { v with
    grant := if s.thm.phase != 0 then 0 else max 1 (32 * (64 - max s.pwr.theta (smGet 0 s.thm.phi p)) / 64)
    paused := v.paused && s.thm.phase != 0 })) s

/-- θ, t_f and t_c: the spec bounds them and states no rule that gives their values, so they are free values. -/
def State.drawControls (s : State) : State :=
  let v := s.freeVal.toNat
  let s1 := s.freeUsed
  { s1 with pwr := { s1.pwr with theta := bits v 5 0, tf := bits v 31 16 % 101, tc := if s.thm.phase != 0 then 0 else bits v 47 32 % 101 } }

/-- Energy of 10 µs at the estimate, 10 µJ a watt; what is below 1 mJ is carried (R408). -/
def State.addEnergy (s : State) (est : Nat) : State :=
  let e := s.pwr.fracUj + 10 * est
  ({ s with pwr := { s.pwr with fracUj := e % 1000 } }).bump pgPwr 0 0 rPwrEnergyMj (e / 1000)

/-- GOVERNOR_TICK: 10 µs pass, with an estimate and a demand in W. -/
def execGovernorTick (est demand : Nat) (s : State) : Host.Outcome State Fault Refusal :=
  .next (reachDev.take s (
    let s0 := { s with timeUs := s.timeUs + 10 }
    let s1 := s0.shedCheck
    let lim := (leastLimit s1.limits).2
    let pt := s1.nextTarget demand
    let short := decide (200 * est < s1.powerFloor pt)
    let s2 := { s1 with pwr := { s1.pwr with
      est := est, target := pt, limit := lim, limiter := s1.limiterNow demand pt, flatActive := s1.flatOn, flatAvg := s1.flatNext est,
      floorShort := short, msShort := s1.pwr.msShort || short, msOver := s1.pwr.msOver || decide (est > lim + 400) } }
    ((s2.addEnergy est).drawControls.giveRests).giveGrants))

end Sys2Proof.Machine
end

