-- ==== Sys2Proof/Machine/Thermal.lean ====
section
/-! DEFINITION. Temperatures, throttling, the coolant interface, adjournment, resume and shutdown (R409 to R429, R512, R516,
R524). Temperatures are in units of 1/16 °C. -/

namespace Sys2Proof.Machine

/-! ### Events (R512, R516) -/

/-- STW_EVENT takes an event while it holds none; the event also goes out on the sideband (R512, R516). -/
def State.stwEvent (s : State) (code : Nat) : State :=
  let s1 := if s.fld pgStw 0 0 rStwEvent 31 31 = 1 then s
    else (s.setReg pgStw 0 0 rStwEvent (BitVec.ofNat 64 (code + 2147483648))).setInt pgStw 0 2
  s1.emit (.sideband 0 (BitVec.ofNat 32 code :: List.replicate 7 0) [])

/-! ### Sensors (R409 to R412) -/

/-- A DRAM-layer sensor, by device number; a logic sensor otherwise. -/
def isDram (n : Nat) : Bool := decide (n % 176 ≥ 48)

/-- The twin of a sensor (R409). -/
def twinOf (n : Nat) : Option Nat :=
  let k := n % 176
  if k < 48 then some (if k % 2 = 0 then n + 1 else n - 1)
  else
    let i := k - 48
    let row := i / 4 % 4
    let col := i % 4
    if (row = 1 || row = 2) && (col = 1 || col = 2) then some (if i / 16 % 2 = 0 then n + 16 else n - 16) else none

/-- The same-layer grid neighbours of a DRAM-layer sensor. -/
def gridNear (n : Nat) : List Nat :=
  let i := n % 176 - 48
  let row := i / 4 % 4
  let col := i % 4
  (if row > 0 then [n - 4] else []) ++ (if row < 3 then [n + 4] else []) ++ (if col > 0 then [n - 1] else []) ++ (if col < 3 then [n + 1] else [])

/-- Warning, throttle and shutdown thresholds and the hysteresis of a sensor's kind. -/
def warnAt (n : Nat) : Int := if isDram n then 1440 else 1568
def throttleAt (n : Nat) : Int := if isDram n then 1552 else 1664
def hystOf (n : Nat) : Int := if isDram n then 64 else 80

/-- Sensors that the round reads: the logic sensors are unpowered while the device is ADJOURNED (R423). -/
def State.powered (s : State) (n : Nat) : Bool := isDram n || s.boot.state != .adjourned

/-- Reading n of a round. -/
def readAt (l : List Int) (n : Nat) : Int := l.getD n 0

/-- A sensor whose reading stands still for 256 rounds while its twin, or the mean of its neighbours, moved by more than 2 °C
(R411). -/
def State.stuck (s : State) (n : Nat) : Bool :=
  let h := s.thm.hist
  let now := h.headD []
  let old := h.getD 256 []
  decide (h.length ≥ 257) && h.all (fun l => readAt l n = readAt now n) &&
    (match twinOf n with
     | some t => decide ((readAt now t - readAt old t).natAbs > 32)
     | none =>
       let ns := gridNear n
       decide (((ns.map (fun m => readAt now m - readAt old m)).foldl (· + ·) 0).natAbs > 32 * ns.length))

/-- A sensor becomes BROKEN (R411). -/
def State.breaks (s : State) (n : Nat) : Bool :=
  let r := s.reading n
  s.powered n && !s.broken n && (decide (r < -640) || decide (r > 2400) || s.stuck n)

def State.setSensor (s : State) (n st : Nat) : State := { s with thm := { s.thm with status := smSet 0 s.thm.status n st } }

/-- Sensors that became BROKEN in this round. -/
def State.breakSensors (s : State) : State :=
  ((List.range 352).filter (fun n => s.breaks n)).foldl (fun s n =>
    ((s.setSensor n 2).bump pgThm 0 0 rThmBrokens 1).setErr pgThm 0 1) s

/-- A twin pair, by its lower sensor: SUSPECT after 8 rounds apart, GOOD again after 1,000 rounds near (R411). -/
def State.pairRound (s : State) (a b : Nat) : State :=
  if s.broken a || s.broken b || !s.powered a then s
  else
    let d := (s.reading a - s.reading b).natAbs
    let ap := if d > 96 then smGet 0 s.thm.apart a + 1 else 0
    let nr := if d ≤ 32 then smGet 0 s.thm.near a + 1 else 0
    let s1 := { s with thm := { s.thm with apart := smSet 0 s.thm.apart a ap, near := smSet 0 s.thm.near a nr } }
    let low := if s.reading b < s.reading a then b else a
    if ap ≥ 8 && smGet 0 s.thm.status low = 0 then ((s1.setSensor low 1).bump pgThm 0 0 rThmSuspects 1).setErr pgThm 0 0
    else if nr ≥ 1000 then
      [a, b].foldl (fun s n => if smGet 0 s.thm.status n = 1 then s.setSensor n 0 else s) s1
    else s1

def State.pairsRound (s : State) : State :=
  (List.range 352).foldl (fun s n => match twinOf n with
    | some t => if n < t then s.pairRound n t else s
    | none => s) s

/-- BROKEN sensors of a half that count (R412, R423). -/
def State.brokenIn (s : State) (half : Nat) : Nat :=
  ((List.range 176).filter (fun i => s.broken (176 * half + i) && s.powered (176 * half + i))).length

/-- More than 4 BROKEN sensors in a half bind the device to half its TDP until device reset (R412). -/
def State.halfCaps (s : State) : State :=
  let a := s.thm.capA || decide (s.brokenIn 0 > 4)
  let b := s.thm.capB || decide (s.brokenIn 1 > 4)
  let s1 := { s with thm := { s.thm with capA := a, capB := b } }
  if (a && !s.thm.capA) || (b && !s.thm.capB) then s1.setErr pgThm 0 2 else s1

/-- What a sensor shows in a round: one that is BROKEN counts as 1 °C above its throttle threshold (R411). -/
def State.shows (s : State) (l : List Int) (n : Nat) : Int := if s.broken n then throttleAt n + 16 else readAt l n

/-- The reading of a sensor or of its twin pair: the higher of the two (R411). -/
def State.chan (s : State) (l : List Int) (n : Nat) : Int :=
  match twinOf n with
  | some t => max (s.shows l n) (s.shows l t)
  | none => s.shows l n

def State.now (s : State) : List Int := s.thm.hist.headD []

/-- The sensors by which the channels of the device go: each pair by one of its sensors. -/
def State.channels (s : State) : List Nat :=
  (List.range 352).filter (fun n => s.powered n && (match twinOf n with | some t => decide (n < t) | none => true))

/-- A stack column's sensors: grid position `i` of a half, in all layers. -/
def columnSensors (half i : Nat) : List Nat := (List.range 8).map (fun k => 176 * half + 48 + 16 * k + i)

/-- A stack column's reading (R409). -/
def State.column (s : State) (l : List Int) (half i : Nat) : Int :=
  (columnSensors half i).foldl (fun m n => max m (s.chan l n)) (-640)

/-! ### Local throttle, alert and projection (R413, R414, R417, R418) -/

/-- The sensors that cover a site: the logic pair of its cluster and the eight sensors of its block. -/
def covering (site : Nat) : List Nat :=
  let half := site / 144
  let rank := site % 144 / 12
  let file := site % 12
  [176 * half + 2 * (rank / 3 * 6 + file / 2), 176 * half + 2 * (rank / 3 * 6 + file / 2) + 1]
    ++ columnSensors half (rank / 3 * 4 + file / 3)

/-- φ of a site after a round. -/
def State.phiNext (s : State) (site : Nat) : Nat :=
  let v := smGet 0 s.thm.phi site
  let ns := (covering site).filter (fun n => s.powered n)
  if ns.any (fun n => s.broken n) then 48
  else if ns.any (fun n => decide (s.chan s.now n ≥ throttleAt n)) then min 48 (v + 1)
  else if ns.all (fun n => decide (s.chan s.now n ≤ throttleAt n - hystOf n)) then v - 1
  else v

def State.phiRound (s : State) : State :=
  let l := (List.range 288).map (fun p => (p, s.phiNext p))
  let rose := l.any (fun x => smGet 0 s.thm.phi x.1 = 0 && decide (x.2 > 0))
  let s1 := { s with thm := { s.thm with phi := l.foldl (fun m x => smSet 0 m x.1 x.2) s.thm.phi } }
  let s2 := if rose then s1.setInt pgThm 0 2 else s1
  if l.any (fun x => decide (x.2 > 0)) then s2.bump pgThm 0 0 rThmThrottleMs 1 else s2

/-- Warning readings, with their hysteresis. -/
def State.warnRound (s : State) : State :=
  let ns := s.channels
  let hot := ns.any (fun n => decide (s.chan s.now n ≥ warnAt n))
  let cool := ns.all (fun n => decide (s.chan s.now n ≤ warnAt n - hystOf n))
  { s with thm := { s.thm with warn := hot || (s.thm.warn && !cool) } }

/-- THERM_ALERT_N is asserted (R414). -/
def State.alert (s : State) : Bool :=
  s.thm.warn || s.thm.predict.isSome || s.thm.phase != 0 || s.boot.state = .adjourned || s.thm.capA || s.thm.capB || s.thm.trip

/-- THERM_ALERT_N that becomes asserted sets the warning interrupt. -/
def State.alertFrom (s old : State) : State := if s.alert && !old.alert then s.setInt pgThm 0 1 else s

/-- T_now and its rise over 256 rounds for the 32 columns and the logic pairs, with their throttle thresholds. The rise is 0
until 256 rounds have been read. -/
def State.trends (s : State) : List (Int × Int × Int) :=
  let old := s.thm.hist.getD 256 []
  let rise (a b : Int) : Int := if s.thm.hist.length ≥ 257 then max 0 (a - b) else 0
  ((List.range 32).map (fun k =>
    let t := s.column s.now (k / 16) (k % 16)
    (t, rise t (s.column old (k / 16) (k % 16)), (1552 : Int))))
  ++ (if s.boot.state = .adjourned then [] else (List.range 48).map (fun k =>
    let n := 176 * (k / 24) + 2 * (k % 24)
    let t := s.chan s.now n
    (t, rise t (s.chan old n), (1664 : Int))))

/-- T_p in units of 1/1,024 °C: T_now + r × horizon, r the rise ÷ 0.256 s (R417). -/
def State.projected (s : State) (x : Int × Int × Int) : Int := 64 * x.1 + 25 * x.2.1 * (s.fld pgThm 0 0 rThmCfg 23 16)

/-- A_1s, the 1 s average power, W. -/
def State.avg1s (s : State) : Nat := (s.pwr.avgs.foldl (· + ·) 0) / max 1 s.pwr.avgs.length

/-- The predictive limit recomputed (R418): never below its floor of 600 W. -/
def State.predictValue (s : State) (prev : Nat) (ts : List (Int × Int × Int)) : Nat :=
  let over_ := ts.filter (fun x => decide (s.projected x ≥ 64 * x.2.2) && decide (s.projected x > 64 * x.1))
  let v := over_.foldl (fun m x =>
    min m ((s.avg1s : Int) * (64 * (x.2.2 - x.1)) / (s.projected x - 64 * x.1)).toNat) (min prev 2400)
  let hot := ts.any (fun x => decide (x.1 ≥ x.2.2))
  max 600 (if hot then 0 else v)

/-- PREDICT in a round (R417, R418). -/
def State.predictRound (s : State) : State :=
  let ts := s.trends
  let top := ts.foldl (fun m x => max m (s.projected x / 64)) (-640)
  let s0 := { s with thm := { s.thm with projected := top } }
  let reach := s.fld pgThm 0 0 rThmCfg 29 29 = 1 && ts.any (fun x => decide (s.projected x ≥ 64 * x.2.2))
  let low := ts.all (fun x => decide (s.projected x ≤ 64 * (x.2.2 - (if x.2.2 = 1552 then 64 else 80))))
  match s.thm.predict with
  | none =>
    if !reach then s0
    else
      let s1 := { s0 with thm := { s0.thm with predict := some (s.predictValue 2400 ts), predictLow := 0 } }
      s1.bump pgThm 0 0 rThmPredictMs 1
  | some v =>
    let n := if low then s.thm.predictLow + 1 else 0
    if n ≥ 1000 then { s0 with thm := { s0.thm with predict := none, predictLow := 0 } }
    else
      let s1 := { s0 with thm := { s0.thm with predict := some (s.predictValue v ts), predictLow := n } }
      s1.bump pgThm 0 0 rThmPredictMs 1

/-! ### Adjournment (R419 to R422) -/

/-- A vault in phase 1: its program pauses, the change list is re-sealed, and it evicts and drains (R187, R421). -/
def State.adjournVault (s : State) (p : Nat) : State :=
  if (s.vault p).watchman.isSome then s
  else
    let s1 := s.modVault p (fun v => { v with grant := 0, run := v.run.map (fun r => { r with units := [] }) })
    ((s1.resealList p).memoryAgain p).drainVault p

/-- Adjournment starts in READY or DEGRADED (R419, R421): phase 1. -/
def State.adjourn (s : State) (coolant : Bool) : State :=
  let s1 := { s with thm := { s.thm with phase := 1, since := s.timeUs, holdFrom := s.timeUs }, pwr := { s.pwr with tc := 0 } }
  let s2 := ((if coolant then s1.setErr pgThm 0 5 else s1).bump pgThm 0 0 rThmAdjourns 1).setInt pgThm 0 4
  let s3 := s2.parts.foldl (fun s e => s.abandonStep e.1) s2
  (s3.vaults.map (·.1)).foldl (fun s p => s.adjournVault p) s3

/-- A sudden stop (R419, R425, R429). -/
def State.suddenStop (s : State) (coolant : Bool) : State :=
  let s1 := { s with thm := { s.thm with holdFrom := s.timeUs } }
  match s.boot.state with
  | .ready => if s.thm.phase = 0 then s1.adjourn coolant else s1
  | .degraded => if s.thm.phase = 0 then s1.adjourn coolant else s1
  | .aon => { s1 with thm := { s1.thm with bringupHeld := true } }
  | .boot => { s1 with thm := { s1.thm with bringupHeld := true } }
  | .training => { s1 with thm := { s1.thm with bringupHeld := true } }
  | .check => { s1 with thm := { s1.thm with bringupHeld := true } }
  | _ => s1

/-- COOLANT_FAULT (R419). -/
def execCoolantFault (s : State) : Host.Outcome State Fault Refusal :=
  .next (reachDev.take s (
    let s1 := { s with thm := { s.thm with coolant := true } }
    (if s.fld pgThm 0 0 rThmCfg 31 31 = 1 then s1.suddenStop true else s1).alertFrom s))

/-- COOLANT_FAULT_RELEASE (R425): the resume hold begins. -/
def execCoolantFaultRelease (s : State) : Host.Outcome State Fault Refusal :=
  .next (reachDev.take s (if s.thm.coolant then { s with thm := { s.thm with coolant := false, holdFrom := s.timeUs } } else s))

/-- The rise of a stack column over 32 rounds (R419); 0 until they have been read. -/
def State.rise32 (s : State) (k : Nat) : Int :=
  if s.thm.hist.length ≥ 33 then s.column s.now (k / 16) (k % 16) - s.column (s.thm.hist.getD 32 []) (k / 16) (k % 16) else 0

/-- Stack columns that rise faster than sudden_rate. -/
def State.fastColumns (s : State) : Nat :=
  ((List.range 32).filter (fun k => decide (s.rise32 k * 1000 > 512 * (s.fld pgThm 0 0 rThmCfg 5 0 : Int)))).length

/-- The sudden-stop check of a round (R419); a column's rise restarts the resume hold (R425). -/
def State.suddenRound (s : State) : State :=
  let top := (List.range 32).foldl (fun m k => max m (s.rise32 k * 1000 / 32)) 0
  let n := s.fastColumns
  let s1 := { s with thm := { s.thm with rate := top, holdFrom := if n > 0 then s.timeUs else s.thm.holdFrom } }
  if s.fld pgThm 0 0 rThmCfg 30 30 = 1 && decide (n ≥ s.fld pgThm 0 0 rThmCfg 12 8) then s1.suddenStop false else s1

/-- R425's condition. -/
def State.resumeOk (s : State) : Bool :=
  !s.thm.coolant && decide (s.timeUs ≥ s.thm.holdFrom + 1000000 * s.fld pgThm 0 0 rThmResume 7 0) &&
    s.channels.all (fun n => !isDram n || decide (s.chan s.now n ≤ 16 * (s.fld pgThm 0 0 rThmResume 23 16 : Int)))

/-- The sealed move of a half (R422). The registers of the core-island pages keep their values without it: no write reaches
them while the device is ADJOURNED (R424). -/
def State.sealOf (s : State) (half : Nat) : Sealed :=
  let vs := s.vaults.filter (fun e => siteHalf e.1 = half)
  { cores := s.cores.filter (fun e => coreHalf e.1 = half), valids := vs.map (fun e => (e.1, e.2.valid)),
    suspects := vs.map (fun e => (e.1, e.2.suspects)), buckets := vs.map (fun e => (e.1, e.2.bucket)),
    alm := s.alm }

/-- LINK_STATE with every port-up bit clear (R422). -/
def State.linksGone (s : State) : State :=
  if !s.fab.isMember then s
  else
    let q := (s.fab.linkSeq + 1) % 262144
    let s1 := { s with fab := { s.fab with linkSeq := q, links := smPut s.fab.links s.fab.device (0, q) } }
    s1.flood 0x0A (s.fab.device % 64 + q <<< 14) []

/-- SEALED_MOVE: each half that is not lost has written its sealed move, within 50 ms of the trigger (R422, R429). -/
def execSealedMove (us : Nat) (s : State) : Host.Outcome State Fault Refusal :=
  .next (reachDev.take s (
    if s.thm.phase != 1 || us > 50000 then s
    else
      let s1 := { s with thm := { s.thm with
        phase := 2, sealUs := us, sealedOk := true,
        sealA := if s.fencedHalf = some 0 then none else some (s.sealOf 0),
        sealB := if s.fencedHalf = some 1 then none else some (s.sealOf 1) } }
      s1.linksGone))

/-- SEAL_TIMEOUT (R422). -/
def execSealTimeout (s : State) : Host.Outcome State Fault Refusal :=
  .next (reachDev.take s (
    if s.thm.phase != 1 then s
    else
      let s1 := { s with thm := { s.thm with phase := 2, sealedOk := false, sealA := none, sealB := none } }
      (s1.setErr pgPwr 0 2).linksGone))

/-- Every Mioquin port goes DOWN. -/
def State.portsDown (s : State) : State := (List.range 8).foldl (fun s n => s.portDown n) s

/-- A device state that remembers the one left (R512). -/
def State.enterFrom (s : State) (d : DevState) : State :=
  let old := s.boot.state
  let s1 := s.enter d
  { s1 with boot := { s1.boot with prior := if old = .adjourned then s.boot.prior else old } }

/-- ADJOURN_PHASE3 (R423). -/
def execAdjournPhase3 (s : State) : Host.Outcome State Fault Refusal :=
  .next (reachDev.take s (
    if s.thm.phase != 2 then s
    else
      let s1 := { s with
                  thm := { s.thm with phase := 3 }, boot := { s.boot with rails := [false, false, false, false, true, true] }
                  meshA := s.meshA.supplyLost, meshB := s.meshB.supplyLost }
      (((s1.watchOn 0).watchOn 1).portsDown).enterFrom .adjourned))

/-! ### Device reset (R374, R428, R431, R432) -/

/-- What a device reset leaves: fuses, NOR devices, pins and supplies, and what stands outside the device. Every other part
is as after reset, in BOOT; the PCIe link is down. A COOLANT_FAULT_N that is still asserted holds bring-up (R419, R525). -/
def State.deviceReset (s : State) : State :=
  let b : Boot := { fuses := s.boot.fuses, stepping := s.boot.stepping, romVer := s.boot.romVer, aonGood := s.boot.aonGood,
                    hubGood := s.boot.hubGood }
  let x : Secure := { norA := s.sec.norA, norB := s.sec.norB, keys := s.sec.keys, revoked0 := s.sec.revoked0, svn := s.sec.svn,
                      seed := s.sec.seed, rom := s.sec.rom, draws := s.sec.draws }
  let h : HostLink := { perst := s.host.perst, mem := s.host.mem }
  { boot := b, sec := x, host := h, far := s.far.map (fun (p : FarPort) => ({ mem := p.mem, poison := p.poison } : FarPort)),
    pwr := { pinShed := s.pwr.pinShed }, thm := { coolant := s.thm.coolant, bringupHeld := s.thm.coolant }, freeCtr := s.freeCtr, sent := s.sent,
    pending := s.pending }

/-- A reading lies above its warning threshold minus hysteresis (R428). -/
def State.tooWarm (s : State) : Bool := s.channels.any (fun n => decide (s.chan s.now n > warnAt n - hystOf n))

/-- The device reset of a fabric RESET (R374): the guild re-forms, with epoch 0. -/
def State.guildReset (s : State) : State :=
  let s1 := s.deviceReset
  let f : Fabric := { isMember := s.fab.isMember, device := s.fab.device, guild := s.fab.guild, members := s.fab.members,
                      master := s.fld pgFab 0 0 rFabGuild 11 6, market := s.fab.market, marketLinks := s.fab.marketLinks }
  ({ s1 with fab := f }).setFld pgFab 0 0 rFabGuild 11 6 (s.fld pgFab 0 0 rFabGuild 11 6)

/-- The device reset of a kind: of the steward watchdog, which STW_EVENT records (R431, R512), of a fabric RESET, or any other. -/
def State.resetAs (s : State) (k : ResetKind) : State :=
  match k with
  | .plain => s.deviceReset
  | .watchdog => s.deviceReset.stwEvent 5
  | .fabric => s.guildReset

/-- A device reset is requested: it is held while a reading is too warm (R428). -/
def State.resetOrHold (s : State) (k : ResetKind) : State :=
  if s.tooWarm then { s with thm := { s.thm with resetHeld := true, heldAs := k }, boot := { s.boot with resetRequested := true } }
  else s.resetAs k

/-- A reset that was held, or that R468 asked for, begins once every reading has fallen far enough (R428). -/
def State.heldReset (s : State) : State :=
  if (s.thm.resetHeld || s.boot.resetRequested) && !s.tooWarm then s.resetAs s.thm.heldAs else s

/-! ### Resume (R425) -/

/-- The SRAM of a vault shell loses its supply: the valid bits, the write queue, the merge buffer, the guest queue and the
change list are gone, with what waited at the mesh ejection port (R199, R223). -/
def Vault.shellGone (v : Vault) : Vault :=
  { v with valid := [], wq := [], mb := [], rewrites := [], guests := [], held := [], clears := [], filling := [],
           change := [], changeLost := v.changeLost || v.mode = .resealing }

/-- A half's sealed move is restored, what the shells held beside it is gone (R199), and its cores return to their step marks. -/
def State.unseal (s : State) (half : Nat) (x : Sealed) : State :=
  let cores := x.cores.map (·.1)
  let s1 := s.haltCores cores
  let s2 := x.cores.foldl (fun s e => (s.setCore e.1 e.2).toMark e.1) s1
  let s3 := (halfVaults half).foldl (fun s p => s.modVault p (fun v => { v.shellGone with
    valid := smGet [] x.valids p, suspects := smGet [] x.suspects p, bucket := smGet 0 x.buckets p, progs := [], run := none })) s2
  { s3 with alm := x.alm }

/-- The state in which the halves are again, a half without a sealed move being lost with its SRAM (R422, R464). -/
def State.resumeHalves (s : State) : State :=
  let one (s : State) (half : Nat) (x : Option Sealed) : State :=
    match x with
    | some y => s.unseal half y
    | none => s
  let s1 := ((one (one s 0 s.thm.sealA) 1 s.thm.sealB).watchOff 0).watchOff 1
  let s2 := if s.thm.sealA.isNone then s1.fenceHalf 0 true else s1
  if s.thm.sealB.isNone then s2.fenceHalf 1 true else s2

/-- RESUME (R425): the device returns to the state that it left, P_T at READY idle power, which the spec does not state: a free
value. Where neither half has a sealed move the device is reset (R468). -/
def execResume (s : State) : Host.Outcome State Fault Refusal :=
  .next (reachDev.take s (
    if s.boot.state != .adjourned || !s.resumeOk then s
    else if s.thm.sealA.isNone && s.thm.sealB.isNone then s.resetOrHold .plain
    else
      let pt := s.freeVal.toNat % 480001
      let s1 := s.freeUsed
      let s2 := { s1 with
        thm := { s1.thm with phase := 0 }, pwr := { s1.pwr with target := pt },
        boot := { s1.boot with rails := [true, true, true, true, true, true] } }
      let s3 := (s2.enter s2.boot.prior).resumeHalves
      let s4 := { s3 with thm := { s3.thm with sealA := none, sealB := none, sealedOk := false },
                          d2d := s3.d2d.map (fun (m : D2dMod) => if m.st = ModSt.failed then m else { m.retrained with replay := [[], []], tx := [0, 0] }) }
      let s5 := (List.range 8).foldl (fun s n => if s.portTrains n then s.modFport n (fun p => { p with st := .laserWait }) else s) s4.checkState
      let s6 := s5.parts.foldl (fun s e => if e.2.rolledBack then s.stepStart e.1 else s.idleToMark e.1) s5
      (s6.parts.foldl (fun s e => s.pollRing e.1) s6).admPump))

/-! ### Shutdown (R426 to R428) -/

/-- HALTED: the clocks stop without a sealed move, the ports fall, and the shutdown is reported. -/
def State.shutdown (s : State) (bit_ code : Nat) (rails : List Bool) : State :=
  let s1 := ((s.enterFrom .halted).setErr pgThm 0 bit_).setInt pgThm 0 8
  let s2 := { s1 with
    thm := { s1.thm with phase := 3, trip := true, sealA := none, sealB := none, sealedOk := false },
    pwr := { s1.pwr with tc := 0 }, boot := { s1.boot with rails := rails } }
  (((s2.portsDown).emit (.msix 0 64)).emit (.msix 1 2)).stwEvent code

/-- Every vault's contents, and the tables kept in the reserve vaults, are lost. -/
def State.vaultsLost (s : State) : State :=
  { s with vaults := s.vaults.map (fun e => (e.1, { e.2.shellGone with arr := [] })),
           rollA := [], rollB := [], ledgA := [], ledgB := [], book := [], snap := none, elog := { s.elog with recent := [] } }

/-- The shutdown thresholds of a round, in any state (R426, R427). -/
def State.shutRound (s : State) : State :=
  let dram := s.channels.any (fun n => isDram n && decide (s.chan s.now n ≥ 1712))
  let logic := s.channels.any (fun n => !isDram n && decide (s.chan s.now n ≥ 1840))
  if dram && bit (s.reg pgThm 0 0 hErr).toNat 3 && s.boot.state = .halted then s
  else if dram then (s.shutdown 3 3 [false, false, false, false, false, false]).vaultsLost
  else if logic && s.boot.state != .halted then ((s.watchOn 0).watchOn 1).shutdown 4 4 [false, false, false, false, true, true]
  else s

/-! ### The housekeeping round (R399, R410) -/

/-- The rate of the bottom DRAM layer over 256 rounds halves both slews (R399). -/
def State.slewRound (s : State) : State :=
  let old := s.thm.hist.getD 256 []
  let fast := decide (s.thm.hist.length ≥ 257) && s.thm.phase = 0 && s.boot.state != .halted && !s.pwr.shedding &&
    (List.range 32).any (fun k =>
      let n := 176 * (k / 16) + 48 + k % 16
      decide ((s.shows s.now n - s.shows old n).natAbs * 1000 > 20480))
  let n := if fast then 0 else s.pwr.slowRounds + 1
  { s with pwr := { s.pwr with halved := fast || (s.pwr.halved && decide (n < 1000)), slowRounds := n } }

/-- What the governor counts by the millisecond (R398, R402), and the 1 ms average, corrected by the channels. -/
def State.powerRound (s : State) (power : Nat) : State :=
  let s1 := if s.pwr.msOver then (s.bump pgPwr 0 0 rPwrOverMs 1).setErr pgPwr 0 1 else s
  let s2 := if s.pwr.msShort then (s1.bump pgPwr 0 0 rPwrSlewShortMs 1).setErr pgPwr 0 0 else s1
  { s2 with pwr := { s2.pwr with msOver := false, msShort := false, avg := power, avgs := (power :: s2.pwr.avgs).take 1000 } }

/-- Windows of 1 ms end: NAKs and corrected symbols of the Mioquin ports, and retries of the modules (R346, R351, R352). -/
def State.windowsEnd (s : State) : State :=
  { s with fab := { s.fab with ports := s.fab.ports.map (fun (p : FPort) => { p with naks := 0, symErr := [] }) },
           d2d := s.d2d.map (fun (m : D2dMod) => { m with retries := 0 }) }

/-- The governing temperature of a vault and the sensor that shows it: the hottest of its column's eight, the lowest layer of
those that are equally hot (R194; the order is DESIGN CHOICE, assumption 111). -/
def State.governing (s : State) (p : Nat) : Int × Nat :=
  let half := p / 144 % 2
  let i := p % 144 / 36 * 4 + p % 12 / 3
  let at_ (k : Nat) : Int := s.shows s.now (176 * half + 48 + 16 * k + i)
  (List.range 8).foldl (fun m k => if at_ k > m.1 then (at_ k, 16 * k + i) else m) (at_ 0, i)

/-- Every vault's band follows its governing temperature, which VLT_TEMP shows (R194). -/
def State.bandRound (s : State) : State :=
  (List.range 288).foldl (fun s p =>
    let g := s.governing p
    s.modVault p (fun v => { v with band := nextBand v.band g.1, temp := BitVec.ofInt 16 g.1, sensor := g.2 })) s

/-- HOUSEKEEPING_ROUND: 352 readings in 1/16 °C by device number, and the 1 ms average power in W. -/
def execHousekeepingRound (temps : List Int) (power : Nat) (s : State) : Host.Outcome State Fault Refusal :=
  .next (reachDev.take s (
    let s0 := { s with thm := { s.thm with hist := (temps.take 352 :: s.thm.hist).take 257 } }
    let s1 := ((s0.bump pgThm 0 0 rThmRounds 1).breakSensors.pairsRound.halfCaps).powerRound power
    let s2 := s1.phiRound.warnRound.predictRound.suddenRound.slewRound.windowsEnd
    let s3 := if s2.thm.bringupHeld && s2.resumeOk then { s2 with thm := { s2.thm with bringupHeld := false } } else s2
    (s3.bandRound.shutRound.alertFrom s).heldReset))

/-! ### Rails (R464, R524) -/

/-- RAIL_FAULT: a rail falls without a request: core A, core B, mesh A, mesh B, stack A, stack B. Only a core-island rail takes the
shell SRAM with it (R199); the contents of a stack go with its rail, and its half escalates (R524). -/
def execRailFault (rail : Nat) (s : State) : Host.Outcome State Fault Refusal :=
  .next (reachDev.take s (
    if rail ≥ 6 || !s.boot.rails.getD rail false then s
    else
      let half := rail % 2
      let s1 := { s with boot := { s.boot with rails := s.boot.rails.set rail false } }
      let vaults (f : Vault → Vault) : State := (halfVaults half).foldl (fun s p => s.modVault p f) s1
      if rail < 2 then (vaults Vault.shellGone).fenceHalf half true
      else if rail < 4 then (s1.setMesh half (s1.mesh half).supplyLost).fenceHalf half false
      else (vaults (fun v => { v with arr := [] })).fenceHalf half true))

end Sys2Proof.Machine
end

