-- ==== Sys2Proof/Machine/Boot.lean ====
section
/-! DEFINITION. Device reset and bring-up (R331, R374, R430 to R447, R482 to R487, R497, R511). -/

namespace Sys2Proof.Machine

/-! ### Device reset (R374, R428, R431, R432) -/

/-- DEVICE_RESET (R431, R432). -/
def execDeviceReset (s : State) : Host.Outcome State Fault Refusal := .next (reachDev.take s (s.resetOrHold .plain))

/-- STEWARD_WATCHDOG (R431, R512): the reset is recorded as WATCHDOG. -/
def execStewardWatchdog (s : State) : Host.Outcome State Fault Refusal :=
  .next (reachDev.take s (s.resetOrHold .watchdog))

/-- RESET (R374): a guildmaster passes a market RESET on first. -/
def execReset (m : FMsg) (s : State) : Host.Outcome State Fault Refusal :=
  .next (reachDev.take s (s.forMe m (fun s => s.toMaster m (fun s =>
    (if bits m.info 1 0 = 2 && m.srcGuild != s.fab.guild then s.floodScope true 0x0C 2 [] else s).resetOrHold .fabric))))

/-! ### Supplies (R430, R433) -/

/-- AON_SUPPLY_GOOD: OFF ends. -/
def execAonSupplyGood (s : State) : Host.Outcome State Fault Refusal :=
  .next (reachDev.take s (
    if s.boot.state != .off then s
    else
      let s1 := s.deviceReset
      { s1 with boot := { s1.boot with state := .aon, aonGood := true, hubGood := false } }))

/-- AON_SUPPLY_LOSS: the device goes OFF, and with it everything that no fuse, NOR device or outside memory holds. -/
def execAonSupplyLoss (s : State) : Host.Outcome State Fault Refusal :=
  .next (reachDev.take s (
    let s1 := s.deviceReset
    { s1 with boot := { s1.boot with state := .off, aonGood := false, hubGood := false,
                                     rails := [false, false, false, false, false, false] } }))

/-- HUB_SUPPLY_SETTLED: the hub supplies have been good for 1 ms, and the steward starts. -/
def execHubSupplySettled (s : State) : Host.Outcome State Fault Refusal :=
  .next (reachDev.take s (
    if s.boot.state != .aon || s.thm.bringupHeld then s
    else ({ s with boot := { s.boot with hubGood := true, aonMs := s.timeUs / 1000 % 65536 } }).enter .boot))

/-! ### The fuse map (R436, R437) -/

/-- CRC-8 of a field slot over its bits [31:8], most significant first. -/
def slotCrc (v : Nat) : Nat := crcBits 8 0x07 0 ((List.range 24).map (fun i => v.testBit (31 - i)))

/-- The factory region of a copy, where its CRC passes. -/
def factoryOf (c : List Byte) : Option (List Byte) :=
  let r := c.take 96
  if r.length = 96 && leNat (r.drop 92) = crc32 (r.take 92) then some r else none

/-- What at least two of three hold. -/
def majority3 {α : Type} [DecidableEq α] (a b c : Option α) : Option α :=
  match a, b, c with
  | some x, some y, z => if x = y then some x else if z = some x then some x else if z = some y then some y else none
  | some x, none, z => if z = some x then some x else none
  | none, some y, z => if z = some y then some y else none
  | none, none, _ => none

/-- A field slot of a copy: its value where it is intact. -/
def slotOf (c : List Byte) (j : Nat) : Option Nat :=
  let v := leNat ((c.drop (96 + 4 * j)).take 4)
  if v = 0 || bits v 7 0 = slotCrc v then some v else none

/-- The resolved fuse map: factory region, and slots with none for a void one. -/
def State.fuseFactory (s : State) : Option (List Byte) :=
  majority3 (factoryOf (s.boot.fuses.getD 0 [])) (factoryOf (s.boot.fuses.getD 1 [])) (factoryOf (s.boot.fuses.getD 2 []))
def State.fuseSlots (s : State) : List (Option Nat) :=
  (List.range 64).map (fun j => majority3 (slotOf (s.boot.fuses.getD 0 []) j) (slotOf (s.boot.fuses.getD 1 []) j) (slotOf (s.boot.fuses.getD 2 []) j))

/-- The fuse map is resolved. Copies of the factory region that differ from the winner are written from it (R331). -/
def State.resolveFuses (s : State) : State :=
  let f := s.fuseFactory
  let sl := s.fuseSlots
  let fuses := match f with | some r => s.boot.fuses.map (fun c => r ++ c.drop 96) | none => s.boot.fuses
  let serial := match f with | some r => leNat (r.take 8) | none => 0xFFFFFFFFFFFFFFFF
  let lanes := match f with | some r => if leNat ((r.drop 8).take 1) = 128 then 128 else 96 | none => 96
  let s1 := { s with boot := { s.boot with fuses := fuses, factory := f, slots := sl, serial := serial, lanes := lanes, fuseLost := f.isNone } }
  let s2 := if s.boot.fuses.any (fun c => f.isSome && factoryOf c != f) then s1.log 0x0B {} else s1
  let s3 := if f.isNone then s2.log 0x0C {} else s2
  if sl.any (·.isNone) then s3.setErr pgFuse 0 3 else s3

/-! ### Images (R483, R484) -/

/-- The value of an anti-rollback counter: bits blown in at least two copies (R487). -/
def State.svnOf (s : State) (k : Nat) : Nat :=
  let c := s.sec.svn.getD k []
  let b (i : Nat) : BitVec 64 := c.getD i 0
  let m := (b 0 &&& b 1) ||| (b 0 &&& b 2) ||| (b 1 &&& b 2)
  ((List.range 64).filter (fun i => m.getLsbD i)).length

/-- A fused key hash, resolved among its three copies (R484). -/
def State.keyHash (s : State) (slot : Nat) : Option (List Byte) :=
  let c := s.sec.keys.getD slot []
  majority3 (some (c.getD 0 [])) (some (c.getD 1 [])) (some (c.getD 2 []))

def imgHead (m : Mem) (a n : Nat) : Nat := leNat (memBytes m a n)

/-- M of an image: header bytes 0 to 63 and the SHA-256 of the body. -/
def imageM (m : Mem) : List Byte := memBytes m 0 64 ++ sha256 (memBytes m 16384 (imgHead m 8 4))

/-- Why an image is rejected, or 0 (R484). -/
def State.imageReason (s : State) (m : Mem) : Nat :=
  let len := imgHead m 8 4
  let slot := imgHead m 6 1
  if imgHead m 0 4 != 0x314E5352 || imgHead m 4 2 != 1 || len = 0 || len > 8372224 then 1
  else if (slot = 0 && s.sec.revoked0) || s.keyHash slot != some (sha256 (memBytes m 64 48)) then 2
  else if imgHead m 7 1 < s.svnOf 0 then 3
  else if !Config.slhVerify (memBytes m 64 48) (imageM m) (memBytes m 112 16224) then 4
  else 0

/-- The mask ROM checks image A and then, where it is rejected, image B (R484). -/
def State.checkImages (s : State) : State :=
  let a := s.sec.norA.image
  let b := s.sec.norB.image
  let ra := s.imageReason a
  let rb := if ra = 0 then 0 else s.imageReason b
  let k := if ra = 0 then 0 else if rb = 0 then 1 else 2
  let m := if k = 0 then a else b
  let s1 := { s with sec := { s.sec with
    image := k, reasonA := ra, reasonB := rb, svnA := imgHead a 7 1, svnB := imgHead b 7 1,
    runM := if k = 2 then [] else imageM m, runSvn := if k = 2 then 0 else imgHead m 7 1, idCounter := s.svnOf 1 } }
  let s2 := if ra != 0 then s1.setErr pgSec 0 2 else s1
  let s3 := if rb != 0 then s2.setErr pgSec 0 3 else s2
  { s3 with boot := { s3.boot with idLoaded := true, fwVer := if k = 2 then 0 else imgHead m 12 8 } }

/-! ### The configuration image (R331, R435, R446, R497, R539) -/

/-- The copy that wins, if one does. -/
def cfgWinner (a b : Cfg) : Option Cfg :=
  if a.intact && b.intact then (if a = b then some a else if epochAhead a.epoch b.epoch then some a else if epochAhead b.epoch a.epoch then some b else none)
  else if a.intact then some a else if b.intact then some b else none

/-- A masked key record opened (R497): the key, where the tag holds. -/
def State.openKey (s : State) (lab tag : String) (ctr : Nat) (r : Option (List Byte × List Byte)) : Option (List Byte) :=
  match r with
  | none => none
  | some (masked, t) =>
    let n := leBytes 8 (s.svnOf ctr)
    if t = hmac256 s.sec.seed (asciiBytes tag ++ n ++ masked) then
      some ((masked.zip ((hmac256 s.sec.seed (asciiBytes lab ++ n)).take 32)).map (fun x => x.1 ^^^ x.2))
    else none

/-- The key records as the configuration holds them. -/
def State.loadKeys (s : State) (c : Cfg) : State :=
  { s with sec := { s.sec with owner := s.openKey "RSNL-OWN" "RSNL-OTG" 2 c.owner, guildKey := s.openKey "RSNL-GLD" "RSNL-GTG" 3 c.guild } }

/-- A peer that a chart field names. -/
def chartPeer (v : Nat) : Option (Nat × Nat × Nat) := if bit v 24 then some (bits v 11 0, bits v 17 12, bits v 20 18) else none

/-- What the configuration image sets (R325, R362, R446, R539). -/
def State.applyCfg (s : State) (c : Cfg) (lost : Bool) : State :=
  let f (k : Nat) : Nat := Config.cfgField c.bytes k
  let chart : SMap (Nat × Nat × Nat) := (List.range 8).filterMap (fun n => (chartPeer (f (16 + n))).map (fun e => (n, e)))
  let named := chart.foldl (fun a e => a + 1 <<< e.1) 0
  let s1 := { s with boot := { s.boot with
    chartGuild := f 0 % 4096, chartDevice := f 1 % 64, farExpected := f 3 % 16, chart := chart, named := named,
    seedsValid := !lost && c.seeds = some (s.boot.serial, Config.seedFormat s.sec.runM) } }
  let s2 := { s1 with fab := { s1.fab with
    market := if bit (f 8) 31 then some (bits (f 8) 15 0) else none,
    marketLinks := (List.range (f 9 % 4161)).filterMap (fun i => chartPeer (f (64 + i))) } }
  let s3 := s2.setFld pgFab 0 0 rFabGuild 11 6 (f 2 % 64)
  let s4 := s3.setReg pgSec 0 0 rSecSpdmAlg (if lost then 0 else BitVec.ofNat 64 (f 4 % 4294967296))
  c.remaps.foldl (fun s e => s.modVault e.1 (fun v => { v with remap := e.2, remapCopy := e.2 })) s4

/-- The configuration image is resolved; a lost one is rebuilt from the defaults and reported (R331, R512). -/
def State.resolveCfg (s : State) : State :=
  let a := s.sec.norA.cfg
  let b := s.sec.norB.cfg
  let w := cfgWinner a b
  let c := w.getD { intact := true, epoch := (max a.epoch b.epoch + 1) % 4294967296 }
  let s1 := { s with sec := { s.sec with norA := { s.sec.norA with cfg := c }, norB := { s.sec.norB with cfg := c }, cfgRun := c } }
  let s2 := if w.isSome && (a != c || b != c) then s1.log 0x0B {} else s1
  let s3 := if w.isNone then (s2.log 0x0C {}).stwEvent 2 else s2
  (s3.loadKeys c).applyCfg c w.isNone

/-- The certificate areas are compared (R491). -/
def State.checkCerts (s : State) : State := if s.sec.norA.certs = s.sec.norB.certs then s else s.setErr pgSec 0 0

/-- Every interface starts training (R434). -/
def State.trainAll (s : State) : State :=
  let s1 := { s with
    d2d := s.d2d.map (fun (m : D2dMod) => { m with st := .training }),
    far := s.far.map (fun (p : FarPort) => { p with st := .training }),
    boot := { s.boot with trained := [] } }
  (List.range 8).foldl (fun s n => if s.portTrains n then s.modFport n (fun p => { p with st := .laserWait }) else s) s1

/-- BOOT_DONE (R430, R484, R486): where both images are rejected the device stays in BOOT. The first nonce is drawn here (R494;
the spec does not say when: DEDUCED, assumption 71). -/
def execBootDone (s : State) : Host.Outcome State Fault Refusal :=
  .next (reachDev.take s (
    if s.boot.state != .boot || s.thm.bringupHeld then s
    else
      let s1 := s.resolveFuses.checkImages
      if s1.sec.image = 2 then s1
      else
        let s2 := s1.resolveCfg.checkCerts
        let s3 := { s2 with boot := { s2.boot with bootMs := (s.timeUs - s.boot.entered) / 1000 % 65536 },
                            sec := { s2.sec with nonce := Config.entropy s2.sec.draws, draws := s2.sec.draws + 1 } }
        (s3.enter .training).trainAll))

/-! ### Training (R434, R435) -/

/-- Interface numbers: vault p at p, the host spur 288, module m at 289 + m, far port q at 305 + q, Mioquin port n at
309 + n. A far port that trains shows a width, a mode and a capacity that its device decides: free values. -/
def State.interfaceUp (s : State) (unit : Nat) : State :=
  if unit = 288 then { s with host := { s.host with spur := true } }
  else if 289 ≤ unit && unit < 305 then s.modMod (unit - 289) (fun x => { x with st := .up })
  else if 305 ≤ unit && unit < 309 then
    let v := s.freeVal.toNat
    let w := if bits v 1 0 = 0 then 4 else if bits v 1 0 = 1 then 8 else 16
    s.freeUsed.modFar (unit - 305) (fun x => { x with
      st := if w = 16 && bit v 2 then .up else .upDegraded, width := w, flit256 := bit v 2, cap := bits v 31 8 % 4097 })
  else s

def State.interfaceDown (s : State) (unit : Nat) : State :=
  if unit = 288 then { s with host := { s.host with spur := false } }
  else if 289 ≤ unit && unit < 305 then s.modMod (unit - 289) (fun x => { x with st := .disabled, since := s.timeUs })
  else if 305 ≤ unit && unit < 309 then s.modFar (unit - 305) (fun x => { x with st := .failed })
  else s

/-- INTERFACE_TRAINED: an interface passes, or fails; one that fails from its seed trains cold once (R434). Far ports, and
Mioquin ports, go on training after TRAINING has ended, and the host spur, or an enabled
far port, that has lost its training while the device runs trains again (R16, R392). -/
def execInterfaceTrained (unit : Nat) (ok : Bool) (s : State) : Host.Outcome State Fault Refusal :=
  .next (reachDev.take s (
    let old := smGet 0 s.boot.trained unit
    let held := decide (305 ≤ unit) && decide (unit < 309) && ((s.farPort (unit - 305)).st = .absent || !s.farEnabled (unit - 305))
    let late := ((unit = 288 && old = 0) || 305 ≤ unit) && !held && (s.boot.state = .check || s.inService)
    if unit ≥ 317 || !(s.boot.state = .training || late) || old ≥ 2 then s
    else
      let note (k : Nat) : State := { s with boot := { s.boot with trained := smSet 0 s.boot.trained unit k } }
      if ok then ((note 2).interfaceUp unit).checkState
      else if s.boot.seedsValid && old = 0 then note 1
      else ((note 3).interfaceDown unit).checkState))

/-- TRAINING_DONE: every interface has finished or its bound is reached; what has not passed has failed, but for far ports and
Mioquin ports (R434). -/
def execTrainingDone (s : State) : Host.Outcome State Fault Refusal :=
  .next (reachDev.take s (
    if s.boot.state != .training || s.thm.bringupHeld then s
    else
      let s1 := (List.range 305).foldl (fun s u => if smGet 0 s.boot.trained u = 2 then s
        else ({ s with boot := { s.boot with trained := smSet 0 s.boot.trained u 3 } }).interfaceDown u) s
      ({ s1 with boot := { s1.boot with trainingMs := (s.timeUs - s.boot.entered) / 1000 % 65536 } }).enter .check))

/-! ### Checking and the floor plan (R438 to R443) -/

/-- A unit is marked bad by the fuses: kind TILE 0, VAULT 1, D2D 2, FAR 3, OPTICAL 4 (R436, R439). -/
def State.fuseBad (s : State) (kind unit : Nat) : Bool :=
  let inSlot := s.boot.slots.any (fun v => match v with | some v => bit v 31 && bits v 30 28 = kind && bits v 27 19 = unit | none => false)
  let inMap := match s.boot.factory with
    | none => false
    | some r =>
      match kind with
      | 0 => bit (leNat ((r.drop (12 + 36 * (unit / 144))).take 18)) (unit % 144)
      | 1 => bit (leNat ((r.drop (30 + 36 * (unit / 144))).take 18)) (unit % 144)
      | 2 => bit (leNat ((r.drop 84).take 2)) unit
      | 3 => bit (leNat ((r.drop 86).take 1) % 16) unit
      | _ => bit (leNat ((r.drop 87).take 1)) unit
  inSlot || inMap

/-- The units of each kind, as (kind, unit). -/
def unitsOf (kind : Nat) : List (Nat × Nat) :=
  (List.range (if kind < 2 then 288 else if kind = 2 then 16 else if kind = 3 then 4 else 8)).map (fun u => (kind, u))
def allUnits : List (Nat × Nat) := unitsOf 0 ++ unitsOf 1 ++ unitsOf 2 ++ unitsOf 3 ++ unitsOf 4

/-- A bitmap of numbers. -/
def bitmap (l : List Nat) : Nat := l.foldl (fun a i => a ||| 1 <<< i) 0

/-- Mismatches of a half's tile logics and vaults (R439, R442). -/
def State.mismatches (s : State) (fails : List (Nat × Nat)) (half : Nat) : Nat :=
  ((unitsOf 0 ++ unitsOf 1).filter (fun u => u.2 / 144 = half && s.fuseBad u.1 u.2 != fails.contains u)).length

/-- The lowest slot that is unused in all three copies (R441). -/
def State.freeSlot (s : State) : Option Nat :=
  (List.range 64).find? (fun j => s.boot.fuses.all (fun c => (c.drop (96 + 4 * j)).take 4 = [0, 0, 0, 0]))

/-- A field fuse is blown, in copy 0, 1 and 2 (R437, R441). -/
def State.blow (s : State) (u : Nat × Nat) (j : Nat) : State :=
  let v0 := 1 <<< 31 + u.1 <<< 28 + u.2 <<< 19
  let v := v0 + slotCrc v0
  let put (c : List Byte) : List Byte := c.take (96 + 4 * j) ++ leBytes 4 v ++ c.drop (100 + 4 * j)
  let s1 := { s with boot := { s.boot with fuses := s.boot.fuses.map put, slots := s.boot.slots.set j (some v) } }
  s1.setErr pgFuse 0 1

/-- Field fusing, at most 4 slots (R441). -/
def State.fieldFuse (s : State) (fails : List (Nat × Nat)) (history : List Nat) : State :=
  let drift (u : Nat × Nat) : Bool := decide (u.1 < 2) && (if u.2 / 144 = 0 then s.boot.driftA else s.boot.driftB)
  let us := fails.filter (fun u => history.contains (u.1 * 512 + u.2) && !s.fuseBad u.1 u.2 && !drift u)
  if s.boot.factory.isNone || s.boot.resetRequested then s
  else (us.take 4).foldl (fun s u => match s.freeSlot with
    | some j => s.blow u j
    | none => s.setErr pgFuse 0 4) s

/-- The class of a site (R443). -/
def siteClass (logic vault : Bool) : Nat := if logic then (if vault then 0 else 1) else (if vault then 2 else 3)

/-- The plan of a half: its core sites with the vaults they use, ascending (R443). A half whose mesh router failed has none
(R340). -/
def planOf (cls : Nat → Nat) (half : Nat) (out : Bool) : List (Nat × Nat) :=
  let of (k : Nat) : List Nat := ((List.range 144).map (fun i => 144 * half + i)).filter (fun p => cls p = k)
  let g := of 0
  let l := of 1
  let v := of 2
  let n := if out then 0 else min 128 (min (g.length + min l.length v.length) (g.length + v.length - 4))
  if n ≤ g.length then (g.take n).map (fun p => (p, p))
  else
    let b := n - g.length
    let pairs := g.map (fun p => (p, p)) ++ (l.take b).zip v
    pairs.mergeSort (fun x y => decide (x.1 ≤ y.1))

/-- The floor plan of a half takes effect: sites, cores, and vault roles. -/
def State.buildHalf (s : State) (half : Nat) (out : Bool) : State :=
  let cls (p : Nat) : Nat := (s.site p).cls
  let plan := planOf cls half out
  let sites := (List.range 144).map (fun i => 144 * half + i)
  let s1 := sites.foldl (fun s p =>
    let c := cls p
    let at_ := plan.findIdx? (fun x => x.1 = p)
    let lent := plan.find? (fun x => x.2 = p && x.1 != p)
    let own := plan.find? (fun x => x.1 = p && x.2 != p)
    let s' := s.setSite p { s.site p with
      core := match at_ with | some _ => 0 | none => if c = 0 && !out then 2 else 3
      valid := at_.isSome, logical := match at_ with | some k => half * 128 + k | none => 0
      partner := match lent, own with | some x, _ => x.1 | none, some x => x.2 | none, none => 511 }
    let role : VRole × Nat := match plan.findIdx? (fun x => x.2 = p) with
      | some k => (if lent.isSome then .borrowed else .logical, half * 128 + k)
      | none => (if (c = 0 || c = 2) && !out then .reserve else .disabled, 0)
    s'.modVault p (fun v => { v with role := role.1, logical := role.2, part := none, valid := [] })) s
  let cs : List (Nat × Nat) := plan.mapIdx (fun k x => (half * 128 + k, x.1))
  let s2 := { s1 with boot := { s1.boot with coreSite := cs.foldl (fun m (e : Nat × Nat) => smPut m e.1 e.2) s1.boot.coreSite } }
  if half = 0 then { s2 with boot := { s2.boot with coresA := plan.length } } else { s2 with boot := { s2.boot with coresB := plan.length } }

/-- Sites show their fuses and tests, and their classes (R439, R443). -/
def State.markSites (s : State) (fails : List (Nat × Nat)) : State :=
  (List.range 288).foldl (fun s p =>
    let fl := s.fuseBad 0 p
    let fv := s.fuseBad 1 p
    let tl := fails.contains (0, p)
    let tv := fails.contains (1, p)
    let slot := s.boot.slots.any (fun v => match v with | some v => bit v 31 && bits v 30 28 < 2 && bits v 27 19 = p | none => false)
    s.setSite p { s.site p with
      fuseLogicBad := fl, fuseVaultBad := fv, testLogicFail := tl, testVaultFail := tv, fieldFused := slot,
      cls := siteClass (!fl && !tl) (!fv && !tv) }) s

/-- Modules, far ports and Mioquin ports that are disabled (R439, R444). -/
def State.disableUnits (s : State) (fails : List (Nat × Nat)) : State :=
  let bad (k u : Nat) : Bool := s.fuseBad k u || fails.contains (k, u)
  let s1 := (List.range 16).foldl (fun s m => if bad 2 m then s.modMod m (fun x => { x with st := .disabled, since := s.timeUs }) else s) s
  let s2 := (List.range 4).foldl (fun s q => if bad 3 q then s.modFar q (fun x => { x with st := .absent, width := 0, cap := 0 }) else s) s1
  let s3 := (List.range 8).foldl (fun s n => if bad 4 n then s.modFport n (fun _ => ({ st := .failed } : FPort)) else s) s2
  let fused (k n : Nat) : Nat := bitmap ((List.range n).filter (fun u => s.fuseBad k u))
  let test (k n : Nat) : Nat := bitmap ((List.range n).filter (fun u => fails.contains (k, u)))
  { s3 with boot := { s3.boot with d2dTest := test 2 16, d2dFused := fused 2 16, farTest := test 3 4, farFused := fused 3 4,
                                   optTest := test 4 8, optFused := fused 4 8 } }

/-- The seeds and the test history go to both configuration copies, with the epoch advanced (R435, R441). -/
def State.saveCheck (s : State) (fails : List (Nat × Nat)) : State :=
  let put (n : Nor) : Nor := { n with cfg := { n.cfg with
    epoch := (n.cfg.epoch + 1) % 4294967296, history := fails.map (fun u => u.1 * 512 + u.2),
    seeds := some (s.boot.serial, Config.seedFormat s.sec.runM) } }
  { s with sec := { s.sec with norA := put s.sec.norA, norB := put s.sec.norB } }

/-- START_UP_TEST_DONE: the failed tile logics, vaults, modules, far ports and Mioquin ports, the halves with a failed router, and
treadle_max in W. Steps 1 to 5 of CHECK are done, and the topology check begins (R438). -/
def execStartUpTestDone (logic vaults d2d far opt routers : List Nat) (treadle : Nat) (s : State) : Host.Outcome State Fault Refusal :=
  .next (reachDev.take s (
    if s.boot.state != .check || s.boot.tested || s.thm.bringupHeld then s
    else
      let untrained := (List.range 288).filter (fun p => smGet 0 s.boot.trained p != 2)
      let fails := allUnits.filter (fun u =>
        match u.1 with
        | 0 => logic.contains u.2
        | 1 => vaults.contains u.2 || untrained.contains u.2
        | 2 => d2d.contains u.2
        | 3 => far.contains u.2
        | _ => opt.contains u.2)
      let mA := s.mismatches fails 0
      let mB := s.mismatches fails 1
      let other := allUnits.any (fun u => decide (u.1 ≥ 2) && s.fuseBad u.1 u.2 != fails.contains u)
      let history := s.sec.norA.cfg.history
      let s1 := { s with boot := { s.boot with driftA := decide (mA > 4), driftB := decide (mB > 4), routerA := routers.contains 0,
                                               routerB := routers.contains 1 } }
      let s2 := if mA + mB > 0 || other then s1.setErr pgFuse 0 0 else s1
      let s3 := if mA > 4 || mB > 4 then (s2.setErr pgFuse 0 2).stwEvent 1 else s2
      -- the plan goes by the fuses as they stood and the test; a unit that is fused now failed the test as well
      let s4 := (((s3.fieldFuse fails history).markSites fails).buildHalf 0 (routers.contains 0)).buildHalf 1 (routers.contains 1)
      let s5 := (s4.disableUnits fails).saveCheck fails
      let s6 := { s5 with pwr := { s5.pwr with treadleMax := treadle % 4096 }, boot := { s5.boot with tested := true } }
      (if s6.boot.state = .check then { s6 with boot := { s6.boot with reason := s6.reasonBits } } else s6).declareIf))

/-- TOPOLOGY_DEADLINE (R447): named ports that have not come up are missing, and the device is declared. -/
def execTopologyDeadline (s : State) : Host.Outcome State Fault Refusal :=
  .next (reachDev.take s (
    if s.boot.state != .check || !s.boot.tested || s.thm.bringupHeld then s
    else
      let gone := bitmap ((List.range 8).filter (fun n => bit s.boot.named n && !bit s.boot.agreed n && !bit s.boot.miscabled n))
      ({ s with boot := { s.boot with missing := gone } }).declare))

end Sys2Proof.Machine
end

