-- ==== Sys2Proof/Machine/Secure.lean ====
section
/-! DEFINITION. The SECURE block: management sessions, the anti-rollback counters, keys, certificates and measurements
(R487 to R497, R499, R500). Transports are numbered PF1 0 and SIDEBAND 1. -/

namespace Sys2Proof.Machine

/-! ### Sessions (R494 to R496) -/

/-- The hub has its supplies and the steward runs (R430): what comes in on the sideband is answered. -/
def State.hubOn (s : State) : Bool := s.boot.state != .off && s.boot.state != .aon

/-- A transport brings a request to the device. -/
def State.transportUp (s : State) (t : Nat) : Bool := s.hubOn && decide (t ≤ 1) && (t = 1 || s.hostUp)

def State.session (s : State) (t : Nat) : Session := if t = 0 then s.sec.pf1 else s.sec.sb

def State.setSession (s : State) (t : Nat) (x : Session) : State :=
  if t = 0 then { s with sec := { s.sec with pf1 := x } } else { s with sec := { s.sec with sb := x } }

def State.closeSession (s : State) (t : Nat) : State := s.setSession t { s.session t with opened := false }

/-- A SEC_ write or an admin command keeps a session from its idle limit (R496). -/
def State.touchSession (s : State) (t : Nat) : State := s.setSession t { s.session t with last := s.timeUs }

/-- The transport whose session a function's writes run in: that of PF1, or of the sideband's mailbox. -/
def transportOf (fn : Nat) : Option Nat := if fn = 1 then some 0 else if fn = 66 then some 1 else none

def State.inSession (s : State) (fn : Nat) : Bool :=
  match transportOf fn with | some t => (s.session t).opened | none => false

/-- The R that opens a session: HMAC-SHA-256(owner key, "RSNL-MGMT" ‖ nonce ‖ serial ‖ transport). -/
def State.sessionMac (s : State) (key : List Byte) (t : Nat) : List Byte :=
  hmac256 key (asciiBytes "RSNL-MGMT" ++ leBytes 32 s.sec.nonce.toNat ++ leBytes 8 s.boot.serial ++ leBytes 1 t)

/-- SEC_RESPn as written. -/
def State.respBytes (s : State) : List Byte := (List.range 8).flatMap (fun n => leBytes 4 (s.reg pgSec 0 0 (rSecRespn + 4 * n)).toNat)

/-- A new nonce is drawn. -/
def State.drawNonce (s : State) : State :=
  { s with sec := { s.sec with nonce := Config.entropy s.sec.draws, draws := s.sec.draws + 1 } }

/-- What f failures in a row hold off further OPENs for, µs (R495). -/
def lockOut (f : Nat) : Nat := min (2 ^ (f - 1) * 10000) 10240000

/-- OPEN succeeds: the device is owned, no earlier failures hold it off, and R is what the owner's key gives. -/
def State.openGood (s : State) (t : Nat) : Bool :=
  match s.sec.owner with
  | some key => decide (s.timeUs ≥ s.sec.lockUntil) && s.respBytes = s.sessionMac key t
  | none => false

/-- OPEN is written to SEC_SESSION op. A failed one leaves the slot closed; one that is refused without comparison counts as
a further failure (DEDUCED, assumption 72). -/
def State.sessionOpen (s : State) (t : Nat) : State :=
  let s1 :=
    if s.openGood t then
      (({ s with sec := { s.sec with fails := 0 } }).setSession t { opened := true, last := s.timeUs }).bump pgSec 0 0 rSecSessions 1
    else
      let f := s.sec.fails + 1
      ((({ s with sec := { s.sec with fails := f, lockUntil := s.timeUs + lockOut f } }).closeSession t).bump pgSec 0 0 rSecAuthFails 1).setErr
        pgSec 0 1
  s1.drawNonce

def execSessionOpen (t : Nat) (s : State) : Host.Outcome State Fault Refusal :=
  .next (reachSec.take s (if !s.transportUp t then s else (s.touchSession t).sessionOpen t))

def execSessionClose (t : Nat) (s : State) : Host.Outcome State Fault Refusal :=
  .next (reachSec.take s (if !s.transportUp t then s else s.closeSession t))

/-- A session that has an idle limit has seen nothing for so long (R496). -/
def execSessionIdleTimeout (t : Nat) (s : State) : Host.Outcome State Fault Refusal :=
  .next (reachSec.take s (if t > 1 || s.fld pgSec 0 0 rSecSession 31 16 = 0 then s else s.closeSession t))

/-! ### Anti-rollback counters (R487, R488) -/

/-- One more bit of a counter is blown in its three copies: the lowest that two copies do not hold. -/
def blowBit (c : List (BitVec 64)) : List (BitVec 64) :=
  let b (i : Nat) : BitVec 64 := c.getD i 0
  let m := (b 0 &&& b 1) ||| (b 0 &&& b 2) ||| (b 1 &&& b 2)
  match (List.range 64).find? (fun i => !m.getLsbD i) with
  | some i => (List.range 3).map (fun k => b k ||| (1#64 <<< i))
  | none => c

def blowBits (n : Nat) (c : List (BitVec 64)) : List (BitVec 64) :=
  match n with
  | 0 => c
  | n + 1 => blowBits n (blowBit c)

def State.raiseSvn (s : State) (k n : Nat) : State :=
  { s with sec := { s.sec with svn := s.sec.svn.set k (blowBits n (s.sec.svn.getD k [])) } }

/-- What the rise of a counter invalidates at once (R488). -/
def State.svnRisen (s : State) (k : Nat) : State :=
  if k = 2 then (({ s with sec := { s.sec with owner := none } }).closeSession 0).closeSession 1
  else if k = 3 then { s with sec := { s.sec with guildKey := none } }
  else s

/-- A write to SEC_SVN_COMMIT: counters FIRMWARE 0, IDENTITY 1, OWNER 2, GUILD 3. Through PF0 it has no effect (R500), outside a
session it is refused. -/
def State.svnCommit (s : State) (fn k target : Nat) : State :=
  if fn = 0 then s
  else if !s.inSession fn then s.noteRefuse pgSec 0
  else
    let t0 := min 64 target
    if t0 ≤ s.svnOf k then s.noteClamps pgSec 0 (b2n (t0 != target))
    else
      let t := if k = 0 then min t0 s.sec.runSvn else t0
      let s1 := s.noteClamps pgSec 0 (b2n (t != target))
      if t ≤ s.svnOf k then s1 else (s1.raiseSvn k (t - s.svnOf k)).svnRisen k

/-- A write of a row of the command table that a function of the host link, or the sideband, makes to the SEC_ page. -/
def State.secWrite (s : State) (fn : Nat) (f : State → State) : State :=
  if isVf fn || !s.hubOn || (isHostFn fn && !s.hostUp) then s
  else match transportOf fn with
    | some t => f (s.touchSession t)
    | none => f s

def execSvnCommitFirmware (fn target : Nat) (s : State) : Host.Outcome State Fault Refusal :=
  .next (reachSvn.take s (s.secWrite fn (fun s => s.svnCommit fn 0 (target % 128))))
def execSvnCommitIdentity (fn target : Nat) (s : State) : Host.Outcome State Fault Refusal :=
  .next (reachSvn.take s (s.secWrite fn (fun s => s.svnCommit fn 1 (target % 128))))
def execSvnCommitOwner (fn target : Nat) (s : State) : Host.Outcome State Fault Refusal :=
  .next (reachSvn.take s (s.secWrite fn (fun s => s.svnCommit fn 2 (target % 128))))
def execSvnCommitGuild (fn target : Nat) (s : State) : Host.Outcome State Fault Refusal :=
  .next (reachSvn.take s (s.secWrite fn (fun s => s.svnCommit fn 3 (target % 128))))

/-! ### Key records (R497) -/

/-- The record that holds a key under a counter. -/
def State.sealKey (s : State) (lab tag : String) (ctr : Nat) (key : List Byte) : List Byte × List Byte :=
  let n := leBytes 8 (s.svnOf ctr)
  let m := (key.zip ((hmac256 s.sec.seed (asciiBytes lab ++ n)).take 32)).map (fun x => x.1 ^^^ x.2)
  (m, hmac256 s.sec.seed (asciiBytes tag ++ n ++ m))

/-- Both configuration copies are written, with the epoch advanced. -/
def State.writeCfgs (s : State) (f : Cfg → Cfg) : State :=
  let put (n : Nor) : Nor := { n with cfg := { f n.cfg with epoch := (n.cfg.epoch + 1) % 4294967296 } }
  { s with sec := { s.sec with norA := put s.sec.norA, norB := put s.sec.norB } }

/-! ### Identity and certificates (R489 to R491) -/

/-- SK.seed, SK.prf and PK.seed of a key, n bytes each (R489). -/
def State.keyMaterial (s : State) (lab : String) (context : List Byte) (n : Nat) : List Byte :=
  (List.range 3).flatMap (fun i => (hmac256 s.sec.seed (asciiBytes lab ++ leBytes 1 i ++ context)).take n)

/-- Bytes cut or filled to a length. -/
def sized (n : Nat) (bs : List Byte) : List Byte := bs.take n ++ List.replicate (n - bs.length) 0

def State.identityKey (s : State) : List Byte := s.keyMaterial "RSNL-ID" (leBytes 8 s.sec.idCounter) 24

def State.aliasKey (s : State) : List Byte := s.keyMaterial "RSNL-AK" (sha256 s.sec.runM ++ leBytes 8 s.sec.idCounter) 16

/-- A signature of the identity key (16,224 B) or of the alias key (17,088 B). -/
def State.sign (s : State) (alias_ : Bool) (msg : List Byte) : State × List Byte :=
  ({ s with sec := { s.sec with draws := s.sec.draws + 1 } },
   if alias_ then sized 17088 (Config.slhSign 1 s.aliasKey s.sec.draws msg) else sized 16224 (Config.slhSign 0 s.identityKey s.sec.draws msg))

/-- ALIAS_CERT_READY (R491): the alias certificate is built and signed by the identity key. -/
def execAliasCertReady (s : State) : Host.Outcome State Fault Refusal :=
  .next (reachSec.take s (
    if !(s.boot.state = .ready || s.boot.state = .degraded) || s.sec.aliasReady then s
    else
      let key := Config.slhPublic 1 s.aliasKey
      let (s1, sg) := s.sign false (Config.aliasCert s.boot.serial key [])
      { s1 with sec := { s1.sec with aliasReady := true, aliasCert := Config.aliasCert s.boot.serial key sg } }))

/-- The certificate chain of slot 0: empty before the alias certificate is there, or where the device certificate is for
another identity key. -/
def State.certChain (s : State) : Option (List Byte) :=
  let n := s.sec.norA
  if s.sec.aliasReady && n.certs.length = 3 && n.certKey = Config.slhPublic 0 s.identityKey then
    let certs := n.certs.flatten ++ s.sec.aliasCert
    some (leBytes 2 (36 + certs.length) ++ leBytes 2 0 ++ sha256 (n.certs.headD []) ++ certs)
  else none

/-! ### Measurements (R493) -/

/-- FUSE_SITE of a site. -/
def Site.word (x : Site) : Nat :=
  b2n x.fuseLogicBad <<< 31 + b2n x.fuseVaultBad <<< 30 + b2n x.testLogicFail <<< 29 + b2n x.testVaultFail <<< 28
    + b2n x.fieldFused <<< 27 + (x.cls % 4) <<< 25 + (x.core % 4) <<< 23 + b2n x.valid <<< 22 + (x.logical % 256) <<< 14
    + x.partner % 512

/-- SEC_SVN. -/
def State.svnWord (s : State) : Nat := s.svnOf 3 <<< 24 + s.svnOf 2 <<< 16 + s.svnOf 1 <<< 8 + s.svnOf 0

/-- The bytes of a configuration copy. -/
def Cfg.image (c : Cfg) : List Byte :=
  let key (k : Option (List Byte × List Byte)) : List Nat := match k with | some (a, b) => 1 :: (a ++ b).map (·.toNat) | none => [0]
  Config.cfgImage c.bytes ([[c.epoch], (match c.seeds with | some (a, b) => [a, b] | none => []), c.history, key c.owner, key c.guild]
    ++ c.remaps.map (fun e => e.1 :: e.2.flatMap (fun x => [x.1, x.2])))

/-- The indices that the table of measurement blocks lists. -/
def measIndex (i : Nat) : Bool := (decide (1 ≤ i) && decide (i ≤ 6)) || (decide (0x10 ≤ i) && decide (i < 0x50))

/-- What a measurement block digests. -/
def State.measInput (s : State) (i : Nat) : List Byte :=
  match i with
  | 1 => s.sec.rom
  | 2 => s.sec.runM
  | 3 => leBytes 4 s.svnWord
  | 4 => (s.boot.factory.getD (Config.lostFuses 0))
      ++ (List.range 64).flatMap (fun j => match s.boot.slots.getD j (some 0) with | some v => leBytes 4 v | none => sized 4 (Config.lostFuses (1 + j)))
  | 5 => (List.range 288).flatMap (fun n => leBytes 4 (s.site n).word)
  | 6 => s.sec.cfgRun.image
  | _ =>
    let x := s.part (i - 0x10)
    if x.loads.isEmpty then List.replicate 32 0 else x.loads.flatMap (fun id => match x.pattern id with | some q => q.hash | none => [])

/-- The digest of a measurement block. -/
def State.measure (s : State) (i : Nat) : List Byte := sha256 (s.measInput i)

end Sys2Proof.Machine
end

