-- ==== Sys2Proof/Machine/Spdm.lean ====
section
/-! DEFINITION. The SPDM 1.3 responder (R486, R491 to R493, R539): transports DOE 0 and MCTP 1. The spec gives what the device
supports and what it answers; the layout of the messages is that of the SPDM standard (PRESUMED, assumption 73). -/

namespace Sys2Proof.Machine

def State.spdm (s : State) (t : Nat) : Spdm := if t = 0 then s.sec.doe else s.sec.mctp

def State.setSpdm (s : State) (t : Nat) (x : Spdm) : State :=
  if t = 0 then { s with sec := { s.sec with doe := x } } else { s with sec := { s.sec with mctp := x } }

/-! ### Messages -/

def reqByte (r : List Byte) (i : Nat) : Nat := (r.getD i 0).toNat
def reqNat (r : List Byte) (i n : Nat) : Nat := leNat ((r.drop i).take n)

/-- A message: version 1.3, code, Param1, Param2, body. -/
def spdmMsg (code p1 p2 : Nat) (body : List Byte) : List Byte := leBytes 1 0x13 ++ leBytes 1 code ++ leBytes 1 p1 ++ leBytes 1 p2 ++ body

/-- ERROR with its code and its data. -/
def spdmError (code data : Nat) : List Byte := spdmMsg 0x7F code data []

abbrev eInvalid := 0x01
abbrev eBusy := 0x03
abbrev eUnexpected := 0x04
abbrev eUnspecified := 0x05
abbrev eUnsupported := 0x07
abbrev eLarge := 0x0F
abbrev eNotReady := 0x42

/-- DataTransferSize of a transport (R492). -/
def transferSize (t : Nat) : Nat := if t = 0 then 65536 else 4096

/-! ### Answers. Each request answers with the state after it and the bytes of its response. -/

/-- GET_VERSION: version 1.3, and the connection starts again. -/
def State.spdmVersion (s : State) (t : Nat) (r : List Byte) : State × List Byte :=
  let a := leBytes 1 0x10 ++ leBytes 1 0x04 ++ leBytes 2 0 ++ leBytes 1 0 ++ leBytes 1 1 ++ leBytes 2 0x1300
  (s.setSpdm t { stage := 1, handle := (s.spdm t).handle, vca := r ++ a }, a)

/-- GET_CAPABILITIES: CERT_CAP, CHAL_CAP, MEAS_CAP with signatures, CHUNK_CAP, and the sizes. -/
def State.spdmCapabilities (s : State) (t : Nat) (r : List Byte) : State × List Byte :=
  let x := s.spdm t
  if x.stage != 1 then (s, spdmError eUnexpected 0)
  else
    let a := spdmMsg 0x61 0 0 (leBytes 1 0 ++ [Config.ctExponent] ++ leBytes 2 0 ++ leBytes 4 0x20016 ++ leBytes 4 (transferSize t) ++ leBytes 4 65536)
    (s.setSpdm t { x with stage := 2, peerSize := reqNat r 12 4, vca := x.vca ++ r ++ a }, a)

/-- The external algorithms that a request lists: registry and algorithm. -/
def extAlgs (r : List Byte) : List (Nat × Nat) :=
  (List.range (reqByte r 28)).map (fun i => (reqByte r (32 + 4 * i), reqNat r (34 + 4 * i) 2))

/-- NEGOTIATE_ALGORITHMS: SHA-256, DMTF measurements, and of SLH-DSA-SHA2-128f and SLH-DSA-SHA2-192s, in that order, those
that the requester lists; none while registry is 0 (R539). -/
def State.spdmAlgorithms (s : State) (t : Nat) (r : List Byte) : State × List Byte :=
  let x := s.spdm t
  if x.stage != 2 then (s, spdmError eUnexpected 0)
  else
    let v := (s.reg pgSec 0 0 rSecSpdmAlg).toNat
    let reg := bits v 31 24
    let mine := if reg = 0 then [] else ([bits v 11 0, bits v 23 12].filter (fun a => (extAlgs r).contains (reg, a)))
    let fast := reg != 0 && (extAlgs r).contains (reg, bits v 11 0)
    let meas := if bit (reqByte r 6) 0 then 1 else 0
    let hash := if bit (reqNat r 12 4) 0 then 1 else 0
    let ext := mine.flatMap (fun a => leBytes 1 reg ++ leBytes 1 0 ++ leBytes 2 a)
    let a := spdmMsg 0x63 0 0 (leBytes 2 (36 + ext.length) ++ leBytes 1 meas ++ leBytes 1 0 ++ leBytes 4 (2 * meas) ++ leBytes 4 0
      ++ leBytes 4 hash ++ leBytes 11 0 ++ leBytes 1 0 ++ leBytes 1 mine.length ++ leBytes 1 0 ++ leBytes 2 0 ++ ext)
    (s.setSpdm t { x with stage := 3, algSel := fast, alg := v, vca := x.vca ++ r ++ a }, a)

/-- GET_DIGESTS: the digest of slot 0's chain. -/
def State.spdmDigests (s : State) (t : Nat) (r : List Byte) : State × List Byte :=
  let x := s.spdm t
  if x.stage != 3 then (s, spdmError eUnexpected 0)
  else
    let a := match s.certChain with
      | some c => spdmMsg 0x01 1 1 (sha256 c)
      | none => spdmMsg 0x01 1 0 []
    (s.setSpdm t { x with msgB := x.msgB ++ r ++ a }, a)

/-- GET_CERTIFICATE: a part of slot 0's chain. -/
def State.spdmCertificate (s : State) (t : Nat) (r : List Byte) : State × List Byte :=
  let x := s.spdm t
  if x.stage != 3 then (s, spdmError eUnexpected 0)
  else
    match s.certChain with
    | none => (s, spdmError eInvalid 0)
    | some c =>
      let o := reqNat r 4 2
      let size := bit (reqByte r 3) 0
      if reqByte r 2 % 16 != 0 || (!size && o ≥ c.length) then (s, spdmError eInvalid 0)
      else
        let n := if size then 0 else min (reqNat r 6 2) (min (c.length - o) (65536 - 8))
        let a := spdmMsg 0x02 0 0 (leBytes 2 n ++ leBytes 2 (if size then c.length else c.length - o - n) ++ (c.drop o).take n)
        (s.setSpdm t { x with msgB := x.msgB ++ r ++ a }, a)

/-- What a signature covers: the standard's prefix and context, and the digest of the transcript. -/
def spdmSigned (context : String) (transcript : List Byte) : List Byte :=
  let c := asciiBytes context
  (List.range 4).flatMap (fun _ => asciiBytes "dmtf-spdm-v1.3.*") ++ List.replicate (36 - c.length) 0 ++ c ++ sha256 transcript

/-- The SECURE block makes one signature at a time, each in at most 20 ms (R493). -/
def State.signing (s : State) : Bool := decide (s.sec.signUntil > s.timeUs)

def State.spdmBusy (s : State) : State × List Byte := (s.bump pgSec 0 0 rSecBusy 1, spdmError eBusy 0)

/-- A signature of the alias key: it takes a free time of at most 20 ms. -/
def State.quote (s : State) (msg : List Byte) : State × List Byte :=
  let (s1, sg) := s.sign true msg
  (({ s1 with sec := { s1.sec with signUntil := s1.timeUs + s1.freeVal.toNat % 20001 } }).freeUsed.bump pgSec 0 0 rSecQuotes 1, sg)

/-- A nonce of the responder's. -/
def State.spdmNonce (s : State) : State × List Byte :=
  ({ s with sec := { s.sec with draws := s.sec.draws + 1 } }, leBytes 32 (Config.entropy s.sec.draws).toNat)

/-- The measurement blocks that are there, in index order. -/
def measList : List Nat := [1, 2, 3, 4, 5, 6] ++ (List.range 64).map (0x10 + ·)

/-- The DMTF value type of a measurement. -/
def measType (i : Nat) : Nat := if i = 1 then 0 else if i = 2 then 1 else if i = 3 then 7 else if i = 4 || i = 5 then 2 else 3

/-- A measurement block: a DMTF digest of SHA-256. -/
def State.measBlock (s : State) (i : Nat) : List Byte :=
  leBytes 1 i ++ leBytes 1 1 ++ leBytes 2 35 ++ leBytes 1 (measType i) ++ leBytes 2 32 ++ s.measure i

/-- CHALLENGE: UnsupportedRequest without SLH-DSA-SHA2-128f, ResponseNotReady before the alias certificate, Busy while another
signature is made (R492, R493, R539). -/
def State.spdmChallenge (s : State) (t : Nat) (r : List Byte) : State × List Byte :=
  let x := s.spdm t
  if bits (if x.stage = 3 then x.alg else (s.reg pgSec 0 0 rSecSpdmAlg).toNat) 31 24 = 0 then (s, spdmError eUnsupported 0x83)
  else if x.stage != 3 then (s, spdmError eUnexpected 0)
  else if !x.algSel then (s, spdmError eUnsupported 0x83)
  else if !s.sec.aliasReady then (s, spdmError eNotReady 0)
  else if s.signing then s.spdmBusy
  else match s.certChain with
  | none => (s, spdmError eInvalid 0)
  | some c =>
    if reqByte r 2 % 16 != 0 then (s, spdmError eInvalid 0)
    else
      let (s1, n) := s.spdmNonce
      let kind := reqByte r 3
      let sum := if kind = 0 then [] else sha256 ((if kind = 1 then [1, 2, 3] else measList).flatMap s.measBlock)
      let body := spdmMsg 0x03 0 1 (sha256 c ++ n ++ sum ++ leBytes 2 0 ++ sized 8 ((r.drop 36).take 8))
      let (s2, sg) := s1.quote (spdmSigned "responder-challenge_auth signing" (x.vca ++ x.msgB ++ r ++ body))
      (s2.setSpdm t { s2.spdm t with msgB := [] }, body ++ sg)

/-- GET_MEASUREMENTS: the number of blocks, one block or all of them, signed where that is asked and 128f was selected
(R492, R493, R539). -/
def State.spdmMeasurements (s : State) (t : Nat) (r : List Byte) : State × List Byte :=
  let x := s.spdm t
  let op := reqByte r 3
  let signed := bit (reqByte r 2) 0 && bits x.alg 31 24 != 0 && x.algSel
  if x.stage != 3 then (s, spdmError eUnexpected 0)
  else if op != 0 && op != 255 && !measIndex op then (s, spdmError eInvalid 0)
  else if signed && !s.sec.aliasReady then (s, spdmError eNotReady 0)
  else if signed && s.signing then s.spdmBusy
  else
    let blocks := if op = 0 then [] else if op = 255 then measList else [op]
    let record := blocks.flatMap s.measBlock
    let (s1, n) := s.spdmNonce
    let context := if bit (reqByte r 2) 0 then (r.drop 37).take 8 else (r.drop 4).take 8
    let body := spdmMsg 0x60 (if op = 0 then measList.length else 0) 0 (leBytes 1 blocks.length ++ leBytes 3 record.length ++ record ++ n ++ leBytes 2 0
      ++ sized 8 context)
    if signed then
      let (s2, sg) := s1.quote (spdmSigned "responder-measurements signing" (x.vca ++ x.msgL ++ r ++ body))
      (s2.setSpdm t { s2.spdm t with msgL := [] }, body ++ sg)
    else (s1.setSpdm t { s1.spdm t with msgL := x.msgL ++ r ++ body }, body)

/-- The answer to a whole request, by its code; a request that the table does not list is unsupported. -/
def State.spdmAnswer (s : State) (t : Nat) (r : List Byte) : State × List Byte :=
  let c := reqByte r 1
  if c = 0x84 then s.spdmVersion t r
  else if c = 0xE1 then s.spdmCapabilities t r
  else if c = 0xE3 then s.spdmAlgorithms t r
  else if c = 0x81 then s.spdmDigests t r
  else if c = 0x82 then s.spdmCertificate t r
  else if c = 0x83 then s.spdmChallenge t r
  else if c = 0xE0 then s.spdmMeasurements t r
  else (s, spdmError eUnsupported c)

/-! ### Large messages -/

/-- What a response may hold on a transport: the device's DataTransferSize, or the requester's where that is less. -/
def State.spdmLimit (s : State) (t : Nat) : Nat :=
  let p := (s.spdm t).peerSize
  if p = 0 then transferSize t else min p (transferSize t)

/-- A response that is too long is kept, and the requester told to fetch it in chunks. -/
def State.spdmLarge (s : State) (t : Nat) (a : List Byte) : State × List Byte :=
  if a.length ≤ s.spdmLimit t then (s, a)
  else
    let x := s.spdm t
    let h := (x.handle + 1) % 256
    (s.setSpdm t { x with handle := h, chunkOut := some (h, 0, a) }, spdmMsg 0x7F eLarge 0 (leBytes 1 h))

/-- CHUNK_SEND: the chunks of a large request in order; the last one answers the whole request. -/
def State.spdmChunkSend (s : State) (t : Nat) (r : List Byte) : State × List Byte :=
  let x := s.spdm t
  let h := reqByte r 3
  let q := reqNat r 4 2
  let n := reqNat r 8 4
  let data := (r.drop (if q = 0 then 16 else 12)).take n
  let got : Option (List Byte) :=
    if q = 0 then some data
    else match x.chunkIn with
      | some (h', q', bs) => if h' = h && q' = q then some (bs ++ data) else none
      | none => none
  match got with
  | none => (s.setSpdm t { x with chunkIn := none }, spdmMsg 0x05 1 h (leBytes 2 q ++ spdmError eInvalid 0))
  | some bs =>
    if bs.length > 65536 then (s.setSpdm t { x with chunkIn := none }, spdmMsg 0x05 1 h (leBytes 2 q ++ spdmError eInvalid 0))
    else if bit (reqByte r 2) 0 then
      let (s1, a) := (s.setSpdm t { x with chunkIn := none }).spdmAnswer t bs
      let (s2, a2) := s1.spdmLarge t a
      (s2, spdmMsg 0x05 0 h (leBytes 2 q ++ a2))
    else (s.setSpdm t { x with chunkIn := some (h, q + 1, bs) }, spdmMsg 0x05 0 h (leBytes 2 q))

/-- CHUNK_GET: the next chunk of a large response. -/
def State.spdmChunkGet (s : State) (t : Nat) (r : List Byte) : State × List Byte :=
  let x := s.spdm t
  match x.chunkOut with
  | none => (s, spdmError eUnexpected 0)
  | some (h, q, bs) =>
    if reqByte r 3 != h || reqNat r 4 2 != q then (s, spdmError eInvalid 0)
    else
      let n := min bs.length (s.spdmLimit t - (if q = 0 then 16 else 12))
      let last := decide (bs.length ≤ n)
      (s.setSpdm t { x with chunkOut := if last then none else some (h, q + 1, bs.drop n) },
       spdmMsg 0x06 (b2n last) h (leBytes 2 q ++ leBytes 2 0 ++ leBytes 4 n ++ (if q = 0 then leBytes 4 bs.length else []) ++ bs.take n))

/-! ### Commands -/

/-- A request reaches the responder: it answers once the mask ROM has checked the images; while neither is accepted every
request receives ERROR Unspecified (R486). -/
def State.spdmRequest (s : State) (t : Nat) (f : State → State × List Byte) : State :=
  if !s.transportUp t || !s.boot.idLoaded then s
  else
    let s0 := s.bump pgSec 0 0 rSecSpdmMsgs 1
    let (s1, a) := if s.romOnly then (s0, spdmError eUnspecified 0) else f s0
    s1.emit (.spdm t a)

/-- A request whose answer may be large. -/
def State.spdmPlain (s : State) (t : Nat) (f : State → State × List Byte) : State :=
  s.spdmRequest t (fun s => let (s1, a) := f s; s1.spdmLarge t a)

def execGetVersion (t : Nat) (req : List Byte) (s : State) : Host.Outcome State Fault Refusal :=
  .next (reachSec.take s (s.spdmPlain t (fun s => s.spdmVersion t req)))
def execGetCapabilities (t : Nat) (req : List Byte) (s : State) : Host.Outcome State Fault Refusal :=
  .next (reachSec.take s (s.spdmPlain t (fun s => s.spdmCapabilities t req)))
def execNegotiateAlgorithms (t : Nat) (req : List Byte) (s : State) : Host.Outcome State Fault Refusal :=
  .next (reachSec.take s (s.spdmPlain t (fun s => s.spdmAlgorithms t req)))
def execGetDigests (t : Nat) (req : List Byte) (s : State) : Host.Outcome State Fault Refusal :=
  .next (reachSec.take s (s.spdmPlain t (fun s => s.spdmDigests t req)))
def execGetCertificate (t : Nat) (req : List Byte) (s : State) : Host.Outcome State Fault Refusal :=
  .next (reachSec.take s (s.spdmPlain t (fun s => s.spdmCertificate t req)))
def execChallenge (t : Nat) (req : List Byte) (s : State) : Host.Outcome State Fault Refusal :=
  .next (reachSec.take s (s.spdmPlain t (fun s => s.spdmChallenge t req)))
def execGetMeasurements (t : Nat) (req : List Byte) (s : State) : Host.Outcome State Fault Refusal :=
  .next (reachSec.take s (s.spdmPlain t (fun s => s.spdmMeasurements t req)))
def execChunkSend (t : Nat) (req : List Byte) (s : State) : Host.Outcome State Fault Refusal :=
  .next (reachSec.take s (s.spdmRequest t (fun s => s.spdmChunkSend t req)))
def execChunkGet (t : Nat) (req : List Byte) (s : State) : Host.Outcome State Fault Refusal :=
  .next (reachSec.take s (s.spdmRequest t (fun s => s.spdmChunkGet t req)))

end Sys2Proof.Machine
end

