-- ==== Sys2Proof/Machine/Mailbox.lean ====
section
/-! DEFINITION. The steward mailbox on PF1 and on the sideband (R486, R497, R514 to R516), but for its register commands. -/

namespace Sys2Proof.Machine

/-- What a mailbox command leaves: the state, its status, ARG0 to ARG7 and its data. -/
structure MboxRes where
  s : State
  status : Nat
  args : List Nat
  data : List Byte
deriving DecidableEq, Repr

/-- A command is refused (R10). -/
def State.mboxRefuse (s : State) (st : Nat) (args : List Nat) : MboxRes :=
  ⟨if st = stAuth then s else s.noteRefuse pgStw 0, st, args, []⟩

/-- A length or a count: clamped to its bounds, and the clamp counted. -/
def State.mboxLen (s : State) (hi v : Nat) : State × Nat × Nat :=
  let c := clampNat 1 hi v
  (s.noteClamps pgStw 0 (b2n (c != v)), c, if c = v then stOk else stClamped)

def DevState.code (d : DevState) : Nat :=
  match d with
  | .off => 0 | .aon => 1 | .boot => 2 | .training => 3 | .check => 4 | .ready => 5 | .degraded => 6 | .adjourned => 7 | .halted => 8

/-- STW_DEV_STATE (R512). -/
def State.devWord (s : State) : Nat :=
  let p := if s.boot.state = .adjourned || s.boot.state = .halted then s.boot.prior else s.boot.state
  p.code <<< 4 + s.boot.state.code

/-- STW_ORDER (R511). -/
def State.orderWord (s : State) : Nat :=
  if s.boot.idLoaded then (s.boot.stepping % 256) <<< 8 + (if s.boot.lanes = 128 then 0 else 1) else 0

/-- SEC_STATE. -/
def State.secWord (s : State) : Nat :=
  (s.sec.image % 4) <<< 30 + b2n s.sec.aliasReady <<< 29 + b2n s.sec.owner.isSome <<< 28 + b2n s.sec.guildKey.isSome <<< 27
    + b2n s.sec.sb.opened <<< 26 + b2n s.sec.pf1.opened <<< 25 + (min 15 s.sec.fails) <<< 8

def State.serialWord (s : State) : Nat := if s.boot.idLoaded then s.boot.serial else 0

/-- GET_INFO. -/
def State.mboxInfo (s : State) (args : List Nat) : MboxRes :=
  ⟨s, stOk, [s.serialWord % 4294967296, s.serialWord / 4294967296, s.orderWord, s.devWord, s.boot.reason.toNat, s.secWord] ++ args.drop 6, []⟩

/-- RESET_DEVICE: the reset begins after the completion is written. -/
def State.mboxReset (s : State) (args : List Nat) : MboxRes :=
  ⟨{ s with boot := { s.boot with resetRequested := true } }, stOk, args, []⟩

/-- SET_OWNER (R497): over the sideband, and only while unowned. -/
def State.mboxOwner (s : State) (t : Nat) (args : List Nat) (data : List Byte) : MboxRes :=
  if t = 0 then s.mboxRefuse stAuth args
  else if s.sec.owner.isSome then s.mboxRefuse stState args
  else
    let key := sized 32 data
    let r := s.sealKey "RSNL-OWN" "RSNL-OTG" 2 key
    let s1 := s.writeCfgs (fun c => { c with owner := some r })
    ⟨{ s1 with sec := { s1.sec with owner := some key } }, stOk, args, []⟩

/-- SET_GUILD_KEY (R497). -/
def State.mboxGuild (s : State) (args : List Nat) (data : List Byte) : MboxRes :=
  if s.fab.isMember then s.mboxRefuse stState args
  else
    let key := sized 32 data
    let r := s.sealKey "RSNL-GLD" "RSNL-GTG" 3 key
    let s1 := s.writeCfgs (fun c => { c with guild := some r })
    ⟨{ s1 with sec := { s1.sec with guildKey := some key } }, stOk, args, []⟩

/-- READ_LOG (R335): the entries that are held from a sequence on, ascending. -/
def State.mboxLog (s : State) (args : List Nat) : MboxRes :=
  let (s1, n, st) := s.mboxLen 64 (args.getD 1 0)
  let first := args.getD 0 0 % 65536
  let es := (s.elog.recent.filter (fun e => decide ((e % 65536 + 65536 - first) % 65536 < n))).reverse
  ⟨s1, st, args.set 2 es.length, es.flatMap (leBytes 32)⟩

/-- WRITE_CONFIG: both copies are written with the epoch advanced; the change takes effect at the next device reset. -/
def State.mboxConfig (s : State) (args : List Nat) (data : List Byte) : MboxRes :=
  let off := args.getD 0 0
  let (s1, n, st) := s.mboxLen 2048 (args.getD 1 0)
  if off + n > 4194304 then s.mboxRefuse stQuota args
  else ⟨s1.writeCfgs (fun c => { c with bytes := memSetBytes c.bytes off (sized n data) }), st, args.set 1 n, []⟩

/-- The image of an SPI NOR device is written. -/
def State.norWrite (s : State) (b off : Nat) (bs : List Byte) : State :=
  let put (n : Nor) : Nor := { n with image := memSetBytes n.image off bs }
  if b = 0 then { s with sec := { s.sec with norA := put s.sec.norA } } else { s with sec := { s.sec with norB := put s.sec.norB } }

/-- Image B is checked again while neither image is accepted (R486). -/
def State.recheckB (s : State) : State :=
  let m := s.sec.norB.image
  let r := s.imageReason m
  let s1 := { s with sec := { s.sec with reasonB := r, svnB := imgHead m 7 1 } }
  if r != 0 then s1
  else { s1 with sec := { s1.sec with image := 1, runM := imageM m, runSvn := imgHead m 7 1 } }

/-- The SPI NOR that ARG0 of WRITE_IMAGE names: B for 1; an unlisted value takes the field's reset value, A (R8, R515). -/
def norArg (v : Nat) : Nat := if v = 1 then 1 else 0

/-- WRITE_IMAGE: refused where the target holds the running image and the other one was rejected. -/
def State.mboxImage (s : State) (args : List Nat) (data : List Byte) : MboxRes :=
  let b := norArg (args.getD 0 0)
  let off := args.getD 1 0
  let (s1, n, st) := s.mboxLen 2048 (args.getD 2 0)
  let k := b2n (b != args.getD 0 0)
  let other := if b = 0 then s.sec.reasonB else s.sec.reasonA
  if s.sec.image = b && other != 0 then s.mboxRefuse stState args
  else if off + n > 8388608 then s.mboxRefuse stQuota args
  else
    let s2 := (s1.noteClamps pgStw 0 k).norWrite b off (sized n data)
    ⟨if s.romOnly then s2.recheckB else s2, if k = 1 then stClamped else st, (args.set 0 b).set 2 n, []⟩

/-- Commands that need an open session of their transport (R515). -/
def mboxNeedsSession (c : Nat) : Bool := c = 2 || c = 4 || c = 6 || c = 8 || c = 9

/-- A mailbox command (R515), registers aside; a code that is not listed has become GET_INFO. While neither image is accepted the
mask ROM takes GET_INFO, and WRITE_IMAGE to SPI NOR B over the sideband, without a session (R486); what it does not take
completes with STATE_REFUSED (DESIGN CHOICE, assumption 74). READ_REG and WRITE_REG are not carried on PF1, which completes
them with AUTH_REFUSED (assumption 74). -/
def State.mboxRun (s : State) (t c : Nat) (args : List Nat) (data : List Byte) : MboxRes :=
  if s.romOnly then
    (if c = 1 then s.mboxInfo args
     else if c = 9 && t = 1 && norArg (args.getD 0 0) = 1 then s.mboxImage args data
     else s.mboxRefuse stState args)
  else if mboxNeedsSession c && !(s.session t).opened then s.mboxRefuse stAuth args
  else match c with
    | 1 => s.mboxInfo args
    | 2 => s.mboxReset args
    | 3 => s.mboxOwner t args data
    | 4 => s.mboxGuild args data
    | 7 => s.mboxLog args
    | 8 => s.mboxConfig args data
    | 9 => s.mboxImage args data
    | _ => s.mboxRefuse stAuth args

/-- STW_MBOX_ARGn and STW_MBOX_DATA take words and bytes. -/
def State.putArgs (s : State) (args : List Nat) : State :=
  (List.range 8).foldl (fun s n => s.setReg pgStw 0 0 (rStwMboxArgn + 4 * n) (BitVec.ofNat 64 (args.getD n 0 % 4294967296))) s

def State.putData (s : State) (bs : List Byte) : State :=
  (List.range (ceilDiv (min 2048 bs.length) 4)).foldl (fun s n =>
    let o := rStwMboxData + 4 * n
    let old := leBytes 4 (s.reg pgStw 0 0 o).toNat
    let w := (bs.drop (4 * n)).take 4
    s.setReg pgStw 0 0 o (BitVec.ofNat 64 (leNat (w ++ old.drop w.length)))) s

/-- STW_MBOX_STS once a command has completed. -/
def mboxStatus (status tag c : Nat) : Nat := (status % 16) <<< 24 + (tag % 256) <<< 8 + c % 256

/-- A command completes: the results, the status word, then mbox_done; over the sideband, a response (R514, R516). -/
def MboxRes.done (r : MboxRes) (t tag c : Nat) : State :=
  let w := mboxStatus r.status tag c
  let s1 := r.s.bump pgStw 0 0 rStwMboxCmds 1
  if t = 0 then
    (((s1.putArgs r.args).putData r.data).setReg pgStw 0 0 rStwMboxSts (BitVec.ofNat 64 w)).setInt pgStw 0 1
  else
    let args := (List.range 8).map (fun n => BitVec.ofNat 32 (r.args.getD n 0))
    ({ s1 with sec := { s1.sec with sbArgs := args, sbSts := BitVec.ofNat 32 w } }).emit (.sideband (BitVec.ofNat 32 w) args r.data)

/-- A device reset that the mailbox has asked for begins once its completion is written, unless readings are too warm (R428). -/
def State.resetIfAsked (s : State) (c : Nat) (r : MboxRes) : State := if c = 2 && r.status = stOk then s.resetOrHold .plain else s

/-- PF1's registers as they stand when a command is issued: its arguments, its data and its STW_MBOX_CMD. -/
def State.mboxIssue (s : State) (t tag c : Nat) (args : List Nat) (data : List Byte) : State :=
  if t = 0 then ((s.putArgs args).putData data).setReg pgStw 0 0 rStwMboxCmd (BitVec.ofNat 64 ((tag % 256) <<< 8 + c))
  else s

/-- A command comes in on a transport. The arguments are as the request holds them, 0 where it holds none. -/
def State.mailbox (s : State) (t tag c : Nat) (args : List Nat) (data : List Byte) : State :=
  if !s.transportUp t then s
  else
    let a := args ++ List.replicate (8 - args.length) 0
    let s0 := s.mboxIssue t tag c a data
    let r := s0.mboxRun t c a data
    (r.done t tag c).resetIfAsked c r

def execGetInfo (t tag : Nat) (s : State) : Host.Outcome State Fault Refusal := .next (reachSec.take s (s.mailbox t tag 1 [] []))
def execResetDevice (t tag : Nat) (s : State) : Host.Outcome State Fault Refusal := .next (reachDev.take s (s.mailbox t tag 2 [] []))
def execSetOwner (t tag : Nat) (key : List Byte) (s : State) : Host.Outcome State Fault Refusal :=
  .next (reachSec.take s (s.mailbox t tag 3 [] key))
def execSetGuildKey (t tag : Nat) (key : List Byte) (s : State) : Host.Outcome State Fault Refusal :=
  .next (reachSec.take s (s.mailbox t tag 4 [] key))
def execReadLog (t tag first count : Nat) (s : State) : Host.Outcome State Fault Refusal :=
  .next (reachSec.take s (s.mailbox t tag 7 [first, count] []))
def execWriteConfig (t tag off len : Nat) (bs : List Byte) (s : State) : Host.Outcome State Fault Refusal :=
  .next (reachSec.take s (s.mailbox t tag 8 [off, len] bs))
def execWriteImage (t tag nor off len : Nat) (bs : List Byte) (s : State) : Host.Outcome State Fault Refusal :=
  .next (reachSec.take s (s.mailbox t tag 9 [nor, off, len] bs))

end Sys2Proof.Machine
end

