-- ==== Sys2Proof/Machine/RegDev.lean ====
section
/-! DEFINITION. The hub's register pages, and every access to BAR0: reads, writes, illegal accesses, and the registers that
have a command of their own (R310, R312, R336, R374, R375, R405, R424, R455, R481, R494, R500, R502 to R517). -/

namespace Sys2Proof.Machine

/-! ### The directory (R508) -/

/-- The page index: type, first page, instances, stride. -/
def dirEntries : List (Nat × Nat × Nat × Nat) :=
  [(0x01, 0x0, 1, 1), (0x02, 0x1, 1, 1), (0x03, 0x2, 1, 1), (0x04, 0x4, 1, 1), (0x05, 0x5, 1, 1), (0x06, 0x6, 1, 1), (0x07, 0x7, 1, 1),
   (0x10, 0x18, 2, 0xF0), (0x11, 0x19, 2, 0xF0), (0x12, 0x1A, 2, 0xF0), (0x13, 0x1B, 2, 0xF0), (0x14, 0x1C, 2, 0xF0), (0x15, 0x1D, 2, 0xF0),
   (0x20, 0x200, 1, 1), (0x21, 0x203, 1, 1), (0x22, 0x204, 1, 1), (0x23, 0x208, 8, 1), (0x24, 0x210, 4, 1),
   (0x30, 0x1000, 256, 0x10), (0x31, 0x1001, 256, 0x10), (0x32, 0x1002, 256, 0x10), (0x33, 0x1003, 256, 0x10), (0x34, 0x1004, 256, 0x10),
   (0x40, 0x2000, 288, 0x10), (0x41, 0x2001, 288, 0x10)]

/-- Word i of the directory's entries; the list ends with an entry of type 0. -/
def dirWord (i : Nat) : Nat :=
  match dirEntries[i / 2]? with
  | some (ty, first, n, stride) => if i % 2 = 0 then ty <<< 16 + first else stride <<< 16 + n
  | none => 0

/-! ### Values of the hub's pages -/

/-- Pages with int_pending: type and instance. -/
def State.pending_ (s : State) : List (Nat × Nat) :=
  s.regs.filterMap (fun e =>
    if e.1 % 4096 = hIntSts then
      let inst := e.1 / 262144 % 512
      let code := e.1 / 134217728
      if e.2.toNat &&& (s.reg code inst 0 hIntEn).toNat != 0 then some (code, inst) else none
    else none)

/-- STW_INT_SUM. -/
def State.intSum (s : State) : Nat :=
  let l := s.pending_
  (List.range 48).foldl (fun a t => a + b2n (l.any (fun e => e.1 = t)) <<< t) 0 + b2n (l.any (fun e => isCorePage e.1)) <<< 48
    + b2n (l.any (fun e => isVaultPage e.1)) <<< 49

/-- 64 bits of the cores or vaults with int_pending. -/
def State.intMap (s : State) (vaults : Bool) (n : Nat) : Nat :=
  let l := s.pending_.filter (fun e => if vaults then isVaultPage e.1 else isCorePage e.1)
  (List.range 64).foldl (fun a b => a + b2n (l.any (fun e => e.2 = 64 * n + b)) <<< b) 0

/-- A temperature as 16 bits. -/
def temp16 (x : Int) : Nat := (BitVec.ofInt 16 x).toNat

/-- The hottest reading of a kind of sensor, and its number, the lowest where several are hottest. -/
def State.hottest (s : State) (dram : Bool) : Int × Nat :=
  let ns := (List.range 352).filter (fun n => isDram n = dram && s.powered n)
  ns.foldl (fun (m : Int × Nat) n => if s.shows s.now n > m.1 then (s.shows s.now n, n) else m) (s.shows s.now (ns.headD 0), ns.headD 0)

/-- Sensors of a status; the display ends at 255. -/
def State.sensorsIn (s : State) (st : Nat) : Nat := min 255 ((s.thm.status.filter (fun e => e.2 = st)).length)

/-- THM_STATE. -/
def State.thmWord (s : State) : Nat :=
  let st :=
    if s.boot.state = .halted then 7 else if s.thm.phase = 4 then 6 else if s.boot.state = .adjourned then 5 else if s.thm.phase != 0 then 4
    else if !s.thm.phi.isEmpty then 3 else if s.thm.predict.isSome then 2 else if s.thm.warn then 1 else 0
  st <<< 28 + b2n s.alert <<< 27 + b2n s.thm.coolant <<< 26 + b2n s.thm.capB <<< 25 + b2n s.thm.capA <<< 24 + s.sensorsIn 1 <<< 8 + s.sensorsIn 2

def State.pwrLive (s : State) (off : Nat) : Option Nat :=
  let p := s.pwr
  if off = rPwrState then
    some ((p.limiter % 16) <<< 28 + b2n p.shedding <<< 27 + b2n p.flatActive <<< 26 + b2n p.floorShort <<< 25
      + b2n (s.thm.phase = 1 || s.thm.phase = 2) <<< 24 + (p.target / 200 % 4096) <<< 12 + p.limit % 4096)
  else if off = rPwrNow then some ((min 4095 p.avg) <<< 16 + min 4095 p.est)
  else if off = rPwrThrottle then some ((p.tc % 256) <<< 16 + (p.tf % 256) <<< 8 + p.theta % 64)
  else if off = rPwrShedRx then some ((p.shedRx % 65536) <<< 16 + p.msgShed % 4096)
  else if off = rPwrInfo then some (2400 <<< 16 + p.treadleMax % 4096)
  else if off = rPwrTreadleMj then
    some (((List.range 256).map (fun c => (s.reg pgLoom c 0 rLoomTreadleUj).toNat)).foldl (· + ·) 0 / 1000)
  else if off = rPwrRestCyc then some (((List.range 256).map (fun c => (s.reg pgClerk c 0 rClerkRestCyc).toNat)).foldl (· + ·) 0)
  else none

def State.thmLive (s : State) (off : Nat) : Option Nat :=
  if off = rThmState then some s.thmWord
  else if off = rThmHot then some (temp16 (s.hottest true).1 <<< 16 + temp16 (s.hottest false).1)
  else if off = rThmHotId then some ((s.hottest true).2 <<< 16 + (s.hottest false).2)
  else if off = rThmRate then some (temp16 s.thm.projected <<< 16 + temp16 s.thm.rate)
  else if off = rThmSens then
    let n := s.fld pgThm 0 0 rThmSensSel 8 0
    some (smGet 0 s.thm.status n <<< 30 + b2n (twinOf n).isSome <<< 16 + temp16 (readAt s.now n))
  else if off = rThmSeal then some (b2n s.thm.sealedOk <<< 31 + s.thm.sealUs % 16777216)
  else none

/-- SPARE tiles of a half. -/
def State.spareTiles (s : State) (h : Nat) : Nat := ((List.range 144).filter (fun i => (s.site (144 * h + i)).core = 2)).length

def State.fuseLive (s : State) (off : Nat) : Option Nat :=
  let b := s.boot
  if off = rFuseState then
    let used := (b.slots.filter (fun x => match x with | some v => v != 0 | none => true)).length
    some (b2n b.fuseLost <<< 31 + b2n b.driftB <<< 30 + b2n b.driftA <<< 29 + b2n b.seedsValid <<< 28 + (s.spareTiles 1) <<< 20
      + (s.spareTiles 0) <<< 12 + used % 128)
  else if off = rFuseReason then some b.reason.toNat
  else if off = rFuseSite then some (s.site (s.fld pgFuse 0 0 rFuseSiteSel 8 0)).word
  else if off = rFuseTopo then some ((b.miscabled % 256) <<< 24 + (b.missing % 256) <<< 16 + (b.named % 256) <<< 8 + b.agreed % 256)
  else if off = rFuseUnits then
    some ((b.optTest % 256) <<< 56 + (b.optFused % 256) <<< 48 + (b.farTest % 16) <<< 44 + (b.farFused % 16) <<< 40 + (b.d2dTest % 65536) <<< 16
      + b.d2dFused % 65536)
  else if off = rFusePhase then some ((b.checkMs % 65536) <<< 48 + (b.trainingMs % 65536) <<< 32 + (b.bootMs % 65536) <<< 16 + b.aonMs % 65536)
  else none

def State.secLive (s : State) (off : Nat) : Option Nat :=
  if off = rSecState then some s.secWord
  else if off = rSecBoot then some ((s.sec.svnB % 256) <<< 24 + (s.sec.svnA % 256) <<< 16 + (s.sec.reasonB % 16) <<< 4 + s.sec.reasonA % 16)
  else if off = rSecSvn then some s.svnWord
  else if rSecNoncen ≤ off && off < rSecNoncen + 32 then some (s.sec.nonce.toNat / 2 ^ (8 * (off - rSecNoncen)) % 4294967296)
  else if rSecMeasn ≤ off && off < rSecMeasn + 32 then
    let i := s.fld pgSec 0 0 rSecMeasSel 7 0
    some (if measIndex i then leNat (s.measure i) / 2 ^ (8 * (off - rSecMeasn)) % 4294967296 else 0)
  else none

/-- STW_ABS_STATE (R465). -/
def State.absWord (s : State) : Nat :=
  match s.abs.fence with
  | some f => 1 <<< 31 + f.half <<< 30 + b2n f.escalated <<< 29 + min 1048575 (s.timeUs - f.since)
  | none => s.abs.lastHalf <<< 30 + min 1048575 s.abs.fenceUs

def State.stwLive (s : State) (off : Nat) : Option Nat :=
  if off = rStwDevState then some s.devWord
  else if off = rStwIntSum then some s.intSum
  else if rStwIntCoren ≤ off && off < rStwIntCoren + 32 then some (s.intMap false ((off - rStwIntCoren) / 8))
  else if rStwIntVaultn ≤ off && off < rStwIntVaultn + 40 then some (s.intMap true ((off - rStwIntVaultn) / 8))
  else if off = rStwElogTail then some s.elog.tail
  else if off = rStwAbsState then some s.absWord
  else if off = rStwCast then some (b2n (s.abs.castA.isSome || s.abs.castB.isSome) <<< 31 + s.abs.castShown % 2147483648)
  else if off = rStwCastProg then some (min 524287 ((s.abs.migs.map (fun m => m.left.length)).foldl (· + ·) 0))
  else none

/-- The identity page: 0 until it is loaded (R511). -/
def State.identLive (s : State) (off : Nat) : Option Nat :=
  if !s.boot.idLoaded then some 0
  else if off = rStwOrder then some s.orderWord
  else if off = rStwSerial then some s.serialWord
  else if off = rStwFwVer then some s.boot.fwVer
  else if off = rStwRomVer then some s.boot.romVer
  else if off = rStwCores then some ((s.boot.coresB % 256) <<< 8 + s.boot.coresA % 256)
  else none

def State.hostLive (s : State) (off : Nat) : Option Nat :=
  if off = rHostState then
    some (s.fld pgHost 0 0 rHostState 18 18 <<< 18 + b2n (s.hostUp && (decide (s.host.width < 16) || decide (s.host.rate < 5))) <<< 17
      + b2n s.host.flit <<< 16 + (s.host.width % 32) <<< 8 + s.host.rate % 8)
  else none

/-- Logical cores with a failed CG (R308). -/
def State.cgFails (s : State) : List Nat := (s.cores.filter (fun e => e.2.cgFailed)).map (·.1)

def State.rngLive (s : State) (off : Nat) : Option Nat :=
  if off = rRngAlmData then
    let a := s.fld pgRng 0 0 rRngAlmAddr 13 0
    some ((smFind s.alm a).getD (almDefault a)).toNat
  else if off = rRngState then some (s.cgFails.length <<< 1 + b2n s.alm.isEmpty)
  else if rRngCgFailn ≤ off && off < rRngCgFailn + 32 then
    some ((s.cgFails.filter (fun c => c / 64 = (off - rRngCgFailn) / 8)).foldl (fun a c => a + 1 <<< (c % 64)) 0)
  else none

def State.fabLive (s : State) (off : Nat) : Option Nat :=
  let f := s.fab
  if off = rFabGuild then
    some (b2n f.isMember <<< 31 + (f.device % 64) <<< 24 + (f.guild % 4096) <<< 12 + s.fld pgFab 0 0 rFabGuild 11 6 <<< 6 + f.master % 64)
  else if off = rFabTerm then some (f.term % 4294967296)
  else if off = rFabEpoch then some f.epoch
  else if off = rFabSnap then some (b2n s.copyBusy <<< 31 + f.snapNum % 65536)
  else none

/-- What a register shows that the state holds elsewhere, for every page. -/
def State.live (s : State) (code inst bank off : Nat) : Option Nat :=
  if code = pgPwr then s.pwrLive off
  else if code = pgThm then s.thmLive off
  else if code = pgFuse then s.fuseLive off
  else if code = pgSec then s.secLive off
  else if code = pgStw then s.stwLive off
  else if code = pgIdent then s.identLive off
  else if code = pgHost then s.hostLive off
  else if code = pgRng then s.rngLive off
  else if code = pgFab then s.fabLive off
  else s.halfLive code inst bank off

/-! ### Writes of the hub's pages -/

/-- An almanac word is written, unless a partition is SERVING (R310, R312). -/
def State.almWrite (s : State) (v : Word) : State :=
  if s.parts.any (fun e => decide (e.2.st = .serving)) then s.noteRefuse pgRng 0
  else
    let a := s.fld pgRng 0 0 rRngAlmAddr 13 0
    ({ s with alm := smPut s.alm a v }).setFld pgRng 0 0 rRngAlmAddr 13 0 ((a + 1) % 16384)

/-- STW_CAST_REQ (R455, R481). -/
def State.castWrite (s : State) (w : Nat) : State :=
  let (s1, refused) := s.castRequest w
  if refused then s.noteRefuse pgStw 0 else s1

/-- FAB_CTL reset (R374): GUILD on the guildmaster, MARKET on the market master; a write on any other device is refused. -/
def State.fabGuildReset (s : State) : State := if s.isMaster then (s.floodScope false 0x0C 1 []).resetOrHold .fabric else s.noteRefuse pgFab 0
def State.fabMarketReset (s : State) : State := if s.isMarketMaster then (s.floodScope true 0x0C 2 []).resetOrHold .fabric else s.noteRefuse pgFab 0

def State.fabCtl (s : State) (w : Nat) : State :=
  match bits w 1 0 with
  | 1 => s.fabGuildReset
  | 2 => s.fabMarketReset
  | 3 => s.noteClamps pgFab 0 1
  | _ => s

/-- STW_ELOG_CFG (R336): while enabled, a write of enable 0 only clears enable, any other is refused. -/
def State.elogCfg (s : State) (w : Nat) : State :=
  if s.fld pgStw 0 0 rStwElogCfg 31 31 = 1 then
    (if bit w 31 then s.noteRefuse pgStw 0 else s.setFld pgStw 0 0 rStwElogCfg 31 31 0)
  else s.putReg pgStw 0 0 rStwElogCfg w

/-- STW_MBOX_CMD (R514): command and tag; an unlisted code becomes GET_INFO, counted under R8, and go starts it. -/
def State.mboxCmd (s : State) (w : Nat) : State :=
  let c0 := bits w 7 0
  let bad := c0 = 0 || c0 > 9
  let c := if bad then 1 else c0
  let tag := bits w 15 8
  if !bit w 31 then (s.noteClamps pgStw 0 (b2n bad)).setReg pgStw 0 0 rStwMboxCmd (BitVec.ofNat 64 (tag <<< 8 + c))
  else
    let args := (List.range 8).map (fun n => (s.reg pgStw 0 0 (rStwMboxArgn + 4 * n)).toNat)
    let data := (List.range 512).flatMap (fun n => leBytes 4 (s.reg pgStw 0 0 (rStwMboxData + 4 * n)).toNat)
    (s.noteClamps pgStw 0 (b2n bad)).mailbox 0 tag c args data

/-- Far-memory pages that a partition's mirror area has room for behind its 512 MiB of records (R472). -/
def State.mirrorRoom (s : State) (p : Nat) : Nat :=
  let port := s.fld pgStw 0 p rStwMirrorBase 41 40
  let base := s.fld pgStw 0 p rStwMirrorBase 39 16 * 65536
  let w := (s.part p).far.getD port (0, 0)
  if base < w.1 then 0 else (w.1 + w.2 - (base + 536870912)) / 65536

/-- A write that has no effect and counts as a refusal: of a hub page. -/
def State.devRefuses (s : State) (code bank off : Nat) : Bool :=
  if code = pgRng then off = rRngPartCfg && (s.part bank).st = .serving
  else if code = pgFab then off = rFabCfg && s.fab.isMember
  else if code = pgThm then (off = rThmCfg || off = rThmResume) && s.boot.state = .adjourned
  else if code = pgStw then
    (off = rStwElogBase && s.fld pgStw 0 0 rStwElogCfg 31 31 = 1)
      || ((off = rStwMirrorOut || off = rStwMirrorIn || off = rStwMirrorBase || off = rStwMirrorPages) && (s.part bank).st = .serving)
  else false

/-- SEC_SESSION: op always acts, idle only inside a session (R494; DEDUCED, assumption 72). -/
def State.sessionWrite (s : State) (fn w : Nat) : State :=
  let s1 := if s.inSession fn then s.setFld pgSec 0 0 rSecSession 31 16 (bits w 31 16) else s
  match transportOf fn with
  | some t => if bits w 1 0 = 1 then s1.sessionOpen t else if bits w 1 0 = 2 then s1.closeSession t else s1
  | none => s1

/-- A whole register of a page of this device is written by a function. -/
def State.writeReg (fn : Nat) (s : State) (code inst off w : Nat) : State :=
  let bank := match regFind code off with | some d => if d.banked then s.bankOf code inst else 0 | none => 0
  if fn = 0 && pf1Only code off then s
  else if (pageHalf code inst).isSome then s.writeHalf code inst off w
  else if s.devRefuses code bank off then s.noteRefuse code inst
  else if code = pgSec && off = rSecSvnCommit then s.svnCommit fn (bits w 9 8) (bits w 6 0)
  else if code = pgSec && off = rSecSession then s.sessionWrite fn w
  else if code = pgSec && rSecRespn ≤ off && off < rSecRespn + 32 then s.setReg pgSec 0 0 off (BitVec.ofNat 64 (w % 4294967296))
  else if code = pgSec && off = rSecSpdmAlg && !s.inSession fn then s.noteRefuse pgSec 0
  else if code = pgRng && off = rRngAlmData then s.almWrite (BitVec.ofNat 32 w)
  else if code = pgPwr && off = rPwrShedTx then s.shedWrite (bits w 11 0)
  else if code = pgStw && off = rStwCastReq then s.castWrite w
  else if code = pgStw && off = rStwElogCfg then s.elogCfg w
  else if code = pgStw && off = rStwMboxCmd then s.mboxCmd w
  else if code = pgFab && off = rFabCtl then s.fabCtl w
  else if code = pgFab && off = rFabGuild then (if s.fab.isMember then s else s.putReg pgFab 0 0 rFabGuild w)
  else
    match regFind code off with
    | none => s
    | some d =>
      let (v, k) := d.takes (s.reg code inst bank off).toNat w
      let top := s.mirrorRoom bank
      let (v1, k1) := if code = pgStw && off = rStwMirrorPages && v > top then (top, 1) else (v, 0)
      let s1 := (s.setReg code inst bank off (BitVec.ofNat 64 v1)).noteClamps code inst (k + k1)
      if code = pgPwr && off = rPwrShed then s1.shedCheck
      -- COOLANT_FAULT_N that stands asserted is honoured from now on (R419)
      else if code = pgThm && off = rThmCfg && s.thm.coolant && s.fld pgThm 0 0 rThmCfg 31 31 = 0 && s1.fld pgThm 0 0 rThmCfg 31 31 = 1 then
        (s1.suddenStop true).alertFrom s
      else s1

/-! ### Accesses -/

/-- A write of a function that would be refused now, or has no effect for want of PF1. -/
def State.denies (fn : Nat) (s : State) (code inst off : Nat) : Bool :=
  (fn = 0 && pf1Only code off) || (if (pageHalf code inst).isSome then s.halfDenies code inst off
    else match regFind code off with
      | some d => s.devRefuses code (if d.banked then s.bankOf code inst else 0) off
      | none => false)

/-- A function writes 4 B or 8 B of a page; a SEC_ write keeps its session from the idle limit (R496). -/
def State.writeAccess (s : State) (fn code inst off : Nat) (wide : Bool) (v : Nat) : State :=
  let s0 := if code = pgSec then (match transportOf fn with | some t => s.touchSession t | none => s) else s
  s0.writePage (State.writeReg fn) (State.denies fn) fn code inst off wide v

/-- What a write finds (R7, R387, R424, R503). -/
def State.writeHit (s : State) (fn bar : Nat) (h : PageHit) (wide : Bool) (v : Nat) : State :=
  match h with
  | .page code inst o => s.writeAccess fn code inst o wide v
  | .ur => s.bump pgHost 0 0 rHostUr 1
  | .fenced =>
    if (match s.abs.fence with | some f => f.escalated | none => false) || !isHostFn fn
        || (fn = 0 && (match pageAt (bar / 4096) with | some (code, _) => pf1Access code (bar % 4096) | none => false)) then s
    else { s with host := { s.host with posted := s.host.posted ++ [(heldReg, bar, leBytes (if wide then 8 else 4) v, s.fab.snapTag, fn)] } }
  | _ => s

/-- The BAR0 offset, in the map of PF0, of an access through a VF. -/
def State.barOf (s : State) (fn off : Nat) : Nat :=
  if isVf fn then
    match (s.part (fn - 2)).cores[off / 65536]? with
    | some c => 0x1000000 + c * 65536 + off % 65536
    | none => off
  else off

/-- An access that breaks R502. -/
def State.badAccess (s : State) : State := (s.bump pgStw 0 0 rStwBadAccess 1).setErr pgStw 0 0

def legalAccess (off : Nat) (wide : Bool) : Bool := if wide then off % 8 = 0 else off % 4 = 0

/-- A write to BAR0. -/
def State.barWrite (s : State) (fn off : Nat) (wide : Bool) (v : Nat) : State :=
  match s.hitAt fn off with
  | .lost => s
  | h => if !s.hubOn then s else if !legalAccess off wide then s.badAccess else s.writeHit fn (s.barOf fn off) h wide v

/-- What a read of a page shows. -/
def State.readWord (s : State) (fn code inst off : Nat) (wide : Bool) : State × Nat :=
  if code = pgDir && off ≥ 0x40 then
    (s.dropLatch fn code inst, dirWord ((off - 0x40) / 4) + (if wide then dirWord ((off - 0x40) / 4 + 1) * 4294967296 else 0))
  else s.readPage State.live fn code inst off wide

/-- A read of BAR0 is answered, or held for a fenced half (R387). -/
def State.readHit (s : State) (fn tag bar : Nat) (h : PageHit) (wide : Bool) : State :=
  match h with
  | .lost => s
  | .ur => (s.bump pgHost 0 0 rHostUr 1).emit (.cpl fn tag 1)
  | .absent => s.emit (.data fn tag 0)
  | .idOnly code inst o => s.emit (.data fn tag (BitVec.ofNat 64 (idRead code inst o)))
  | .fenced =>
    if match s.abs.fence with | some f => f.escalated | none => false then s.emit (.cpl fn tag 2)
    else { s with host := { s.host with reads := s.host.reads ++ [(fn, tag, heldReg, bar, if wide then 8 else 4, s.timeUs)] } }
  | .page code inst o =>
    let (s1, v) := s.readWord fn code inst o wide
    s1.emit (.data fn tag (BitVec.ofNat 64 v))

def State.barRead (s : State) (fn tag off : Nat) (wide : Bool) : State :=
  match s.hitAt fn off with
  | .lost => s
  | h =>
    if !s.hubOn then s
    else if !legalAccess off wide then s.badAccess.emit (.data fn tag 0)
    else s.readHit fn tag (s.barOf fn off) h wide

/-- The effect of a write to one register of a page, the access taken as it meets the page. -/
def State.regAccess (s : State) (fn code inst off : Nat) (wide : Bool) (v : Nat) : State :=
  match s.hitPage fn code inst off with
  | .lost => s
  | h =>
    if !s.hubOn then s
    else
      let k := (List.range 12800).find? (fun k => pageAt k = some (code, inst))
      s.writeHit fn (k.getD 0 * 4096 + off) h wide v

/-! ### Commands -/

/-- What a register write can reach: the fused counters through the SEC_ page alone. -/
def writeReach (fn off : Nat) : Reach :=
  if !isVf fn && (pageAt (off / 4096)).map (·.1) = some pgSec then reachAll else reachDev

/-- REG_WRITE. -/
def execRegWrite (fn off : Nat) (wide : Bool) (v : DWord) (s : State) : Host.Outcome State Fault Refusal :=
  .next ((writeReach fn off).take s (s.barWrite fn off wide v.toNat))

/-- REG_READ_LOW_LATCH: a read of BAR0; of the low half of a 64-bit register, one that latches its high half (R502). -/
def execRegReadLowLatch (fn tag off : Nat) (wide : Bool) (s : State) : Host.Outcome State Fault Refusal :=
  .next (reachLink.take s (s.barRead fn tag off wide))

/-- BAD_ACCESS (R502). -/
def execBadAccess (fn tag : Nat) (isRead : Bool) (s : State) : Host.Outcome State Fault Refusal :=
  .next (reachSec.take s (
    if !s.hubOn || (isHostFn fn && !s.hostUp) then s
    else if isRead then s.badAccess.emit (.data fn tag 0) else s.badAccess))

/-- CLEAR_COUNTS: clear_counts is written 1 in the page of a page number (R505, R507). -/
def execClearCounts (fn page : Nat) (s : State) : Host.Outcome State Fault Refusal :=
  .next (reachHost.take s (s.barWrite fn (page * 4096 + hCtl) false 0x80000000))

/-- INT_FORCE (R507). -/
def execIntForce (fn page : Nat) (v : Word) (s : State) : Host.Outcome State Fault Refusal :=
  .next (reachHost.take s (s.barWrite fn (page * 4096 + hIntForce) false v.toNat))

def execLoomShelfWrite (fn core : Nat) (v : Word) (s : State) : Host.Outcome State Fault Refusal :=
  .next (reachLink.take s (s.regAccess fn pgLoom core rLoomShelf false v.toNat))

def execVltDiscard (fn vault : Nat) (v : DWord) (s : State) : Host.Outcome State Fault Refusal :=
  .next (reachLink.take s (s.regAccess fn pgVlt vault rVltDiscard true v.toNat))

def execRngAlmDataWrite (fn : Nat) (v : Word) (s : State) : Host.Outcome State Fault Refusal :=
  .next (reachLink.take s (s.regAccess fn pgRng 0 rRngAlmData false v.toNat))

def execPwrShedTx (fn : Nat) (v : Word) (s : State) : Host.Outcome State Fault Refusal :=
  .next (reachDev.take s (s.regAccess fn pgPwr 0 rPwrShedTx false v.toNat))

def execStwCastReq (fn : Nat) (v : Word) (s : State) : Host.Outcome State Fault Refusal :=
  .next (reachDev.take s (s.regAccess fn pgStw 0 rStwCastReq false v.toNat))

def execFabResetGuild (fn : Nat) (s : State) : Host.Outcome State Fault Refusal :=
  .next (reachDev.take s (s.regAccess fn pgFab 0 rFabCtl false 1))

def execFabResetMarket (fn : Nat) (s : State) : Host.Outcome State Fault Refusal :=
  .next (reachDev.take s (s.regAccess fn pgFab 0 rFabCtl false 2))

/-- DISCARD_DONE: the running discard ends, and what it held is served (R192). -/
def execDiscardDone (vault : Nat) (s : State) : Host.Outcome State Fault Refusal :=
  .next (reachLink.take s (
    if (s.vault vault).discard.isNone then s
    else (s.modVault vault (fun v => { v with discard := none })).releaseHeld vault))

/-! ### The mailbox's register commands (R515, R516) -/

/-- READ_REG: the register's value; nothing of a fenced half can be read, so its value is free, with DATA_LOST (DESIGN CHOICE,
assumption 75). -/
def State.mboxRead (s : State) (off : Nat) (wide : Bool) : MboxRes :=
  let args (v : Nat) : List Nat := [off, b2n wide, v % 4294967296, v / 4294967296, 0, 0, 0, 0]
  if !legalAccess off wide then ⟨s.badAccess, stOk, args 0, []⟩
  else match s.hitAt 66 off with
  | .page code inst o => let (s1, v) := s.readWord 66 code inst o wide; ⟨s1, stOk, args v, []⟩
  | .idOnly code inst o => ⟨s, stOk, args (idRead code inst o), []⟩
  | .fenced => ⟨s.freeUsed, stLost, args s.freeVal.toNat, []⟩
  | _ => ⟨s, stOk, args 0, []⟩

/-- WRITE_REG: a PF1 write inside the sideband's session; refused where the page counts a refusal, and where its half is
fenced. The command's own arguments have no clamp, and it completes with OK where a field of the register it writes is
clamped: R11 and R515 do not say whether such a clamp gives CLAMPED (DESIGN CHOICE, assumption 74). -/
def State.mboxWrite (s : State) (off : Nat) (wide : Bool) (v : Nat) : MboxRes :=
  let args := [off, b2n wide, v % 4294967296, v / 4294967296, 0, 0, 0, 0]
  if !s.sec.sb.opened then s.mboxRefuse stAuth args
  else if !legalAccess off wide then ⟨s.badAccess, stOk, args, []⟩
  else match s.hitAt 66 off with
  | .page code inst o =>
    let s1 := s.writeAccess 66 code inst o wide v
    ⟨s1, if decide ((s1.reg code inst 0 hRefuse).toNat > (s.reg code inst 0 hRefuse).toNat) then stState else stOk, args, []⟩
  | .fenced => s.mboxRefuse stState args
  | _ => ⟨s, stOk, args, []⟩

def execReadReg (tag off : Nat) (wide : Bool) (s : State) : Host.Outcome State Fault Refusal :=
  .next (reachSec.take s (
    if !s.hubOn then s else if s.romOnly then (s.mboxRefuse stState [off, b2n wide]).done 1 tag 5 else (s.mboxRead off wide).done 1 tag 5))

def execWriteReg (tag off : Nat) (wide : Bool) (v : DWord) (s : State) : Host.Outcome State Fault Refusal :=
  .next ((writeReach 66 off).take s (
    if !s.hubOn then s else if s.romOnly then (s.mboxRefuse stState [off, b2n wide]).done 1 tag 6 else (s.mboxWrite off wide v.toNat).done 1 tag 6))

end Sys2Proof.Machine
end

