-- ==== Sys2Proof/Machine/Scrub.lean ====
section
/-! DEFINITION. The patrol scrubber, its audit of the mirrored tables, and the vault commands that can lose a line of them
(R179, R185, R190, R200, R241, R268, R319 to R323, R326, R331, R332). -/

namespace Sys2Proof.Machine

/-- e1 is ahead of e2 among epochs of modulus m (R241, R268). -/
def epochLead (m e1 e2 : Nat) : Bool :=
  let d := (e1 % m + m - e2 % m) % m
  decide (1 ≤ d) && decide (d < m / 2)

/-- Keys of either copy of a table. -/
def tableKeys {α : Type} (a b : SMap α) : List Nat :=
  a.map (·.1) ++ (b.map (·.1)).filter (fun k => (smFind a k).isNone)

/-- A lost stream-roll entry is rebuilt (R268, R331). What the rebuilt entry holds is not stated. -/
def State.rollRebuild (s : State) (p n : Nat) : State :=
  let a := smGet {} s.rollA n
  let (s1, bs) := s.freeBytes 256
  let v : Stream := { Stream.ofImage bs with rebuilt := true }
  (({ s1 with rollA := smSet {} s1.rollA n v, rollB := smSet {} s1.rollB n v }).setErr pgFore 0 1).log 0x0C
    { cls := 3, vault := p, stream := some (a.gen, n) }

/-- Two stream-roll copies that differ are resolved by epoch, or the entry is rebuilt (R268, R331). -/
def State.rollResolve (s : State) (p n : Nat) : State :=
  let a := smGet {} s.rollA n
  let b := smGet {} s.rollB n
  let won (v : Stream) : State := (({ s with rollA := smSet {} s.rollA n v, rollB := smSet {} s.rollB n v }).setErr pgFore 0 0).log 0x0B
    { cls := 3, vault := p, stream := some (a.gen, n) }
  if a = b then s
  else if epochLead 4294967296 a.epoch.toNat b.epoch.toNat then won a
  else if epochLead 4294967296 b.epoch.toNat a.epoch.toNat then won b
  else s.rollRebuild p n

/-- A lost ledger entry is rebuilt: a fresh page in RECOMPUTE, and the frames that either copy names are freed unless another
entry names them (R241, R331). Whose identity the rebuilt entry has is not stated. -/
def State.ledgRebuild (s : State) (p i : Nat) : State :=
  let a := smGet {} s.ledgA i
  let b := smGet {} s.ledgB i
  let both (s : State) (v : LEntry) : State := { s with ledgA := smSet {} s.ledgA i v, ledgB := smSet {} s.ledgB i v }
  let pick := if s.freeVal.toNat % 2 = 1 then a else b
  let s1 := both s.freeUsed {}
  let named (e : LEntry) : Bool := s1.ledgAll.any (fun x => x.2.isNear && x.2.vault = e.vault
    && decide (x.2.frame < e.frame + pageBytes e.z / 32768) && decide (e.frame < x.2.frame + pageBytes x.2.z / 32768))
  let drop (s : State) (e : LEntry) : State := if named e then s else s.freeNear e
  let s2 := drop (drop s1 a) b
  let at_ := if pick.isNear then pick.vault else pick.home
  let s3 := match s2.freeFrame at_ pick.z with
    | some f => both s2 { pick with st := .recompute, vault := at_, frame := f, toFar := false, toVault := 0, toFrame := 0,
                                    rebuilt := 0, waits := [], epoch := (pick.epoch + 1) % 16384 }
    | none => both s2 { epoch := (pick.epoch + 1) % 16384 }
  (s3.setErr pgLedg (siteHalf p) 1).log 0x0C { cls := 3, vault := p, stream := some (pick.gen, pick.stream) }

/-- Two ledger copies that differ are resolved by epoch, or the entry is rebuilt (R241, R331). -/
def State.ledgResolve (s : State) (p i : Nat) : State :=
  let a := smGet {} s.ledgA i
  let b := smGet {} s.ledgB i
  let won (v : LEntry) : State := (({ s with ledgA := smSet {} s.ledgA i v, ledgB := smSet {} s.ledgB i v }).setErr pgLedg 0 0).log 0x0B
    { cls := 3, vault := p, stream := some (v.gen, v.stream) }
  if a = b then s
  else
    let s1 := if epochLead 16384 a.epoch b.epoch then won a
      else if epochLead 16384 b.epoch a.epoch then won b
      else s.ledgRebuild p i
    s1.bump pgLedg 0 0 rLedgCopyConflict 1

/-- Structures of a vault whose lines were lost in every copy are rebuilt, and the lines go on with what the rebuild leaves
there (R326, R331). Which structure a line holds is not stated: a free value says whether it is a stream-roll entry, a ledger
entry or another table, and which. -/
def State.tablesResolve (s : State) (p : Nat) : State :=
  let ls := ((s.vault p).lostLines.filter (fun e => e.2 = 3)).map (·.1)
  if ls.isEmpty then s
  else
    let one (s : State) (l : Nat) : State :=
      let x := s.freeVal.toNat
      let rolls := tableKeys s.rollA s.rollB
      let ents := tableKeys s.ledgA s.ledgB
      let s1 := s.freeUsed
      let s2 :=
        if x % 3 = 0 && !rolls.isEmpty then s1.rollRebuild p (rolls.getD (x / 3 % rolls.length) 0)
        else if x % 3 = 1 && !ents.isEmpty then s1.ledgRebuild p (ents.getD (x / 3 % ents.length) 0)
        else s1.log 0x0C { cls := 3, vault := p, addr := l * 64 }
      let (s3, bs) := s2.freeBytes 64
      s3.modVault p (fun v => { v.store l (lineEncode bs) with lostLines := v.lostLines.filter (fun e => e.1 != l) })
    (ls.foldl one s).releaseHeld p

/-- The audit compares half A's copies with half B's (R332). -/
def State.auditTables (s : State) (p : Nat) : State :=
  if s.fencedHalf.isSome then s
  else
    let s1 := (tableKeys s.rollA s.rollB).foldl (fun s n => s.rollResolve p n) s
    (tableKeys s1.ledgA s1.ledgB).foldl (fun s i => s.ledgResolve p i) s1

/-! ### Commands of a vault that read lines of its array -/

/-- A read of one line, with an error pattern over what the array delivers (R179, R185, R188, R315, R316) and an error in the
shell's SRAM word that it reads (R200: 0 none, 1 single-bit, 2 double-bit). They meet the line that this command reads; a read
that must wait meets none. -/
def execVaultRead (vault addr : Nat) (noise : BitVec 576) (err : Nat) (s : State) : Host.Outcome State Fault Refusal :=
  .next (reachVault.take s (
    let a := addr % 1073741824
    if (s.vault vault).mode = .memory && !(s.vault vault).busyAt (a / 4096) then
      let (s1, r) := (s.shellErr vault (a / 64) err).readLine vault (a / 64) noise
      (s1.lineAnswer vault a r).tablesResolve vault
    else s.guestArrive vault (.line a)))

/-- The write queue reaches wr_high, or its oldest write flush_age, and is drained (R183). `err`: an error in the SRAM of its
oldest line (R200). -/
def execWriteDrain (vault err : Nat) (s : State) : Host.Outcome State Fault Refusal :=
  .next (reachVault.take s (
    match (s.vault vault).wq with
    | [] => s
    | e :: _ => if (s.vault vault).mode = .memory then ((s.shellErr vault e.1 err).drainWq vault).tablesResolve vault else s))

/-- An incomplete merge entry is evicted by read-modify-write (R185). `err`: an error in the entry's SRAM (R200). -/
def execMergeEvict (vault line : Nat) (noise : BitVec 576) (err : Nat) (s : State) : Host.Outcome State Fault Refusal :=
  .next (reachVault.take s (
    if (s.vault vault).mode = .memory && (s.vault vault).mb.any (fun e => e.line = line && !e.held) then
      ((s.shellErr vault line err).evict vault line noise).tablesResolve vault
    else s))

/-- The rewrite of a corrected line, and its verify read (R318, R319): an error again is hard and spares the row
segment. -/
def execRewriteVerify (vault line : Nat) (noise : BitVec 576) (s : State) : Host.Outcome State Fault Refusal :=
  .next (reachVault.take s (
    let v := s.vault vault
    match v.rewrites.find? (fun e => e.1 = line) with
    | none => s
    | some e =>
      if v.mode != .memory then s
      else
        let s1 := s.setVault vault { v.store line (lineEncode e.2) with rewrites := v.rewrites.filter (fun x => x.1 != line) }
        let s2 := ((s1.bump pgVlt vault 0 rVltRewrites 1).bump pgVlt vault 0 rVltWrLines 1).bump pgVlt vault 0 rVltRdLines 1
        let hard (s : State) : State :=
          ((s.setErr pgVlt vault 9).log 0x03 { vault := vault, addr := line * 64, bank := line / 32 % 128 }).modVault vault
            (fun v => v.spareSoon (line / 32))
        match lineDecode (noisy ((s2.vault vault).stored line) noise) with
        | .clean _ => s2
        | .fixed d k => hard (s2.lineCorrected vault line k d)
        | .lost => hard (((s2.lineUe vault line).tableLine vault line).1.tablesResolve vault)))

/-- The next row segment that waits is spared, each line corrected on the way (R320, R323), or stays in service where its bank has no spare row (R324). -/
def execRowSpare (vault : Nat) (s : State) : Host.Outcome State Fault Refusal :=
  .next (({ reachVault with sec := true } : Reach).take s (
    let v := s.vault vault
    match v.toSpare with
    | [] => s
    | seg :: rest =>
      if v.mode != .memory then s
      else
        let k := seg % 128
        let s0 := s.modVault vault (fun v => { v with toSpare := rest, suspects := v.suspects.filter (fun e => e.seg != seg) })
        match v.freeSpare k with
        | none =>
          let s1 := ((s0.setErr pgVlt vault 15).setInt pgVlt vault 4).log 0x05 { vault := vault, addr := seg * 2048, bank := k }
          if v.role = .logical || v.role = .borrowed then s1.castTrigger ⟨v.logical, 6, false, true⟩ else s1
        | some i =>
          let ls := segLines seg
          -- a line: what the spare row gets, whether it is whole, and its corrected symbols
          let read (l : Nat) : List Byte × Bool × Nat := match lineDecode (v.stored l) with
            | .clean d => (lineEncode d, true, 0)
            | .fixed d k => (lineEncode d, true, k)
            | .lost => (v.stored l, false, 0)
          -- a flagged line waits for its re-seal and is copied as stored
          let cws := ls.map (fun l => if v.flags.contains l then (v.stored l, true, 0) else read l)
          let s1 := s0.modVault vault (fun v =>
            let v1 := { v with remap := smPut v.remap seg (32 * k + i), remapBad := v.remapBad.filter (· != seg) }
            (ls.zip cws).foldl (fun v e => v.store e.1 e.2.1) v1)
          let s2 := (ls.zip cws).foldl (fun s e =>
            if !e.2.2.1 then
              (((((s.setErr pgVlt vault 14).log 0x06 { vault := vault, addr := e.1 * 64, bank := k }).lineUe vault e.1).tableLine
                vault e.1).1.tablesResolve vault)
            else if e.2.2.2 > 0 then s.countCorrected vault e.2.2.2
            else s) s1
          (((s2.bump pgVlt vault 0 rVltRowsSpared 1).setErr pgVlt vault 10).log 0x04
            { vault := vault, addr := seg * 2048, count := i, bank := k }).saveRemap vault))

/-- The line pair that the scrubber reads next, in ascending local address, and whether its pass starts again (R190,
R321). -/
def Vault.nextPair (v : Vault) : Option (Nat × Bool) :=
  let g := v.scrub / 32
  if v.valid.contains g then some (v.scrub, false)
  else match v.valid.find? (fun x => decide (g < x)) with
    | some x => some (32 * x, false)
    | none => v.valid.head?.map (fun x => (32 * x, true))

/-- A completed pass clears the suspect table (R322). -/
def Vault.passDone (v : Vault) : Vault := { v with scrubWrapped := true, suspects := [] }

/-- The scrubber reads the next valid line pair, with an error pattern over what the array delivers for each line, and
audits the mirrored tables when it scrubs a reserve vault of half A (R190, R212, R321, R322, R332). -/
def execPatrolScrub (vault : Nat) (noise0 noise1 : BitVec 576) (s : State) : Host.Outcome State Fault Refusal :=
  .next (reachVault.take s (
    let v := s.vault vault
    if v.mode != .memory || v.role = .disabled || s.fld pgVlt vault 0 rVltScrubCfg 31 31 = 0 then s
    else match v.nextPair with
      | none => s
      | some (q, again) =>
        if v.reloading (q / 32) then s else
        let s1 := if again then s.modVault vault Vault.passDone else s
        let (s2, _) := s1.arrayRead vault (2 * q) noise0
        let (s3, _) := s2.arrayRead vault (2 * q + 1) noise1
        let s4 := ((s3.tablesResolve vault).bump pgVlt vault 0 rVltScrubPairs 1).modVault vault (fun v => { v with scrub := (q + 1) % 8388608 })
        let s5 := if q + 1 = 8388608 then s4.modVault vault Vault.passDone else s4
        if v.role = .reserve && siteHalf vault = 0 then s5.auditTables vault else s5))

end Sys2Proof.Machine
end

