-- ==== Sys2Proof/Machine/Dispatch.lean ====
section
/-! DEFINITION. What each command does to everything but the queue: one arm per row of the table of operations and
events, one call of its meaning. -/

namespace Sys2Proof.Machine

/-- The effect of a command (R7 to R538, as each meaning cites). -/
def exec (i : Instr) (s : State) : Host.Outcome State Fault Refusal :=
  match i with
  | .regWrite fn off wide v => Sys2Proof.Machine.execRegWrite fn off wide v s
  | .regReadLowLatch fn tag off wide => Sys2Proof.Machine.execRegReadLowLatch fn tag off wide s
  | .badAccess fn tag isRead => Sys2Proof.Machine.execBadAccess fn tag isRead s
  | .clearCounts fn page => Sys2Proof.Machine.execClearCounts fn page s
  | .intForce fn page v => Sys2Proof.Machine.execIntForce fn page v s
  | .loomShelfWrite fn core v => Sys2Proof.Machine.execLoomShelfWrite fn core v s
  | .vltDiscard fn vault v => Sys2Proof.Machine.execVltDiscard fn vault v s
  | .rngAlmDataWrite fn v => Sys2Proof.Machine.execRngAlmDataWrite fn v s
  | .pwrShedTx fn v => Sys2Proof.Machine.execPwrShedTx fn v s
  | .stwCastReq fn v => Sys2Proof.Machine.execStwCastReq fn v s
  | .fabResetGuild fn => Sys2Proof.Machine.execFabResetGuild fn s
  | .fabResetMarket fn => Sys2Proof.Machine.execFabResetMarket fn s
  | .sessionOpen t => Sys2Proof.Machine.execSessionOpen t s
  | .sessionClose t => Sys2Proof.Machine.execSessionClose t s
  | .sessionIdleTimeout t => Sys2Proof.Machine.execSessionIdleTimeout t s
  | .svnCommitFirmware fn target => Sys2Proof.Machine.execSvnCommitFirmware fn target s
  | .svnCommitIdentity fn target => Sys2Proof.Machine.execSvnCommitIdentity fn target s
  | .svnCommitOwner fn target => Sys2Proof.Machine.execSvnCommitOwner fn target s
  | .svnCommitGuild fn target => Sys2Proof.Machine.execSvnCommitGuild fn target s
  | .requestDoorbell fn part tail => Sys2Proof.Machine.execRequestDoorbell fn part tail s
  | .tokenHeadDoorbell fn part head => Sys2Proof.Machine.execTokenHeadDoorbell fn part head s
  | .adminDoorbell tail => Sys2Proof.Machine.execAdminDoorbell tail s
  | .adminCqHeadDoorbell head => Sys2Proof.Machine.execAdminCqHeadDoorbell head s
  | .submit part => Sys2Proof.Machine.execSubmit part s
  | .continue part => Sys2Proof.Machine.execContinue part s
  | .createPartition rec => Sys2Proof.Machine.execCreatePartition rec s
  | .loadPattern rec => Sys2Proof.Machine.execLoadPattern rec s
  | .restoreContext rec => Sys2Proof.Machine.execRestoreContext rec s
  | .dropPattern rec => Sys2Proof.Machine.execDropPattern rec s
  | .setPolicy rec => Sys2Proof.Machine.execSetPolicy rec s
  | .serve rec => Sys2Proof.Machine.execServe rec s
  | .quiesce rec => Sys2Proof.Machine.execQuiesce rec s
  | .resetPartition rec => Sys2Proof.Machine.execResetPartition rec s
  | .partitionResetDone part => Sys2Proof.Machine.execPartitionResetDone part s
  | .destroyPartition rec => Sys2Proof.Machine.execDestroyPartition rec s
  | .openStream rec => Sys2Proof.Machine.execOpenStream rec s
  | .parkStream rec => Sys2Proof.Machine.execParkStream rec s
  | .cancelStream rec => Sys2Proof.Machine.execCancelStream rec s
  | .snapshot rec => Sys2Proof.Machine.execSnapshot rec s
  | .joinGuild rec => Sys2Proof.Machine.execJoinGuild rec s
  | .joinTimeout => Sys2Proof.Machine.execJoinTimeout s
  | .leaveGuild rec => Sys2Proof.Machine.execLeaveGuild rec s
  | .stepStart part => Sys2Proof.Machine.execStepStart part s
  | .draftSubstep part => Sys2Proof.Machine.execDraftSubstep part s
  | .stepEnd part => Sys2Proof.Machine.execStepEnd part s
  | .streamUnpark stream => Sys2Proof.Machine.execStreamUnpark stream s
  | .streamDrainDone stream => Sys2Proof.Machine.execStreamDrainDone stream s
  | .tokenMsix part => Sys2Proof.Machine.execTokenMsix part s
  | .pageDemote entry => Sys2Proof.Machine.execPageDemote entry s
  | .pagePromote entry => Sys2Proof.Machine.execPagePromote entry s
  | .pageMoveDone entry => Sys2Proof.Machine.execPageMoveDone entry s
  | .ledgerPageFree entry => Sys2Proof.Machine.execLedgerPageFree entry s
  | .recomputeStep stream => Sys2Proof.Machine.execRecomputeStep stream s
  | .orderRefetch core q => Sys2Proof.Machine.execOrderRefetch core q s
  | .orderComplete core flight => Sys2Proof.Machine.execOrderComplete core flight s
  | .clerkBufferParity core q => Sys2Proof.Machine.execClerkBufferParity core q s
  | .clerkRegUe core => Sys2Proof.Machine.execClerkRegUe core s
  | .restEnd core => Sys2Proof.Machine.execRestEnd core s
  | .load core => Sys2Proof.Machine.execLoad core s
  | .store core => Sys2Proof.Machine.execStore core s
  | .move core => Sys2Proof.Machine.execMove core s
  | .loomGemm core => Sys2Proof.Machine.execLoomGemm core s
  | .loomGemmSparse core => Sys2Proof.Machine.execLoomGemmSparse core s
  | .loomOrderStart core loom => Sys2Proof.Machine.execLoomOrderStart core loom s
  | .fillWindowExpired core loom place => Sys2Proof.Machine.execFillWindowExpired core loom place s
  | .weightTileArrive core loom => Sys2Proof.Machine.execWeightTileArrive core loom s
  | .shadowLoadDone core loom => Sys2Proof.Machine.execShadowLoadDone core loom s
  | .loomTileStart core loom => Sys2Proof.Machine.execLoomTileStart core loom s
  | .boundaryPauseEnd core loom => Sys2Proof.Machine.execBoundaryPauseEnd core loom s
  | .shelfSlotFull core loom => Sys2Proof.Machine.execShelfSlotFull core loom s
  | .loomRecompute core loom cause => Sys2Proof.Machine.execLoomRecompute core loom cause s
  | .treadleWindow core loom act => Sys2Proof.Machine.execTreadleWindow core loom act s
  | .treadleGapExpired core loom => Sys2Proof.Machine.execTreadleGapExpired core loom s
  | .treadle core => Sys2Proof.Machine.execTreadle core s
  | .treadleDurationEnd core flight => Sys2Proof.Machine.execTreadleDurationEnd core flight s
  | .recipe core => Sys2Proof.Machine.execRecipe core s
  | .elemGroupIssue core fault => Sys2Proof.Machine.execElemGroupIssue core fault s
  | .shelfUnitStart core => Sys2Proof.Machine.execShelfUnitStart core s
  | .elemParityReload core store => Sys2Proof.Machine.execElemParityReload core store s
  | .uopMov core => Sys2Proof.Machine.execUopMov core s
  | .uopAbs core => Sys2Proof.Machine.execUopAbs core s
  | .uopNeg core => Sys2Proof.Machine.execUopNeg core s
  | .uopI2f core => Sys2Proof.Machine.execUopI2f core s
  | .uopF2i core => Sys2Proof.Machine.execUopF2i core s
  | .uopIdx core => Sys2Proof.Machine.execUopIdx core s
  | .uopRow core => Sys2Proof.Machine.execUopRow core s
  | .uopCol core => Sys2Proof.Machine.execUopCol core s
  | .uopAdd core => Sys2Proof.Machine.execUopAdd core s
  | .uopSub core => Sys2Proof.Machine.execUopSub core s
  | .uopMul core => Sys2Proof.Machine.execUopMul core s
  | .uopFma core => Sys2Proof.Machine.execUopFma core s
  | .uopFms core => Sys2Proof.Machine.execUopFms core s
  | .uopIadd core => Sys2Proof.Machine.execUopIadd core s
  | .uopIsub core => Sys2Proof.Machine.execUopIsub core s
  | .uopImul core => Sys2Proof.Machine.execUopImul core s
  | .uopExp2 core => Sys2Proof.Machine.execUopExp2 core s
  | .uopLog2 core => Sys2Proof.Machine.execUopLog2 core s
  | .uopRecip core => Sys2Proof.Machine.execUopRecip core s
  | .uopRsqrt core => Sys2Proof.Machine.execUopRsqrt core s
  | .uopSin core => Sys2Proof.Machine.execUopSin core s
  | .uopCos core => Sys2Proof.Machine.execUopCos core s
  | .uopBmRad core => Sys2Proof.Machine.execUopBmRad core s
  | .uopBmCos core => Sys2Proof.Machine.execUopBmCos core s
  | .uopBmSin core => Sys2Proof.Machine.execUopBmSin core s
  | .uopMax core => Sys2Proof.Machine.execUopMax core s
  | .uopMin core => Sys2Proof.Machine.execUopMin core s
  | .uopClamp core => Sys2Proof.Machine.execUopClamp core s
  | .uopCmplt core => Sys2Proof.Machine.execUopCmplt core s
  | .uopCmple core => Sys2Proof.Machine.execUopCmple core s
  | .uopCmpeq core => Sys2Proof.Machine.execUopCmpeq core s
  | .uopIsnan core => Sys2Proof.Machine.execUopIsnan core s
  | .uopSel core => Sys2Proof.Machine.execUopSel core s
  | .uopMul5 core => Sys2Proof.Machine.execUopMul5 core s
  | .uopLut0 core => Sys2Proof.Machine.execUopLut0 core s
  | .uopLut1 core => Sys2Proof.Machine.execUopLut1 core s
  | .uopRandU core => Sys2Proof.Machine.execUopRandU core s
  | .uopRandBits core => Sys2Proof.Machine.execUopRandBits core s
  | .uopMask core => Sys2Proof.Machine.execUopMask core s
  | .uopDither core => Sys2Proof.Machine.execUopDither core s
  | .uopCompress core => Sys2Proof.Machine.execUopCompress core s
  | .uopExpandFill core => Sys2Proof.Machine.execUopExpandFill core s
  | .uopExpandKeep core => Sys2Proof.Machine.execUopExpandKeep core s
  | .uopCvt core => Sys2Proof.Machine.execUopCvt core s
  | .uopCvtSr core => Sys2Proof.Machine.execUopCvtSr core s
  | .uopQuant core => Sys2Proof.Machine.execUopQuant core s
  | .uopQuantSr core => Sys2Proof.Machine.execUopQuantSr core s
  | .uopRoute core => Sys2Proof.Machine.execUopRoute core s
  | .tally core => Sys2Proof.Machine.execTally core s
  | .tallySum core err => Sys2Proof.Machine.execTallySum core err s
  | .tallyMax core err => Sys2Proof.Machine.execTallyMax core err s
  | .tallyMin core err => Sys2Proof.Machine.execTallyMin core err s
  | .tallyArgmax core err => Sys2Proof.Machine.execTallyArgmax core err s
  | .tallyTopk core err => Sys2Proof.Machine.execTallyTopk core err s
  | .tallyRmaxsum core err => Sys2Proof.Machine.execTallyRmaxsum core err s
  | .tallyHist core err => Sys2Proof.Machine.execTallyHist core err s
  | .tallyCount core err => Sys2Proof.Machine.execTallyCount core err s
  | .tallyScan core err => Sys2Proof.Machine.execTallyScan core err s
  | .tallyRowResult core => Sys2Proof.Machine.execTallyRowResult core s
  | .scalarAdd core => Sys2Proof.Machine.execScalarAdd core s
  | .scalarSub core => Sys2Proof.Machine.execScalarSub core s
  | .scalarMul core => Sys2Proof.Machine.execScalarMul core s
  | .scalarShl core => Sys2Proof.Machine.execScalarShl core s
  | .scalarShr core => Sys2Proof.Machine.execScalarShr core s
  | .scalarSar core => Sys2Proof.Machine.execScalarSar core s
  | .scalarAnd core => Sys2Proof.Machine.execScalarAnd core s
  | .scalarOr core => Sys2Proof.Machine.execScalarOr core s
  | .scalarXor core => Sys2Proof.Machine.execScalarXor core s
  | .scalarMadd core => Sys2Proof.Machine.execScalarMadd core s
  | .scalarCmpeq core => Sys2Proof.Machine.execScalarCmpeq core s
  | .scalarCmplt core => Sys2Proof.Machine.execScalarCmplt core s
  | .scalarCmpltu core => Sys2Proof.Machine.execScalarCmpltu core s
  | .scalarLi core => Sys2Proof.Machine.execScalarLi core s
  | .scalarLds core => Sys2Proof.Machine.execScalarLds core s
  | .scalarSts core => Sys2Proof.Machine.execScalarSts core s
  | .scalarRdctr core => Sys2Proof.Machine.execScalarRdctr core s
  | .loop core => Sys2Proof.Machine.execLoop core s
  | .branchIf core => Sys2Proof.Machine.execBranchIf core s
  | .signalAdd core => Sys2Proof.Machine.execSignalAdd core s
  | .signalSet core => Sys2Proof.Machine.execSignalSet core s
  | .signalDeliver core flight => Sys2Proof.Machine.execSignalDeliver core flight s
  | .wait core => Sys2Proof.Machine.execWait core s
  | .fence core => Sys2Proof.Machine.execFence core s
  | .barrierJoin core => Sys2Proof.Machine.execBarrierJoin core s
  | .attend core => Sys2Proof.Machine.execAttend core s
  | .selectionProgram core vault => Sys2Proof.Machine.execSelectionProgram core vault s
  | .attendBackward core => Sys2Proof.Machine.execAttendBackward core s
  | .kvAppend core => Sys2Proof.Machine.execKvAppend core s
  | .bookMatch core => Sys2Proof.Machine.execBookMatch core s
  | .bookAttach core => Sys2Proof.Machine.execBookAttach core s
  | .bookInsert core => Sys2Proof.Machine.execBookInsert core s
  | .bookPeek core => Sys2Proof.Machine.execBookPeek core s
  | .sample core mism => Sys2Proof.Machine.execSample core mism s
  | .gambitVerify core mism => Sys2Proof.Machine.execGambitVerify core mism s
  | .dispatch core => Sys2Proof.Machine.execDispatch core s
  | .collectReturn core => Sys2Proof.Machine.execCollectReturn core s
  | .collectGather core => Sys2Proof.Machine.execCollectGather core s
  | .allreduce core => Sys2Proof.Machine.execAllreduce core s
  | .reduce core => Sys2Proof.Machine.execReduce core s
  | .broadcast core => Sys2Proof.Machine.execBroadcast core s
  | .allgather core => Sys2Proof.Machine.execAllgather core s
  | .reducescatter core => Sys2Proof.Machine.execReducescatter core s
  | .bankProgram core => Sys2Proof.Machine.execBankProgram core s
  | .bankProgramStart vault => Sys2Proof.Machine.execBankProgramStart vault s
  | .bankItem vault bank => Sys2Proof.Machine.execBankItem vault bank s
  | .bankNop vault bank => Sys2Proof.Machine.execBankNop vault bank s
  | .bankMov vault bank => Sys2Proof.Machine.execBankMov vault bank s
  | .bankAdd vault bank => Sys2Proof.Machine.execBankAdd vault bank s
  | .bankMax vault bank => Sys2Proof.Machine.execBankMax vault bank s
  | .bankCmpge vault bank => Sys2Proof.Machine.execBankCmpge vault bank s
  | .bankDot vault bank => Sys2Proof.Machine.execBankDot vault bank s
  | .bankDotmax vault bank => Sys2Proof.Machine.execBankDotmax vault bank s
  | .bankCopy vault bank => Sys2Proof.Machine.execBankCopy vault bank s
  | .bankEmita vault bank => Sys2Proof.Machine.execBankEmita vault bank s
  | .bankClra vault bank => Sys2Proof.Machine.execBankClra vault bank s
  | .bankStepEnd vault => Sys2Proof.Machine.execBankStepEnd vault s
  | .reseal vault err => Sys2Proof.Machine.execReseal vault err s
  | .enPassant vault => Sys2Proof.Machine.execEnPassant vault s
  | .bankPause vault => Sys2Proof.Machine.execBankPause vault s
  | .bankEccPause vault line noise => Sys2Proof.Machine.execBankEccPause vault line noise s
  | .bankUe vault line noise => Sys2Proof.Machine.execBankUe vault line noise s
  | .flagScan vault => Sys2Proof.Machine.execFlagScan vault s
  | .watchmanTakeover half => Sys2Proof.Machine.execWatchmanTakeover half s
  | .watchmanHandback half => Sys2Proof.Machine.execWatchmanHandback half s
  | .vaultRead vault addr noise err => Sys2Proof.Machine.execVaultRead vault addr noise err s
  | .vaultWrite vault addr bs => Sys2Proof.Machine.execVaultWrite vault addr bs s
  | .writeDrain vault err => Sys2Proof.Machine.execWriteDrain vault err s
  | .mergeEvict vault line noise err => Sys2Proof.Machine.execMergeEvict vault line noise err s
  | .granuleMaterialise vault granule => Sys2Proof.Machine.execGranuleMaterialise vault granule s
  | .refreshCommand vault bank => Sys2Proof.Machine.execRefreshCommand vault bank s
  | .interfaceRecentre vault => Sys2Proof.Machine.execInterfaceRecentre vault s
  | .rewriteVerify vault line noise => Sys2Proof.Machine.execRewriteVerify vault line noise s
  | .bucketLeak vault => Sys2Proof.Machine.execBucketLeak vault s
  | .patrolScrub vault noise0 noise1 => Sys2Proof.Machine.execPatrolScrub vault noise0 noise1 s
  | .rowSpare vault => Sys2Proof.Machine.execRowSpare vault s
  | .remapReload vault words => Sys2Proof.Machine.execRemapReload vault words s
  | .patternRestore vault granule => Sys2Proof.Machine.execPatternRestore vault granule s
  | .stockroomScrub core errs => Sys2Proof.Machine.execStockroomScrub core errs s
  | .meshFlit half src dst flit ok => Sys2Proof.Machine.execMeshFlit half src dst flit ok s
  | .meshPacket half src dst bs => Sys2Proof.Machine.execMeshPacket half src dst bs s
  | .d2dFlit m half flit => Sys2Proof.Machine.execD2dFlit m half flit s
  | .d2dClockSilence mods half => Sys2Proof.Machine.execD2dClockSilence mods half s
  | .d2dRetrain m ok => Sys2Proof.Machine.execD2dRetrain m ok s
  | .fabFrame port frame => Sys2Proof.Machine.execFabFrame port frame s
  | .fabPortDown port => Sys2Proof.Machine.execFabPortDown port s
  | .wavelengthFail port w => Sys2Proof.Machine.execWavelengthFail port w s
  | .ringTuneTick port die lift => Sys2Proof.Machine.execRingTuneTick port die lift s
  | .laserWaitDone port => Sys2Proof.Machine.execLaserWaitDone port s
  | .ringLockDone port ok => Sys2Proof.Machine.execRingLockDone port ok s
  | .alignDone port guild dev peer lanes => Sys2Proof.Machine.execAlignDone port guild dev peer lanes s
  | .fabPortRetry port => Sys2Proof.Machine.execFabPortRetry port s
  | .put m => Sys2Proof.Machine.execPut m s
  | .getReq m => Sys2Proof.Machine.execGetReq m s
  | .getRsp m => Sys2Proof.Machine.execGetRsp m s
  | .ack m => Sys2Proof.Machine.execAck m s
  | .e2eTimeout id => Sys2Proof.Machine.execE2eTimeout id s
  | .coll m => Sys2Proof.Machine.execColl m s
  | .barJoin m => Sys2Proof.Machine.execBarJoin m s
  | .barRelease m => Sys2Proof.Machine.execBarRelease m s
  | .snapMark m => Sys2Proof.Machine.execSnapMark m s
  | .snapshotCopy => Sys2Proof.Machine.execSnapshotCopy s
  | .heartbeat m => Sys2Proof.Machine.execHeartbeat m s
  | .heartbeatSend => Sys2Proof.Machine.execHeartbeatSend s
  | .heartbeatLoss => Sys2Proof.Machine.execHeartbeatLoss s
  | .linkState m => Sys2Proof.Machine.execLinkState m s
  | .routeTableUpdate => Sys2Proof.Machine.execRouteTableUpdate s
  | .shed m => Sys2Proof.Machine.execShed m s
  | .reset m => Sys2Proof.Machine.execReset m s
  | .msg m => Sys2Proof.Machine.execMsg m s
  | .mirrorEntry m => Sys2Proof.Machine.execMirrorEntry m s
  | .mirrorTokens m => Sys2Proof.Machine.execMirrorTokens m s
  | .mirrorRelease m => Sys2Proof.Machine.execMirrorRelease m s
  | .deviceLost m => Sys2Proof.Machine.execDeviceLost m s
  | .deviceHoldExpired dev => Sys2Proof.Machine.execDeviceHoldExpired dev s
  | .adoptTimeout part stream => Sys2Proof.Machine.execAdoptTimeout part stream s
  | .joinChal m => Sys2Proof.Machine.execJoinChal m s
  | .joinResp m => Sys2Proof.Machine.execJoinResp m s
  | .joinDone m => Sys2Proof.Machine.execJoinDone m s
  | .hostConfigRequest fn tag bme => Sys2Proof.Machine.execHostConfigRequest fn tag bme s
  | .hostNearRead fn tag addr len => Sys2Proof.Machine.execHostNearRead fn tag addr len s
  | .hostNearWrite fn addr bs => Sys2Proof.Machine.execHostNearWrite fn addr bs s
  | .hostReadTimeout part purpose id how => Sys2Proof.Machine.execHostReadTimeout part purpose id how s
  | .fenceHoldExpired fn tag => Sys2Proof.Machine.execFenceHoldExpired fn tag s
  | .hostLinkLoss => Sys2Proof.Machine.execHostLinkLoss s
  | .perstDeassert width rate flit => Sys2Proof.Machine.execPerstDeassert width rate flit s
  | .flrVf vf => Sys2Proof.Machine.execFlrVf vf s
  | .flrPf0 => Sys2Proof.Machine.execFlrPf0 s
  | .flrPf1 => Sys2Proof.Machine.execFlrPf1 s
  | .farReadFail port addr how => Sys2Proof.Machine.execFarReadFail port addr how s
  | .farHoldExpired port addr => Sys2Proof.Machine.execFarHoldExpired port addr s
  | .farEventPoll port events => Sys2Proof.Machine.execFarEventPoll port events s
  | .farPortDown port => Sys2Proof.Machine.execFarPortDown port s
  | .governorTick est demand => Sys2Proof.Machine.execGovernorTick est demand s
  | .housekeepingRound temps power => Sys2Proof.Machine.execHousekeepingRound temps power s
  | .gridShedAssert => Sys2Proof.Machine.execGridShedAssert s
  | .gridShedRelease => Sys2Proof.Machine.execGridShedRelease s
  | .coolantFault => Sys2Proof.Machine.execCoolantFault s
  | .coolantFaultRelease => Sys2Proof.Machine.execCoolantFaultRelease s
  | .sealedMove us => Sys2Proof.Machine.execSealedMove us s
  | .sealTimeout => Sys2Proof.Machine.execSealTimeout s
  | .adjournPhase3 => Sys2Proof.Machine.execAdjournPhase3 s
  | .resume => Sys2Proof.Machine.execResume s
  | .railFault rail => Sys2Proof.Machine.execRailFault rail s
  | .aonSupplyGood => Sys2Proof.Machine.execAonSupplyGood s
  | .aonSupplyLoss => Sys2Proof.Machine.execAonSupplyLoss s
  | .hubSupplySettled => Sys2Proof.Machine.execHubSupplySettled s
  | .bootDone => Sys2Proof.Machine.execBootDone s
  | .interfaceTrained unit ok => Sys2Proof.Machine.execInterfaceTrained unit ok s
  | .trainingDone => Sys2Proof.Machine.execTrainingDone s
  | .startUpTestDone logic vaults d2d far opt routers treadle => Sys2Proof.Machine.execStartUpTestDone logic vaults d2d far opt routers treadle s
  | .topologyDeadline => Sys2Proof.Machine.execTopologyDeadline s
  | .deviceReset => Sys2Proof.Machine.execDeviceReset s
  | .stewardWatchdog => Sys2Proof.Machine.execStewardWatchdog s
  | .aliasCertReady => Sys2Proof.Machine.execAliasCertReady s
  | .clerkHeartbeatMiss core => Sys2Proof.Machine.execClerkHeartbeatMiss core s
  | .castlingGraceful half => Sys2Proof.Machine.execCastlingGraceful half s
  | .castlingAbrupt half => Sys2Proof.Machine.execCastlingAbrupt half s
  | .castleSwitch half => Sys2Proof.Machine.execCastleSwitch half s
  | .migrateGranule logical granule demand => Sys2Proof.Machine.execMigrateGranule logical granule demand s
  | .oldShellLost logical => Sys2Proof.Machine.execOldShellLost logical s
  | .rejoinRestart => Sys2Proof.Machine.execRejoinRestart s
  | .rejoinTrain => Sys2Proof.Machine.execRejoinTrain s
  | .rejoinShellRestore => Sys2Proof.Machine.execRejoinShellRestore s
  | .rejoinReplay => Sys2Proof.Machine.execRejoinReplay s
  | .rejoinCoreRestore => Sys2Proof.Machine.execRejoinCoreRestore s
  | .rejoinResume => Sys2Proof.Machine.execRejoinResume s
  | .halfEscalate => Sys2Proof.Machine.execHalfEscalate s
  | .halfRetrain ok => Sys2Proof.Machine.execHalfRetrain ok s
  | .getVersion t req => Sys2Proof.Machine.execGetVersion t req s
  | .getCapabilities t req => Sys2Proof.Machine.execGetCapabilities t req s
  | .negotiateAlgorithms t req => Sys2Proof.Machine.execNegotiateAlgorithms t req s
  | .getDigests t req => Sys2Proof.Machine.execGetDigests t req s
  | .getCertificate t req => Sys2Proof.Machine.execGetCertificate t req s
  | .challenge t req => Sys2Proof.Machine.execChallenge t req s
  | .getMeasurements t req => Sys2Proof.Machine.execGetMeasurements t req s
  | .chunkSend t req => Sys2Proof.Machine.execChunkSend t req s
  | .chunkGet t req => Sys2Proof.Machine.execChunkGet t req s
  | .getInfo t tag => Sys2Proof.Machine.execGetInfo t tag s
  | .resetDevice t tag => Sys2Proof.Machine.execResetDevice t tag s
  | .setOwner t tag key => Sys2Proof.Machine.execSetOwner t tag key s
  | .setGuildKey t tag key => Sys2Proof.Machine.execSetGuildKey t tag key s
  | .readReg tag off wide => Sys2Proof.Machine.execReadReg tag off wide s
  | .writeReg tag off wide v => Sys2Proof.Machine.execWriteReg tag off wide v s
  | .readLog t tag first count => Sys2Proof.Machine.execReadLog t tag first count s
  | .writeConfig t tag off len bs => Sys2Proof.Machine.execWriteConfig t tag off len bs s
  | .writeImage t tag nor off len bs => Sys2Proof.Machine.execWriteImage t tag nor off len bs s
  | .discardDone vault => Sys2Proof.Machine.execDiscardDone vault s
  | .watchmanBandSelect half => Sys2Proof.Machine.execWatchmanBandSelect half s
  | .hostSpurDown => Sys2Proof.Machine.execHostSpurDown s

end Sys2Proof.Machine
end

