-- ==== Sys2Proof/Safety.lean ====
section
/-! DEFINITION. The terms in which claims speak: what a step leaves as it was, part by part; what an order that retires
leaves of its core; and the shape of the fuses. -/

namespace Sys2Proof.Safety

open Sys2Proof.Machine

/-- Every stored register outside a list of keys is as before. -/
def RegsKept (s t : State) (keys : List Nat) : Prop := ∀ k, k ∉ keys → smFind t.regs k = smFind s.regs k

/-- Every core outside a list is as before. -/
def CoresKept (s t : State) (cs : List Nat) : Prop := ∀ d, d ∉ cs → t.core d = s.core d

/-- Every vault outside a list is as before. -/
def VaultsKept (s t : State) (ps : List Nat) : Prop := ∀ p, p ∉ ps → t.vault p = s.vault p

/-- Every partition outside a list is as before. -/
def PartsKept (s t : State) (ps : List Nat) : Prop := ∀ p, p ∉ ps → t.part p = s.part p

/-- What lies outside a reach is as before: each part of the state by name. The waiting queue, and the fused keys, seed and
mask ROM, are as before whatever the reach. -/
structure Kept (f : Reach) (s t : State) : Prop where
  regs : f.regs = false → t.regs = s.regs ∧ t.latch = s.latch ∧ t.staged = s.staged
  cores : f.cores = false → t.cores = s.cores
  vaults : f.vaults = false → t.vaults = s.vaults
  parts : f.parts = false → t.parts = s.parts
  roll : f.roll = false → t.rollA = s.rollA ∧ t.rollB = s.rollB
  ledg : f.ledg = false → t.ledgA = s.ledgA ∧ t.ledgB = s.ledgB
  book : f.book = false → t.book = s.book
  alm : f.alm = false → t.alm = s.alm
  adm : f.adm = false → t.admHead = s.admHead ∧ t.admTail = s.admTail ∧ t.acqHead = s.acqHead ∧ t.acqTail = s.acqTail
    ∧ t.admOpen = s.admOpen ∧ t.admWait = s.admWait
  fab : f.fab = false → t.fab = s.fab
  snap : f.snap = false → t.snap = s.snap
  d2d : f.d2d = false → t.d2d = s.d2d
  mesh : f.mesh = false → t.meshA = s.meshA ∧ t.meshB = s.meshB ∧ t.gates = s.gates
  host : f.host = false → t.host = s.host
  far : f.far = false → t.far = s.far
  pwr : f.pwr = false → t.pwr = s.pwr
  thm : f.thm = false → t.thm = s.thm
  boot : f.boot = false → t.boot = s.boot
  abs : f.abs = false → t.abs = s.abs
  sec : f.sec = false → t.sec = s.sec
  fuse : f.fuse = false → t.sec.svn = s.sec.svn
  elog : f.elog = false → t.elog = s.elog
  time : f.time = false → t.timeUs = s.timeUs
  free : f.free = false → t.freeCtr = s.freeCtr
  sent : f.sent = false → t.sent = s.sent
  fused : t.sec.keys = s.sec.keys ∧ t.sec.revoked0 = s.sec.revoked0 ∧ t.sec.seed = s.sec.seed ∧ t.sec.rom = s.sec.rom
  pending : t.pending = s.pending

/-- The units and memories of a core are as before: everything but its queues, its s-registers and counters, and what the
round robin remembers. -/
structure UnitsKept (x y : Core) : Prop where
  flights : y.flights = x.flights
  sigs : y.sigs = x.sigs
  rest : y.rest = x.rest ∧ y.restAt = x.restAt
  stock : y.stock = x.stock ∧ y.stockBad = x.stockBad ∧ y.stockPtr = x.stockPtr
  looms : y.looms = x.looms ∧ y.shelf = x.shelf
  engine : y.eng = x.eng ∧ y.tally = x.tally
  jobs : y.jobs = x.jobs ∧ y.inbox = x.inbox ∧ y.retIn = x.retIn ∧ y.msgIn = x.msgIn ∧ y.partsIn = x.partsIn
  almanac : y.alm = x.alm ∧ y.cgFailed = x.cgFailed
  mark : y.mark = x.mark

/-- Status of an order with k further clamps that completes in its start cycle: OK, or CLAMPED (R8, R9). -/
def startStatus (st : Start) (k : Nat) : DWord := if st.clamps + k = 0 then 0 else 1

/-- Whether an order names s-register r for its status (word 2, R143). -/
def tellsStatus (o r : Nat) : Bool := bit (ordW o 2) 14 && decide (bits (ordW o 2) 13 8 % 64 = r % 64)

/-- Whether an order signals counter r when it completes (words 0 and 2, R139). -/
def tellsCounter (o r : Nat) : Bool := bit o 10 && decide (ordF o 0 23 18 % 64 = r % 64)

/-- Registers that starting an order of core c with n clamps writes: CLERK_ORDERS, and the clamp count and bit. -/
def startKeys (c n : Nat) : List Nat :=
  regKey pgClerk c 0 rClerkOrders :: (if n = 0 then [] else [regKey pgClerk c 0 hClamp, regKey pgClerk c 0 hSts])

/-- An order of core c that completes in its start cycle, with k clamps besides those of its common words: the queue moves
on to `next`; s-registers other than those of `dst` change only where `status_sreg` names them, counters other than those
of `cdst` only where `sig_ctr` does; nothing else outside the core changes but the clerk's counts (R135, R138, R139,
R143). -/
structure RetiresAtStart (s t : State) (c : Nat) (st : Start) (k : Nat) (dst cdst : List Nat) (next : Nat) : Prop where
  queue : (t.queue c st.q).index = next
  queues : ∀ q, q ≠ st.q → t.queue c q = s.queue c q
  sregs : ∀ r, (∀ d ∈ dst, r % 64 ≠ d % 64) →
    t.sreg c r = if tellsStatus st.ord r then startStatus st k else s.sreg c r
  ctrs : ∀ r, (∀ d ∈ cdst, r % 64 ≠ d % 64) →
    t.ctr c r = if tellsCounter st.ord r then s.ctr c r + BitVec.ofNat 32 (bits (ordW st.ord 2) 7 0) else s.ctr c r
  cores : CoresKept s t [c]
  orders : t.reg pgClerk c 0 rClerkOrders = s.reg pgClerk c 0 rClerkOrders + 1
  regs : RegsKept s t (startKeys c (st.clamps + k))
  rest : Kept { regs := true, cores := true } s t
  latches : t.latch = s.latch ∧ t.staged = s.staged

/-- An order of core c starts and stays incomplete: it is held last among the core's orders, its queue moves past it, and
no s-register or counter changes (R131, R132). -/
structure HeldAtStart (s t : State) (c : Nat) (st : Start) (k : Nat) : Prop where
  held : ∃ f, (t.core c).flights = (s.core c).flights ++ [f] ∧ f.id = (s.core c).freshId ∧ f.q = st.q ∧ f.idx = st.idx
    ∧ f.ord = st.ord ∧ f.op = st.op ∧ f.done = false
  queue : (t.queue c st.q).index = st.idx + 1
  queues : ∀ q, q ≠ st.q → t.queue c q = s.queue c q
  sregs : (t.core c).sregs = (s.core c).sregs
  ctrs : (t.core c).ctrs = (s.core c).ctrs
  cores : CoresKept s t [c]
  orders : t.reg pgClerk c 0 rClerkOrders = s.reg pgClerk c 0 rClerkOrders + 1
  regs : RegsKept s t (startKeys c (st.clamps + k))
  rest : Kept { regs := true, cores := true } s t
  latches : t.latch = s.latch ∧ t.staged = s.staged

end Sys2Proof.Safety
end

