-- ==== Sys2Proof/Certificates/Slice0/Obligations.lean ====
section
/-! DEFINITION. What this model's provers are asked: one proposition per obligation, with the tables of the spec that the
propositions speak in. -/

namespace Sys2Proof.Claims

open Sys2Proof.Machine Sys2Proof.Safety

/-! ### Control orders -/

/-- The SCALAR orders that write `dst` from operands a, b, s[sb], imm and counter sb, with their codes (R149). -/
def scalarRows (c : Nat) : List (Instr × Nat × (DWord → DWord → DWord → DWord → Word → DWord)) :=
  [(.scalarAdd c, 0x00, fun a b _ _ _ => a + b),
   (.scalarSub c, 0x01, fun a b _ _ _ => a - b),
   (.scalarMul c, 0x02, fun a b _ _ _ => a * b),
   (.scalarShl c, 0x03, fun a b _ _ _ => a <<< (b.toNat % 64)),
   (.scalarShr c, 0x04, fun a b _ _ _ => a >>> (b.toNat % 64)),
   (.scalarSar c, 0x05, fun a b _ _ _ => BitVec.ofInt 64 (a.toInt / 2 ^ (b.toNat % 64))),
   (.scalarAnd c, 0x06, fun a b _ _ _ => a &&& b),
   (.scalarOr c, 0x07, fun a b _ _ _ => a ||| b),
   (.scalarXor c, 0x08, fun a b _ _ _ => a ^^^ b),
   (.scalarMadd c, 0x09, fun a _ sb imm _ => a + sb * imm),
   (.scalarCmpeq c, 0x0A, fun a b _ _ _ => if a = b then 1 else 0),
   (.scalarCmplt c, 0x0B, fun a b _ _ _ => if a.toInt < b.toInt then 1 else 0),
   (.scalarCmpltu c, 0x0C, fun a b _ _ _ => if a.toNat < b.toNat then 1 else 0),
   (.scalarLi c, 0x0D, fun _ _ _ imm _ => imm),
   (.scalarRdctr c, 0x10, fun _ _ _ _ ctr => BitVec.ofNat 64 ctr.toNat)]

/-- The next order of core c is a SCALAR order of a code; 0x11 to 0xFF become ADD (R149). -/
def NextScalar (s : State) (c : Nat) (st : Start) (code : Nat) : Prop :=
  s.pick c = some st ∧ st.op = 0x58 ∧ (if ordF st.ord 4 7 0 > 0x10 then 0 else ordF st.ord 4 7 0) = code

/-- b of a SCALAR order: imm if b_imm is set, s[sb] otherwise (R149). -/
def scalarB (s : State) (c o : Nat) : DWord :=
  if bit (ordW o 4) 31 then BitVec.ofNat 64 (ordW64 o 5) else s.sreg c (ordF o 4 29 24)

/-- The stockroom address of LDS and STS, (a + imm) mod 2 MiB with the low 3 bits taken as 0 (R149). -/
def scalarAddr (s : State) (c o : Nat) : Nat :=
  ((s.sreg c (ordF o 4 21 16) + BitVec.ofNat 64 (ordW64 o 5)).toNat % 2097152) / 8 * 8

/-- The clamp that a SCALAR code above 0x10 counts (R8, R149). -/
def scalarClamp (o : Nat) : Nat := if ordF o 4 7 0 > 0x10 then 1 else 0

/-- Where a queue of `len` orders continues for a target index (R152). -/
def target (len : Nat) (i : Int) : Nat := if i < 0 then 0 else if i.toNat > len then len else i.toNat

/-- `back` of a LOOP order; 0 clamps to 1 (R148). -/
def loopBack (o : Nat) : Nat := if ordF o 5 15 0 = 0 then 1 else ordF o 5 15 0

/-- `offset` of a BRANCH_IF order, signed; 0 clamps to 1 (R148). -/
def branchOffset (o : Nat) : Int := if ordW o 5 = 0 then 1 else (BitVec.ofNat 32 (ordW o 5)).toInt

/-- b of a BRANCH_IF order (R151). -/
def branchB (s : State) (c o : Nat) : DWord :=
  if bit (ordW o 4) 14 then BitVec.ofNat 64 (ordW64 o 6) else s.sreg c (ordF o 4 13 8)

/-- The conditions of BRANCH_IF: EQ, NE, LT, GE signed, LTU, GEU unsigned; 6 and 7 become EQ (R148, R151). -/
def branchCond (cond : Nat) (a b : DWord) : Prop :=
  if cond = 1 then a ≠ b
  else if cond = 2 then a.toInt < b.toInt
  else if cond = 3 then ¬ a.toInt < b.toInt
  else if cond = 4 then a.toNat < b.toNat
  else if cond = 5 then ¬ a.toNat < b.toNat
  else a = b

/-- Clamps that a BRANCH_IF counts (R8). -/
def branchClamps (o : Nat) : Nat := (if ordF o 4 18 16 > 5 then 1 else 0) + (if ordW o 5 = 0 then 1 else 0)

/-- One condition of a WAIT: not enabled, or its counter has reached the target plus the wait base (R140, R155). -/
def waitHolds (s : State) (c o en hi lo w : Nat) : Prop :=
  bit (ordW o 4) en = true →
    ((s.ctr c (ordF o 4 hi lo)) - (BitVec.ofNat 32 (ordW o w) +
      (if bit (ordW o 2) 30 then (s.sreg c (ordF o 2 29 24)).truncate 32 else 0))).toNat < 2147483648

/-! ### Completion, transfers and the looms -/

/-- The status that an order completes with: of those that apply, the first in the order AUTH_REFUSED, LANE_FAULT,
STATE_REFUSED, QUOTA_REFUSED, DATA_LOST, REPLAYED, CLAMPED; otherwise OK (R9, R11). -/
def finalStatus (f : Flight) : Nat :=
  ([7, 5, 2, 3, 4, 6, 1].find? (fun x => decide (f.status = x) || (decide (x = 6) && f.replayed) || (decide (x = 1) && (f.clamped || !f.owed.isEmpty)))).getD 0

/-- Results of these statuses are valid: OK, CLAMPED, REPLAYED (the table of completion statuses). -/
def validStatus (x : Nat) : Bool := decide (x = 0) || decide (x = 1) || decide (x = 6)

/-- What an order's completion adds to counter k: its own increment, and 1 to its error counter (R139, R143). -/
def completionAdds (f : Flight) (k : Nat) : Word :=
  (if tellsCounter f.ord k then BitVec.ofNat 32 (bits (ordW f.ord 2) 7 0) else 0)
    + (if bit (ordW f.ord 2) 22 && !validStatus (finalStatus f) && decide (bits (ordW f.ord 2) 21 16 % 64 = k % 64) then 1 else 0)

/-- The transfer orders by opcode. -/
def transferCmd (c op : Nat) : Instr := if op = 1 then .load c else if op = 2 then .store c else .move c

/-- The loom orders by opcode. -/
def loomCmd (c op : Nat) : Instr := if op = 0x11 then .loomGemmSparse c else .loomGemm c

/-- The rows present for a loom order: deliveries since its issue, at most row_max (R72). -/
def rowsPresent (s : State) (c : Nat) (o : LoomOrd) : Nat :=
  min (s.ctr c (s.loomF c o.flight).rowCtr - o.base).toNat (s.loomF c o.flight).rowMax

/-- The row target in force: the order's own, or the page's where it is 0 (R72, R162). -/
def rowTarget (s : State) (c : Nat) (o : LoomOrd) : Nat :=
  let f := s.loomF c o.flight
  if f.target = 0 then min (s.fld pgLoom c 0 rLoomFill 22 16) f.rowMax else f.target

/-- No regulator limits a partition: every rate of its is 0, as after reset (R24). -/
def Unregulated (s : State) (p : Nat) : Prop :=
  (∀ a, s.gateRate (.mesh p a) = 0) ∧ (∀ h < 2, s.gateRate (.d2d p h) = 0) ∧ (∀ o, s.gateRate (.host p o) = 0)
    ∧ ∀ f < 4, ∀ o, s.gateRate (.far p f o) = 0

/-- No regulator limits the partition of a core (R24). -/
def CoreUnregulated (s : State) (c : Nat) : Prop := ∀ p, s.partOfCore c = some p → Unregulated s p

/-- No regulator limits the partition whose tile is at a router of a half (R24). -/
def TileUnregulated (s : State) (site : Nat) : Prop := ∀ p, s.sitePart site = some p → Unregulated s p

/-- An earlier transfer of a core is still to be delivered (R21). -/
def TransfersDone (s : State) (c : Nat) : Prop := ∀ g ∈ (s.core c).flights, opUnit g.op = .transfer → g.done = true

/-- The slots of the shelf that are in use. -/
def shelfUsed (s : State) (c : Nat) : Nat := ((s.core c).shelf.map List.length).foldl (· + ·) 0

/-! ### Arithmetic and the element engine -/

/-- The NaN encodings of FP32: exponent 255, mantissa not 0 (R38). -/
def nanBits (w : Word) : Prop := (w &&& 0x7FFFFFFF#32).toNat > 0x7F800000
/-- The infinities of FP32 (R38). -/
def infBits (w : Word) : Prop := w &&& 0x7FFFFFFF#32 = 0x7F800000#32
/-- The zeros of FP32. -/
def zeroBits (w : Word) : Prop := w &&& 0x7FFFFFFF#32 = 0
/-- A word with its sign inverted. -/
def negBits (w : Word) : Word := w ^^^ 0x80000000#32

/-- A micro-op's predicate field: 0 always, 1 p0, 2 p1, 3 not p0 (R104). -/
def predTrue (u : Nat) (x : ElemLane) : Bool :=
  if bits u 25 24 = 1 then x.p0 else if bits u 25 24 = 2 then x.p1 else if bits u 25 24 = 3 then !x.p0 else true

/-- Operands a, b, c as 32 bits, and a, b as INT32 (the micro-op's fields, R104, R535). -/
def opA (r : RecipeRun) (u : Nat) (x : ElemLane) : Word := opnd r u x (bits u 15 12) false
def opB (r : RecipeRun) (u : Nat) (x : ElemLane) : Word := opnd r u x (bits u 19 16) false
def opC (r : RecipeRun) (u : Nat) (x : ElemLane) : Word := opnd r u x (bits u 23 20) false
def intA (r : RecipeRun) (u : Nat) (x : ElemLane) : Word := opnd r u x (bits u 15 12) true
def intB (r : RecipeRun) (u : Nat) (x : ElemLane) : Word := opnd r u x (bits u 19 16) true

/-- The word that station 7 takes from an element's draw: imm[1:0] (R302). -/
def drawn (u : Nat) (x : ElemLane) : Word := drawWord x.rnd (bits u 63 32 % 4)

/-- Operand a of a Box–Muller function; RND gives u1 for the radius and u2 for the angle (R304). -/
def angle (r : RecipeRun) (u : Nat) (x : ElemLane) (rad : Bool) : Word :=
  if bits u 15 12 = 11 then (if rad then f32Of24 (x.rnd.y0.toNat / 256 + 1) else f32Of24 (x.rnd.y1.toNat / 256)) else opA r u x

/-- What a micro-op makes of an element: a word for dst, or a predicate. -/
inductive UopResult where
  | word (w : Word)
  | pred (b : Bool)

/-- The elementwise micro-ops with their stations, opcodes and results; `rl` is row_len (R95, R96, R105, R302 to R304). -/
def laneRows (c rl : Nat) : List (Instr × List Nat × Nat × (RecipeRun → Nat → ElemLane → UopResult)) :=
  [(.uopMov c, [1], 0, fun r u x => .word (opA r u x)),
   (.uopAbs c, [1], 1, fun r u x => .word (f32Abs (opA r u x))),
   (.uopNeg c, [1], 2, fun r u x => .word (f32Neg (opA r u x))),
   (.uopI2f c, [1], 3, fun r u x => .word (f32OfInt (intA r u x))),
   (.uopF2i c, [1], 4, fun r u x => .word (f32ToInt32 (opA r u x))),
   (.uopIdx c, [1], 5, fun _ _ x => .word (BitVec.ofNat 32 x.idx)),
   (.uopRow c, [1], 6, fun _ _ x => .word (BitVec.ofNat 32 (x.idx / rl))),
   (.uopCol c, [1], 7, fun _ _ x => .word (BitVec.ofNat 32 (x.idx % rl))),
   (.uopAdd c, [2, 3], 0, fun r u x => .word (f32Add (opA r u x) (opB r u x))),
   (.uopSub c, [2, 3], 1, fun r u x => .word (f32Sub (opA r u x) (opB r u x))),
   (.uopMul c, [2, 3], 2, fun r u x => .word (f32Mul (opA r u x) (opB r u x))),
   (.uopFma c, [2, 3], 3, fun r u x => .word (f32Fma (opA r u x) (opB r u x) (opC r u x))),
   (.uopFms c, [2, 3], 4, fun r u x => .word (f32Fms (opA r u x) (opB r u x) (opC r u x))),
   (.uopIadd c, [2, 3], 5, fun r u x => .word (intA r u x + intB r u x)),
   (.uopIsub c, [2, 3], 6, fun r u x => .word (intA r u x - intB r u x)),
   (.uopImul c, [2, 3], 7, fun r u x => .word (intA r u x * intB r u x)),
   (.uopExp2 c, [4], 0, fun r u x => .word (funExp2 (opA r u x))),
   (.uopLog2 c, [4], 1, fun r u x => .word (funLog2 (opA r u x))),
   (.uopRecip c, [4], 2, fun r u x => .word (funRecip (opA r u x))),
   (.uopRsqrt c, [4], 3, fun r u x => .word (funRsqrt (opA r u x))),
   (.uopSin c, [4], 4, fun r u x => .word (funSin (opA r u x))),
   (.uopCos c, [4], 5, fun r u x => .word (funCos (opA r u x))),
   (.uopBmRad c, [4], 6, fun r u x => .word (funBmRad (angle r u x true))),
   (.uopBmCos c, [4], 7, fun r u x => .word (funBmCos (angle r u x false))),
   (.uopBmSin c, [4], 8, fun r u x => .word (funBmSin (angle r u x false))),
   (.uopMax c, [5], 0, fun r u x => .word (f32Max (opA r u x) (opB r u x))),
   (.uopMin c, [5], 1, fun r u x => .word (f32Min (opA r u x) (opB r u x))),
   (.uopClamp c, [5], 2, fun r u x => .word (f32Min (f32Max (opA r u x) (opB r u x)) (opC r u x))),
   (.uopCmplt c, [5], 3, fun r u x => .pred (f32Lt (opA r u x) (opB r u x))),
   (.uopCmple c, [5], 4, fun r u x => .pred (f32Le (opA r u x) (opB r u x))),
   (.uopCmpeq c, [5], 5, fun r u x => .pred (f32Eq (opA r u x) (opB r u x))),
   (.uopIsnan c, [5], 6, fun r u x => .pred (f32IsNan (opA r u x))),
   (.uopSel c, [5], 7, fun r u x => .word (if x.p0 then opA r u x else opB r u x)),
   (.uopMul5 c, [5], 8, fun r u x => .word (f32Mul (opA r u x) (opB r u x))),
   (.uopLut0 c, [6], 0, fun r u x => .word (lutOf r.t0 r.lo0 r.sc0 (opA r u x))),
   (.uopLut1 c, [6], 1, fun r u x => .word (lutOf r.t1 r.lo1 r.sc1 (opA r u x))),
   (.uopRandU c, [7], 0, fun _ u x => .word (randU (bits u 63 32 / 4 % 4) (drawn u x))),
   (.uopRandBits c, [7], 1, fun _ u x => .word (drawn u x)),
   (.uopMask c, [7], 2, fun r u x => .pred (f32Lt (randU 0 (drawn u x)) (opA r u x))),
   (.uopDither c, [7], 3, fun r u x => .word (f32Fma (f32Sub (randU 0 (drawn u x)) 0x3F000000#32) (opB r u x) (opA r u x)))]

/-- An element after a micro-op whose predicate is true: dst (bits 11 to 9) or the predicate that bit 9 selects. -/
def afterUop (u : Nat) (x : ElemLane) (y : UopResult) : ElemLane :=
  match y with
  | .word w => { x with v := x.v.set (bits u 11 9) w }
  | .pred b => if bit u 9 then { x with p1 := b } else { x with p0 := b }

/-- The recipe has another micro-op after the next one, and neither its tap nor the wait before station 9 stands between
them. -/
def GoesOn (r : RecipeRun) (o : Nat) : Prop :=
  r.pc + 1 < r.uops.length ∧ (r.tapped = true ∨ r.tapAt ≠ some (r.pc + 1)) ∧ r.parkAt o ≠ some (r.pc + 1)

/-- Only the running recipe of core c differs: it is `r` now. -/
def OnlyRecipe (s t : State) (c : Nat) (r : RecipeRun) : Prop :=
  t.core c = { (s.core c) with eng := { (s.core c).eng with runs := r :: (s.core c).eng.runs.drop 1 } } ∧ CoresKept s t [c]
    ∧ t.regs = s.regs ∧ t.vaults = s.vaults ∧ t.parts = s.parts ∧ t.host = s.host ∧ t.far = s.far ∧ t.freeCtr = s.freeCtr

/-- The conversions by opcode, and which of them are stochastic (R101). -/
def convertRows (c : Nat) : List (Instr × Nat × Bool) :=
  [(.uopCvt c, 0, false), (.uopCvtSr c, 1, true), (.uopQuant c, 2, false), (.uopQuantSr c, 3, true)]

/-- The tally operations by code; SUM, RMAXSUM and SCAN take a row's elements in ascending order only (R113 to R119). -/
def tallyRows (c : Nat) : List (Instr × Nat) :=
  [(.tallySum c 0, 1), (.tallyMax c 0, 2), (.tallyMin c 0, 3), (.tallyArgmax c 0, 4), (.tallyTopk c 0, 5),
   (.tallyRmaxsum c 0, 6), (.tallyHist c 0, 7), (.tallyCount c 0, 8), (.tallyScan c 0, 9)]

/-- ARITH cycles that n elements take (the table of tally rates). -/
def tallyRate (op k rl lanes n : Nat) : Nat :=
  if op = 7 then (n + 31) / 32
  else if op = 9 then max ((n + lanes - 1) / lanes) ((4 * n + rl - 1) / rl)
  else if op = 5 ∧ k > 16 then (2 * n + lanes - 1) / lanes
  else (n + lanes - 1) / lanes

/-! ### Collectives, barriers, attention, book, sampling, porter -/

/-- The COLLECTIVE orders with their ops (R367). -/
def collRows (c : Nat) : List (Instr × Nat) :=
  [(.allreduce c, 0), (.reduce c, 1), (.broadcast c, 2), (.allgather c, 3), (.reducescatter c, 4)]

/-- A partition's collectives have no open one of a number. -/
def NoColl (s : State) (p id : Nat) : Prop := ∀ r ∈ s.fab.colls, r.scope = 0 → r.part = p → r.id ≠ id

/-- n stockroom bytes of a core from an address, which wraps at 2 MiB. -/
def stockAt (s : State) (c a n : Nat) : List Byte := memBytesWrap 2097152 (s.core c).stock (a % 2097152) n

/-- Every stockroom byte of a core outside a wrapped range is as before. -/
def StockKeptOutside (s t : State) (c : Nat) (ranges : List (Nat × Nat)) : Prop :=
  ∀ y < 2097152, (∀ r ∈ ranges, ∀ i < r.2, (r.1 + i) % 2097152 ≠ y) → memByte (t.core c).stock y = memByte (s.core c).stock y

/-- The order just started by a core has had every effect, with a status for ORDER_COMPLETE to report. -/
def DoneNow (s t : State) (c st : Nat) : Prop :=
  ∃ g, (t.core c).flight (s.core c).freshId = some g ∧ g.done = true ∧ g.status = st

/-- The order just started by a core is held and not done. -/
def HeldNow (s t : State) (c : Nat) : Prop := ∃ g, (t.core c).flight (s.core c).freshId = some g ∧ g.done = false

/-- A message is for this device, from another member of its guild, with the snap tag in force. -/
def Accepts (s : State) (m : FMsg) : Prop :=
  m.dstGuild = s.fab.guild ∧ m.dstDev = s.fab.device ∧ s.fab.isMember = true ∧ m.srcGuild = s.fab.guild ∧ m.srcDev ≠ s.fab.device
    ∧ (smFind s.fab.members m.srcDev).isSome ∧ m.snap = s.fab.snapTag

/-- The single list entry of an ATTEND-family order whose team is its own core. -/
def SoleEntry (s : State) (c p : Nat) (f : AttF) (app : Bool) (e : AttEnt) : Prop :=
  s.partOfCore c = some p ∧ (s.part p).cores.contains c = true ∧ f.teamLog = 0 ∧ f.base = c ∧ c < 256 ∧ f.nStreams = 1 ∧ (s.core c).stockBad = []
    ∧ (∀ j ∈ (s.core c).jobs, j.flight ≠ (s.core c).freshId) ∧ attEnts f app (s.core c).stock = [e]

/-- Bytes of an output row as FP32. -/
def outRowFp32 (o : List Word) : List Byte := o.flatMap (fun w => leBytes 4 w.toNat)

/-- The tokens of a BOOK_LOOKUP's first block, read from a stockroom. -/
def bookToks (s : State) (a o : Nat) : List Nat := (List.range 64).map (fun i => leNat (((stockAt s a o 256).drop (4 * i)).take 4))

/-- A BOOK_LOOKUP of one block over tokens in a stockroom of the core's own partition, with the book enabled (R249, R250). -/
def OneBlock (s : State) (c p : Nat) (st : Start) (mode a o : Nat) : Prop :=
  s.pick c = some st ∧ st.op = 0x31 ∧ ordF st.ord 4 23 22 = mode ∧ s.partOfCore c = some p ∧ (s.part p).cores.contains a = true
    ∧ locOf c (bookFields st.ord).tok = .stock a o ∧ (s.core a).stockBad = [] ∧ s.abs.fence = none
    ∧ s.fld pgBook (coreHalf c) 0 rBookCfg 31 31 = 1 ∧ s.bookAllowed (bookFields st.ord) = true

/-- Node hash and check of the block (R249). -/
def blockHash (s : State) (st : Start) (a o : Nat) : DWord × Word :=
  (bookHashes (bookFields st.ord).pattern (bookToks s a o) 1).getD 0 (0, 0)

/-- The first node examined for the block, and that it matches (R250). -/
def firstSpot (h : DWord) : Nat := (h.toNat >>> 42) % 4194304
def SpotMatches (s : State) (h : DWord × Word) : Prop :=
  let n := s.node (firstSpot h.1)
  n.live = true ∧ s.originLives n = true ∧ n.h = h.1 ∧ n.check = h.2 ∧ n.j = 0 ∧ n.parent = 0x3FFFFF

/-- The 64 B result of a search that matched one block (R250). -/
def hitResult (x : Nat) (n : BookNode) : List Byte :=
  leBytes 4 1 ++ leBytes 4 x ++ leBytes 4 (n.stream + n.gen <<< 18) ++ List.replicate 20 0
    ++ (List.range 8).flatMap (fun i => leBytes 4 (n.hint.getD i 0))

/-- The node of a first block that is inserted (R249, R251). -/
def firstNode (h : DWord × Word) (stream gen use : Nat) : BookNode :=
  { live := true, h := h.1, check := h.2, parent := 0x3FFFFF, child := 0x3FFFFF, gen := gen, stream := stream, j := 0, lastUse := use }

/-- FP32 values of a stockroom range. -/
def stockFp32 (s : State) (c a n : Nat) : List Word :=
  (List.range n).map (fun i => BitVec.ofNat 32 (leNat (((stockAt s c a (4 * n)).drop (4 * i)).take 4)))

/-! ### Bank units and vaults -/

/-- A bank unit of the running program is about to carry out instruction i, and is not at its last one (R203, R211). -/
def UnitAt (s : State) (v b : Nat) (r : BankRun) (u : BankUnit) (i : Nat) : Prop :=
  (s.vault v).run = some r ∧ (s.vault v).mode = .bankCompute ∧ r.units.find? (fun x => x.bank = b) = some u
    ∧ r.prog.instrs[u.pc]? = some i ∧ u.pc + 1 < r.prog.instrs.length ∧ (s.vault v).readsClean u i = true

/-- The running program after bank b's unit has become u'. -/
def unitNow (r : BankRun) (b : Nat) (u' : BankUnit) : BankRun := { r with units := r.units.map (fun x => if x.bank = b then u' else x) }

/-- Chunk index that step 0 of an instruction reads (R203). -/
def chunkIdx (u : BankUnit) (i : Nat) : Nat := (bFirst i + (if bRel i then u.arg else 0)) % 64

/-- What a chunk of lanes must hold after MOV, ADD, MAX or CMPGE of a and b (R205). -/
def LanesAre (op i a b x : Nat) : Prop :=
  let w := bWidth i
  ∀ k < 256 / w,
    (op = 1 → laneOf w x k = laneOf w b k)
    ∧ (op = 2 → bit i 29 = false → laneOf w x k = (laneOf w a k + laneOf w b k) % 2 ^ w)
    ∧ (op = 2 → bit i 29 = true → laneInt w x k = max (-2 ^ (w - 1)) (min (2 ^ (w - 1) - 1) (laneInt w a k + laneInt w b k)))
    ∧ (op = 3 → laneInt w x k = max (laneInt w a k) (laneInt w b k))
    ∧ (op = 4 → laneOf w x k = if laneInt w a k ≥ laneInt w b k then 2 ^ w - 1 else 0)

/-- The lane instructions with their codes. -/
def laneCmds (v b : Nat) : List (Instr × Nat) := [(.bankMov v b, 1), (.bankAdd v b, 2), (.bankMax v b, 3), (.bankCmpge v b, 4)]

/-- Every vault but v, and v but for a running program, is as before. -/
def OnlyRun (s t : State) (v : Nat) (r : BankRun) : Prop :=
  t.vault v = { (s.vault v) with run := some r } ∧ VaultsKept s t [v]

/-- No request waits at a vault, and no clear of granules (R212, R217). -/
def Quiet (s : State) (v : Nat) : Prop := (s.vault v).guests = [] ∧ (s.vault v).held = [] ∧ (s.vault v).clears = []

/-- No line of a vault that a table lost still waits for its rebuild (R326). -/
def NoTableLost (s : State) (v : Nat) : Prop := ∀ e ∈ (s.vault v).lostLines, e.2 ≠ 3

/-- A vault that a GUEST request reaches at once (R178). -/
def Open (s : State) (v addr : Nat) : Prop := (s.vault v).mode = .memory ∧ (s.vault v).busyAt (addr / 4096) = false ∧ addr < 1073741824

/-! ### The fabric, the mesh and the die-to-die link -/

/-- A message as it leaves this device (R357, R372). -/
def asSent (s : State) (m : FMsg) : FMsg := { m with srcDev := s.fab.device, srcGuild := s.fab.guild, snap := s.fab.snapTag }

/-- An acknowledgement to the sender of a message has left (R357, R463). -/
def Acked (s t : State) (m : FMsg) (id flags : Nat) : Prop :=
  .fab (asSent s ⟨0x04, m.srcDev, 0, m.srcGuild, 0, false, id % 4096 + flags, []⟩) ∈ t.sent

/-- Every Mioquin port but n is as before. -/
def PortsKept (s t : State) (n : Nat) : Prop := ∀ k < 8, k ≠ n → t.fport k = s.fport k

/-- Where a port goes from DOWN (R351). -/
def trainsTo (s : State) (n : Nat) : PortSt := if s.portTrains n then .laserWait else .down

/-- Header word i of an opened frame (R354). -/
def frameWord (bs : List Byte) (i : Nat) : Nat := leNat ((bs.drop (4 * i)).take 4)

/-- A die-to-die flit is for a working module of a running half, with a good CRC and the expected sequence (R343, R344). -/
def FlitInSequence (s : State) (m half : Nat) (flit : BitVec 2048) : Prop :=
  let bs := leBytes 256 flit.toNat
  (s.mod m).st = .up ∧ s.fencedHalf ≠ some half ∧ leNat (bs.drop 252) = crc32 (bs.take 252)
    ∧ bits flit.toNat 9 0 = (s.mod m).rx.getD half 0

/-- The line of a vault at a near-aperture offset: logical vault, physical vault and line address, with 64 bytes in it (R173). -/
def NearLine (s : State) (o l v ln : Nat) : Prop :=
  o % 64 = 0 ∧ o < 274877906944 ∧ nearSplit o = (l, ln * 64) ∧ s.vaultOf l = some v ∧ (s.vault v).mode = .memory
    ∧ (s.vault v).busyAt (ln / 64) = false ∧ s.abs.migs = [] ∧ s.abs.fence = none

/-- The class buffers of a half's routers but those of the keys named are as before (R339). -/
def BufsKept (s t : State) (half : Nat) (keys : List Nat) : Prop :=
  ∀ r port cls, bufKey r port cls ∉ keys → (t.mesh half).buf r port cls = (s.mesh half).buf r port cls

/-- A flit has crossed a link of a half's mesh: its replays are over, and it counts (R340). -/
def LinkGood (s t : State) (half a b : Nat) : Prop :=
  smGet 0 (t.mesh half).replays (a * 144 + b) = 0 ∧ t.reg pgMesh half 0 rMeshFlits = s.reg pgMesh half 0 rMeshFlits + 1
    ∧ t.mesh (1 - half) = s.mesh (1 - half) ∧ Kept { mesh := true, regs := true } s t

/-- A flit has failed its CRC on a link of a half's mesh: it stays with its sender, and the failure counts (R340). -/
def LinkBad (s t : State) (half a b : Nat) : Prop :=
  smGet 0 (t.mesh half).replays (a * 144 + b) = smGet 0 (s.mesh half).replays (a * 144 + b) + 1 ∧ BufsKept s t half []
    ∧ t.reg pgMesh half 0 rMeshReplays = s.reg pgMesh half 0 rMeshReplays + 1 ∧ t.fld pgMesh half 0 hErr 0 0 = 1
    ∧ t.mesh (1 - half) = s.mesh (1 - half) ∧ Kept { mesh := true, regs := true } s t

/-! ### The host link and the far ports -/

/-- The device answers in BAR2: it runs, nothing of it is fenced or migrating, and the host reaches half B (R16, R387, R424). -/
def Awake (s : State) : Prop :=
  (s.boot.state = .ready ∨ s.boot.state = .degraded) ∧ s.abs.fence = none ∧ s.abs.migs = [] ∧ s.spurCut = false

/-- No ledger page lies in far memory (R391). -/
def NoFarPages (s : State) : Prop := ∀ e ∈ s.ledgAll, e.2.st ≠ .far ∧ e.2.st ≠ .moving

/-- An event is in the error log: it has the next sequence number, and is the newest of the recent ones (R333). -/
def Logged (s t : State) : Prop := t.elog.seq = (s.elog.seq + 1) % 65536 ∧ ∃ e, t.elog.recent = (e :: s.elog.recent).take 4096

/-- The device state that the reasons in force give one that is READY or DEGRADED (R445). -/
def stateOf (s : State) : DevState :=
  if s.boot.state = .ready ∨ s.boot.state = .degraded then (if s.reasonBits = 0 then .ready else .degraded) else s.boot.state

/-! ### Power, heat and bring-up -/

/-- What a device reset leaves: fuses, NOR devices, what lies in host and far memory, and the free values used; the rest of
the memories, the cores, the partitions and the registers are as after reset (R432). -/
structure ResetLeaves (s t : State) : Prop where
  fuses : t.boot.fuses = s.boot.fuses ∧ t.sec.svn = s.sec.svn ∧ t.sec.keys = s.sec.keys ∧ t.sec.seed = s.sec.seed
  nor : t.sec.norA = s.sec.norA ∧ t.sec.norB = s.sec.norB
  outside : t.host.mem = s.host.mem ∧ ∀ q < 4, (t.farPort q).mem = (s.farPort q).mem
  inside : t.cores = [] ∧ t.vaults = [] ∧ t.parts = [] ∧ t.rollA = [] ∧ t.rollB = [] ∧ t.ledgA = [] ∧ t.ledgB = [] ∧ t.book = []
  sessions : t.sec.pf1.opened = false ∧ t.sec.sb.opened = false

/-- A GRID_SHED pin change that is not passed on (R404). -/
def ShedStaysHere (s : State) : Prop := s.fld pgPwr 0 0 rPwrShed 29 29 = 0 ∨ s.fab.isMember = false

/-! ### Castling and the loss of a half -/

/-- The castling that a half runs once it has begun (R456 to R458). -/
def castBegun (s : State) (r : CastReq) (kind dest_ : Nat) : CastRun :=
  { req := r, kind := kind, fromSite := (smFind s.boot.coreSite r.logical).getD 511, toSite := dest_, copied := true, switched := false }

/-- A castling has begun: the half shows it, the core's site is CASTLING, and it is counted. -/
def Begun (s t : State) (r : CastReq) (kind dest_ : Nat) : Prop :=
  t.castOf (coreHalf r.logical) = some (castBegun s r kind dest_) ∧ t.reg pgStw 0 0 rStwCastlings = s.reg pgStw 0 0 rStwCastlings + 1
    ∧ ∀ n, smFind s.boot.coreSite r.logical = some n → (t.site n).core = 1

/-- The partition of a core is held, and its running step is abandoned (R458). -/
def RolledBack (s t : State) (c : Nat) : Prop :=
  ∀ p, s.partOfCore c = some p → s.spans p = false → (s.part p).st ≠ .resetting →
    p ∈ t.abs.heldParts ∧ ((s.part p).running = true → (t.part p).rolledBack = true)

/-! ### Security -/

/-- A transport's session is as R494 and R495 leave it after an OPEN: a new nonce has been drawn. -/
def NewNonce (s t : State) : Prop := t.sec.nonce = Config.entropy s.sec.draws ∧ t.sec.draws = s.sec.draws + 1

/-- The commit command of each anti-rollback counter. -/
def svnCmd (k fn target : Nat) : Instr :=
  if k = 0 then .svnCommitFirmware fn target else if k = 1 then .svnCommitIdentity fn target
  else if k = 2 then .svnCommitOwner fn target else .svnCommitGuild fn target

/-- The transport tr answers a request with the message a, and counts the request (R492). -/
def Answered (s t : State) (tr : Nat) (a : List Byte) : Prop :=
  t.sent = .spdm tr a :: s.sent ∧ t.reg pgSec 0 0 rSecSpdmMsgs = s.reg pgSec 0 0 rSecSpdmMsgs + 1

/-- A request reaches a responder that runs the firmware (R486). -/
def Responds (s : State) (tr : Nat) : Prop := s.transportUp tr = true ∧ s.boot.idLoaded = true ∧ s.romOnly = false

/-- A mailbox command of the sideband completes with status OK and the tag it came with (R514, R516). -/
def MboxDone (s t : State) (tag c : Nat) (bs : List Byte) : Prop :=
  t.sec.sbSts = BitVec.ofNat 32 ((tag % 256) <<< 8 + c) ∧ t.sent = .sideband t.sec.sbSts t.sec.sbArgs bs :: s.sent
    ∧ t.reg pgStw 0 0 rStwMboxCmds = s.reg pgStw 0 0 rStwMboxCmds + 1

/-! ### Register accesses -/

/-- An access of a function to a BAR0 offset meets this register of this page (R503, R510). -/
def Hits (s : State) (fn off code inst o : Nat) : Prop := s.hubOn = true ∧ s.hitAt fn off = .page code inst o

/-- An access of a function to a register of a page meets it. -/
def Meets (s : State) (fn code inst o : Nat) : Prop := s.hubOn = true ∧ s.hitPage fn code inst o = .page code inst o

/-- A write is refused: it has no effect but the count and the sticky bit (R10). -/
def RefusedAt (s t : State) (code inst : Nat) : Prop :=
  t.reg code inst 0 hRefuse = BitVec.ofNat 64 (min 0xFFFFFFFF ((s.reg code inst 0 hRefuse).toNat + 1)) ∧ t.fld code inst 0 hSts 30 30 = 1
    ∧ RegsKept s t [regKey code inst 0 hRefuse, regKey code inst 0 hSts] ∧ Kept { regs := true, sec := true } s t

/-- A shelf quota word that R88 allows. -/
def QuotasAllowed (w : Nat) : Prop :=
  (∀ i < 4, 1 ≤ bits w (4 * i + 3) (4 * i) ∧ bits w (4 * i + 3) (4 * i) ≤ 13) ∧ bits w 3 0 + bits w 7 4 + bits w 11 8 + bits w 15 12 = 16

/-- No partition is SERVING. -/
def NothingServes (s : State) : Prop := ∀ e ∈ s.parts, e.2.st ≠ .serving

/-! ### The serving engine -/

/-- The request ring of a partition is not read: its enable bit is clear (R257). -/
def RingOff (s : State) (p : Nat) : Prop := s.fld pgFore 0 p rForeReqCfg 31 31 = 0

/-- The admin ring is not read, and no admin command is open (R258). -/
def AdminOff (s : State) : Prop := s.fld pgFore 0 0 rForeAdmCfg 31 31 = 0 ∧ s.admOpen = [] ∧ s.admWait = []

/-- The streams of a partition are not mirrored (R469). -/
def NotMirrored (s : State) (p : Nat) : Prop := s.fld pgStw 0 p rStwMirrorOut 31 31 = 0

/-- A partition is in the state in which R274 starts its next step. -/
def StepDue (s : State) (p : Nat) : Prop :=
  (s.part p).rolledBack = false ∧ (s.part p).running = false ∧ s.partQuiet p = true ∧ s.partRuns p = true

/-- A partition's running step is at its end (R278). -/
def StepOver (s : State) (p : Nat) : Prop :=
  (s.part p).running = true ∧ (s.part p).draftPhase = false ∧ (s.part p).rolledBack = false ∧ s.partHeld p = false ∧ s.partQuiet p = true

/-- The own pages of a stream are all NEAR (R272). -/
def PagesNear (s : State) (n : Nat) : Prop :=
  ∀ x ∈ s.ledgAll, x.2.st ≠ .free → x.2.held = false → x.2.stream = n → x.2.gen = (s.stream n).gen → (s.entryPage x.1).st = .near

/-! ### Admin commands and the guild -/

/-- PF1's session is open, no admin command is open, and the admin ring is not read (R258, R263, R496). -/
def AdmFree (s : State) : Prop := s.sec.pf1.opened = true ∧ AdminOff s

/-- An admin command's completion record has gone to the completion ring, with its interrupt (R263). -/
def Completed (s t : State) (tag st : Nat) : Prop :=
  let n := s.fld pgFore 0 0 rForeAdmCfg 12 8
  let i := s.acqTail % (2 * 2 ^ n)
  t.acqTail = (i + 1) % (2 * 2 ^ n) ∧ t.admOpen = [] ∧ .msix 1 0 ∈ t.sent
    ∧ (s.hostUp = true → memBytes t.host.mem (s.fld pgFore 0 0 rForeAcqBase 63 4 * 16 + (i % 2 ^ n) * 16) 4
        = leBytes 4 (tag % 65536 + st <<< 24 + (1 - i / 2 ^ n) <<< 31))

/-- The tag and the partition of a command record (R258). -/
def recTag (w : List Nat) : Nat := bits (w.getD 0 0) 31 16
def recPart (w : List Nat) : Nat := bits (w.getD 0 0) 13 8

/-- The state in which an admin command runs: its session is not idle (R496). -/
def touched (s : State) : State := { s with sec := { s.sec with pf1 := { s.sec.pf1 with last := s.timeUs } } }

/-- A command record with its Word 1 [31] (R263). -/
def withTop (w : List Nat) (b : Nat) : List Nat := w.set 1 (w.getD 1 0 % 2147483648 + b * 2147483648)

/-- The pattern that LOAD_PATTERN loads stands in its partition (R293, R296). -/
def PatternLoaded (t : State) (p : Nat) (w : List Nat) : Prop :=
  (∃ q ∈ (t.part p).patterns, q.id = bits (w.getD 1 0) 15 0 ∧ q.record = w) ∧ (t.part p).st ≠ .configured

/-- The record of CREATE_PARTITION asks for free cores, no far memory, and quotas within their bounds (R448). -/
def CreateOk (s : State) (w : List Nat) : Prop :=
  let cores := groupCores (w.getD 1 0 % 4294967296 + (w.getD 2 0 % 4294967296) <<< 32)
  (s.part (recPart w)).st = .empty ∧ w.getD 1 0 % 4294967296 + (w.getD 2 0 % 4294967296) <<< 32 ≠ 0
    ∧ (∀ c ∈ cores, (smFind s.boot.coreSite c).isSome ∧ s.partOfCore c = none)
    ∧ w.getD 3 0 = 0 ∧ w.getD 4 0 = 0 ∧ w.getD 5 0 = 0 ∧ w.getD 6 0 = 0
    ∧ bits (w.getD 10 0 % 4294967296) 18 0 ≤ 262144 ∧ bits (w.getD 11 0 % 4294967296) 25 0 ≤ 33554432

/-- The four messages of a join carry the guild's key (R498): the proof of the guildmaster and of the joiner. -/
def GuildMessage (s : State) (m : FMsg) : Prop := s.isMine m = true ∧ m.srcGuild = s.fab.guild

/-- What each command can reach, by its row: the parts of the state outside its reach it never changes. -/
def reachOf : Instr → Reach
  | .regWrite fn off _ _ => writeReach fn off
  | .regReadLowLatch _ _ _ _ | .loomShelfWrite _ _ _ | .vltDiscard _ _ _ | .rngAlmDataWrite _ _ | .clerkRegUe _
  | .meshFlit _ _ _ _ _ | .meshPacket _ _ _ _ | .d2dFlit _ _ _ | .d2dClockSilence _ _ | .d2dRetrain _ _ | .fabFrame _ _
  | .fabPortDown _ | .wavelengthFail _ _ | .ringTuneTick _ _ _ | .laserWaitDone _ | .ringLockDone _ _
  | .alignDone _ _ _ _ _ | .fabPortRetry _ | .put _ | .getReq _ | .getRsp _ | .ack _ | .e2eTimeout _ | .coll _
  | .barJoin _ | .barRelease _ | .snapMark _ | .heartbeat _ | .heartbeatSend | .heartbeatLoss | .linkState _
  | .routeTableUpdate | .msg _ | .mirrorEntry _ | .mirrorTokens _ | .mirrorRelease _ | .deviceLost _
  | .deviceHoldExpired _ | .adoptTimeout _ _ | .hostConfigRequest _ _ _ | .hostNearRead _ _ _ _ | .hostNearWrite _ _ _
  | .fenceHoldExpired _ _ | .farReadFail _ _ _ | .farHoldExpired _ _ | .farEventPoll _ _ | .farPortDown _
  | .clerkHeartbeatMiss _ | .castlingGraceful _ | .castlingAbrupt _ | .castleSwitch _ | .migrateGranule _ _ _
  | .oldShellLost _ | .rejoinRestart | .rejoinTrain | .rejoinShellRestore | .rejoinReplay | .rejoinCoreRestore
  | .rejoinResume | .halfEscalate | .halfRetrain _ | .discardDone _ => reachLink
  | .badAccess _ _ _ | .sessionOpen _ | .sessionClose _ | .sessionIdleTimeout _ | .aliasCertReady | .getVersion _ _
  | .getCapabilities _ _ | .negotiateAlgorithms _ _ | .getDigests _ _ | .getCertificate _ _ | .challenge _ _
  | .getMeasurements _ _ | .chunkSend _ _ | .chunkGet _ _ | .getInfo _ _ | .setOwner _ _ _ | .setGuildKey _ _ _
  | .readReg _ _ _ | .readLog _ _ _ _ | .writeConfig _ _ _ _ _ | .writeImage _ _ _ _ _ _ => reachSec
  | .clearCounts _ _ | .intForce _ _ _ | .hostReadTimeout _ _ _ _ | .hostLinkLoss | .perstDeassert _ _ _ | .flrVf _
  | .flrPf0 | .flrPf1 | .hostSpurDown => reachHost
  | .pwrShedTx _ _ | .stwCastReq _ _ | .fabResetGuild _ | .fabResetMarket _ | .shed _ | .reset _ | .governorTick _ _
  | .housekeepingRound _ _ | .gridShedAssert | .gridShedRelease | .coolantFault | .coolantFaultRelease | .sealedMove _
  | .sealTimeout | .adjournPhase3 | .resume | .railFault _ | .aonSupplyGood | .aonSupplyLoss | .hubSupplySettled
  | .bootDone | .interfaceTrained _ _ | .trainingDone | .startUpTestDone _ _ _ _ _ _ _ | .topologyDeadline
  | .deviceReset | .stewardWatchdog | .resetDevice _ _ => reachDev
  | .svnCommitFirmware _ _ | .svnCommitIdentity _ _ | .svnCommitOwner _ _ | .svnCommitGuild _ _ => reachSvn
  | .requestDoorbell _ _ _ | .tokenHeadDoorbell _ _ _ | .submit _ | .continue _ | .draftSubstep _ | .streamUnpark _
  | .streamDrainDone _ | .tokenMsix _ | .pageDemote _ | .pagePromote _ | .pageMoveDone _ | .ledgerPageFree _
  | .recomputeStep _ | .snapshotCopy => reachServe
  | .adminDoorbell _ | .adminCqHeadDoorbell _ | .createPartition _ | .loadPattern _ | .restoreContext _
  | .dropPattern _ | .setPolicy _ | .serve _ | .quiesce _ | .resetPartition _ | .partitionResetDone _
  | .destroyPartition _ | .openStream _ | .parkStream _ | .cancelStream _ | .snapshot _ | .joinGuild _ | .joinTimeout
  | .leaveGuild _ | .stepEnd _ | .joinChal _ | .joinResp _ | .joinDone _ => reachAdmin
  | .stepStart _ => reachFore
  | .orderRefetch _ _ | .orderComplete _ _ | .clerkBufferParity _ _ | .load _ | .store _ | .move _
  | .loomOrderStart _ _ | .weightTileArrive _ _ | .shadowLoadDone _ _ | .loomTileStart _ _ | .loomRecompute _ _ _
  | .recipe _ | .elemGroupIssue _ _ | .shelfUnitStart _ | .elemParityReload _ _ | .uopMov _ | .uopAbs _ | .uopNeg _
  | .uopI2f _ | .uopF2i _ | .uopIdx _ | .uopRow _ | .uopCol _ | .uopAdd _ | .uopSub _ | .uopMul _ | .uopFma _
  | .uopFms _ | .uopIadd _ | .uopIsub _ | .uopImul _ | .uopExp2 _ | .uopLog2 _ | .uopRecip _ | .uopRsqrt _ | .uopSin _
  | .uopCos _ | .uopBmRad _ | .uopBmCos _ | .uopBmSin _ | .uopMax _ | .uopMin _ | .uopClamp _ | .uopCmplt _
  | .uopCmple _ | .uopCmpeq _ | .uopIsnan _ | .uopSel _ | .uopMul5 _ | .uopLut0 _ | .uopLut1 _ | .uopRandU _
  | .uopRandBits _ | .uopMask _ | .uopDither _ | .uopCompress _ | .uopExpandFill _ | .uopExpandKeep _ | .uopCvt _
  | .uopCvtSr _ | .uopQuant _ | .uopQuantSr _ | .uopRoute _ | .tally _ | .tallySum _ _ | .tallyMax _ _ | .tallyMin _ _
  | .tallyArgmax _ _ | .tallyTopk _ _ | .tallyRmaxsum _ _ | .tallyHist _ _ | .tallyCount _ _ | .tallyScan _ _
  | .tallyRowResult _ | .scalarLds _ | .barrierJoin _ | .attend _ | .selectionProgram _ _ | .attendBackward _
  | .kvAppend _ | .bookMatch _ | .bookAttach _ | .bookInsert _ | .bookPeek _ | .sample _ _ | .gambitVerify _ _
  | .dispatch _ | .collectReturn _ | .collectGather _ | .allreduce _ | .reduce _ | .broadcast _ | .allgather _
  | .reducescatter _ | .bankProgram _ | .bankProgramStart _ | .bankItem _ _ | .bankNop _ _ | .bankMov _ _
  | .bankAdd _ _ | .bankMax _ _ | .bankCmpge _ _ | .bankDot _ _ | .bankDotmax _ _ | .bankCopy _ _ | .bankEmita _ _
  | .bankClra _ _ | .bankStepEnd _ | .reseal _ _ | .enPassant _ | .bankPause _ | .bankEccPause _ _ _ | .bankUe _ _ _
  | .flagScan _ | .watchmanTakeover _ | .watchmanHandback _ | .stockroomScrub _ _ => reachOrder
  | .restEnd _ | .loomGemm _ | .loomGemmSparse _ | .fillWindowExpired _ _ _ | .boundaryPauseEnd _ _
  | .shelfSlotFull _ _ | .treadleWindow _ _ _ | .treadleGapExpired _ _ | .treadle _ | .treadleDurationEnd _ _
  | .scalarAdd _ | .scalarSub _ | .scalarMul _ | .scalarShl _ | .scalarShr _ | .scalarSar _ | .scalarAnd _
  | .scalarOr _ | .scalarXor _ | .scalarMadd _ | .scalarCmpeq _ | .scalarCmplt _ | .scalarCmpltu _ | .scalarLi _
  | .scalarSts _ | .scalarRdctr _ | .loop _ | .branchIf _ | .signalAdd _ | .signalSet _ | .signalDeliver _ _ | .wait _
  | .fence _ => reachCore
  | .vaultRead _ _ _ _ | .vaultWrite _ _ _ | .writeDrain _ _ | .mergeEvict _ _ _ _ | .granuleMaterialise _ _
  | .refreshCommand _ _ | .interfaceRecentre _ | .rewriteVerify _ _ _ | .bucketLeak _ | .patrolScrub _ _ _
  | .remapReload _ _ | .patternRestore _ _ | .watchmanBandSelect _ => reachVault
  | .writeReg _ off _ _ => writeReach 66 off
  | .rowSpare _ => { reachVault with sec := true }

/-- Four counters of three copies each (R487). -/
def FuseShape (s : State) : Prop := s.sec.svn.length = 4 ∧ ∀ c ∈ s.sec.svn, c.length = 3

/-- Bit j of copy i of anti-rollback counter k. -/
def fuseBit (s : State) (k i j : Nat) : Bool := ((s.sec.svn.getD k []).getD i 0).getLsbD j

end Sys2Proof.Claims

section

open Sys2Proof Sys2Proof.Machine Sys2Proof.Safety Sys2Proof.Claims

/-- In every state in which the clerk picks a SCALAR order, each of the orders ADD to XOR, MADD, CMPEQ, CMPLT, CMPLTU, LI
and RDCTR answers a next state in which s[dst] holds the row's value of a = s[sa], b (imm if b_imm, else s[sb]),
s[sb], imm and counter sb, all on wrapping 64-bit values. LDS of words that are not lost loads the 64-bit value at
stockroom (a + imm) mod 2 MiB with the low 3 bits taken as 0; STS writes b there, clears the double-bit mark of that
word, and leaves every other byte as it was. The order completes at its start, the queue goes on at the next index,
and no other S register, counter, unit, core or part of the machine changes beyond what the completion itself reports.
(R149) -/
def Obligations.ScalarOrdersComputeOverSRegisters : Prop :=
  (∀ (s : State) (c : Nat) (st : Start), ∀ row ∈ scalarRows c, NextScalar s c st row.2.1 →
      ∃ t, exec row.1 s = .next t
        ∧ t.sreg c (ordF st.ord 4 13 8) = row.2.2 (s.sreg c (ordF st.ord 4 21 16)) (scalarB s c st.ord)
            (s.sreg c (ordF st.ord 4 29 24)) (BitVec.ofNat 64 (ordW64 st.ord 5)) (s.ctr c (ordF st.ord 4 29 24))
        ∧ RetiresAtStart s t c st (scalarClamp st.ord) [ordF st.ord 4 13 8] [] (st.idx + 1)
        ∧ UnitsKept (s.core c) (t.core c))
  ∧ (∀ (s : State) (c : Nat) (st : Start),
      (NextScalar s c st 0x0E → s.stockLost c (scalarAddr s c st.ord) 8 = false →
        ∃ t, exec (.scalarLds c) s = .next t
          ∧ (∀ i < 8, (t.sreg c (ordF st.ord 4 13 8)).extractLsb' (8 * i) 8 = memByte (s.core c).stock (scalarAddr s c st.ord + i))
          ∧ (∀ r, r % 64 ≠ ordF st.ord 4 13 8 % 64 → tellsStatus st.ord r = false → t.sreg c r = s.sreg c r)
          ∧ UnitsKept (s.core c) (t.core c) ∧ CoresKept s t [c]
          ∧ (t.queue c st.q).index = st.idx + 1
          ∧ Kept { regs := true, cores := true } s t)
      ∧ (NextScalar s c st 0x0F →
        ∃ t, exec (.scalarSts c) s = .next t
          ∧ (∀ a < 2097152, memByte (t.core c).stock a =
              if a / 8 = scalarAddr s c st.ord / 8 then (scalarB s c st.ord).extractLsb' (8 * (a % 8)) 8 else memByte (s.core c).stock a)
          ∧ UnitsKept { (s.core c) with stock := (t.core c).stock, stockBad := (t.core c).stockBad } (t.core c)
          ∧ (t.core c).stockBad = (s.core c).stockBad.filter (fun w => w != scalarAddr s c st.ord / 8)
          ∧ RetiresAtStart s t c st 0 [] [] (st.idx + 1)))

/-- In every state in which the clerk picks a LOOP order: if s[count_sreg], unsigned, is above 1, it is decremented and
the queue continues at own index - back (kept within the queue); otherwise it becomes 0 and the queue continues at own
index + 1. Nothing else changes but what the completion reports; a back of 0 counts as a clamp to 1. (R150) -/
def Obligations.LoopCountsDown : Prop :=
  ∀ (s : State) (c : Nat) (st : Start), s.pick c = some st → st.op = 0x59 →
    let r := ordF st.ord 4 5 0
    let k := if ordF st.ord 5 15 0 = 0 then 1 else 0
    ∃ t, exec (.loop c) s = .next t ∧ UnitsKept (s.core c) (t.core c) ∧
      if (s.sreg c r).toNat > 1 then
        t.sreg c r = s.sreg c r - 1 ∧
          RetiresAtStart s t c st k [r] [] (target (s.queueLen c st.q) ((st.idx : Int) - loopBack st.ord))
      else t.sreg c r = 0 ∧ RetiresAtStart s t c st k [r] [] (st.idx + 1)

/-- In every state in which the clerk picks a BRANCH_IF order it completes; the queue continues at own index + offset
(kept within the queue) if s[sa] and b meet cond, signed for LT and GE and unsigned for LTU and GEU, and at own index
+ 1 otherwise. No unit, S register, counter or other core changes but by what the completion reports. (R151) -/
def Obligations.BranchFollowsItsCondition : Prop :=
  ∀ (s : State) (c : Nat) (st : Start), s.pick c = some st → st.op = 0x5A →
    let taken := branchCond (ordF st.ord 4 18 16) (s.sreg c (ordF st.ord 4 5 0)) (branchB s c st.ord)
    ∃ t next, exec (.branchIf c) s = .next t ∧ UnitsKept (s.core c) (t.core c) ∧
      RetiresAtStart s t c st (branchClamps st.ord) [] [] next ∧
      (taken → next = target (s.queueLen c st.q) ((st.idx : Int) + branchOffset st.ord)) ∧ (¬ taken → next = st.idx + 1)

/-- A local SIGNAL adds its value to the named counter, or sets it to the value, and completes; its own completion
increment of that counter is summed into the value either way. A remote SIGNAL completes at its start and leaves one
signal waiting in its core. A waiting signal adds to or sets the counter of the named core when it is delivered (no
order before it still in flight, no earlier signal of its core to the same core waiting, the named core's half not
fenced), and changes no other counter, core or register. (R135, R140, R153) -/
def Obligations.SignalsChangeTheirCounters : Prop :=
  (∀ (s : State) (c : Nat) (st : Start), s.pick c = some st → st.op = 0x50 → bit (ordW st.ord 4) 16 = false →
      let k := ordF st.ord 4 5 0
      let v := BitVec.ofNat 32 (ordW st.ord 5)
      let own := if tellsCounter st.ord k then BitVec.ofNat 32 (bits (ordW st.ord 2) 7 0) else 0
      (bit (ordW st.ord 4) 17 = false → ∃ t, exec (.signalAdd c) s = .next t ∧ t.ctr c k = s.ctr c k + own + v
          ∧ RetiresAtStart s t c st 0 [] [k] (st.idx + 1) ∧ UnitsKept (s.core c) (t.core c))
      ∧ (bit (ordW st.ord 4) 17 = true → ∃ t, exec (.signalSet c) s = .next t ∧ t.ctr c k = v + own
          ∧ RetiresAtStart s t c st 0 [] [k] (st.idx + 1) ∧ UnitsKept (s.core c) (t.core c)))
  ∧ ((∀ (s : State) (c : Nat) (st : Start) (set : Bool), s.pick c = some st → st.op = 0x50 → bit (ordW st.ord 4) 16 = true →
      bit (ordW st.ord 4) 17 = set → s.samePart c (ordF st.ord 4 15 8) = true →
        ∃ t g, exec (if set then .signalSet c else .signalAdd c) s = .next t
          ∧ (t.core c).sigs = (s.core c).sigs ++ [g] ∧ g.core = ordF st.ord 4 15 8 ∧ g.ctr = ordF st.ord 4 5 0
          ∧ g.set = set ∧ g.value = BitVec.ofNat 32 (ordW st.ord 5)
          ∧ RetiresAtStart s t c st 0 [] [] (st.idx + 1))
    ∧ (∀ (s : State) (c : Nat) (g : RemSig), (s.core c).sigs.find? (fun h => h.id = g.id) = some g →
        (∀ i ∈ g.after, ((s.core c).flight i).isNone) → (∀ h ∈ (s.core c).sigs, h.core = g.core → g.id ≤ h.id) →
        s.fencedHalf ≠ some (coreHalf g.core) →
        ∃ t, exec (.signalDeliver c g.id) s = .next t
          ∧ t.ctr g.core g.ctr = (if g.set then g.value else s.ctr g.core g.ctr + g.value)
          ∧ (∀ k, k % 64 ≠ g.ctr % 64 → t.ctr g.core k = s.ctr g.core k)
          ∧ (∀ h ∈ (t.core c).sigs, h.id ≠ g.id)
          ∧ CoresKept s t [c, g.core] ∧ t.regs = s.regs ∧ Kept reachCore s t))

/-- In every state in which the clerk picks a SIGNAL order, local or remote, to a core of the partition or refused:
SIGNAL_ADD (set = 0) and SIGNAL_SET (set = 1) each answer a next state, in which the order has completed at its start,
the queue stands at the next index, CLERK_ORDERS counts the order, no other core has changed and the orders in flight
are as before. SIGNAL_DELIVER of a waiting signal that no transfer of its core before it and no earlier signal to the
same core precedes, to a half that is not fenced, answers a next state in which the counter is raised by or set to the
signal's value and the signal no longer waits. (R135, R140, R153) -/
def Obligations.SignalsComplete : Prop :=
  (∀ (s : State) (c : Nat) (st : Start), s.pick c = some st → st.op = 0x50 →
    (bit (ordW st.ord 4) 17 = false → ∃ t, exec (.signalAdd c) s = .next t ∧ (t.queue c st.q).index = st.idx + 1
      ∧ t.reg pgClerk c 0 rClerkOrders = s.reg pgClerk c 0 rClerkOrders + 1 ∧ (t.core c).flights = (s.core c).flights
      ∧ CoresKept s t [c] ∧ Kept { regs := true, cores := true } s t)
    ∧ (bit (ordW st.ord 4) 17 = true → ∃ t, exec (.signalSet c) s = .next t ∧ (t.queue c st.q).index = st.idx + 1
      ∧ t.reg pgClerk c 0 rClerkOrders = s.reg pgClerk c 0 rClerkOrders + 1 ∧ (t.core c).flights = (s.core c).flights
      ∧ CoresKept s t [c] ∧ Kept { regs := true, cores := true } s t))
  ∧ (∀ (s : State) (c id : Nat) (g : RemSig), (s.core c).sigs.find? (fun h => h.id = id) = some g →
    (∀ i ∈ g.after, (s.core c).flight i = none) → (∀ h ∈ (s.core c).sigs, h.core = g.core → g.id ≤ h.id) →
    s.fencedHalf ≠ some (coreHalf g.core) →
    ∃ t, exec (.signalDeliver c id) s = .next t
      ∧ t.ctr g.core g.ctr = (if g.set then g.value else s.ctr g.core g.ctr + g.value)
      ∧ (t.core c).sigs = (s.core c).sigs.filter (fun h => h.id != id) ∧ CoresKept s t [c, g.core] ∧ Kept reachCore s t)

/-- WAIT completes exactly when every enabled condition has reached its target (plus the wait base) in wrapping 32-bit
comparison, and is held otherwise. FENCE completes when no order it waits for is in flight and is held while one of
its own queue is. TREADLE fixes the level of the looms it names at no more than 100, ends an older TREADLE there, and
ends at its duration's end. The end of a rest adds the rest's length to CLERK_REST_CYC. An order fetched or fetched
again from an intact stockroom is the 128 bytes that stand there; a parity error of the buffer sets error bit 0.
(R140, R152, R154, R155, R157, R165, R167) -/
def Obligations.WaitsFencesTreadlesAndRests : Prop :=
  (∀ (s : State) (c : Nat) (st : Start), s.pick c = some st →
      (st.op = 0x51 → waitHolds s c st.ord 6 5 0 5 → waitHolds s c st.ord 14 13 8 6 → waitHolds s c st.ord 22 21 16 7 →
        ∃ t, exec (.wait c) s = .next t ∧ RetiresAtStart s t c st 0 [] [] (st.idx + 1) ∧ UnitsKept (s.core c) (t.core c))
      ∧ (st.op = 0x51 → ¬ (waitHolds s c st.ord 6 5 0 5 ∧ waitHolds s c st.ord 14 13 8 6 ∧ waitHolds s c st.ord 22 21 16 7) →
        ∃ t, exec (.wait c) s = .next t ∧ HeldAtStart s t c st 0)
      ∧ (st.op = 0x5B → (∀ f ∈ (s.core c).flights, f.q ≠ st.q ∧ bit (ordW st.ord 4) 1 = false
            ∧ (bit (ordW st.ord 4) 2 = true → opUnit f.op ≠ .transfer)) →
        ∃ t, exec (.fence c) s = .next t ∧ RetiresAtStart s t c st 0 [] [] (st.idx + 1) ∧ UnitsKept (s.core c) (t.core c))
      ∧ (st.op = 0x5B → (∃ f ∈ (s.core c).flights, f.q = st.q ∨ bit (ordW st.ord 4) 1 = true) →
        ∃ t, exec (.fence c) s = .next t ∧ HeldAtStart s t c st 0))
  ∧ ((∀ (s : State) (c : Nat) (st : Start), s.pick c = some st → st.op = 0x60 →
      ∃ t, exec (.treadle c) s = .next t
        ∧ (∀ l < (s.core c).looms.length, bit (ordF st.ord 4 3 0) l = true →
            ((t.core c).looms.getD l {}).fixedBy = some ((s.core c).freshId, min 100 (ordF st.ord 4 14 8)))
        ∧ (∀ l < (s.core c).looms.length, bit (ordF st.ord 4 3 0) l = true → ∀ f v, ((s.core c).looms.getD l {}).fixedBy = some (f, v) →
            (t.core c).flight f = none)
        ∧ ((∀ m ∈ (s.core c).looms, m.fixedBy = none) → HeldAtStart s t c st
            ((if ordF st.ord 4 14 8 > 100 then 1 else 0) + (if ordF st.ord 5 15 0 = 0 then 1 else 0)))
        ∧ CoresKept s t [c] ∧ Kept reachCore s t)
    ∧ (∀ (s : State) (c : Nat) (f : Flight), (s.core c).flight f.id = some f → f.op = 0x60 →
      ∃ t, exec (.treadleDurationEnd c f.id) s = .next t ∧ (t.core c).flight f.id = none
        ∧ (∀ m ∈ (t.core c).looms, ∀ v, m.fixedBy ≠ some (f.id, v))
        ∧ CoresKept s t [c] ∧ Kept reachCore s t))
  ∧ ((∀ (s : State) (c : Nat), (s.core c).rest ≠ 0 →
      ∃ t, exec (.restEnd c) s = .next t ∧ (t.core c).rest = 0
        ∧ t.reg pgClerk c 0 rClerkRestCyc = s.reg pgClerk c 0 rClerkRestCyc + BitVec.ofNat 64 (s.core c).rest
        ∧ t.core c = { (s.core c) with rest := 0, restAt := 0 } ∧ CoresKept s t [c] ∧ RegsKept s t [regKey pgClerk c 0 rClerkRestCyc]
        ∧ Kept { regs := true, cores := true } s t)
    ∧ (∀ (s : State) (c q b off : Nat), q < 4 →
        s.orderLoc c q (s.queue c q).index = .stock b off → (s.core b).stockBad = [] →
        (s.queue c q).index < s.queueLen c q →
        (smFind ((s.queue c q).trim (s.queueLen c q)).buf (s.queue c q).index = none → (s.queue c q).stopped = false →
          ∃ t, exec (.orderRefetch c q) s = .next t ∧ t.headOrd c q = some (leNat (s.stockBytes b off 128)))
        ∧ ∃ t, exec (.clerkBufferParity c q) s = .next t ∧ t.headOrd c q = some (leNat (s.stockBytes b off 128))
          ∧ bit (t.reg pgClerk c 0 hErr).toNat 0 = true))

/-- When a done order completes, it leaves its core's list of orders in flight; its status S register, where it has one,
takes the first status that applies in the order AUTH_REFUSED, LANE_FAULT, STATE_REFUSED, QUOTA_REFUSED, DATA_LOST,
REPLAYED, CLAMPED, OK; its counter rises by its increment and its error counter by 1 when its results are not valid;
CLERK_NONOK counts statuses other than OK and CLAMPED. No other S register, counter or core changes. (R9, R11, R139,
R143) -/
def Obligations.CompletionReportsStatusAndCounters : Prop :=
  ∀ (s : State) (c : Nat) (f : Flight), (s.core c).flight f.id = some f → f.done = true → s.abandoned c = false →
    s.replayHolds = false →
    ∃ t, exec (.orderComplete c f.id) s = .next t
      ∧ (t.core c).flights = (s.core c).flights.filter (fun g => g.id != f.id)
      ∧ (∀ k, t.sreg c k = if tellsStatus f.ord k then BitVec.ofNat 64 (finalStatus f) else s.sreg c k)
      ∧ (∀ k, t.ctr c k = s.ctr c k + completionAdds f k)
      ∧ t.reg pgClerk c 0 rClerkNonok = s.reg pgClerk c 0 rClerkNonok + (if finalStatus f = 0 ∨ finalStatus f = 1 then 0 else 1)
      ∧ CoresKept s t [c] ∧ RegsKept s t (regKey pgClerk c 0 rClerkNonok :: regKey pgClerk c 0 rClerkLastFault ::
          f.owed.flatMap (fun k => [regKey k.1 k.2.1 0 hClamp, regKey k.1 k.2.1 0 hSts]))
      ∧ Kept { regs := true, cores := true, parts := true } s t

/-- LOAD, STORE and MOVE of one row between two intact stockrooms, allowed by the transfer checks, with the core's earlier
transfers done and no half fenced. With no regulator of the partition in force: every byte of the destination range
holds the source byte as it was, every other byte of every stockroom is unchanged, the order is done in flight, its
delivery counter rises by its increment where enabled and no counter changes where not, no S register changes, and the
queue goes on. While a regulator of the partition holds its traffic back, the transfer is held: in flight, not done,
nothing copied and no counter changed. MODEL'S CHOICE: how a regulator holds one command's traffic (assumption 115).
(R18, R24, R158, R159) -/
def Obligations.StockroomTransferCopiesItsBytes : Prop :=
  ∀ (s : State) (c op a b d e : Nat) (st : Start), op ∈ [1, 2, 3] → s.pick c = some st → st.op = op →
    let x := xferOf c op st.ord
    locOf c x.src = .stock a b → locOf c x.dst = .stock d e → x.rows = 1 → x.len ≤ 2097152 →
    s.xferRefusal c x = none → (s.core a).stockBad = [] → s.abs.fence = none → TransfersDone s c →
    (CoreUnregulated s c → ∃ t, exec (transferCmd c op) s = .next t
      ∧ (∀ i < x.len, memByte (t.core d).stock ((e + i) % 2097152) = memByte (s.core a).stock ((b + i) % 2097152))
      ∧ (∀ y < 2097152, (∀ i < x.len, (e + i) % 2097152 ≠ y) → memByte (t.core d).stock y = memByte (s.core d).stock y)
      ∧ (∀ z, z ≠ d → (t.core z).stock = (s.core z).stock)
      ∧ (∃ f, (t.core c).flight (s.core c).freshId = some f ∧ f.done = true ∧ f.op = op ∧ f.q = st.q)
      ∧ (x.ctrEn = true → t.ctr (x.ctrCore c) x.ctr = s.ctr (x.ctrCore c) x.ctr + BitVec.ofNat 32 x.inc)
      ∧ (x.ctrEn = false → ∀ z k, t.ctr z k = s.ctr z k)
      ∧ (t.queue c st.q).index = st.idx + 1
      ∧ (∀ z k, t.sreg z k = s.sreg z k)
      ∧ CoresKept s t [c, d, x.ctrCore c] ∧ Kept { regs := true, cores := true } s t)
    ∧ (s.gatesOpen (s.xferCost c x) = false → ∃ t f, exec (transferCmd c op) s = .next t
      ∧ (t.core c).flight (s.core c).freshId = some f ∧ f.done = false ∧ f.op = op
      ∧ (∀ z, (t.core z).stock = (s.core z).stock) ∧ (∀ z k, t.ctr z k = s.ctr z k) ∧ (t.queue c st.q).index = st.idx + 1
      ∧ CoresKept s t [c] ∧ Kept { regs := true, cores := true } s t)

/-- A loom order whose weights lie inside the partition's windows is appended to its loom's orders with its row base;
outside them it is done with QUOTA_REFUSED and no loom changes. An order starts when its rows present reach its
target, or its fill window has expired with a row present: it takes at most row_max rows (32 with a quota of one
slot), writes row_out with the rows and the loom, and counts LOOM_FILL_EXPIRED if it started below its target;
otherwise nothing changes. (R70, R71, R72) -/
def Obligations.LoomOrdersIssueAndTakeRows : Prop :=
  (∀ (s : State) (c op : Nat) (st : Start), op ∈ [0x10, 0x11] → s.pick c = some st → st.op = op →
      let f := loomFields (op = 0x11) st.ord
      let l := orderLoom s c st.ord
      (∀ p, s.partOfCore c = some p → s.inWindows p (locOf c f.wAddr) (f.nTiles * f.kTiles * (loomGeom f).bytes) = true →
        ∃ t o, exec (loomCmd c op) s = .next t
          ∧ (t.loom c l).ords = (s.loom c l).ords ++ [o] ∧ o.flight = (s.core c).freshId ∧ o.base = s.ctr c f.rowCtr
          ∧ o.rows = none ∧ o.expired = false ∧ o.tile = 0 ∧ o.kt = 0
          ∧ (∀ k, k ≠ l → t.loom c k = s.loom c k)
          ∧ ((t.core c).flight (s.core c).freshId).isSome ∧ (t.queue c st.q).index = st.idx + 1
          ∧ (t.core c).sregs = (s.core c).sregs ∧ (t.core c).ctrs = (s.core c).ctrs
          ∧ (t.core c).shelf = (s.core c).shelf ∧ (t.core c).stock = (s.core c).stock
          ∧ CoresKept s t [c] ∧ Kept { regs := true, cores := true } s t)
      ∧ (∀ p, s.partOfCore c = some p → s.inWindows p (locOf c f.wAddr) (f.nTiles * f.kTiles * (loomGeom f).bytes) = false →
        ∃ t g, exec (loomCmd c op) s = .next t ∧ (t.core c).flights = (s.core c).flights ++ [g] ∧ g.status = 3 ∧ g.done = true
          ∧ (t.core c).looms = (s.core c).looms ∧ CoresKept s t [c] ∧ Kept { regs := true, cores := true } s t))
  ∧ (∀ (s : State) (c l : Nat) (o : LoomOrd), l < 4 → s.loomCur c l = some o → o.rows = none → (s.core c).stockBad = [] →
      let f := s.loomF c o.flight
      let n := if s.loomQuota c l = 1 ∧ rowsPresent s c o > 32 then 32 else rowsPresent s c o
      (rowsPresent s c o ≥ rowTarget s c o ∨ (o.expired = true ∧ rowsPresent s c o ≥ 1) →
        ∃ t, exec (.loomOrderStart c l) s = .next t
          ∧ (∀ x ∈ (t.loom c l).ords, x.flight = o.flight → x.rows = some n)
          ∧ (t.loom c l).ords.map (·.flight) = (s.loom c l).ords.map (·.flight)
          ∧ t.sreg c f.rowOut = BitVec.ofNat 64 (n + l * 4294967296)
          ∧ (∀ k, k % 64 ≠ f.rowOut % 64 → t.sreg c k = s.sreg c k)
          ∧ t.reg pgLoom c 0 rLoomFillExpired = s.reg pgLoom c 0 rLoomFillExpired + (if rowsPresent s c o < rowTarget s c o then 1 else 0)
          ∧ (t.core c).ctrs = (s.core c).ctrs ∧ (t.core c).stock = (s.core c).stock ∧ (t.core c).shelf = (s.core c).shelf
          ∧ CoresKept s t [c] ∧ Kept { regs := true, cores := true } s t)
      ∧ (rowsPresent s c o < rowTarget s c o → o.expired = false ∨ rowsPresent s c o = 0 →
        exec (.loomOrderStart c l) s = .next s))

/-- A weight tile that arrives, its regulators not in force, joins its loom's staging; while a regulator holds it back
nothing arrives; a shadow load moves the oldest staged tile to the shadow set, and to the active set when a started
order waits for it and no boundary pause stands. A tile that starts with no pause, room under the loom's quota and the
16 slots of the shelf not exceeded takes one shelf slot, or two above 32 rows. The oldest filling slot becomes full
when its rows are complete. Other looms, slots, S registers, counters and the stockroom keep what they held. (R67,
R68, R80, R81) -/
def Obligations.LoomTilesMoveThroughTheirStages : Prop :=
  ((∀ (s : State) (c l : Nat) (o : LoomOrd), l < 4 → s.loomFetch c l = some o →
      (s.loomF c o.flight).zmapEn = false →
      let loc := (s.loomF c o.flight).tileLoc c o.fTile o.fKt
      let n := (loomGeom (s.loomF c o.flight)).bytes
      (s.loom c l).staged + n ≤ 24576 → s.placeReady loc n true = true →
      let r := (s.guestLines (some c) loc n).readRestored loc n
      (s.gatesOpen (s.weightCost c loc n) = false → ∃ t, exec (.weightTileArrive c l) s = .next t ∧ t.cores = s.cores
        ∧ Kept { regs := true } s t)
      ∧ ∀ bs s1, CoreUnregulated s c → r.2 = some bs → s1 = r.1 →
      ∃ t, exec (.weightTileArrive c l) s = .next t
        ∧ (t.loom c l).stage = (s1.loom c l).stage ++ [bs] ∧ (t.loom c l).shadow = (s1.loom c l).shadow
        ∧ (t.loom c l).active = (s1.loom c l).active ∧ (∀ k, k ≠ l → t.loom c k = s1.loom c k)
        ∧ CoresKept s1 t [c])
    ∧ (∀ (s : State) (c l : Nat) (b : List Byte) (rest : List (List Byte)), l < 4 → (s.loom c l).shadow = none →
      (s.loom c l).stage = b :: rest →
      ((∀ o ∈ (s.loom c l).ords, o.begun = false) →
        ∃ t, exec (.shadowLoadDone c l) s = .next t ∧ (t.loom c l).shadow = some b ∧ (t.loom c l).stage = rest
          ∧ (t.loom c l).ords = (s.loom c l).ords ∧ (t.loom c l).active = (s.loom c l).active
          ∧ (∀ k, k ≠ l → t.loom c k = s.loom c k) ∧ CoresKept s t [c] ∧ Kept { cores := true } s t)
      ∧ (∀ o, s.loomCur c l = some o → o.begun = true → o.rows.isSome = true → (s.loomF c o.flight).zmapEn = false →
          (∀ x ∈ (s.loom c l).ords, x.pause = false) →
        ∃ t, exec (.shadowLoadDone c l) s = .next t ∧ (t.loom c l).active = some b ∧ (t.loom c l).shadow = none
          ∧ (t.loom c l).stage = rest)))
  ∧ ((∀ (s : State) (c l : Nat) (o : LoomOrd) (n : Nat), l < 4 → s.loomCur c l = some o → o.rows = some n → o.begun = false →
      (∀ x ∈ (s.loom c l).ords, x.pause = false) →
      let k := if n > 32 then 2 else 1
      ((s.core c).shelf.getD l []).length + k ≤ s.loomQuota c l → shelfUsed s c + k ≤ 16 →
      (s.loom c l).shadow = none → (s.loomF c o.flight).zmapEn = false →
      ∃ t, exec (.loomTileStart c l) s = .next t
        ∧ (t.core c).shelf.getD l [] = (s.core c).shelf.getD l [] ++
            (⟨false, false, o.flight, o.tile, 0, min 32 n, []⟩ :: (if n > 32 then [⟨false, false, o.flight, o.tile, 32, min 32 (n - 32), []⟩] else []))
        ∧ (∀ x ∈ (t.loom c l).ords, x.flight = o.flight → x.begun = true)
        ∧ (∀ j, j ≠ l → (t.core c).shelf.getD j [] = (s.core c).shelf.getD j [])
        ∧ (t.core c).stock = (s.core c).stock ∧ (t.core c).sregs = (s.core c).sregs ∧ (t.core c).ctrs = (s.core c).ctrs
        ∧ CoresKept s t [c] ∧ Kept { cores := true } s t)
    ∧ (∀ (s : State) (c l i : Nat) (x : Slot), l < 4 → ((s.core c).shelf.getD l []).findIdx? (fun y => y.issued && !y.full) = some i →
      ((s.core c).shelf.getD l [])[i]? = some x →
      ∃ t, exec (.shelfSlotFull c l) s = .next t
        ∧ (t.core c).shelf.getD l [] = ((s.core c).shelf.getD l []).set i { x with full := true }
        ∧ (∀ j, j ≠ l → (t.core c).shelf.getD j [] = (s.core c).shelf.getD j [])
        ∧ (∀ o ∈ (s.loom c l).ords, o.flight ≠ x.flight → o ∈ (t.loom c l).ords)
        ∧ (t.core c).stock = (s.core c).stock ∧ (t.core c).sregs = (s.core c).sregs ∧ (t.core c).ctrs = (s.core c).ctrs
        ∧ CoresKept s t [c] ∧ Kept { cores := true } s t))

/-- A fill window's expiry marks that waiting order; a boundary pause ends once every issued slot of the loom is full, and
otherwise nothing changes. A recompute counts LOOM_RECOMPUTE, sets the cause's error bit, and empties staging, shadow,
active set and the order's accumulators; on a loom that works for an ATTEND it counts, sets that bit and sets ATT_'s
recompute bit, and changes nothing else. A treadle window with no treadle in force leaves level 0 and an average
between the old one and the window's activity; with a fixed level the missing activity is added to LOOM_TREADLE_CYC; a
gap's expiry lowers the level. MODEL'S CHOICE: the average's rounding, the energy and the slew step are free values
(assumption 21); the statement holds for each value of them. (R72, R74, R83, R84, R85, R87) -/
def Obligations.LoomTimersTreadlesAndRecompute : Prop :=
  ((∀ (s : State) (c l : Nat), l < 4 →
      (∀ place, ∃ t, exec (.fillWindowExpired c l place) s = .next t
        ∧ (t.loom c l).ords = (s.loom c l).ords.mapIdx (fun i o => if i = place ∧ o.rows = none then { o with expired := true } else o)
        ∧ (∀ k, k ≠ l → t.loom c k = s.loom c k) ∧ CoresKept s t [c] ∧ Kept { cores := true } s t)
      ∧ ((∃ x ∈ (s.core c).shelf.getD l [], x.issued = true ∧ x.full = false) → exec (.boundaryPauseEnd c l) s = .next s)
      ∧ ((∀ x ∈ (s.core c).shelf.getD l [], x.issued = true → x.full = true) →
        ∃ t, exec (.boundaryPauseEnd c l) s = .next t ∧ (∀ o ∈ (t.loom c l).ords, o.pause = false)
        ∧ (t.loom c l).ords.length = (s.loom c l).ords.length
        ∧ (∀ k, k ≠ l → t.loom c k = s.loom c k) ∧ CoresKept s t [c] ∧ Kept { cores := true } s t))
    ∧ (∀ (s : State) (c l cause : Nat) (o : LoomOrd), l < 4 → cause < 3 → s.loomCur c l = some o → (s.core c).stockBad = [] →
      ∃ t, exec (.loomRecompute c l cause) s = .next t
        ∧ t.reg pgLoom c 0 rLoomRecompute = s.reg pgLoom c 0 rLoomRecompute + 1
        ∧ bit (t.reg pgLoom c 0 hErr).toNat cause = true
        ∧ (t.loom c l).stage = [] ∧ (t.loom c l).shadow = none ∧ (t.loom c l).active = none
        ∧ (∀ x ∈ (t.loom c l).ords, x.flight = o.flight → x.accs = [] ∧ ((s.loomF c o.flight).segOut = false → x.kt = 0))
        ∧ (t.core c).shelf = (s.core c).shelf ∧ (t.core c).stock = (s.core c).stock ∧ CoresKept s t [c]
        ∧ Kept { regs := true, cores := true, abs := true } s t)
    ∧ (∀ (s : State) (c l cause : Nat), l < 4 → cause < 3 → s.loomCur c l = none → (s.core c).attends l = true →
      ∃ t, exec (.loomRecompute c l cause) s = .next t
        ∧ t.reg pgLoom c 0 rLoomRecompute = s.reg pgLoom c 0 rLoomRecompute + 1
        ∧ bit (t.reg pgLoom c 0 hErr).toNat cause = true ∧ bit (t.reg pgAtt c 0 hErr).toNat 0 = true
        ∧ Kept { regs := true, abs := true } s t))
  ∧ ((∀ (s : State) (c l act : Nat), l < 4 →
      (s.thm.phase ≠ 0 ∨ ((s.loom c l).fixedBy = none ∧ s.fld pgLoom c 0 rLoomTreadle 31 31 = 0 ∧ act ≠ 0) →
        ∃ t, exec (.treadleWindow c l act) s = .next t ∧ (t.loom c l).level = 0 ∧ t.regs = s.regs
          ∧ min (s.loom c l).avg (min act 1000000) ≤ (t.loom c l).avg ∧ (t.loom c l).avg ≤ max (s.loom c l).avg (min act 1000000)
          ∧ t.freeCtr = s.freeCtr + 1 ∧ CoresKept s t [c] ∧ Kept { cores := true, free := true } s t)
      ∧ (∀ f lvl, s.thm.phase = 0 → (s.loom c l).fixedBy = some (f, lvl) → act ≠ 0 → act < min lvl s.pwr.tc * 10000 → min lvl s.pwr.tc ≤ 100 →
        ∃ t, exec (.treadleWindow c l act) s = .next t
          ∧ t.reg pgLoom c 0 rLoomTreadleCyc = s.reg pgLoom c 0 rLoomTreadleCyc + BitVec.ofNat 64 (((min lvl s.pwr.tc * 10000 - act) * 256 + 999999) / 1000000)
          ∧ (t.loom c l).level = (min lvl s.pwr.tc * 10000 - act) / 10000
          ∧ t.reg pgLoom c 0 rLoomTreadleUj = s.reg pgLoom c 0 rLoomTreadleUj + Config.free (s.freeCtr + 1)
          ∧ (∀ k, k ≠ l → t.loom c k = s.loom c k) ∧ CoresKept s t [c] ∧ Kept { regs := true, cores := true, free := true } s t))
    ∧ (∀ (s : State) (c l : Nat), l < 4 → (s.loom c l).level ≠ 0 →
        ∃ t, exec (.treadleGapExpired c l) s = .next t ∧ (t.loom c l).level < (s.loom c l).level
          ∧ t.freeCtr = s.freeCtr + 1 ∧ t.regs = s.regs
          ∧ (∀ k, k ≠ l → t.loom c k = s.loom c k) ∧ CoresKept s t [c] ∧ Kept { cores := true, free := true } s t))

/-- For every FP32 operand: an addition, subtraction, product or fused operation with a NaN operand gives the NaN
0x7FC00000; inf × 0 and inf + (-inf) give NaN, also inside a fused operation and a subtraction; a sum of two zeros is
-0 only if both addends are -0; an exact zero sum of non-zero addends of opposite sign is +0. (R41) -/
def Obligations.Fp32SpecialValues : Prop :=
  (∀ a b c : Word, nanBits a ∨ nanBits b → f32Add a b = 0x7FC00000#32 ∧ f32Sub a b = 0x7FC00000#32 ∧ f32Mul a b = 0x7FC00000#32
      ∧ f32Fma a b c = 0x7FC00000#32 ∧ f32Fma c a b = 0x7FC00000#32 ∧ f32Fms a b c = 0x7FC00000#32 ∧ f32Fms c a b = 0x7FC00000#32)
  ∧ (∀ a b : Word, infBits a → zeroBits b → f32Mul a b = 0x7FC00000#32 ∧ f32Mul b a = 0x7FC00000#32
      ∧ ∀ c, f32Fma a b c = 0x7FC00000#32 ∧ f32Fms b a c = 0x7FC00000#32)
  ∧ (∀ a : Word, infBits a → f32Add a (negBits a) = 0x7FC00000#32 ∧ f32Sub a a = 0x7FC00000#32)
  ∧ (∀ a b : Word, zeroBits a → zeroBits b → f32Add a b = (if a = 0x80000000#32 ∧ b = 0x80000000#32 then 0x80000000#32 else 0)
      ∧ f32Sub a b = (if a = 0x80000000#32 ∧ b = 0 then 0x80000000#32 else 0))
  ∧ (∀ a : Word, ¬ nanBits a → ¬ infBits a → ¬ zeroBits a → f32Add a (negBits a) = 0 ∧ f32Sub a a = 0)

/-- Every FP32 word that is no NaN decodes to a value that rounds back to the same word; NEG inverts its sign and ABS
clears it. Every code of the formats 3, 4 and 5 that is no NaN, and every code of the integer formats 13 and 14,
converts from FP32 back to itself. (R37, R38, R40, R42, R46) -/
def Obligations.ConversionsOfExactValues : Prop :=
  (∀ w : Word, ¬ nanBits w → f32Of (f32Val w) = w ∧ f32Neg w = negBits w ∧ f32Abs w = w &&& 0x7FFFFFFF#32)
  ∧ ((∀ fmt ∈ [3, 4, 5], ∀ x < 2 ^ fmtWidth fmt, ¬ nanBits (rawDecode32 fmt ⟨x, 127, 0⟩) →
        convScalar .rne fmt true (rawDecode32 fmt ⟨x, 127, 0⟩) = x)
    ∧ (∀ fmt ∈ [13, 14], ∀ x < 2 ^ fmtWidth fmt, convScalar .rne fmt false (rawDecode32 fmt ⟨x, 127, 0⟩) = x))

/-- For each of the elementwise micro-ops of stations 1 to 7 (MOV to DITHER): when the running recipe is at that micro-op
and goes on after it, the command answers a next state in which every element whose predicate is true has the row's
result of its own operands in dst (or the named predicate bit), every other element is unchanged, and nothing but the
recipe's position changes. (R95, R96, R104, R105, R302, R303, R304) -/
def Obligations.LaneMicroOpsGiveTheirResults : Prop :=
  ∀ (s s1 : State) (c u : Nat) (r : RecipeRun), ∀ row ∈ laneRows c (s.runRow c),
    s.uopReady c row.2.1 row.2.2.1 = some (s1, r, u) → GoesOn r (s1.ordOf c r.flight) →
    ∃ t, exec row.1 s = .next t
      ∧ OnlyRecipe s1 t c { r with pc := r.pc + 1, lanes := r.lanes.map (fun x => if predTrue u x then afterUop u x (row.2.2.2 r u x) else x) }

/-- A RECIPE order with its recipe in an intact stockroom is appended to the engine's runs with micro-ops taken from the
24 words after its constants. The next group takes as many further elements as there are lanes, with consecutive
indices, and counts one group and one busy cycle. A shelf unit starts on a full slot with at most its valid rows. A
parity reload counts ELEM_RELOAD and sets its error bit. (R91, R97, R108, R110, R126) -/
def Obligations.RecipesStartAndIssueTheirGroups : Prop :=
  (∀ (s : State) (c : Nat) (st : Start) (p : Nat), s.pick c = some st → st.op = 0x18 → s.partOfCore c = some p →
    (s.core c).stockBad = [] →
    (∀ n < 2, (outDests st.ord (inKinds st.ord).1).1.getD n 0 ∉ [1, 2, 3]) →
    ∃ t r, exec (.recipe c) s = .next t ∧ (t.core c).eng.runs = (s.core c).eng.runs ++ [r]
      ∧ r.flight = (s.core c).freshId ∧ r.pc = 0 ∧ r.next = 0 ∧ r.lanes = []
      ∧ r.uops <+: (List.range 24).map (fun i => leNat (memBytesWrap 2097152 (s.core c).stock (ordF st.ord 4 20 0 / 256 * 256 + 32 + 8 * i) 8))
      ∧ ((t.core c).flight (s.core c).freshId).isSome ∧ (t.queue c st.q).index = st.idx + 1
      ∧ (t.core c).sregs = (s.core c).sregs ∧ (t.core c).ctrs = (s.core c).ctrs ∧ (t.core c).stock = (s.core c).stock
      ∧ CoresKept s t [c] ∧ Kept { regs := true, cores := true } s t)
  ∧ (∀ (s : State) (c : Nat) (r : RecipeRun), s.run c = some r → r.tOp = 0 → r.shelfIns = [] → r.allIssued = false →
    (r.carryEn = true → r.pc = 0 ∧ r.lanes = []) → r.pc < r.uops.length → r.parkAt (s.ordOf c r.flight) ≠ some r.pc →
    r.usesDraws (s.ordOf c r.flight) (s.srEnable c) 0 24 = false → (s.core c).stockBad = [] →
    r.at8 = none → s.boot.lanes > 0 →
    ∃ t r', exec (.elemGroupIssue c 0) s = .next t ∧ t.run c = some r'
      ∧ r'.lanes.map (·.idx) = r.lanes.map (·.idx) ++ (List.range (min s.boot.lanes (r.unitLen - r.next))).map (fun i => r.next + i)
      ∧ r'.pc = r.pc ∧ r'.uops = r.uops
      ∧ t.reg pgElem c 0 rElemGroups = s.reg pgElem c 0 rElemGroups + 1 ∧ t.reg pgElem c 0 rElemBusy = s.reg pgElem c 0 rElemBusy + 1
      ∧ (t.core c).stock = (s.core c).stock ∧ CoresKept s t [c] ∧ Kept { regs := true, cores := true } s t)
  ∧ (∀ (s : State) (c : Nat) (r : RecipeRun), s.run c = some r → r.tOp = 0 → r.shelfIns ≠ [] → r.unitOn = false → r.allIssued = false →
    (∀ n ∈ r.shelfIns, ∃ sl, s.unitSlot c (s.ordOf c r.flight) r n = some sl ∧ sl.full = true) →
    ∃ t r', exec (.shelfUnitStart c) s = .next t ∧ t.run c = some r' ∧ r'.unitOn = true ∧ r'.next = 0
      ∧ r'.unitLen = 32 * r'.unitRows ∧ r'.unitRows ≤ 32
      ∧ (∀ n ∈ r.shelfIns, ∀ sl, s.unitSlot c (s.ordOf c r.flight) r n = some sl → r'.unitRows ≤ sl.valid)
      ∧ (t.core c).shelf = (s.core c).shelf ∧ CoresKept s t [c] ∧ Kept { cores := true } s t)
  ∧ (∀ (s : State) (c store : Nat) (r : RecipeRun), s.run c = some r → store < 2 →
    ∃ t, exec (.elemParityReload c store) s = .next t
      ∧ t.reg pgElem c 0 rElemReload = s.reg pgElem c 0 rElemReload + 1 ∧ bit (t.reg pgElem c 0 hErr).toNat store = true
      ∧ t.cores = s.cores ∧ Kept { regs := true, abs := true } s t)

/-- COMPRESS keeps the elements with p0, renumbers them in ascending index, writes their old indices to the index list,
and reports the count. EXPAND keep gives each element the position its list word names and drops those out of range;
EXPAND fill supplies every position that no list word names and that its group reaches (all of them with the last
group), each once and each below n_elems. A conversion to a format that is no block format rounds each element whose
predicate is true and leaves index and predicates. ROUTE writes an FP32 element to its place in the stockroom. (R99,
R100, R101, R103) -/
def Obligations.ElementsAreRenumberedConvertedAndRouted : Prop :=
  ((∀ (s s1 : State) (c u : Nat) (r : RecipeRun), s.uopReady c [8] 0 = some (s1, r, u) → GoesOn r (s1.ordOf c r.flight) →
      r.usesDraws (s1.ordOf c r.flight) (s1.srEnable c) (r.pc + 1) 25 = false →
      let o := s1.ordOf c r.flight
      let kept := (r.lanes.filter (·.p0)).mergeSort (fun a b => decide (a.idx ≤ b.idx))
      ∃ t r', exec (.uopCompress c) s = .next t ∧ t.run c = some r'
        ∧ r'.lanes.map (·.idx) = (List.range kept.length).map (fun i => r.kept + i)
        ∧ r'.kept = r.kept + kept.length ∧ r'.pc = r.pc + 1
        ∧ t.sreg c (ordF o 11 21 16) = BitVec.ofNat 64 ((r.kept + kept.length) % 4294967296)
        ∧ t.reg pgElem c 0 rElemKept = s1.reg pgElem c 0 rElemKept + BitVec.ofNat 64 kept.length
        ∧ (t.core c).stock = memSetBytesWrap 2097152 (s1.core c).stock ((ordF o 17 20 0 + 4 * r.kept) % 2097152)
            (kept.flatMap (fun x => leBytes 4 x.idx))
        ∧ CoresKept s1 t [c])
    ∧ (∀ (s s1 : State) (c u : Nat) (r : RecipeRun), s.uopReady c [8] 2 = some (s1, r, u) → GoesOn r (s1.ordOf c r.flight) →
      r.usesDraws (s1.ordOf c r.flight) (s1.srEnable c) (r.pc + 1) 25 = false → (s1.core c).stockBad = [] →
      let o := s1.ordOf c r.flight
      let word (j : Nat) : Nat := leNat (memBytesWrap 2097152 (s1.core c).stock (r.listAt o + 4 * j) 4)
      let dense := (r.lanes.map (·.idx)).filter (fun j => decide (j < r.mexp))
      ∃ t r', exec (.uopExpandKeep c) s = .next t ∧ t.run c = some r'
        ∧ r'.lanes.map (·.idx) = (dense.map word).filter (fun q => decide (q < recN o)) ∧ r'.pc = r.pc + 1
        ∧ t.reg pgElem c 0 rElemIndexDrop = s1.reg pgElem c 0 rElemIndexDrop
            + BitVec.ofNat 64 ((dense.map word).filter (fun q => decide (recN o ≤ q))).length
        ∧ (t.core c).stock = (s1.core c).stock ∧ CoresKept s1 t [c])
    ∧ (∀ (s s1 : State) (c u : Nat) (r : RecipeRun), s.uopReady c [8] 1 = some (s1, r, u) → GoesOn r (s1.ordOf c r.flight) →
      r.usesDraws (s1.ordOf c r.flight) (s1.srEnable c) (r.pc + 1) 25 = false → (s1.core c).stockBad = [] →
      bits u 23 20 ≠ 11 →
      let o := s1.ordOf c r.flight
      let word (j : Nat) : Nat := leNat (memBytesWrap 2097152 (s1.core c).stock (r.listAt o + 4 * j) 4)
      let reached (q k : Nat) : Prop := ∃ j < min k r.mexp, q ≤ word j ∧ word j < recN o
      ∃ t r', exec (.uopExpandFill c) s = .next t ∧ t.run c = some r' ∧ r'.pc = r.pc + 1
        ∧ (∀ q < recN o, (r.allIssued = true ∨ ∃ x ∈ r.lanes, reached q (x.idx + 1)) →
            (r.carryEn = true → ¬ ∀ x ∈ r.lanes, reached q x.idx) → (∀ j < r.mexp, word j ≠ q) → ∃ x ∈ r'.lanes, x.idx = q ∧ (∀ y ∈ r'.lanes, y.idx = q → y = x))
        ∧ (∀ x ∈ r'.lanes, x.idx < recN o)
        ∧ (t.core c).stock = (s1.core c).stock ∧ CoresKept s1 t [c]))
  ∧ ((∀ (s s1 : State) (c u : Nat) (r : RecipeRun), ∀ row ∈ convertRows c, s.uopReady c [9] row.2.1 = some (s1, r, u) →
      GoesOn r (s1.ordOf c r.flight) →
      let fmt := outFmt (s1.ordOf c r.flight) (bits u 63 32 % 2) r.dests
      fmtIsBlock fmt = false →
      let nonsat := if bits u 63 32 / 2 % 4 = 1 then false else if bits u 63 32 / 2 % 4 = 2 then true else s1.defaultNonsat c
      let enc (x : ElemLane) : Nat := convScalar (if row.2.2 && s1.srEnable c then .sr x.rnd.y3 else .rne) fmt nonsat
        (opnd r u x (bits u 15 12) (fmtIsInt fmt))
      ∃ t r', exec row.1 s = .next t ∧ t.run c = some r' ∧ r'.pc = r.pc + 1
        ∧ r'.lanes.map (fun x => x.v) = r.lanes.map (fun x => if predTrue u x then x.v.set (bits u 11 9) (rawDecode32 fmt ⟨enc x, 127, 0⟩) else x.v)
        ∧ r'.lanes.map (fun x => (x.idx, x.p0, x.p1)) = r.lanes.map (fun x => (x.idx, x.p0, x.p1))
        ∧ CoresKept s1 t [c] ∧ (t.core c).stock = (s1.core c).stock ∧ t.regs = s1.regs)
    ∧ (∀ (s s1 : State) (c u n : Nat) (r : RecipeRun) (x : ElemLane), n < 2 → s.uopReady c [10] n = some (s1, r, u) →
      (n = 1 → s.uopReady c [10] 0 = none) → GoesOn r (s1.ordOf c r.flight) → r.lanes = [x] → predTrue u x = true →
      r.dests.getD n 0 = 1 → s1.outsReady c (s1.ordOf c r.flight) r = true →
      outFmt (s1.ordOf c r.flight) n r.dests = 0 → (x.enc0.1 = none ∧ x.enc1.1 = none) →
      ∃ t, exec (.uopRoute c) s = .next t
        ∧ ∃ a, r.outLoc c (s1.ordOf c r.flight) n = .stock c a
          ∧ (t.core c).stock = memSetBytesWrap 2097152 (s1.core c).stock ((a + x.idx * 4) % 2097152)
              (leBytes 4 (convScalar .rne 0 (s1.defaultNonsat c) (opnd r u x (bits u 15 12) false)))
          ∧ (t.run c).map (·.pc) = some (r.pc + 1) ∧ CoresKept s1 t [c]))

/-- A TALLY order with an idle unit starts a run over its elements. Each of the tally operations takes as many elements as
there are lanes, and counts busy cycles at the operation's rate. The result of a COUNT row is written at its place:
the number of its elements that are not zero. The operations but the sorting one leave the stockroom unchanged while
they take elements. (R117, R118, R120, R121) -/
def Obligations.TallyTakesAndReportsRows : Prop :=
  (∀ (s : State) (c : Nat) (st : Start), s.pick c = some st → st.op = 0x19 → (s.core c).tally = [] →
    1 ≤ tallyOp0 st.ord → tallyOp0 st.ord ≤ 9 →
    ∃ t x, exec (.tally c) s = .next t ∧ (t.core c).tally = [x] ∧ x.op = tallyOp0 st.ord ∧ x.isOrder = true
      ∧ x.total = recN st.ord ∧ x.next = 0 ∧ x.written = 0 ∧ x.flight = (s.core c).freshId
      ∧ (t.queue c st.q).index = st.idx + 1 ∧ (t.core c).sregs = (s.core c).sregs ∧ (t.core c).stock = (s.core c).stock
      ∧ CoresKept s t [c] ∧ Kept { regs := true, cores := true } s t)
  ∧ (∀ (s : State) (c : Nat) (x : TallyRun) (rest : List TallyRun), ∀ row ∈ tallyRows c, (s.core c).tally = x :: rest → x.op = row.2 →
    x.isOrder = true → x.lost = false → (s.core c).stockBad = [] →
    x.written < (x.total + recRow (s.ordOf c x.flight) - 1) / recRow (s.ordOf c x.flight) →
    let o := s.ordOf c x.flight
    let n := min s.boot.lanes (x.total - x.next)
    ∃ t y, exec row.1 s = .next t ∧ (t.core c).tally.head? = some y ∧ y.flight = x.flight ∧ y.next = x.next + n
      ∧ (y.closed = true ↔ x.closed = true ∨ x.next + n ≥ x.total)
      ∧ t.reg pgTally c 0 rTallyBusy = s.reg pgTally c 0 rTallyBusy + BitVec.ofNat 64 (tallyRate row.2 (tallyK o) (recRow o) s.boot.lanes n)
      ∧ (row.2 ∉ [1, 6, 9] → t.reg pgTally c 0 rTallyElems = s.reg pgTally c 0 rTallyElems + BitVec.ofNat 64 n)
      ∧ (row.2 ≠ 9 → (t.core c).stock = (s.core c).stock) ∧ CoresKept s t [c] ∧ Kept { regs := true, cores := true } s t)
  ∧ (∀ (s : State) (c : Nat) (x : TallyRun) (rest : List TallyRun), (s.core c).tally = x :: rest → x.isOrder = true → x.lost = false →
    let o := s.ordOf c x.flight
    let len := min (recRow o) (x.total - x.written * recRow o)
    x.written * recRow o < x.total → x.next ≥ min x.total ((x.written + 1) * recRow o) → bit (ordW o 18) 26 = false →
    x.op = 8 → bit (ordW o 18) 25 = false →
    ((smFind x.rows x.written).getD []).length < 4294967296 →
    ∃ t, exec (.tallyRowResult c) s = .next t
      ∧ (t.core c).stock = memSetBytesWrap 2097152 (s.core c).stock ((ordF o 21 20 0 + 4 * x.written) % 2097152)
          (leBytes 4 (((smFind x.rows x.written).getD []).filter (fun e => e.2.1 &&& 0x7FFFFFFF#32 != 0)).length)
      ∧ (t.core c).sregs = (s.core c).sregs ∧ len ≥ 1 ∧ CoresKept s t [c])

/-- Each of the collective orders, at partition scope: with its own core as the only member it copies its source to its
destination and is done with OK, with no other stockroom byte changed; with another member it joins an open collective
that records its core, order, source and destination, and is held. (R367, R368) -/
def Obligations.CollectivesOfAPartition : Prop :=
  ∀ (s : State) (c p : Nat) (st : Start), ∀ row ∈ collRows c, s.pick c = some st → st.op = 0x48 → s.partOfCore c = some p →
    let f := s.cvFields p st.ord
    f.op = row.2 → f.scope = 0 → (s.core c).stockBad = [] →
    (f.members s p = [c] → f.root = 0 → NoColl s p f.id →
      ∃ t, exec row.1 s = .next t
        ∧ (∀ i < f.len, memByte (t.core c).stock ((f.dst + i) % 2097152) = memByte (s.core c).stock ((f.src + i) % 2097152))
        ∧ StockKeptOutside s t c [(f.dst, f.len)] ∧ DoneNow s t c 0 ∧ t.fab.colls = s.fab.colls
        ∧ (t.core c).sregs = (s.core c).sregs ∧ (t.core c).ctrs = (s.core c).ctrs
        ∧ CoresKept s t [c] ∧ Kept { regs := true, cores := true, fab := true } s t)
    ∧ (∀ d, d ∈ f.members s p → d ≠ c → c ∈ f.members s p → f.root < (f.members s p).length → NoColl s p f.id →
      ∃ t r, exec row.1 s = .next t ∧ r ∈ t.fab.colls ∧ r.scope = 0 ∧ r.part = p ∧ r.id = f.id ∧ r.op = row.2
        ∧ r.joined = [(c, (s.core c).freshId, f.src, f.dst)] ∧ HeldNow s t c
        ∧ (t.core c).stock = (s.core c).stock ∧ (t.core c).sregs = (s.core c).sregs ∧ (t.core c).ctrs = (s.core c).ctrs
        ∧ CoresKept s t [c] ∧ Kept { regs := true, cores := true, fab := true } s t)

/-- BARRIER at partition scope with no other active core completes with the guild's epoch in its S register where it names
one (0 outside a guild); with another active core it is held and recorded as the first join. A BAR_RELEASE gives the
device the epoch it carries and ends that barrier; a BAR_JOIN records the child; a COLL message of a collective that
is not open yet is kept. (R156, R368, R369, R370) -/
def Obligations.BarriersRelease : Prop :=
  (∀ (s : State) (c p : Nat) (st : Start), s.pick c = some st → st.op = 0x61 → s.partOfCore c = some p → barScope st.ord = 0 →
    (∀ j ∈ (s.part p).joins, ¬ (j.1 = 0 ∧ j.2.1 = ordF st.ord 4 13 8)) →
    let e := BitVec.ofNat 64 (if s.fab.isMember then s.fab.epoch else 0)
    ((s.part p).cores.filter (fun d => s.coreActive d) = [c] →
      ∃ t, exec (.barrierJoin c) s = .next t ∧ DoneNow s t c 0
        ∧ (∀ r, t.sreg c r = if bit (ordW st.ord 4) 22 ∧ r % 64 = ordF st.ord 4 21 16 % 64 then e else s.sreg c r)
        ∧ (t.core c).ctrs = (s.core c).ctrs ∧ (t.core c).stock = (s.core c).stock
        ∧ (t.part p).joins = (s.part p).joins ∧ CoresKept s t [c] ∧ PartsKept s t [p]
        ∧ Kept { regs := true, cores := true, parts := true } s t)
    ∧ (∀ d ∈ (s.part p).cores, d ≠ c → s.coreActive d = true →
      ∃ t, exec (.barrierJoin c) s = .next t ∧ HeldNow s t c
        ∧ (t.part p).joins = (s.part p).joins ++ [(0, ordF st.ord 4 13 8, [(c, (s.core c).freshId)])]
        ∧ (t.core c).sregs = (s.core c).sregs ∧ CoresKept s t [c] ∧ PartsKept s t [p]
        ∧ Kept { regs := true, cores := true, parts := true } s t))
  ∧ (∀ (s : State) (m : FMsg), Accepts s m → bits m.info 7 6 = 1 → s.barChildren = [] →
      (∀ b ∈ s.fab.bars, b.id = bits m.info 5 0 → b.scope = 1 → b.waiting = []) →
      ∃ t, exec (.barRelease m) s = .next t ∧ t.fab.epoch = leNat (m.data.take 8)
        ∧ t.fab.bars = s.fab.bars.filter (fun x => !(decide (x.id = bits m.info 5 0) && decide (x.scope = 1)))
        ∧ Kept { fab := true } s t)
  ∧ (∀ (s : State) (m : FMsg), Accepts s m → (s.bar (bits m.info 5 0) (bits m.info 7 6)).self = false →
      ∃ t, exec (.barJoin m) s = .next t ∧ m.srcDev ∈ (t.bar (bits m.info 5 0) (bits m.info 7 6)).children
        ∧ (∀ id scope, (id, scope) ≠ (bits m.info 5 0, bits m.info 7 6) → t.bar id scope = s.bar id scope)
        ∧ t.fab.epoch = s.fab.epoch ∧ Kept { fab := true } s t)
  ∧ (∀ (s : State) (m : FMsg), Accepts s m → (∀ r ∈ s.fab.colls, r.scope = 1 → r.id ≠ bits m.info 5 0) →
      ∃ t, exec (.coll m) s = .next t ∧ t.fab.early = s.fab.early ++ [m] ∧ t.fab.colls = s.fab.colls ∧ Kept { fab := true } s t)

/-- ATTEND over one new token of a stream at position 0 completes with OK, or CLAMPED where the entry was clamped: its
output row is the attention row of the query over the new key and value, the list entry's status becomes the same,
ATT_ORDERS counts one, and every other stockroom byte, S register and counter is unchanged. ATTEND_BACKWARD of such an
entry, with no earlier ATTEND_BACKWARD of the core still to end, completes, writes only its gradient rows and the
status, and counts its rows. (R230, R233, R235, R237, R253) -/
def Obligations.AttentionOverNewTokens : Prop :=
  (∀ (s : State) (c p : Nat) (st : Start) (e : AttEnt), s.pick c = some st → st.op = 0x20 →
    let f := s.attFields c false false st.ord
    SoleEntry s c p f false e → e.pos = 0 → s.attEntSt c f e = .ready → f.stats = false → f.outFmt = 0 → e.nNew = 1 → f.geo.g = 1 →
    let oa := e.w.getD 4 0 % 2097152
    let kv := newKV f e (s.core c).stock (e.w.getD 3 0 % 2097152)
    let row := outRowFp32 (attRow f ((queryRows f e (s.core c).stock).getD 0 []) 0 kv).1
    (∀ i < 4 * f.geo.d, ∀ j < 4, (oa + i) % 2097152 ≠ (f.list + 4 + j) % 2097152) →
    let k := if e.clamped then 1 else 0
    ∃ t, exec (.attend c) s = .next t ∧ DoneNow s t c k
      ∧ (∀ i < 4 * f.geo.d, memByte (t.core c).stock ((oa + i) % 2097152) = row.getD i 0)
      ∧ stockAt t c (f.list + 4) 4 = leBytes 4 (setBits (e.w.getD 1 0) 31 28 k)
      ∧ StockKeptOutside s t c [(oa, 4 * f.geo.d), (f.list + 4, 4)]
      ∧ t.reg pgAtt c 0 rAttOrders = s.reg pgAtt c 0 rAttOrders + 1
      ∧ (t.core c).sregs = (s.core c).sregs ∧ (t.core c).ctrs = (s.core c).ctrs ∧ (t.core c).jobs = (s.core c).jobs
      ∧ CoresKept s t [c] ∧ Kept { regs := true, cores := true } s t)
  ∧ (∀ (s : State) (c p : Nat) (st : Start) (e : AttEnt), s.pick c = some st → st.op = 0x21 →
    let f := s.attFields c true false st.ord
    SoleEntry s c p f false e → e.pos = 0 → s.attEntSt c f e = .ready → s.placeReady (.vault c 0) 1 true = true →
    (∀ g ∈ (s.core c).flights, g.op = 0x21 → g.done = true) →
    ∃ t, exec (.attendBackward c) s = .next t ∧ DoneNow s t c (if e.clamped then 1 else 0)
      ∧ StockKeptOutside s t c [(e.w.getD 7 0, 4 * (e.nNew * f.geo.g) * f.geo.d), (f.list + 4, 4)]
      ∧ t.reg pgAtt c 0 rAttBwdRows = s.reg pgAtt c 0 rAttBwdRows + BitVec.ofNat 64 (e.nNew * f.geo.g)
      ∧ (t.core c).sregs = (s.core c).sregs ∧ (t.core c).ctrs = (s.core c).ctrs ∧ (t.core c).jobs = (s.core c).jobs
      ∧ CoresKept s t [c] ∧ Kept { regs := true, cores := true } s t)

/-- A selection over an entry with pages on this core appends one bank program with one item a block to the vault's queue
and counts ATT_SEL_ITEMS. KV_APPEND of a new page entry that is near, of a stream that is not being recomputed and a
partition with no regulator in force, appends one idempotent bank program for the order to the vault that holds the
page, and the order is held. Other vaults, the stockroom, S registers and counters are unchanged. (R236, R237, R239,
R245, R246) -/
def Obligations.SelectionAndAppendQueuePrograms : Prop :=
  (∀ (s : State) (c v : Nat) (fl : Flight) (j : UnitJob) (e : AttEnt),
    (s.core c).flights.find? (fun f => f.op = 0x20 && !f.done) = some fl → s.job c fl.id = some j → j.todo = [] →
    (s.core c).stockBad = [] → s.vaultOf c = some v →
    let f := s.attFields c false false fl.ord
    let m := (s.core c).stock
    (((attEnts f false m).filter (fun e => s.attEntSt c f e = .ready)).filter f.selects)[j.phase]? = some e →
    let items := (((s.ledgView c).selItems f e).mapIdx (fun i x => (i, x))).filterMap (fun x =>
      if x.2.1 = c then some (x.1, x.2.2.1, x.2.2.2.1, 0) else none)
    items ≠ [] →
    ∃ t, exec (.selectionProgram c v) s = .next t
      ∧ (t.vault v).progs = (s.vault v).progs ++ [selProgram c fl.id fl.q f (selQuery f (queryRows f e m)) items]
      ∧ t.reg pgAtt c 0 rAttSelItems = s.reg pgAtt c 0 rAttSelItems + BitVec.ofNat 64 items.length
      ∧ (t.core c).flights = (s.core c).flights ∧ (t.core c).stock = m ∧ VaultsKept s t [v] ∧ CoresKept s t [c]
      ∧ Kept { regs := true, cores := true, vaults := true } s t)
  ∧ (∀ (s : State) (c p i q v : Nat) (st : Start) (e : AttEnt), s.pick c = some st → st.op = 0x30 →
    let f := s.attFields c false true st.ord
    SoleEntry s c p f true e → Unregulated s p → s.kvSt c f e = .ready → s.inRecompute e.stream = false → e.nKeep ≥ 1 → s.kvWrites f e = [q] →
    s.pageEntry e.stream e.gen f.slot q = some i → (s.ledg i).st = .near → s.vaultOf (s.ledg i).vault = some v →
    ∃ t g, exec (.kvAppend c) s = .next t ∧ (t.vault v).progs = (s.vault v).progs ++ [g] ∧ g.core = c
      ∧ g.flight = (s.core c).freshId ∧ g.src = .kvAppend ∧ g.idem = true ∧ g.items ≠ [] ∧ HeldNow s t c
      ∧ (t.core c).stock = (s.core c).stock ∧ (t.core c).sregs = (s.core c).sregs ∧ (t.core c).ctrs = (s.core c).ctrs
      ∧ VaultsKept s t [v] ∧ CoresKept s t [c] ∧ Kept { regs := true, cores := true, vaults := true } s t)

/-- MATCH, ATTACH and PEEK of one block whose first examined node is live, is its origin's and has the block's hash,
check, number and parent: the 64 B result names one match, the node, its stream and its hints; the node's last use
becomes the partition's step count; LOOKUPS and HIT_BLOCKS count one; ATTACH gives the stream one book block and
position 64. INSERT of a block with no live node in its eight places writes its node at the first place and counts
BOOK_INSERTS. (R248, R249, R250, R251) -/
def Obligations.BookFindsAndInsertsBlocks : Prop :=
  (∀ (s : State) (c p a o : Nat) (st : Start) (mode : Nat) (cmd : Instr), (mode, cmd) ∈ [(0, .bookMatch c), (1, .bookAttach c), (3, .bookPeek c)] →
    OneBlock s c p st mode a o → (let n := (bookFields st.ord).n; 64 < n ∧ n ≤ 128) →
    let f := bookFields st.ord
    let h := blockHash s st a o
    let x := firstSpot h.1
    SpotMatches s h → (mode = 1 → ∀ slot, s.slotEntries (s.node x).stream (s.node x).gen slot = []) →
    ∃ t, exec cmd s = .next t ∧ DoneNow s t c 0 ∧ stockAt t c f.result 64 = hitResult x (s.node x)
      ∧ t.node x = { s.node x with lastUse := (s.part p).steps % 4294967296 } ∧ (∀ y, y ≠ x → t.node y = s.node y)
      ∧ StockKeptOutside s t c [(f.result, 64)]
      ∧ t.reg pgBook (coreHalf c) 0 rBookLookups = s.reg pgBook (coreHalf c) 0 rBookLookups + 1
      ∧ t.reg pgBook (coreHalf c) 0 rBookHitBlocks = s.reg pgBook (coreHalf c) 0 rBookHitBlocks + 1
      ∧ (mode = 1 → (t.stream f.stream).bookM = 1 ∧ (t.stream f.stream).pos = 64)
      ∧ (∀ y, (mode = 1 → y ≠ f.stream) → t.stream y = s.stream y)
      ∧ CoresKept s t [c] ∧ Kept { regs := true, cores := true, book := true, roll := true } s t)
  ∧ (∀ (s : State) (c p a o : Nat) (st : Start), OneBlock s c p st 2 a o → (let n := (bookFields st.ord).n; 64 ≤ n ∧ n < 128) →
    let f := bookFields st.ord
    let h := blockHash s st a o
    (∀ x ∈ bookSpots h.1, (s.node x).live = false) →
    ∃ t, exec (.bookInsert c) s = .next t ∧ DoneNow s t c 0
      ∧ t.node (firstSpot h.1) = firstNode h f.stream f.gen ((s.part p).steps % 4294967296)
      ∧ (∀ y, y ≠ firstSpot h.1 → t.node y = s.node y)
      ∧ t.reg pgBook (coreHalf c) 0 rBookInserts = s.reg pgBook (coreHalf c) 0 rBookInserts + 1
      ∧ stockAt t c f.result 4 = leBytes 4 0 ∧ StockKeptOutside s t c [(f.result, 64)]
      ∧ CoresKept s t [c] ∧ Kept { regs := true, cores := true, book := true, free := true } s t)

/-- SAMPLE of one row of a stream at temperature 0 completes with OK: it writes the argmax and status 0 in its result,
records that token for the stream and its step entry, and changes no other stream or stockroom byte. GAMBIT_VERIFY
with no gambits at temperature 0 writes one token, the argmax, likewise. (R282, R283, R286) -/
def Obligations.GreedySamplingTakesTheArgmax : Prop :=
  (∀ (s : State) (c mism : Nat) (st : Start), s.pick c = some st → st.op = 0x38 →
    let f := sampFields st.ord
    let e := sampEnt (stockAt s c f.list 16)
    let l := stockFp32 s c f.logit f.v
    f.n = 1 → f.draft = false → (s.core c).stockBad = [] → s.abs.fence = none → s.sampOk c e = true → f32IsZero (s.stream e.stream).temp = true →
    ∃ t, exec (.sample c mism) s = .next t ∧ DoneNow s t c 0
      ∧ stockAt t c f.out 4 = leBytes 4 (argmaxOf l) ∧ stockAt t c (f.out + 12) 4 = leBytes 4 0
      ∧ StockKeptOutside s t c [(f.out, 16)]
      ∧ (t.stream e.stream).lastTok = argmaxOf l ∧ (∀ y, y ≠ e.stream → t.stream y = s.stream y)
      ∧ (t.part (s.stream e.stream).part).set = (s.part (s.stream e.stream).part).set.map
          (fun x => if x.stream = e.stream then { x with tokens := [(argmaxOf l, false)] } else x)
      ∧ PartsKept s t [(s.stream e.stream).part] ∧ CoresKept s t [c]
      ∧ Kept { regs := true, cores := true, parts := true, roll := true, free := true } s t)
  ∧ (∀ (s : State) (c mism : Nat) (st : Start), s.pick c = some st → st.op = 0x39 →
    let f := sampFields st.ord
    let e := sampEnt (stockAt s c f.list 16)
    let l := stockFp32 s c f.logit f.v
    f.n = 1 → e.gambits = 0 → (s.core c).stockBad = [] → s.abs.fence = none → s.sampOk c e = true →
    f32IsZero (s.stream e.stream).temp = true →
    ∃ t, exec (.gambitVerify c mism) s = .next t ∧ DoneNow s t c 0
      ∧ stockAt t c f.out 8 = leBytes 4 16 ++ leBytes 4 (argmaxOf l) ∧ StockKeptOutside s t c [(f.out, 8)]
      ∧ (t.stream e.stream).lastTok = argmaxOf l ∧ (∀ y, y ≠ e.stream → t.stream y = s.stream y)
      ∧ PartsKept s t [(s.stream e.stream).part] ∧ CoresKept s t [c]
      ∧ Kept { regs := true, cores := true, parts := true, roll := true, free := true } s t)

/-- DISPATCH of one row with one local expert on another core of the partition writes the row's bytes and inbox header
there, raises that core's counter and PORT_ROWS by one, and is done. COLLECT's return writes the row at its return
place in the sending core and raises its counter. COLLECT's gather of one returned part writes, for each element, gate
× part in FP32, and nothing else. (R287, R288, R289, R290, R291) -/
def Obligations.PorterDeliversAndReturnsRows : Prop :=
  (∀ (s : State) (c p d ml mo q : Nat) (st : Start) (line : List Byte), s.pick c = some st → st.op = 0x40 → s.partOfCore c = some p →
    let f := dispFields st.ord
    let e := expertOf ((line.drop (mo % 64)).take 16)
    f.n = 1 → f.ne = 1 → f.cap ≥ 1 → locOf c f.map = .vault ml mo → (s.part p).cores.contains ml = true → (s.part p).cores.Nodup →
    s.vaultOf ml = some q → (s.vault q).mode = .memory → (s.vault q).wq.find? (fun x => x.1 = mo / 64) = some (mo / 64, line) →
    line.length = 64 → mo % 64 + 16 ≤ 64 → mo < 1073741824 → s.abs.migs = [] → s.abs.fence = none →
    e.loc = 0 → e.team = (d, 1) → d < 256 → d ≠ c → (s.part p).cores.contains d = true →
    (s.core c).stockBad = [] → (∀ z, ∀ g ∈ (s.core z).flights, g.op ≠ 0x40) →
    ((s.part p).set.map (fun x => x.rows)).foldl (· + ·) 0 ≤ 1 → Unregulated s p →
    ∃ t, exec (.dispatch c) s = .next t ∧ DoneNow s t c 0
      ∧ stockAt t d f.inbox 12 = leBytes 4 1 ++ leBytes 4 0 ++ leBytes 4 0
      ∧ stockAt t d (f.inbox + 64) f.bytes = stockAt s c f.x f.bytes
      ∧ smGet [] (t.core d).inbox f.inbox = [⟨c, 0, 0, 0, 1⟩]
      ∧ t.ctr d f.ctr = s.ctr d f.ctr + 1
      ∧ t.reg pgPort 0 p rPortRows = s.reg pgPort 0 p rPortRows + 1
      ∧ CoresKept s t (c :: d :: teamCores e.stand) ∧ Kept { regs := true, cores := true, free := true } s t)
  ∧ (∀ (s : State) (c p : Nat) (r : InboxRow) (st : Start), s.pick c = some st → st.op = 0x41 → s.partOfCore c = some p →
    bit (ordW st.ord 4) 0 = false →
    let f := collFields st.ord
    let k := r.row * f.k + r.slot
    smGet [] (s.core c).inbox f.addr = [r] → r.u = 1 → r.j = 0 → f.seg = 1 → (s.core c).stockBad = [] → s.abs.fence = none → r.core ≠ c → Unregulated s p →
    ∃ t, exec (.collectReturn c) s = .next t ∧ DoneNow s t c 0
      ∧ stockAt t r.core (f.ret + k * 4 * f.d) (4 * f.d) = stockAt s c f.data (4 * f.d)
      ∧ (f.ret, k) ∈ (t.core r.core).retIn ∧ t.ctr r.core f.ctr = s.ctr r.core f.ctr + 1
      ∧ StockKeptOutside s t r.core [(f.ret + k * 4 * f.d, 4 * f.d)]
      ∧ CoresKept s t [c, r.core] ∧ Kept { regs := true, cores := true } s t)
  ∧ (∀ (s : State) (c : Nat) (st : Start), s.pick c = some st → st.op = 0x41 → bit (ordW st.ord 4) 0 = true →
    let f := collFields st.ord
    f.n = 1 → f.k = 1 → f.seg = 1 → (f.ret, 0) ∈ (s.core c).retIn → (s.core c).stockBad = [] →
    let gate := BitVec.ofNat 32 (leNat (stockAt s c (f.addr + 4) 4))
    ∃ t, exec (.collectGather c) s = .next t ∧ DoneNow s t c 0
      ∧ (∀ i < f.d, stockAt t c (f.data + 4 * i) 4 =
          leBytes 4 (f32Mul gate (BitVec.ofNat 32 (leNat (stockAt s c (f.ret + 4 * i) 4)))).toNat)
      ∧ StockKeptOutside s t c [(f.data, 4 * f.d)] ∧ CoresKept s t [c] ∧ Kept { regs := true, cores := true } s t)

/-- BANK_PROGRAM joins its vault's queue and holds its order. With the vault in MEMORY, unpaused and powered, the front
program starts and the vault enters BANK_COMPUTE with its write queue drained. A ready bank takes an item with its
row, argument and cleared registers. A step's end counts BANK_STEPS, turns the rotation by 17, and leads to RESEALING,
MEMORY or the next step as the change list and the items left say. A pause, EN_PASSANT for a waiting guest, RESEALING
(which re-encodes the flagged lines of the changed pairs, sets error bit 2 where an error of the list is corrected,
and loses the list where it cannot be) and a flag scan (which finds every flag again) end as their rules say. (R209,
R210, R211, R212, R213, R215, R217, R218, R220, R223) -/
def Obligations.BankProgramsStartAndEnd : Prop :=
  ((∀ (s : State) (c p v : Nat) (st : Start), s.pick c = some st → st.op = 0x28 → s.vaultOf c = some v → s.partOfCore c = some p →
      (s.part p).cores.contains (stockOf c (emitAddr st.ord).1).1 = true →
      ∃ t g, exec (.bankProgram c) s = .next t ∧ (t.vault v).progs = (s.vault v).progs ++ [g] ∧ g.core = c
        ∧ g.flight = (s.core c).freshId ∧ g.queue = st.q ∧ g.src = .order ∧ HeldAtStart s { t with vaults := s.vaults } c st 0
        ∧ VaultsKept s t [v])
    ∧ (∀ (s : State) (v : Nat) (g : BankProg) (rest : List BankProg), (s.vault v).run = none → (s.vault v).paused = false →
      (s.vault v).progs = g :: rest → (∀ m ∈ s.abs.migs, m.old ≠ v ∧ m.new ≠ v) → (s.vault v).mode = .memory → (s.vault v).grant ≠ 0 →
      g.again = false → (s.vault v).mb = [] → (s.core g.core).stockBad = [] → (s.vault v).filling = [] →
      (∀ i ∈ g.items, (s.vault v).busyAt (segOf i.2.2.1 i.2.1 / 2) = false) →
      ∃ t g', exec (.bankProgramStart v) s = .next t ∧ (t.vault v).mode = .bankCompute ∧ (t.vault v).progs = rest
        ∧ (t.vault v).run = some ⟨g', g'.items, [], 0, false, false⟩ ∧ g'.core = g.core ∧ g'.flight = g.flight ∧ g'.src = g.src
        ∧ (g.src ≠ .order → g' = g) ∧ (t.vault v).wq = []
        ∧ t.reg pgBank v 0 rBankPrograms = s.reg pgBank v 0 rBankPrograms + 1 ∧ VaultsKept s t [v])
    ∧ (∀ (s : State) (v b : Nat) (r : BankRun) (it : Nat × Nat × Nat × Nat), (s.vault v).run = some r → r.nextItem b = some it →
      (s.vault v).mode = .bankCompute → (s.vault v).paused = false → r.stopped = false → (s.vault v).guests = [] →
      (s.vault v).change.length + 16 * (r.units.length + 1) ≤ 2048 → s.abs.migs = [] → s.snap = none → r.prog.src ≠ .kvAppend →
      ((r.readyBanks (s.vault v).rot).take (s.tokenLimit v r.prog - r.units.length)).contains b = true →
      ∃ t u, exec (.bankItem v b) s = .next t
        ∧ OnlyRun s t v { r with left := r.left.erase it, units := r.units ++ [u], stepOver := false }
        ∧ u.bank = b ∧ u.item = it.1 ∧ u.row = it.2.2.1 ∧ u.arg = it.2.2.2 ∧ u.pc = 0 ∧ u.w = [0, 0, 0, 0] ∧ u.a = [0, 0, 0, 0, 0, 0, 0, 0]
        ∧ u.emitted = 0 ∧ Kept { vaults := true } s t))
  ∧ ((∀ (s : State) (v : Nat) (r : BankRun), (s.vault v).run = some r → (s.vault v).mode = .bankCompute → r.units = [] → r.stopped = false →
      (Quiet s v → ∃ t, exec (.bankStepEnd v) s = .next t ∧ t.reg pgBank v 0 rBankSteps = s.reg pgBank v 0 rBankSteps + 1
        ∧ (t.vault v).rot = ((s.vault v).rot + 17) % 128 ∧ VaultsKept s t [v]
        ∧ ((s.vault v).change ≠ [] → (t.vault v).mode = .resealing ∧ (t.vault v).run = some { r with stepOver := true })
        ∧ ((s.vault v).change = [] → (s.vault v).changeLost = false → r.left = [] → (t.vault v).mode = .memory ∧ (t.vault v).run = none)
        ∧ ((s.vault v).change = [] → (s.vault v).changeLost = false → r.left ≠ [] → (s.vault v).paused = false →
            (t.vault v).mode = .bankCompute ∧ (t.vault v).run = some { r with stepOver := true }))
      ∧ (Quiet s v → ∃ t, exec (.bankPause v) s = .next t ∧ (t.vault v).paused = true
        ∧ t.reg pgBank v 0 rBankSteps = s.reg pgBank v 0 rBankSteps + 1
        ∧ ((s.vault v).change = [] → (s.vault v).changeLost = false → r.left ≠ [] → (t.vault v).mode = .memory ∧ (t.vault v).run = some r))
      ∧ (∀ addr d, r.stepOver = true → (s.vault v).guests = [.line addr] → (s.vault v).held = [] → (s.vault v).clears = [] →
          (s.vault v).mb = [] → (s.vault v).filling = [] → (s.vault v).busyAt (addr / 4096) = false →
          (s.vault v).wq.find? (fun e => e.1 = addr / 64) = some (addr / 64, d) →
          ∃ t, exec (.enPassant v) s = .next t ∧ .line v addr (some d) ∈ t.sent ∧ (t.vault v).guests = [] ∧ (t.vault v).wq = []
            ∧ (t.vault v).mode = .bankCompute ∧ (t.vault v).run = some { r with stepOver := false }
            ∧ t.reg pgBank v 0 rBankIntervals = s.reg pgBank v 0 rBankIntervals + 1
            ∧ t.reg pgVlt v 0 rVltGuestLines = s.reg pgVlt v 0 rVltGuestLines + 1 ∧ VaultsKept s t [v]))
    ∧ (∀ (s : State) (v : Nat) (r : BankRun), (s.vault v).run = some r → (s.vault v).mode = .resealing → r.stopped = false → r.left ≠ [] →
      (s.vault v).paused = false →
      ((s.vault v).changeLost = false → ∃ t, exec (.reseal v 0) s = .next t ∧ (t.vault v).mode = .bankCompute ∧ (t.vault v).change = []
        ∧ (∀ l, l ∈ (t.vault v).flags ↔ l ∈ (s.vault v).flags ∧ l / 2 ∉ (s.vault v).change)
        ∧ ((s.vault v).remap = [] → ∀ l ∈ (s.vault v).flags, l / 2 ∈ (s.vault v).change →
            (t.vault v).stored l = (lineEncode (((s.vault v).stored l).take 64)).take 72)
        ∧ t.reg pgBank v 0 rBankResealPairs = s.reg pgBank v 0 rBankResealPairs + BitVec.ofNat 64 (s.vault v).change.length
        ∧ VaultsKept s t [v] ∧ Kept { vaults := true, regs := true } s t)
      ∧ ((s.vault v).changeLost = false → ∃ t, exec (.reseal v 1) s = .next t ∧ t.fld pgBank v 0 hErr 2 2 = 1
        ∧ (t.vault v).mode = .bankCompute ∧ (t.vault v).change = [] ∧ VaultsKept s t [v] ∧ Kept { vaults := true, regs := true } s t)
      ∧ ((s.vault v).changeLost = false → ∃ t, exec (.reseal v 2) s = .next t ∧ t.vault v = { (s.vault v) with changeLost := true }
        ∧ VaultsKept s t [v] ∧ Kept { vaults := true } s t)
      ∧ (∃ t, exec (.flagScan v) s = .next t ∧ (t.vault v).mode = .bankCompute ∧ (t.vault v).change = [] ∧ (t.vault v).flags = []
        ∧ (t.vault v).changeLost = false ∧ t.fld pgBank v 0 hErr 3 3 = 1 ∧ VaultsKept s t [v]
        ∧ Kept { vaults := true, regs := true } s t)))

/-- For a bank unit at each of NOP, MOV, ADD, MAX, CMPGE, DOT, DOTMAX, COPY, EMITA and CLRA with count 1, before its
program's last instruction: the command answers a next state with exactly that instruction's result in the
accumulator, working register, chunk or emitted word; a chunk that is written marks its line flagged and its pair
changed; no other unit, vault or core changes. (R203, R204, R205, R206, R207, R208) -/
def Obligations.BankInstructionsGiveTheirResults : Prop :=
  ∀ (s : State) (v b i : Nat) (r : BankRun) (u : BankUnit), UnitAt s v b r u i →
    let seg := segOf u.row b
    let a := (s.vault v).chunk (segOf u.row u.bank) (chunkIdx u i)
    let x := bOperand r.prog u i 0 a
    let acc := u.a.getD (bAcc i) 0
    u.bank = b →
    (bOp i = 0 → ∃ t, exec (.bankNop v b) s = .next t ∧ OnlyRun s t v (unitNow r b { u with pc := u.pc + 1 }) ∧ Kept { vaults := true } s t)
    ∧ (bOp i = 9 → ∃ t, exec (.bankClra v b) s = .next t ∧ Kept { vaults := true } s t
        ∧ OnlyRun s t v (unitNow r b { u with pc := u.pc + 1, a := u.a.set (bAcc i) (BitVec.ofNat 32 (bImm i)) }))
    ∧ (bOp i = 8 → u.emitted + 4 ≤ r.prog.emitStride → ∃ t, exec (.bankEmita v b) s = .next t
        ∧ OnlyRun s t v (unitNow r b { u with pc := u.pc + 1, emitted := u.emitted + 4 })
        ∧ stockAt t r.prog.emitCore (r.prog.emitOff + u.item * r.prog.emitStride + u.emitted) 4 = leBytes 4 acc.toNat
        ∧ StockKeptOutside s t r.prog.emitCore [(r.prog.emitOff + u.item * r.prog.emitStride + u.emitted, 4)]
        ∧ t.reg pgBank v 0 rBankEmitBytes = s.reg pgBank v 0 rBankEmitBytes + 4
        ∧ CoresKept s t [r.prog.emitCore] ∧ Kept { vaults := true, cores := true, regs := true } s t)
    ∧ (bCount i = 1 → bOp i = 5 → ∃ t, exec (.bankDot v b) s = .next t ∧ Kept { vaults := true } s t
        ∧ OnlyRun s t v (unitNow r b { u with pc := u.pc + 1, a := u.a.set (bAcc i) (acc + BitVec.ofInt 32 (laneDot (bWidth i) a x)) }))
    ∧ (bCount i = 1 → bOp i = 6 → ∃ t d, exec (.bankDotmax v b) s = .next t ∧ Kept { vaults := true } s t
        ∧ OnlyRun s t v (unitNow r b { u with pc := u.pc + 1, a := u.a.set (bAcc i) d })
        ∧ d.toInt = max acc.toInt (BitVec.ofInt 32 (laneDot (bWidth i) a (leNat (r.prog.q.take 32)))).toInt)
    ∧ (bCount i = 1 → bOp i = 7 → ∃ t, exec (.bankCopy v b) s = .next t ∧ Kept { vaults := true } s t
        ∧ (t.vault v).chunk seg ((chunkIdx u i + bImm i) % 64) = a
        ∧ (t.vault v).flags.contains (seg * 32 + (chunkIdx u i + bImm i) % 64 / 2) = true
        ∧ (t.vault v).change.contains ((seg * 32 + (chunkIdx u i + bImm i) % 64 / 2) / 2) = true
        ∧ (t.vault v).run = some (unitNow r b { u with pc := u.pc + 1 }) ∧ VaultsKept s t [v])
    ∧ (∀ row ∈ laneCmds v b, bCount i = 1 → bOp i = row.2 →
        (bDst i = 0 → ∃ t, exec row.1 s = .next t ∧ Kept { vaults := true } s t
          ∧ LanesAre row.2 i a x ((t.vault v).chunk seg (chunkIdx u i))
          ∧ (t.vault v).flags.contains (seg * 32 + chunkIdx u i / 2) = true
          ∧ (t.vault v).change.contains ((seg * 32 + chunkIdx u i / 2) / 2) = true
          ∧ (t.vault v).run = some (unitNow r b { u with pc := u.pc + 1 }) ∧ VaultsKept s t [v])
        ∧ (2 ≤ bDst i → bDst i ≤ 5 → ∃ t y, exec row.1 s = .next t ∧ LanesAre row.2 i a x y ∧ Kept { vaults := true } s t
          ∧ OnlyRun s t v (unitNow r b { u with pc := u.pc + 1, w := u.w.set (bDst i - 2) y })))

/-- A clean-up during bank compute of a line that an item in progress reads writes the corrected line back and counts;
such a line that is lost, with no request waiting at the vault, ends the program, counts, returns the vault to MEMORY
with an empty change list, and an idempotent program whose data can be restored waits to run again. A watchman's
takeover puts every vault of the half in retention with its units' items returned and its data kept, a hand-back with
no request waiting returns each to MEMORY or RESEALING, and a band change follows the stack temperature. (R221, R222,
R224, R225, R313) -/
def Obligations.BankErrorsAndTheWatchman : Prop :=
  (∀ (s : State) (v l : Nat) (noise : BitVec 576) (r : BankRun), (s.vault v).run = some r → (s.vault v).mode = .bankCompute →
      (s.vault v).flags.contains l = false → r.readsLine l = true →
      (∀ d k, lineDecode (noisy ((s.vault v).stored l) noise) = .fixed d k →
        ∃ t, exec (.bankEccPause v l noise) s = .next t ∧ (t.vault v).stored l = (lineEncode d).take 72
          ∧ (t.vault v).run = some r ∧ (t.vault v).mode = .bankCompute
          ∧ t.reg pgBank v 0 rBankEccPause = s.reg pgBank v 0 rBankEccPause + 1
          ∧ t.reg pgVlt v 0 rVltCeLines = s.reg pgVlt v 0 rVltCeLines + 1
          ∧ t.reg pgVlt v 0 rVltCeSymbols = s.reg pgVlt v 0 rVltCeSymbols + BitVec.ofNat 64 k ∧ VaultsKept s t [v])
      ∧ (lineDecode (noisy ((s.vault v).stored l) noise) = .lost → Quiet s v →
        ∃ t, exec (.bankUe v l noise) s = .next t ∧ (t.vault v).run = none ∧ (t.vault v).mode = .memory
          ∧ (t.vault v).change = [] ∧ (t.vault v).rot = ((s.vault v).rot + 17) % 128
          ∧ t.reg pgBank v 0 rBankSteps = s.reg pgBank v 0 rBankSteps + 1
          ∧ t.reg pgVlt v 0 rVltUeLines = s.reg pgVlt v 0 rVltUeLines + 1
          ∧ (r.prog.idem = true → s.lineClass v l ∈ [1, 2] →
              (t.vault v).progs = { r.prog with again := true } :: (s.vault v).progs)))
  ∧ (∀ (s : State) (half : Nat), half < 2 →
      (∃ t, exec (.watchmanTakeover half) s = .next t
        ∧ (∀ p ∈ halfVaults half, (s.vault p).watchman = none → (t.vault p).mode = .retention
            ∧ (t.vault p).watchman = some (nextBand (s.vault p).band (s.stackTop half))
            ∧ t.reg pgBank p 0 rBankWatchman = s.reg pgBank p 0 rBankWatchman + 1
            ∧ (∀ r, (t.vault p).run = some r → r.units = [])
            ∧ (t.vault p).arr = (s.vault p).arr ∧ (t.vault p).valid = (s.vault p).valid ∧ (t.vault p).wq = (s.vault p).wq)
        ∧ VaultsKept s t (halfVaults half) ∧ Kept { vaults := true, regs := true } s t)
      ∧ ((∀ p ∈ halfVaults half, Quiet s p ∧ ∀ r, (s.vault p).run = some r → r.stopped = false) →
        ∃ t, exec (.watchmanHandback half) s = .next t
        ∧ (∀ p ∈ halfVaults half, (s.vault p).watchman ≠ none →
            let m : VMode := if (s.vault p).change ≠ [] ∨ (s.vault p).changeLost = true then .resealing else .memory
            t.vault p = { (s.vault p) with watchman := none, mode := m })
        ∧ VaultsKept s t (halfVaults half) ∧ Kept { vaults := true } s t)
      ∧ (∃ t, exec (.watchmanBandSelect half) s = .next t
        ∧ (∀ p ∈ halfVaults half, ∀ b, (s.vault p).watchman = some b →
            t.vault p = { (s.vault p) with watchman := some (nextBand b (s.stackTop half)) })
        ∧ VaultsKept s t (halfVaults half) ∧ Kept { vaults := true } s t))

/-- A read of a line in one of a vault's 262,144 granules whose valid bit is clear, with no write to it waiting, returns
64 zero bytes whatever error pattern the cells have, counts in VLT_ZERO_READ and not in VLT_RD_LINES, and changes no
vault. (R188) -/
def Obligations.UnwrittenGranulesReadZero : Prop :=
  ∀ (s : State) (v addr : Nat) (noise : BitVec 576), Open s v addr → (s.vault v).isValid (addr / 4096) = false →
    (s.vault v).wq.find? (fun e => e.1 = addr / 64) = none → (s.vault v).mb = [] → NoTableLost s v →
    ∃ t, exec (.vaultRead v addr noise 0) s = .next t ∧ t.sent = .line v addr (some (List.replicate 64 0)) :: s.sent
      ∧ t.reg pgVlt v 0 rVltZeroRead = s.reg pgVlt v 0 rVltZeroRead + 1 ∧ t.reg pgVlt v 0 rVltRdLines = s.reg pgVlt v 0 rVltRdLines
      ∧ (∀ p, t.vault p = s.vault p) ∧ Kept { regs := true, vaults := true, sent := true } s t

/-- A read of a line with a queued write returns the queued data. With the queue below its high mark, a whole-line write
joins the write queue in place of an older one to the line; a narrow write to a line with no merge entry, and the 64
entries not all in use, joins the merge buffer with exactly its bytes. A drain of one queued line stores its codeword
and counts the turnarounds. An evicted merge entry becomes a queued line of its bytes over the stored ones.
Materialising a granule sets its valid bit and leaves codewords of zeros. (R178, R179, R183, R185, R189, R190) -/
def Obligations.VaultWritesReachTheArray : Prop :=
  ((∀ (s : State) (v addr : Nat) (d : List Byte) (noise : BitVec 576), Open s v addr →
      (s.vault v).wq.find? (fun e => e.1 = addr / 64) = some (addr / 64, d) → (∀ e ∈ (s.vault v).mb, e.line ≠ addr / 64) →
      NoTableLost s v →
      ∃ t, exec (.vaultRead v addr noise 0) s = .next t ∧ t.sent = .line v addr (some d) :: s.sent
        ∧ t.reg pgVlt v 0 rVltGuestLines = s.reg pgVlt v 0 rVltGuestLines + 1
        ∧ (∀ p, t.vault p = s.vault p) ∧ Kept { regs := true, vaults := true, sent := true } s t)
    ∧ (∀ (s : State) (v addr : Nat) (bs : List Byte), Open s v addr → (s.vault v).role = .logical → s.vaultOf (s.vault v).logical = some v →
      s.abs.migs = [] → s.snap = none → (s.vault v).isValid (addr / 4096) = true →
      (s.vault v).wq.length + 1 < s.fld pgVlt v 0 rVltCfg 6 0 →
      (bs.length = 64 → addr % 64 = 0 → ∃ t, exec (.vaultWrite v addr bs) s = .next t
        ∧ (t.vault v).wq = (s.vault v).wq.filter (fun e => e.1 != addr / 64) ++ [(addr / 64, bs)]
        ∧ (t.vault v).mb = (s.vault v).mb.filter (fun e => e.line != addr / 64) ∧ (t.vault v).arr = (s.vault v).arr
        ∧ (t.vault v).valid = (s.vault v).valid ∧ VaultsKept s t [v] ∧ Kept { regs := true, vaults := true } s t)
      ∧ (0 < bs.length → addr % 64 + bs.length ≤ 64 → bs.length ≠ 64 →
        (s.vault v).mb.find? (fun e => e.line = addr / 64) = none → (s.vault v).mb.length < 64 →
        ∃ t e, exec (.vaultWrite v addr bs) s = .next t ∧ (t.vault v).mb = (s.vault v).mb ++ [e] ∧ e.line = addr / 64 ∧ e.held = false
          ∧ (∀ k < 64, e.data.getD k none = if addr % 64 ≤ k ∧ k < addr % 64 + bs.length then some (bs.getD (k - addr % 64) 0) else none)
          ∧ (t.vault v).arr = (s.vault v).arr ∧ (t.vault v).wq = (s.vault v).wq ∧ VaultsKept s t [v]
          ∧ Kept { regs := true, vaults := true } s t)))
  ∧ (∀ (s : State) (v : Nat), (s.vault v).mode = .memory →
      (∀ l d, (s.vault v).wq = [(l, d)] → d.length = 64 → (s.vault v).filling = [] → (s.vault v).rewrites = [] → NoTableLost s v →
        ∃ t, exec (.writeDrain v 0) s = .next t ∧ (t.vault v).wq = []
        ∧ (t.vault v).stored l = (lineEncode d).take 72
        ∧ t.reg pgVlt v 0 rVltWrLines = s.reg pgVlt v 0 rVltWrLines + 1
        ∧ t.reg pgVlt v 0 rVltTurnaround = s.reg pgVlt v 0 rVltTurnaround + 2
        ∧ VaultsKept s t [v] ∧ Kept { regs := true, vaults := true } s t)
      ∧ (∀ l noise e d, (s.vault v).mb.find? (fun x => x.line = l) = some e → e.held = false → e.fresh = false → (s.vault v).isValid (l / 64) = true →
        NoTableLost s v → (s.vault v).wq.find? (fun y => y.1 = l) = none →
        (s.vault v).flags.contains l = false → lineDecode (noisy ((s.vault v).stored l) noise) = .clean d →
        (s.vault v).wq.length + 1 < s.fld pgVlt v 0 rVltCfg 6 0 →
        ∃ t, exec (.mergeEvict v l noise 0) s = .next t ∧ (t.vault v).mb = (s.vault v).mb.filter (fun x => x.line != l)
          ∧ (∃ x, (t.vault v).wq = (s.vault v).wq.filter (fun y => y.1 != l) ++ [(l, x)]
              ∧ ∀ k < 64, x.getD k 0 = match e.data.getD k none with | some b => b | none => d.getD k 0)
          ∧ t.reg pgVlt v 0 rVltRmw = s.reg pgVlt v 0 rVltRmw + 1 ∧ VaultsKept s t [v] ∧ Kept { regs := true, vaults := true } s t)
      ∧ (∀ g < 262144, (s.vault v).isValid g = false → ∃ t, exec (.granuleMaterialise v g) s = .next t
        ∧ (t.vault v).isValid g = true ∧ (t.vault v).filling = (s.vault v).filling
        ∧ ((s.vault v).remap = [] → ∀ l, l / 64 = g → (t.vault v).stored l = List.replicate 72 0)
        ∧ (∀ x, x ≠ g → (t.vault v).isValid x = (s.vault v).isValid x)
        ∧ t.reg pgVlt v 0 rVltZeroFill = s.reg pgVlt v 0 rVltZeroFill + 1 ∧ VaultsKept s t [v] ∧ Kept { regs := true, vaults := true } s t))

/-- A refresh command lowers its bank's debt, or postpones it while a program uses the bank or a request waits for it,
forced at a debt of 8. An interface recentre changes no vault; a bucket leaks by one; a parity error marks its words
of the remap table, and the reload takes them from the vault's copy and clears the marks; a clean patrol step advances
the pointer and counts. A verified rewrite stores its codeword. Row sparing moves a segment's lines to a spare row,
and counts. A golden copy restores the lost lines of its granule. A stockroom scrub advances its pointer, counts a
corrected word, or marks a double-bit word. (R193, R196, R319, R320, R321, R322, R323, R325, R329, R332, R333) -/
def Obligations.VaultsAreMaintained : Prop :=
  (∀ (s : State) (v : Nat),
      (∀ b, (s.vault v).mode ≠ .retention →
        let d := smGet 0 (s.vault v).debt b
        ((∀ r, (s.vault v).run = some r → ∀ u ∈ r.units, u.bank ≠ b) → (s.vault v).guests = [] → (s.vault v).held = [] → ∃ t, exec (.refreshCommand v b) s = .next t
          ∧ smGet 0 (t.vault v).debt b = d - 1 ∧ VaultsKept s t [v] ∧ Kept { vaults := true } s t)
        ∧ (∀ r u, (s.vault v).run = some r → u ∈ r.units → u.bank = b → ∃ t, exec (.refreshCommand v b) s = .next t
          ∧ smGet 0 (t.vault v).debt b = (if d ≥ 8 then d else d + 1)
          ∧ t.reg pgVlt v 0 rVltRefForced = s.reg pgVlt v 0 rVltRefForced + (if d ≥ 8 then 1 else 0)
          ∧ VaultsKept s t [v] ∧ Kept { regs := true, vaults := true } s t)
        ∧ (∀ addr, addr / 2048 % 128 = b → .line addr ∈ (s.vault v).guests ++ (s.vault v).held → d < 8 → ∃ t, exec (.refreshCommand v b) s = .next t
          ∧ smGet 0 (t.vault v).debt b = d + 1 ∧ VaultsKept s t [v] ∧ Kept { vaults := true } s t))
      ∧ (∃ t, exec (.interfaceRecentre v) s = .next t ∧ (∀ p, t.vault p = s.vault p) ∧ Kept { vaults := true } s t)
      ∧ (∃ t, exec (.bucketLeak v) s = .next t ∧ t.vault v = { (s.vault v) with bucket := (s.vault v).bucket - 1 }
        ∧ VaultsKept s t [v] ∧ Kept { vaults := true } s t)
      ∧ (∀ w ws, ∃ t, exec (.remapReload v (w :: ws)) s = .next t
        ∧ t.vault v = { (s.vault v) with remapBad := (w :: ws).foldl insNat (s.vault v).remapBad } ∧ VaultsKept s t [v]
        ∧ Kept { vaults := true } s t)
      ∧ ((s.vault v).held = [] → ∃ t, exec (.remapReload v []) s = .next t
        ∧ t.vault v = { (s.vault v) with
            remapBad := []
            remap := (s.vault v).remapBad.foldl (fun m w => match smFind (s.vault v).remapCopy w with
              | some x => smPut m w x
              | none => smErase m w) (s.vault v).remap }
        ∧ VaultsKept s t [v] ∧ Kept { vaults := true } s t)
      ∧ (∀ n0 n1 d0 d1, (s.vault v).mode = .memory → (s.vault v).role = .logical → s.fld pgVlt v 0 rVltScrubCfg 31 31 = 1 →
        let q := (s.vault v).scrub
        q < 8388607 → (s.vault v).isValid (q / 32) = true → (s.vault v).flags = [] → (s.vault v).remapBad = [] → NoTableLost s v →
        lineDecode (noisy ((s.vault v).stored (2 * q)) n0) = .clean d0 → lineDecode (noisy ((s.vault v).stored (2 * q + 1)) n1) = .clean d1 →
        ∃ t, exec (.patrolScrub v n0 n1) s = .next t ∧ t.vault v = { (s.vault v) with scrub := q + 1 }
          ∧ t.reg pgVlt v 0 rVltScrubPairs = s.reg pgVlt v 0 rVltScrubPairs + 1
          ∧ t.reg pgVlt v 0 rVltRdLines = s.reg pgVlt v 0 rVltRdLines + 2
          ∧ VaultsKept s t [v] ∧ Kept { regs := true, vaults := true } s t))
  ∧ ((∀ (s : State) (v l : Nat) (noise : BitVec 576) (d d' : List Byte), (s.vault v).mode = .memory →
      (s.vault v).rewrites.find? (fun e => e.1 = l) = some (l, d) → lineDecode (noisy ((lineEncode d).take 72) noise) = .clean d' →
      d.length = 64 →
      ∃ t, exec (.rewriteVerify v l noise) s = .next t ∧ (t.vault v).stored l = (lineEncode d).take 72
        ∧ (t.vault v).rewrites = (s.vault v).rewrites.filter (fun e => e.1 != l)
        ∧ t.reg pgVlt v 0 rVltRewrites = s.reg pgVlt v 0 rVltRewrites + 1 ∧ VaultsKept s t [v] ∧ Kept { regs := true, vaults := true } s t)
    ∧ (∀ (s : State) (v seg i : Nat) (rest : List Nat) (d : Nat → List Byte), (s.vault v).mode = .memory →
      (s.vault v).toSpare = seg :: rest → (s.vault v).freeSpare (seg % 128) = some i → (s.vault v).flags = [] → (s.vault v).remap = [] →
      (∀ l ∈ segLines seg, lineDecode ((s.vault v).stored l) = .clean (d l)) →
      ∃ t, exec (.rowSpare v) s = .next t ∧ smFind (t.vault v).remap seg = some (32 * (seg % 128) + i) ∧ (t.vault v).toSpare = rest
        ∧ (∀ l ∈ segLines seg, (t.vault v).stored l = (lineEncode (d l)).take 72)
        ∧ (∀ e ∈ (t.vault v).suspects, e.seg ≠ seg)
        ∧ t.reg pgVlt v 0 rVltRowsSpared = s.reg pgVlt v 0 rVltRowsSpared + 1
        ∧ t.sec.norA.cfg.epoch = s.sec.norA.cfg.epoch + 1 ∧ t.sec.norB.cfg.epoch = s.sec.norB.cfg.epoch + 1 ∧ VaultsKept s t [v])
    ∧ (∀ (s s1 : State) (v g : Nat) (r : Region) (bs : List Byte), (s.vault v).mode = .memory → g < 262144 →
      (∃ e ∈ (s.vault v).lostLines, e.1 / 64 = g ∧ e.2 = 2) → s.regionAt (s.vault v).logical (g * 4096) = some r →
      s.goldenPage r.core r ((g * 4096 - r.off) / 65536) = (s1, some bs) → s1.vault v = s.vault v → (s.vault v).mb = [] →
      (s.vault v).held = [] → (s.vault v).remap = [] → (g * 4096 - r.off) % 65536 + 4096 ≤ bs.length →
      ∃ t, exec (.patternRestore v g) s = .next t ∧ (∀ e ∈ (t.vault v).lostLines, e.1 / 64 ≠ g)
        ∧ (∀ i < 64, (t.vault v).stored (g * 64 + i) =
            (lineEncode ((bs.drop ((g * 4096 - r.off) % 65536 + 64 * i)).take 64)).take 72)
        ∧ t.reg pgVlt v 0 rVltRestored = s1.reg pgVlt v 0 rVltRestored + 1)
    ∧ (∀ (s : State) (c w : Nat), w < 8 → (s.core c).stockPtr < 32768 →
      let word := (s.core c).stockPtr * 8 + w
      let next := ((s.core c).stockPtr + 1) % 32768
      (∃ t, exec (.stockroomScrub c []) s = .next t ∧ t.core c = { (s.core c) with stockPtr := next } ∧ CoresKept s t [c]
        ∧ Kept { cores := true } s t)
      ∧ ((s.core c).stockBad = [] → ∃ t, exec (.stockroomScrub c [(w, 1)]) s = .next t ∧ t.core c = { (s.core c) with stockPtr := next }
        ∧ t.reg pgStw 0 0 rStwSramCe = s.reg pgStw 0 0 rStwSramCe + 1 ∧ CoresKept s t [c])
      ∧ ((s.core c).stockBad = [] → ∃ t, exec (.stockroomScrub c [(w, 2)]) s = .next t
        ∧ t.core c = { (s.core c) with stockPtr := next, stockBad := [word] }
        ∧ t.reg pgStw 0 0 rStwSramUe = s.reg pgStw 0 0 rStwSramUe + 1 ∧ CoresKept s t [c])))

/-- With no member of a guild and nothing waiting: a port that goes down or loses a wavelength returns to training (or
DOWN where it may not train); a ring tuning sets temperature and lift; laser wait leads to ring lock, ring lock to
alignment or after three failures to FAILED, alignment to UP or UP_HALF with its lanes and peer; a retry returns a
FAILED port to laser wait. Other ports are unchanged. (R350, R351, R352, R353, R527) -/
def Obligations.PortsTrainAndFail : Prop :=
  ∀ (s : State) (n : Nat), n < 8 → s.fab.isMember = false → s.fab.waiting = [] →
    ((s.fport n).st ≠ .down → (s.fport n).replay = [] →
      (∃ t, exec (.fabPortDown n) s = .next t ∧ (t.fport n).st = trainsTo s n ∧ (t.fport n).replay = [] ∧ (t.fport n).txSeq = 0
        ∧ t.reg pgFabp n 0 rFabpDowns = s.reg pgFabp n 0 rFabpDowns + 1 ∧ PortsKept s t n ∧ Kept { fab := true, regs := true } s t)
      ∧ (∀ w < 16, ∃ t, exec (.wavelengthFail n w) s = .next t ∧ (t.fport n).st = trainsTo s n
        ∧ (t.fport n).failed.getLsbD w = true ∧ (t.fport n).lanes.getLsbD w = false
        ∧ (∀ k < 16, k ≠ w → (t.fport n).failed.getLsbD k = (s.fport n).failed.getLsbD k ∧ (t.fport n).lanes.getLsbD k = (s.fport n).lanes.getLsbD k)
        ∧ t.fld pgFabp n 0 hErr 2 2 = 1 ∧ PortsKept s t n ∧ Kept { fab := true, regs := true } s t))
    ∧ (∀ die lift, (s.fport n).st = .ringLock → ∃ t, exec (.ringTuneTick n die lift) s = .next t
      ∧ t.fport n = { (s.fport n) with die := BitVec.ofInt 16 die, lift := BitVec.ofInt 16 lift, cold := decide (die < s.lockLow n) }
      ∧ PortsKept s t n ∧ Kept { fab := true } s t)
    ∧ ((s.fport n).st = .laserWait → s.portTrains n = true → ∃ t, exec (.laserWaitDone n) s = .next t ∧ (t.fport n).st = .ringLock
      ∧ PortsKept s t n ∧ Kept { fab := true } s t)
    ∧ ((s.fport n).st = .ringLock → (s.fport n).cold = false →
      (∃ t, exec (.ringLockDone n true) s = .next t ∧ (t.fport n).st = .align
        ∧ (t.fport n).saved = some ((s.fport n).die.toInt + (s.fport n).lift.toInt) ∧ PortsKept s t n ∧ Kept { fab := true } s t)
      ∧ (∃ t, exec (.ringLockDone n false) s = .next t ∧ (t.fport n).fails = (s.fport n).fails + 1
        ∧ (t.fport n).st = (if (s.fport n).fails + 1 ≥ 3 then .failed else .laserWait) ∧ PortsKept s t n ∧ Kept { fab := true } s t))
    ∧ (∀ g d p, (s.fport n).st = .align → smFind s.boot.chart n = none → ∀ lanes : BitVec 16,
      (lanes.extractLsb' 0 8 = 0xFF#8 ∨ lanes.extractLsb' 8 8 = 0xFF#8) →
      ∃ t, exec (.alignDone n g d p lanes) s = .next t ∧ (t.fport n).st = (if lanes = 0xFFFF#16 then .up else .upHalf)
        ∧ (t.fport n).fails = 0 ∧ (t.fport n).lanes = lanes ∧ (t.fport n).peerGuild = g % 4096 ∧ (t.fport n).peerDev = d % 64
        ∧ (t.fport n).peerPort = p % 8 ∧ PortsKept s t n)
    ∧ ((s.fport n).st = .failed → s.portTrains n = true → ∃ t, exec (.fabPortRetry n) s = .next t
      ∧ t.fport n = { (s.fport n) with st := .laserWait } ∧ PortsKept s t n ∧ Kept { fab := true } s t)

/-- A good frame with the expected sequence, whose messages are this device's own, advances the sequence, counts FABP_RX
and is acknowledged; an acknowledgement in it frees the frames it covers. A frame that cannot be corrected is answered
with a NAK and leaves the sequence. A newer LINK_STATE replaces its device's record and no other. A table update gives
every device the route that the known links give. (R354, R355, R356, R358, R359) -/
def Obligations.FramesAndRoutes : Prop :=
  (∀ (s : State) (n : Nat) (frame : BitVec 5120), n < 8 → s.portUp n = true →
    (∀ bs, frameOpen frame = some (bs, []) → (s.fport n).symErr = [] → s.fab.waiting = [] →
      let w := frameWord bs
      bit (w 0) 12 = false → bit (w 0) 27 = false → bits (w 0) 11 0 = (s.fport n).rxSeq →
      (∀ m ∈ areaMsgs 38 (bs.drop 16), s.isMine m = true) →
      ∃ t, exec (.fabFrame n frame) s = .next t ∧ (t.fport n).rxSeq = ((s.fport n).rxSeq + 1) % 4096
        ∧ t.reg pgFabp n 0 rFabpRx = s.reg pgFabp n 0 rFabpRx + 1 ∧ t.sent = .fabAck n (s.fport n).rxSeq false :: s.sent
        ∧ (bit (w 0) 26 = true → ∀ f ∈ (t.fport n).replay, ¬ (bits (w 0) 25 14 + 4096 - f.seq) % 4096 < 2048)
        ∧ PortsKept s t n ∧ Kept { fab := true, regs := true, sent := true } s t)
    ∧ (frameOpen frame = none → (s.fport n).bad < 63 → (s.fport n).naks + 1 ≤ s.fld pgFabp n 0 rFabpCfg 31 24 →
      ∃ t, exec (.fabFrame n frame) s = .next t ∧ (t.fport n).rxSeq = (s.fport n).rxSeq ∧ (t.fport n).bad = (s.fport n).bad + 1
        ∧ (t.fport n).naks = (s.fport n).naks + 1 ∧ t.reg pgFabp n 0 rFabpFecUe = s.reg pgFabp n 0 rFabpFecUe + 1
        ∧ t.sent = .fabAck n (((s.fport n).rxSeq + 4095) % 4096) true :: s.sent
        ∧ PortsKept s t n ∧ Kept { fab := true, regs := true, sent := true } s t))
  ∧ (∀ (s : State) (m : FMsg), s.isMine m = true → bits m.info 5 0 ≠ s.fab.device → (smFind s.fab.members (bits m.info 5 0)).isSome →
    (∀ o, smFind s.fab.links (bits m.info 5 0) = some o → let d := (bits m.info 31 14 + 262144 - o.2) % 262144; 1 ≤ d ∧ d < 131072) →
    ∃ t, exec (.linkState m) s = .next t ∧ smFind t.fab.links (bits m.info 5 0) = some (bits m.info 13 6, bits m.info 31 14)
      ∧ (∀ d, d ≠ bits m.info 5 0 → smFind t.fab.links d = smFind s.fab.links d) ∧ t.fab.members = s.fab.members ∧ Kept { fab := true } s t)
  ∧ (∀ (s : State), s.fab.isMember = true → s.fab.waiting = [] → ∃ t, exec .routeTableUpdate s = .next t
      ∧ (∀ d < 64, d ≠ s.fab.device → smFind t.fab.routes d = some (s.routeTo d)) ∧ t.fab.links = s.fab.links ∧ Kept { fab := true } s t)

/-- In a half whose mesh runs, with 4 flits of buffer for each class at each router input: a flit injected with room and
no regulator in force joins its class buffer; without room, or while a regulator holds it, it waits; a picked flit
crosses to the next router's input or is ejected, one for the other half at the attach router of its flow's module
onto that module; a class CTL flit that is ready is picked first; each counts and clears its link's replays; a bad one
stays with its sender and counts a replay below 16. A packet for its own half is ejected; one for a fenced half is
held. A die-to-die flit in sequence advances it, counts and is acknowledged. Silent modules are disabled while another
still runs. After its wait a disabled module trains to UP, or counts a failure and fails for good at the third. (R15,
R24, R338, R339, R340, R342, R343, R344, R345, R346) -/
def Obligations.MeshAndDieToDieLinks : Prop :=
  (∀ (s : State) (half src dst : Nat), half < 2 → s.meshRuns half = true →
    (∀ f : MFlit, ((s.mesh half).buf src 0 f.cls).length < 4 →
      (TileUnregulated s (144 * half + src) → ∃ t, exec (.meshFlit half src dst (some f) true) s = .next t
        ∧ (t.mesh half).buf src 0 f.cls = (s.mesh half).buf src 0 f.cls ++ [{ f with flow := (src + 3 * (f.dst % 144)) % 64 }] ∧ BufsKept s t half [bufKey src 0 f.cls]
        ∧ LinkGood s t half src src)
      ∧ (s.gatesOpen (s.injectCost half src f) = false → ∃ t, exec (.meshFlit half src dst (some f) true) s = .next t
        ∧ t.mesh half = s.mesh half ∧ t.mesh (1 - half) = s.mesh (1 - half) ∧ Kept { regs := true } s t)
      ∧ (smGet 0 (s.mesh half).replays (src * 144 + src) ≠ 15 → ∃ t, exec (.meshFlit half src dst (some f) false) s = .next t
        ∧ LinkBad s t half src src))
    ∧ (∀ (f : MFlit) (ok : Bool), 4 ≤ ((s.mesh half).buf src 0 f.cls).length → exec (.meshFlit half src dst (some f) ok) s = .next s)
    ∧ (∀ (k : Nat) (f : MFlit) (rest : List MFlit), (s.mesh half).pick half src dst = some k →
        (s.mesh half).buf src (k / 4) (k % 4) = f :: rest →
      (src ≠ dst → ∃ t, exec (.meshFlit half src dst none true) s = .next t ∧ (t.mesh half).buf src (k / 4) (k % 4) = rest
        ∧ (t.mesh half).buf dst (inputOf src dst) (k % 4) = (s.mesh half).buf dst (inputOf src dst) (k % 4) ++ [f]
        ∧ BufsKept s t half [bufKey src (k / 4) (k % 4), bufKey dst (inputOf src dst) (k % 4)] ∧ LinkGood s t half src dst)
      ∧ (src = dst → siteHalf f.dst = half → s.sitePart (144 * half + src) = none → ∃ t, exec (.meshFlit half src dst none true) s = .next t
        ∧ (t.mesh half).buf src (k / 4) (k % 4) = rest ∧ BufsKept s t half [bufKey src (k / 4) (k % 4)]
        ∧ t.sent = .eject half src f.data :: s.sent)
      ∧ (src = dst → siteHalf f.dst ≠ half → s.abs.fence = none → s.d2d.length = 16 →
        let m := s.flowMod half f.flow
        m < 16 → (s.mod m).replay.length = 2 → ∃ t, exec (.meshFlit half src dst none true) s = .next t
        ∧ (t.mesh half).buf src (k / 4) (k % 4) = rest ∧ BufsKept s t half [bufKey src (k / 4) (k % 4)]
        ∧ (t.mod m).replay.getD half [] = (s.mod m).replay.getD half [] ++ [((s.mod m).tx.getD half 0, f.flow, [f.data])]
        ∧ (∀ n, n ≠ m → t.mod n = s.mod n))
      ∧ (smGet 0 (s.mesh half).replays (src * 144 + dst) ≠ 15 → ∃ t, exec (.meshFlit half src dst none false) s = .next t
        ∧ LinkBad s t half src dst))
    ∧ (∀ f : MFlit, (s.mesh half).goal half f = (if siteHalf f.dst = half then f.dst % 144 else 12 * (3 * s.flowMod half f.flow / 4) + 11))
    ∧ ((∃ j ∈ (s.mesh half).ready half src dst, j % 4 = 2) → ∃ k, (s.mesh half).pick half src dst = some k ∧ k % 4 = 2)
    ∧ (∀ bs, TileUnregulated s (144 * half + src % 144) → siteHalf dst = half → s.sitePart dst = none →
      ∃ t, exec (.meshPacket half src dst bs) s = .next t ∧ t.sent = .eject half (dst % 144) bs :: s.sent ∧ Kept { sent := true } s t)
    ∧ (∀ bs f, s.abs.fence = some f → f.half = 1 - half → f.escalated = false → siteHalf dst = 1 - half →
      ∃ t, exec (.meshPacket half src dst bs) s = .next t ∧ (t.mesh half).packets = (s.mesh half).packets ++ [(src, dst, bs)]
        ∧ t.mesh (1 - half) = s.mesh (1 - half) ∧ Kept { mesh := true } s t))
  ∧ (∀ (s : State) (m half : Nat) (flit : BitVec 2048), m < 16 → half < 2 → (s.mod m).rx.length = 2 →
    FlitInSequence s m half flit → (let a := leNat (((leBytes 256 flit.toNat).drop 2).take 2); bit a 10 = false ∧ bit a 11 = false ∧ bit a 12 = false) →
    ∃ t, exec (.d2dFlit m half flit) s = .next t ∧ (t.mod m).rx.getD half 0 = ((s.mod m).rx.getD half 0 + 1) % 1024
      ∧ t.reg pgD2d half 0 rD2dFlits = s.reg pgD2d half 0 rD2dFlits + 1
      ∧ t.sent = .d2dAck m half ((s.mod m).rx.getD half 0) false :: s.sent
      ∧ (∀ k < 16, k ≠ m → t.mod k = s.mod k) ∧ Kept { d2d := true, regs := true, sent := true } s t)
  ∧ (∀ (s : State) (mods : BitVec 16) (half : Nat), s.fencedHalf ≠ some half →
    let gone := s.upMods.filter (fun m => mods.getLsbD m)
    gone ≠ [] → gone ≠ s.upMods →
    ∃ t, exec (.d2dClockSilence mods half) s = .next t
      ∧ (∀ m < 16, (t.mod m).st = if m ∈ gone then .disabled else (s.mod m).st)
      ∧ (∀ m ∈ gone, (t.mod m).since = s.timeUs) ∧ t.abs = s.abs
      ∧ Kept { d2d := true, mesh := true, regs := true, boot := true, sent := true } s t)
  ∧ (∀ (s : State) (m : Nat), m < 16 → (s.mod m).st = .disabled → s.timeUs ≥ (s.mod m).since + 100000 * s.fld pgD2d 0 0 rD2dCfg 15 8 →
    s.abs.fence = none → s.boot.d2dFused.testBit m = false → s.boot.d2dTest.testBit m = false →
    (∃ t, exec (.d2dRetrain m true) s = .next t ∧ (t.mod m).st = .up ∧ (t.mod m).rx = [0, 0] ∧ (t.mod m).fails = 0
      ∧ (∀ k < 16, k ≠ m → (t.mod k).st = (s.mod k).st) ∧ Kept { d2d := true, mesh := true, boot := true, sent := true } s t)
    ∧ (∃ t, exec (.d2dRetrain m false) s = .next t ∧ (t.mod m).fails = (if (s.mod m).fails + 1 = 3 then 3 else (s.mod m).fails + 1)
      ∧ (t.mod m).st = (if (s.mod m).fails + 1 = 3 then .failed else .disabled) ∧ (∀ k < 16, k ≠ m → t.mod k = s.mod k)
      ∧ Kept { d2d := true, boot := true } s t))

/-- A PUT of a line into an open vault queues its 64 bytes, raises the counter it names and is acknowledged. A GET_REQ is
answered with the line's data. A GET_RSP writes its bytes in place and records its index. An MSG writes its data in
the core's stockroom, raises its counter and is acknowledged. An ACK with data lost ends the transfer and its order
with DATA_LOST; another ACK of a put or a message ends the transfer. An end-to-end timeout resends an open transfer's
messages up to three times; one of a guild behind a cut pair of the market tree waits. (R357, R360, R361, R362, R365,
R366, R372) -/
def Obligations.FabricMessagesTakeEffect : Prop :=
  (∀ (s : State) (m : FMsg) (l v ln : Nat), Accepts s m →
    let body := putBody m
    let w := putTail m
    m.data.length = 72 → NearLine s (putOff m) l v ln → s.snap = none → (s.vault v).isValid (ln / 64) = true →
    (s.vault v).wq.length + 1 < s.fld pgVlt v 0 rVltCfg 6 0 → bits w 9 0 = 0 → bits w 28 10 = 0 → bit w 35 = true → s.fab.ins = [] → s.fab.tags = [] →
    putIdx m = 0 →
    ∃ t, exec (.put m) s = .next t ∧ (t.vault v).wq = (s.vault v).wq.filter (fun e => e.1 != ln) ++ [(ln, body)]
      ∧ t.ctr (bits w 43 36) (bits w 34 29) = s.ctr (bits w 43 36) (bits w 34 29) + BitVec.ofNat 32 (bits w 51 44)
      ∧ Acked s t m (putId m) 0 ∧ VaultsKept s t [v] ∧ CoresKept s t [bits w 43 36]
      ∧ Kept { fab := true, vaults := true, cores := true, regs := true, sent := true } s t)
  ∧ (∀ (s : State) (m : FMsg) (l v ln : Nat) (d : List Byte), Accepts s m → NearLine s (bits m.info 37 0) l v ln → bits (leNat m.data) 19 0 = 64 →
    (s.vault v).wq.find? (fun e => e.1 = ln) = some (ln, d) → d.length = 64 → (∀ e ∈ (s.vault v).mb, e.line ≠ ln) → s.snap = none →
    (s.vault v).isValid (ln / 64) = true →
    ∃ t, exec (.getReq m) s = .next t
      ∧ .fab (asSent s ⟨0x03, m.srcDev, 0, m.srcGuild, 0, false, bits m.info 49 38 <<< 20, d⟩) ∈ t.sent
      ∧ (∀ p, t.vault p = s.vault p) ∧ Kept { fab := true, vaults := true, regs := true, sent := true } s t)
  ∧ (∀ (s : State) (m : FMsg) (x : XferOut) (c o : Nat), Accepts s m → s.getOf m = some x → s.getPlace x m = some (.stock c o) →
    x.got = [] → bits m.info 9 0 ≥ 1 → bits m.info 19 10 = 0 → m.data.length = 576 → x.bytes ≥ 576 → (∀ y ∈ s.fab.outs, y.id = x.id → y = x) →
    ∃ t, exec (.getRsp m) s = .next t ∧ stockAt t c o 576 = m.data ∧ StockKeptOutside s t c [(o, 576)]
      ∧ (∀ y ∈ t.fab.outs, y.id = x.id → y.got = [0]) ∧ CoresKept s t [c] ∧ Kept { fab := true, cores := true } s t)
  ∧ (∀ (s : State) (m : FMsg) (p : Nat), Accepts s m →
    let c := bits m.info 7 0
    let o := bits (leNat (m.data.take 8)) 20 0
    s.abs.fence = none → s.partOfCore c = some p → s.coreActive c = true → (s.part p).st = .serving → s.fab.ins = [] → m.data.length > 8 →
    m.data.length ≤ 584 → bit m.info 14 = true →
    ∃ t, exec (.msg m) s = .next t ∧ stockAt t c o (m.data.length - 8) = m.data.drop 8 ∧ StockKeptOutside s t c [(o, m.data.length - 8)]
      ∧ t.ctr c (bits m.info 13 8) = s.ctr c (bits m.info 13 8) + 1 ∧ Acked s t m (bits m.info 26 15) 0
      ∧ CoresKept s t [c] ∧ Kept { fab := true, cores := true, regs := true, sent := true } s t)
  ∧ (∀ (s : State) (m : FMsg) (x : XferOut) (f : Flight), Accepts s m →
    s.fab.outs.find? (fun t => t.id = bits m.info 11 0 && t.guild = m.srcGuild && t.dev = m.srcDev) = some x → bit m.info 15 = false →
    x.kind ≠ .mirror → bit m.info 13 = true → (s.core x.core).flight x.flight = some f → statusJoin f.status 4 = 4 →
    ∃ t, exec (.ack m) s = .next t ∧ (∀ y ∈ t.fab.outs, y.kind = .mirror ∨ ¬ (y.core = x.core ∧ y.flight = x.flight))
      ∧ (∃ g, (t.core x.core).flight x.flight = some g ∧ g.done = true ∧ g.status = 4)
      ∧ (let d := spaceOf (xferOf x.core f.op f.ord).dst
         f.done = true ∨ opUnit f.op ≠ .transfer ∨ d = 7 ∨ d = 8 → CoresKept s t [x.core] ∧ Kept { fab := true, cores := true } s t))
  ∧ (∀ (s : State) (m : FMsg) (x : XferOut), Accepts s m → x.kind ≠ .get → x.kind ≠ .mirror →
    s.fab.outs.find? (fun t => t.id = bits m.info 11 0 && t.guild = m.srcGuild && t.dev = m.srcDev) = some x →
    bit m.info 15 = false → bit m.info 13 = false → (s.core x.core).flight x.flight = none →
    ∃ t, exec (.ack m) s = .next t ∧ t.fab.outs = s.fab.outs.filter (fun y => y.id != x.id) ∧ Kept { fab := true, cores := true } s t)
  ∧ (∀ (s : State) (id : Nat) (x : XferOut), s.fab.outs.find? (fun t => t.id = id) = some x → x.fenced = false → x.kind ≠ .mirror →
    (x.guild ≠ s.fab.guild → s.marketLink x.guild = none → exec (.e2eTimeout id) s = .next s) ∧
    (x.resends < 3 → s.unreachable x.guild x.dev = false → (x.guild = s.fab.guild ∨ (s.marketLink x.guild).isSome) →
    ∃ t, exec (.e2eTimeout id) s = .next t
      ∧ t.fab.outs = s.fab.outs.map (fun y => if y.id = id then { y with resends := x.resends + 1, fenced := false } else y)
      ∧ (∀ m ∈ x.msgs, .fab (asSent s m) ∈ t.sent)
      ∧ t.reg pgFab 0 0 rFabResends = s.reg pgFab 0 0 rFabResends + BitVec.ofNat 64 x.msgs.length ∧ t.cores = s.cores))

/-- A HEARTBEAT of a later term gives term and master; the master's heartbeat goes to each member; a loss moves to the
next reachable device in the succession, which raises the term if it is this one. A SNAP_MARK sets the number. A
snapshot copy places its next granule at the fill point. Mirror entries, tokens and releases are stored or dropped in
far memory and acknowledged. DEVICE_LOST and an expired hold remove the member and log; an adoption that times out is
counted and its record released. MODEL'S CHOICE: members learn the number with the mark and keep their tag (assumption
44). (R363, R370, R371, R372, R373, R470, R472, R473, R474, R475) -/
def Obligations.MastersSnapshotsAndMirrors : Prop :=
  ((∀ (s : State) (m : FMsg), Accepts s m → bits m.info 31 0 > s.fab.term → ∃ t, exec (.heartbeat m) s = .next t
        ∧ t.fab.term = bits m.info 31 0 ∧ t.fab.master = bits m.info 37 32 ∧ t.fab.members = s.fab.members ∧ Kept { fab := true, regs := true } s t)
    ∧ (∀ (s : State), s.isMaster = true → ∃ t, exec .heartbeatSend s = .next t
        ∧ (∀ e ∈ s.fab.members, e.1 ≠ s.fab.device →
            .fab (asSent s ⟨0x09, e.1, 0, s.fab.guild, 0, false, s.fab.term % 4294967296 + (s.fab.device % 64) <<< 32, []⟩) ∈ t.sent)
        ∧ t.fab.term = s.fab.term ∧ t.fab.master = s.fab.master ∧ Kept { fab := true, regs := true, sent := true } s t)
    ∧ (∀ (s : State) (d : Nat), s.fab.isMember = true → s.isMaster = false →
      let i := (s.succession.findIdx? (· = s.fab.master)).getD 0
      (s.succession.drop (i + 1) ++ s.succession.take i).find? (fun d => s.reachable d) = some d →
      ∃ t, exec .heartbeatLoss s = .next t ∧ t.fab.master = d
        ∧ t.fab.term = (if d = s.fab.device then (s.fab.term + 1) % 4294967296 else s.fab.term)
        ∧ t.fab.members = s.fab.members ∧ Kept { fab := true, regs := true, sent := true } s t)
    ∧ (∀ (s : State) (m : FMsg), Accepts s m → ∃ t, exec (.snapMark m) s = .next t ∧ t.fab.snapNum = bits m.info 15 0
        ∧ t.fab.snapTag = s.fab.snapTag ∧ Kept { fab := true } s t)
    ∧ (∀ (s : State) (x : Snap) (k : Nat) (rest : List Nat), s.snap = some x → x.uncopied = k :: rest → s.fencedHalf = none →
      ∃ t, exec .snapshotCopy s = .next t ∧ t.snap = some { x with
        uncopied := x.uncopied.filter (· != k), placed := smPut x.placed k x.fill, fill := x.fill + 4104 }))
  ∧ ((∀ (s : State) (m : FMsg) (p q : Nat), Accepts s m → (s.mirrorIns m.srcDev).find? (fun x => x.2 = bits (leNat (m.data.take 4)) 12 7) = some (p, q) →
      s.isAdopted m.srcDev (bits (leNat (m.data.take 4)) 12 7) = false →
      let a := s.mirrorRec p (mirStream m)
      epochAhead (leNat (((m.data.take 256).drop 100).take 4)) (leNat (((s.farBytes a.1 a.2 260).drop 100).take 4)) = true →
      m.data.length ≥ 256 →
      ∃ t, exec (.mirrorEntry m) s = .next t ∧ t.farBytes a.1 a.2 256 = m.data.take 256
        ∧ (smGet [] t.abs.mirLive p).contains (mirStream m) = true ∧ Acked s t m (mirId m) 0
        ∧ Kept { fab := true, far := true, abs := true, regs := true, sent := true } s t)
    ∧ (∀ (s : State) (m : FMsg) (p q : Nat), Accepts s m → s.mirrorOf m = some (p, q) → s.isAdopted m.srcDev q = false →
      let a := s.mirrorRec p (mirStream m)
      a.2 < 1099511627776 → mirStream m < 262144 → 0 < m.data.length → m.data.length = 4 →
      let w := bits (leNat (s.farBytes a.1 (a.2 + 256) 4)) 22 0
      mirFirst m / 16384 < ceilDiv w 16384 → (let t := s.poolTok p (s.mirrorHist p (mirStream m)) (mirFirst m); t.2 + 4 ≤ 1099511627776 ∧ a.2 + 260 ≤ t.2) →
      ∃ t, exec (.mirrorTokens m) s = .next t
        ∧ (let k := s.poolTok p (s.mirrorHist p (mirStream m)) (mirFirst m); leNat (t.farBytes k.1 k.2 4) = leNat (m.data.take 4))
        ∧ Acked s t m (mirId m) 0 ∧ Kept { fab := true, far := true, abs := true, regs := true, sent := true } s t)
    ∧ (∀ (s : State) (m : FMsg) (p q : Nat), Accepts s m → s.mirrorOf m = some (p, q) → s.isAdopted m.srcDev q = false →
      ∃ t, exec (.mirrorRelease m) s = .next t ∧ (smGet [] t.abs.mirLive p).contains (mirStream m) = false ∧ Acked s t m (mirId m) 0
        ∧ Kept { fab := true, far := true, abs := true, regs := true, sent := true } s t)
    ∧ (∀ (s : State) (m : FMsg), Accepts s m → bits m.info 44 13 ≥ s.fab.term → bit m.info 6 = true →
      let dev := bits m.info 5 0
      dev ≠ s.fab.device → (∀ p < 64, s.fld pgStw 0 p rStwMirrorOut 31 31 = 0) → s.mirrorIns dev = [] →
      ∃ t, exec (.deviceLost m) s = .next t ∧ smFind t.fab.members dev = none ∧ (∀ d, d ≠ dev → smFind t.fab.members d = smFind s.fab.members d)
        ∧ t.elog.seq = (s.elog.seq + 1) % 65536 ∧ t.parts = s.parts ∧ t.cores = s.cores)
    ∧ (∀ (s : State) (dev : Nat), s.isMaster = true → dev ≠ s.fab.device → (smFind s.fab.members dev).isSome → s.reachable dev = false →
      (∀ p < 64, s.fld pgStw 0 p rStwMirrorOut 31 31 = 0) → s.mirrorIns dev = [] →
      ∃ t, exec (.deviceHoldExpired dev) s = .next t ∧ smFind t.fab.members dev = none
        ∧ (∀ d, d ≠ dev → smFind t.fab.members d = smFind s.fab.members d) ∧ t.elog.seq = (s.elog.seq + 1) % 65536
        ∧ t.parts = s.parts ∧ t.cores = s.cores)
    ∧ (∀ (s : State) (p n : Nat) (w : Nat × Nat × Nat × Nat), s.abs.adoptWait = [w] → w.1 = p → w.2.1 = n →
      (s.adoptOne p n w.2.2.1) = (s, false) →
      ∃ t, exec (.adoptTimeout p n) s = .next t ∧ t.abs.adoptWait = [] ∧ (smGet [] t.abs.mirLive p).contains n = false
        ∧ t.reg pgStw 0 0 rStwAdoptFails = s.reg pgStw 0 0 rStwAdoptFails + 1 ∧ t.rollA = s.rollA ∧ t.rollB = s.rollB))

/-- Configuration requests are answered from identity, and one that writes Bus Master Enable sets or clears its
function's; aperture reads return a line's data and writes queue it; ADJOURNED answers CA and counts dropped writes;
an expired fence hold answers CA and counts; an outbound read without a completion is issued once more and then
counted in HOST_CPL_TIMEOUT, and one that returns UR or CA is counted in HOST_UR at once. PERST# sets the link; its
loss clears bus mastering, pending reads, rings, the session, and quiesces each serving partition, at its step's end
where one runs. Function-level resets reset their partitions and rings; the spur's loss degrades the device. (R16,
R23, R136, R177, R383, R384, R385, R386, R387) -/
def Obligations.TheHostLinkAnswersTrainsAndFails : Prop :=
  ((∀ (s : State) (fn tag : Nat) (bme : Option Bool), s.hostUp = true → ∃ t, exec (.hostConfigRequest fn tag bme) s = .next t
        ∧ t.sent = .cpl fn tag (if s.boot.idLoaded then 0 else 3) :: s.sent
        ∧ (∀ g, (g ∈ t.host.bme ↔ if s.boot.idLoaded = true ∧ g = fn ∧ fn ≤ 65 ∧ bme ≠ none then bme = some true else g ∈ s.host.bme))
        ∧ t.host = { s.host with bme := t.host.bme } ∧ Kept { host := true, sent := true } s t)
    ∧ (∀ (s : State) (tag o l v ln : Nat) (d : List Byte), Awake s → NearLine s o l v ln → s.writesSeen 0 = true → (∀ e ∈ (s.vault v).mb, e.line ≠ ln) →
      (s.vault v).wq.find? (fun e => e.1 = ln) = some (ln, d) → d.length = 64 →
      ∃ t, exec (.hostNearRead 0 tag o 64) s = .next t ∧ t.sent = .bytes 0 tag d :: s.sent
        ∧ (∀ p, t.vault p = s.vault p) ∧ Kept { vaults := true, regs := true, sent := true } s t)
    ∧ (∀ (s : State) (o l v ln : Nat) (d : List Byte), Awake s → NearLine s o l v ln → d.length = 64 → s.snap = none →
      (s.vault v).role = .logical → (s.vault v).logical = l → (s.vault v).isValid (ln / 64) = true →
      (s.vault v).wq.length + 1 < s.fld pgVlt v 0 rVltCfg 6 0 →
      ∃ t, exec (.hostNearWrite 0 o d) s = .next t ∧ (t.vault v).wq = (s.vault v).wq.filter (fun e => e.1 != ln) ++ [(ln, d)]
        ∧ VaultsKept s t [v] ∧ Kept { vaults := true, regs := true } s t)
    ∧ (∀ (s : State) (fn tag addr len : Nat), s.boot.state = .adjourned → ∃ t, exec (.hostNearRead fn tag addr len) s = .next t
        ∧ t.sent = .cpl fn tag 2 :: s.sent ∧ Kept { sent := true } s t)
    ∧ (∀ (s : State) (fn addr : Nat) (bs : List Byte), s.boot.state = .adjourned → ∃ t, exec (.hostNearWrite fn addr bs) s = .next t
        ∧ t.reg pgPwr 0 0 rPwrHostDrop = s.reg pgPwr 0 0 rPwrHostDrop + 1 ∧ RegsKept s t [regKey pgPwr 0 0 rPwrHostDrop]
        ∧ Kept { regs := true } s t)
    ∧ (∀ (s : State) (fn tag : Nat), s.host.reads.any (fun r => r.1 = fn && r.2.1 = tag) = true →
      ∃ t, exec (.fenceHoldExpired fn tag) s = .next t ∧ t.sent = .cpl fn tag 2 :: s.sent
        ∧ t.host = { s.host with reads := s.host.reads.filter (fun r => !(r.1 = fn && r.2.1 = tag)) }
        ∧ t.reg pgHost 0 0 rHostFenceCa = s.reg pgHost 0 0 rHostFenceCa + 1 ∧ Kept { host := true, regs := true, sent := true } s t)
    ∧ (∀ (s : State) (part id : Nat) (f : Flight), let key := 4 * (part % 64) + 256 * id
      (s.host.retried.contains key = false → ∃ t, exec (.hostReadTimeout part 0 id 0) s = .next t
          ∧ t.host = { s.host with retried := s.host.retried ++ [key] } ∧ Kept { host := true } s t)
      ∧ (s.host.retried.contains key = true → (s.core (id % 256)).flight (id / 256) = some f → f.done = true →
        ∃ t, exec (.hostReadTimeout part 0 id 0) s = .next t ∧ t.host = { s.host with retried := s.host.retried.filter (· != key) }
          ∧ t.reg pgHost 0 0 rHostCplTimeout = s.reg pgHost 0 0 rHostCplTimeout + 1 ∧ t.fld pgHost 0 0 hErr 1 1 = 1
          ∧ Kept { host := true, regs := true } s t)
      ∧ (∀ how, how = 1 ∨ how = 2 → (s.core (id % 256)).flight (id / 256) = some f → f.done = true →
        ∃ t, exec (.hostReadTimeout part 0 id how) s = .next t ∧ t.host = { s.host with retried := s.host.retried.filter (· != key) }
          ∧ t.reg pgHost 0 0 rHostUr = s.reg pgHost 0 0 rHostUr + 1 ∧ Kept { host := true, regs := true } s t)))
  ∧ ((∀ (s : State) (w r : Nat) (f : Bool), s.boot.state ≠ .off → s.boot.state ≠ .aon → w ≤ 16 → r ≤ 5 →
      ∃ t, exec (.perstDeassert w r f) s = .next t ∧ t.host = { s.host with perst := false, width := w, rate := r, flit := f }
        ∧ Kept { host := true } s t)
    ∧ (∀ (s : State), ∃ t, exec .hostLinkLoss s = .next t ∧ t.host.width = 0 ∧ t.host.bme = [] ∧ t.host.reads = []
        ∧ t.reg pgHost 0 0 rHostLinkDowns = s.reg pgHost 0 0 rHostLinkDowns + 1
        ∧ (∀ p < 64, t.fld pgFore 0 p rForeReqCfg 31 31 = 0 ∧ t.fld pgFore 0 p rForeTokCfg 31 31 = 0
          ∧ ((s.part p).st = .serving → (s.part p).running = false → (t.part p).st = .quiesced)
          ∧ ((s.part p).st = .serving → (s.part p).running = true → (t.part p).st = .serving ∧ .quiesce none ∈ (t.part p).after))
        ∧ t.sec.pf1.opened = false ∧ t.vaults = s.vaults ∧ t.cores = s.cores
        ∧ Kept { host := true, regs := true, parts := true, sec := true } s t)
    ∧ (∀ (s : State) (vf : Nat), 1 ≤ vf → vf ≤ 64 → s.abs.migs = [] → (s.part (vf - 1)).st ≠ .empty → (s.part (vf - 1)).st ≠ .resetting →
      ∃ t, exec (.flrVf vf) s = .next t ∧ (t.part (vf - 1)).st = .resetting ∧ t.host.bme = s.host.bme.filter (· != vf + 1)
        ∧ PartsKept s t [vf - 1])
    ∧ (∀ (s : State), s.abs.migs = [] → ∃ t, exec .flrPf0 s = .next t ∧ t.host.bme = s.host.bme.filter (· != 0)
        ∧ ∀ p < 64, if s.host.bme.contains (p + 2) || (s.part p).st = .empty || (s.part p).st = .resetting then t.part p = s.part p
            else (t.part p).st = .resetting)
    ∧ (∀ (s : State), ∃ t, exec .flrPf1 s = .next t ∧ t.host = { s.host with bme := s.host.bme.filter (· != 1) }
        ∧ t.fld pgFore 0 0 rForeAdmCfg 31 31 = 0 ∧ t.fld pgStw 0 0 rStwElogCfg 31 31 = 0 ∧ t.sec.pf1.opened = false
        ∧ t.sec.sb = s.sec.sb ∧ Kept { host := true, regs := true, sec := true } s t)
    ∧ (∀ (s : State), ∃ t, exec .hostSpurDown s = .next t ∧ t.host = { s.host with spur := false }
        ∧ t.boot.state = stateOf { s with host := { s.host with spur := false } } ∧ Kept { host := true, boot := true } s t))

/-- A poisoned far read marks its line poisoned, counts FARP_POISON, sets error bit 2 and logs, and changes no far memory
or other port; a far read that fails otherwise, of no golden copy and with nobody waiting, counts FARP_TIMEOUT, sets
error bit 1 and logs. A hold that expires at a port that is down with nobody waiting counts and logs the same way.
Each polled event is logged. A port that goes down loses its width and counts. (R388, R390, R391, R392) -/
def Obligations.FarReadsFailOnlyTheirLines : Prop :=
  ∀ (s : State) (port addr : Nat), port < 4 → addr < 1099511627776 →
    (NoFarPages s →
      (∃ t, exec (.farReadFail port addr 0) s = .next t ∧ (addr / 64) ∈ (t.farPort port).poison
        ∧ (t.farPort port).mem = (s.farPort port).mem ∧ (t.farPort port).st = (s.farPort port).st
        ∧ (∀ q < 4, q ≠ port → t.farPort q = s.farPort q)
        ∧ t.reg pgFarp port 0 rFarpPoison = s.reg pgFarp port 0 rFarpPoison + 1 ∧ t.fld pgFarp port 0 hErr 2 2 = 1 ∧ Logged s t
        ∧ Kept { far := true, regs := true, elog := true, host := true, sent := true } s t)
      ∧ (s.farWaiters port addr = [] → s.farClass port addr ≠ 2 → ∃ t, exec (.farReadFail port addr 1) s = .next t
        ∧ t.reg pgFarp port 0 rFarpTimeout = s.reg pgFarp port 0 rFarpTimeout + 1 ∧ t.fld pgFarp port 0 hErr 1 1 = 1 ∧ Logged s t
        ∧ Kept { regs := true, elog := true, host := true, sent := true } s t)
      ∧ ((s.farPort port).st ≠ .up → (s.farPort port).st ≠ .upDegraded → s.farWaiters port addr = [] →
        ∃ t, exec (.farHoldExpired port addr) s = .next t
          ∧ t.reg pgFarp port 0 rFarpPoison = s.reg pgFarp port 0 rFarpPoison + 1 ∧ t.fld pgFarp port 0 hErr 2 2 = 1 ∧ Logged s t
          ∧ Kept { regs := true, elog := true, host := true, sent := true } s t))
    ∧ (∀ events, events ≠ [] → ∃ t, exec (.farEventPoll port events) s = .next t ∧ t.elog.seq = (s.elog.seq + events.length) % 65536
      ∧ t.far = s.far ∧ Kept { regs := true, elog := true, host := true, free := true, sent := true } s t)
    ∧ ((s.farPort port).st ≠ .absent → (s.farPort port).st ≠ .down → ∃ t, exec (.farPortDown port) s = .next t
      ∧ t.farPort port = { (s.farPort port) with st := .down, width := 0 } ∧ (∀ q < 4, q ≠ port → t.farPort q = s.farPort q)
      ∧ t.reg pgFarp port 0 rFarpDowns = s.reg pgFarp port 0 rFarpDowns + 1
      ∧ Kept { far := true, regs := true, boot := true } s t)

/-- A governor tick advances time by 10 us, takes the estimate and the next target, adds the energy, keeps every permitted
level at 0 to 100, and grants each vault 1 to 32 units, or 0 while adjourning. The GRID_SHED pin starts and ends
shedding and counts, from BOOT onward. A SHED message with a newer sequence sets the level, held to 350 to 2,400 W, or
ends it at 0. MODEL'S CHOICE: theta, the levels and the grants between their bounds are free values (assumption 65).
(R396, R397, R398, R404, R405) -/
def Obligations.ThePowerGovernorAndShedding : Prop :=
  (∀ (s : State) (est demand : Nat), ∃ t, exec (.governorTick est demand) s = .next t
      ∧ t.timeUs = s.timeUs + 10 ∧ t.pwr.est = est ∧ t.pwr.target = s.nextTarget demand
      ∧ t.reg pgPwr 0 0 rPwrEnergyMj = s.reg pgPwr 0 0 rPwrEnergyMj + BitVec.ofNat 64 ((s.pwr.fracUj + 10 * est) / 1000)
      ∧ t.pwr.fracUj = (s.pwr.fracUj + 10 * est) % 1000 ∧ t.pwr.theta < 64 ∧ t.pwr.tf ≤ 100 ∧ t.pwr.tc ≤ 100
      ∧ (∀ p < 288, if s.thm.phase = 0 then 1 ≤ (t.vault p).grant ∧ (t.vault p).grant ≤ 32 else (t.vault p).grant = 0)
      ∧ Kept { pwr := true, regs := true, time := true, free := true, cores := true, vaults := true } s t)
  ∧ (∀ (s : State), ShedStaysHere s → s.fld pgPwr 0 0 rPwrShed 31 31 = 1 →
    (s.pwr.pinShed = false → s.pwr.shedding = false → (s.boot.state = .off ∨ s.boot.state = .aon) → s.pwr.msgShed = 0 →
      ∃ t, exec .gridShedAssert s = .next t ∧ t.pwr = { s.pwr with pinShed := true } ∧ Kept { pwr := true } s t)
    ∧ (s.pwr.pinShed = false → s.pwr.shedding = false → s.boot.state ≠ .off → s.boot.state ≠ .aon → ∃ t, exec .gridShedAssert s = .next t
      ∧ t.pwr = { s.pwr with pinShed := true, shedding := true } ∧ t.reg pgPwr 0 0 rPwrSheds = s.reg pgPwr 0 0 rPwrSheds + 1
      ∧ Kept { pwr := true, regs := true } s t)
    ∧ (s.pwr.pinShed = true → s.pwr.msgShed = 0 → ∃ t, exec .gridShedRelease s = .next t
      ∧ t.pwr = { s.pwr with pinShed := false, shedding := false } ∧ Kept { pwr := true } s t))
  ∧ (∀ (s : State) (m : FMsg), Accepts s m → s.fld pgPwr 0 0 rPwrShed 30 30 = 1 →
    let q := bits m.info 31 16
    let level := bits m.info 15 0
    let d := (q + 65536 - s.pwr.shedRx) % 65536
    1 ≤ d → d ≤ 32767 → ∃ t, exec (.shed m) s = .next t ∧ t.pwr.shedRx = q
      ∧ t.pwr.msgShed = (if level = 0 then 0 else min 2400 (max 350 level)) ∧ Kept { pwr := true, regs := true, fab := true } s t)

/-- A coolant fault shows itself and, where the policy is set, starts phase 1 from READY or DEGRADED: vaults leave bank
compute without grants, running steps are rolled back, and the adjournment counts. A housekeeping round records
temperatures and power, moves each vault's refresh band by its governing temperature, and begins a held reset once the
device is cool enough. Phase 1 ends with a sealed move that keeps the seal of both halves, or with its timeout; phase
3 puts every vault in retention with the logic rails off. Resume, where the conditions hold, returns to READY or
DEGRADED with all rails. A rail fault fences its half. (R194, R410, R411, R419, R420, R421, R422, R423, R425, R428,
R524) -/
def Obligations.HeatAdjournsAndResumes : Prop :=
  (∀ (s : State), s.fld pgThm 0 0 rThmCfg 31 31 = 0 → ∃ t, exec .coolantFault s = .next t
      ∧ t.thm = { s.thm with coolant := true } ∧ Kept { thm := true } s t)
  ∧ (∀ (s : State), s.fld pgThm 0 0 rThmCfg 31 31 = 1 → (s.boot.state = .ready ∨ s.boot.state = .degraded) → s.thm.phase = 0 →
    ∃ t, exec .coolantFault s = .next t ∧ t.thm.phase = 1 ∧ t.thm.since = s.timeUs ∧ t.thm.coolant = true
      ∧ t.reg pgThm 0 0 rThmAdjourns = s.reg pgThm 0 0 rThmAdjourns + 1 ∧ t.boot = s.boot
      ∧ (∀ e ∈ s.vaults, (s.vault e.1).watchman = none → (t.vault e.1).grant = 0 ∧ (t.vault e.1).mode = .memory)
      ∧ (∀ p, (s.part p).running = true → (t.part p).rolledBack = true))
  ∧ (∀ (s : State), s.thm.coolant = true → ∃ t, exec .coolantFaultRelease s = .next t
      ∧ t.thm = { s.thm with coolant := false, holdFrom := s.timeUs } ∧ Kept { thm := true } s t)
  ∧ (∀ (s : State) (temps : List Int) (power : Nat),
    (s.thm.resetHeld = false → s.boot.resetRequested = false → ∃ t, exec (.housekeepingRound temps power) s = .next t
      ∧ t.thm.hist = (temps.take 352 :: s.thm.hist).take 257 ∧ t.pwr.avg = power
      ∧ t.reg pgThm 0 0 rThmRounds = s.reg pgThm 0 0 rThmRounds + 1 ∧ t.timeUs = s.timeUs
      ∧ ∀ p < 288, (t.vault p).band = nextBand (s.vault p).band (t.governing p).1 ∧ (t.vault p).temp = BitVec.ofInt 16 (t.governing p).1)
    ∧ (s.thm.resetHeld = true → ∃ t, exec (.housekeepingRound temps power) s = .next t
      ∧ (t.thm.resetHeld = true ∧ t.tooWarm = true ∨ t.boot.state = .boot ∧ ResetLeaves s t)))
  ∧ (∀ (s : State), s.thm.phase = 1 → s.fab.isMember = false →
    (∀ us ≤ 50000, s.fencedHalf = none → ∃ t, exec (.sealedMove us) s = .next t ∧ t.thm.phase = 2 ∧ t.thm.sealedOk = true
      ∧ t.thm.sealUs = us ∧ t.thm.sealA = some (s.sealOf 0) ∧ t.thm.sealB = some (s.sealOf 1) ∧ Kept { thm := true } s t)
    ∧ (∃ t, exec .sealTimeout s = .next t ∧ t.thm.phase = 2 ∧ t.thm.sealedOk = false ∧ t.thm.sealA = none ∧ t.thm.sealB = none
      ∧ t.fld pgPwr 0 0 hErr 2 2 = 1 ∧ Kept { thm := true, regs := true } s t))
  ∧ (∀ (s : State), s.thm.phase = 2 → ∃ t, exec .adjournPhase3 s = .next t ∧ t.thm.phase = 3 ∧ t.boot.state = .adjourned
      ∧ t.boot.rails = [false, false, false, false, true, true] ∧ ∀ p < 288, (t.vault p).watchman.isSome = true)
  ∧ (∀ (s : State), s.boot.state = .adjourned → s.resumeOk = true → s.thm.sealA.isSome = true → s.thm.sealB.isSome = true →
    (s.boot.prior = .ready ∨ s.boot.prior = .degraded) → ∃ t, exec .resume s = .next t ∧ t.thm.phase = 0
      ∧ (t.boot.state = .ready ∨ t.boot.state = .degraded) ∧ t.boot.rails = [true, true, true, true, true, true])
  ∧ (∀ (s : State) (r : Nat), r < 6 → s.boot.rails.getD r false = true → s.abs.fence = none → ∃ t, exec (.railFault r) s = .next t
      ∧ t.boot.rails = s.boot.rails.set r false
      ∧ ∃ f, t.abs.fence = some f ∧ f.half = r % 2 ∧ f.stage = 0 ∧ f.escalated = false ∧ f.sramLost = decide (r < 2 ∨ 4 ≤ r))

/-- A device reset while the device is cool enough, the steward's watchdog, a RESET message of the guild and the good or
lost always-on supply go to the state their rule names with registers, cores, vaults, partitions, tables and sessions
as after reset, and fuses, NOR contents, host and far memory unchanged. The watchdog's reset shows its event; a RESET
message keeps the membership. While the device is too warm a reset is held. The settled hub supply goes from AON to
BOOT. (R374, R428, R430, R431, R432, R512) -/
def Obligations.ResetsLeaveWhatOutlivesThem : Prop :=
  (∀ (s : State), s.tooWarm = false →
    (∃ t, exec .deviceReset s = .next t ∧ t.boot.state = .boot ∧ t.regs = [] ∧ ResetLeaves s t)
    ∧ (∃ t, exec .stewardWatchdog s = .next t ∧ t.boot.state = .boot ∧ t.reg pgStw 0 0 rStwEvent = 0x80000005 ∧ ResetLeaves s t))
  ∧ (∀ (s : State), s.tooWarm = true → ∃ t, exec .deviceReset s = .next t ∧ t.thm.resetHeld = true
      ∧ t.boot = { s.boot with resetRequested := true } ∧ Kept { thm := true, boot := true } s t)
  ∧ (∀ (s : State) (m : FMsg), Accepts s m → s.tooWarm = false → ∃ t, exec (.reset m) s = .next t ∧ t.boot.state = .boot
      ∧ t.fab.isMember = true ∧ t.fab.members = s.fab.members ∧ t.fab.term = 0 ∧ ResetLeaves s t)
  ∧ (∀ (s : State), s.boot.state = .off → ∃ t, exec .aonSupplyGood s = .next t ∧ t.boot.state = .aon ∧ t.boot.aonGood = true
      ∧ ResetLeaves s t)
  ∧ (∀ (s : State), ∃ t, exec .aonSupplyLoss s = .next t ∧ t.boot.state = .off ∧ t.boot.aonGood = false ∧ ResetLeaves s t)
  ∧ (∀ (s : State), s.boot.state = .aon → s.thm.bringupHeld = false → ∃ t, exec .hubSupplySettled s = .next t
      ∧ t.boot.state = .boot ∧ t.boot.hubGood = true ∧ Kept { boot := true } s t)

/-- BOOT's end stays in BOOT with identity loaded where no image is good, and else enters TRAINING with the first nonce
drawn. An interface that trains is trained, one that does not is tried once more where its seeds were used. TRAINING's
end enters CHECK and disables untrained modules. The start-up test records its failures at each site. The topology
deadline declares the topology: READY, or DEGRADED where a reason stands, and names the missing ports. MODEL'S CHOICE:
the nonce is drawn at BOOT_DONE (assumption 71). (R430, R433, R434, R438, R439, R440, R447) -/
def Obligations.BringUpMovesThroughItsStates : Prop :=
  ∀ (s : State), s.thm.bringupHeld = false →
    (s.boot.state = .boot →
      (s.resolveFuses.checkImages.sec.image = 2 → ∃ t, exec .bootDone s = .next t ∧ t.boot.state = .boot ∧ t.boot.idLoaded = true
        ∧ t.d2d = s.d2d ∧ t.host.spur = s.host.spur)
      ∧ (s.resolveFuses.checkImages.sec.image ≠ 2 → ∃ t, exec .bootDone s = .next t ∧ t.boot.state = .training
        ∧ t.boot.trained = [] ∧ t.boot.idLoaded = true ∧ (∀ m ∈ t.d2d, m.st = .training)
        ∧ t.sec.nonce = Config.entropy s.sec.draws ∧ t.sec.draws = s.sec.draws + 1))
    ∧ (s.boot.state = .training →
      (∀ u < 305, smGet 0 s.boot.trained u = 0 →
        (∃ t, exec (.interfaceTrained u true) s = .next t ∧ smGet 0 t.boot.trained u = 2
          ∧ (∀ v, v ≠ u → smGet 0 t.boot.trained v = smGet 0 s.boot.trained v) ∧ Kept { boot := true, host := true, d2d := true } s t)
        ∧ (∃ t, exec (.interfaceTrained u false) s = .next t ∧ smGet 0 t.boot.trained u = (if s.boot.seedsValid then 1 else 3)
          ∧ (∀ v, v ≠ u → smGet 0 t.boot.trained v = smGet 0 s.boot.trained v) ∧ Kept { boot := true, host := true, d2d := true } s t))
      ∧ (∃ t, exec .trainingDone s = .next t ∧ t.boot.state = .check
        ∧ (∀ m < 16, smGet 0 s.boot.trained (289 + m) ≠ 2 → (t.mod m).st = .disabled)
        ∧ (∀ m < 16, smGet 0 s.boot.trained (289 + m) = 2 → t.mod m = s.mod m) ∧ Kept { boot := true, host := true, d2d := true } s t))
    ∧ (s.boot.state = .check → s.boot.tested = false → ∀ logic vaults d2d far opt routers treadle,
      ∃ t, exec (.startUpTestDone logic vaults d2d far opt routers treadle) s = .next t ∧ t.boot.tested = true
        ∧ t.pwr.treadleMax = treadle % 4096 ∧ t.boot.routerA = routers.contains 0 ∧ t.boot.routerB = routers.contains 1
        ∧ ∀ p < 288, (t.site p).testLogicFail = logic.contains p
          ∧ (t.site p).testVaultFail = (vaults.contains p || smGet 0 s.boot.trained p != 2))
    ∧ (s.boot.state = .check → s.boot.tested = true → ∃ t, exec .topologyDeadline s = .next t ∧ t.boot.declared = true
        ∧ t.boot.state = (if t.boot.reason = 0 then .ready else .degraded)
        ∧ (∀ n < 8, bit t.boot.missing n = (bit s.boot.named n && !bit s.boot.agreed n && !bit s.boot.miscabled n))
        ∧ Kept { boot := true } s t)

/-- A castling that is due, with a destination, begins gracefully at a boundary or abruptly with the core's flights ended;
the half shows it, the site is CASTLING, and it is counted. Its switch gives the new site the logical core and vault.
A granule that migrates leaves the list and is counted where it holds data; a lost old shell ends the migration. A
register error of a clerk sets its error bit and stops an inactive core's queues; a missed heartbeat asks for an
abrupt castling and rolls the core's partition back. (R168, R455, R456, R457, R458, R460, R461) -/
def Obligations.CastlingMovesACore : Prop :=
  (∀ (s : State) (half kind dest_ : Nat) (r : CastReq), s.castDue half = some r → s.castDest r = (kind, dest_) → kind ≠ 3 →
    (r.abrupt = false → s.atBoundary r.logical = true → ∃ t, exec (.castlingGraceful half) s = .next t ∧ Begun s t r kind dest_)
    ∧ (r.abrupt = true → ∃ t, exec (.castlingAbrupt half) s = .next t ∧ Begun s t r kind dest_ ∧ (t.core r.logical).flights = []))
  ∧ (∀ (s : State) (half v : Nat) (x : CastRun), s.castOf half = some x → x.copied = true → x.switched = false → s.abs.fence = none →
    x.kind = 0 → s.abs.migs = [] → s.vaultOf x.req.logical = some v → v ≠ x.toSite →
    ∃ t, exec (.castleSwitch half) s = .next t ∧ smFind t.boot.coreSite x.req.logical = some x.toSite
      ∧ (t.site x.toSite).core = 0 ∧ (t.site x.toSite).logical = x.req.logical
      ∧ (t.vault x.toSite).role = .logical ∧ (t.vault x.toSite).logical = x.req.logical)
  ∧ (∀ (s : State) (l g : Nat) (m : Migrate), s.abs.fence = none → s.abs.migs.find? (fun m => m.logical = l) = some m →
    (m.left.contains g = true → ∃ t, exec (.migrateGranule l g true) s = .next t
      ∧ (∀ x ∈ t.abs.migs, x.logical = l → x.left.contains g = false)
      ∧ (m.oldLost = false → (s.vault (m.src g)).isValid g = true → t.reg pgStw 0 0 rStwMigrated = s.reg pgStw 0 0 rStwMigrated + 1))
    ∧ (∃ t, exec (.oldShellLost l) s = .next t ∧ ∀ x ∈ t.abs.migs, x.logical ≠ l))
  ∧ (∀ (s : State) (c : Nat),
    (∃ t, exec (.clerkRegUe c) s = .next t ∧ t.fld pgClerk c 0 hErr 2 2 = 1
      ∧ (s.coreActive c = false → (∀ q ∈ (t.core c).qs, q.stopped = true) ∧ CoresKept s t [c] ∧ Kept { regs := true, cores := true, parts := true } s t))
    ∧ (s.coreActive c = true → (s.castDest ⟨c, 1, true, false⟩).1 ≠ 3 →
      s.abs.castWait.any (fun q => q.logical = c && q.vault = false) = false →
      ∃ t, exec (.clerkHeartbeatMiss c) s = .next t ∧ t.abs.castWait = s.abs.castWait ++ [⟨c, 1, true, false⟩] ∧ RolledBack s t c))

/-- Each rejoin stage acts only on a half at that stage: restart (which leaves the mesh's fault and replay counts),
training, shell restore, replay (which gives both halves the surviving half's roll and ledger), core restore, and
resume, which ends the fence. An escalation counts, ends the snapshot and answers every held host read with CA. A
successful retraining of an escalated half ends the fence with its vaults in MEMORY and no granule valid; a failed one
changes nothing. (R464, R465, R466, R467, R468) -/
def Obligations.ALostHalfRejoinsOrEscalates : Prop :=
  (∀ (s : State) (f : Fence), s.atStage 1 = some f → ∃ t, exec .rejoinRestart s = .next t ∧ t.abs.fence = some { f with stage := 1 }
      ∧ (∀ i, s.boot.rails.getD i false = true → t.boot.rails.getD i false = true)
      ∧ Kept { abs := true, boot := true } s t)
  ∧ (∀ (s : State) (f : Fence), s.atStage 2 = some f → ∃ t, exec .rejoinTrain s = .next t ∧ t.abs.fence = some { f with stage := 2 }
      ∧ t.host.spur = true ∧ (∀ m ∈ t.d2d, m.st = .failed ∨ m.st = .up) ∧ Kept { abs := true, d2d := true, host := true, boot := true } s t)
  ∧ (∀ (s : State) (f : Fence), s.atStage 3 = some f → ∃ t g, exec .rejoinShellRestore s = .next t ∧ t.abs.fence = some g
      ∧ g.stage = 3 ∧ g.half = f.half
      ∧ ∀ p ∈ halfVaults f.half, (s.vault p).role ≠ .disabled → (t.vault p).watchman = none ∧ (t.vault p).mode = .memory ∧ (t.vault p).change = [])
  ∧ (∀ (s : State) (f : Fence), s.atStage 4 = some f → f.msgs = [] → f.orders = [] → s.host.posted = [] → s.host.reads = [] →
    s.abs.heldRecs = [] → ∃ t, exec .rejoinReplay s = .next t ∧ t.abs.fence = some { f with stage := 4 }
      ∧ t.rollA = t.rollB ∧ t.ledgA = t.ledgB ∧ (if f.half = 0 then t.rollA = s.rollB ∧ t.ledgA = s.ledgB else t.rollA = s.rollA ∧ t.ledgA = s.ledgA))
  ∧ (∀ (s : State) (f : Fence), s.atStage 5 = some f → ∃ t g, exec .rejoinCoreRestore s = .next t ∧ t.abs.fence = some g ∧ g.stage = 5
      ∧ ∀ p ∈ f.parts, ∀ c ∈ (s.part p).cores, coreHalf c = f.half → (t.core c).flights = [])
  ∧ (∀ (s : State) (f : Fence), s.atStage 6 = some f → ∃ t, exec .rejoinResume s = .next t ∧ t.abs.fence = none
      ∧ t.abs.fenceUs = min 1048575 (s.timeUs - f.since))
  ∧ (∀ (s : State) (f : Fence), s.abs.fence = some f →
    (f.escalated = false → ∃ t g, exec .halfEscalate s = .next t ∧ t.abs.fence = some g ∧ g.escalated = true ∧ g.half = f.half
      ∧ t.reg pgStw 0 0 rStwEscalations = s.reg pgStw 0 0 rStwEscalations + 1 ∧ t.snap = none ∧ t.host.reads = [] ∧ t.host.posted = []
      ∧ ∀ r ∈ s.host.reads, .cpl r.1 r.2.1 2 ∈ t.sent)
    ∧ (f.escalated = true → ∃ t, exec (.halfRetrain true) s = .next t ∧ t.abs.fence = none
      ∧ ∀ p ∈ halfVaults f.half, (t.vault p).watchman = none ∧ (t.vault p).mode = .memory
        ∧ ∀ g < 262144, (t.vault p).isValid g = false)
    ∧ exec (.halfRetrain false) s = .next s)

/-- SESSION_OPEN with the right response opens its transport's session and clears the failures; with a wrong one it stays
closed, the failure and the lockout of min(2^n, 1024) x 10 ms are recorded; each draws a new nonce. A close or idle
timeout closes only its own session. A commit in an open session raises its counter to a target above it (FIRMWARE no
further than the running image), an OWNER commit also clears the owner key and the sessions and a GUILD commit the
guild key; without a session it is refused and counted. MODEL'S CHOICE: readings of assumption 72. (R487, R488, R494,
R495, R496, R497) -/
def Obligations.SessionsOpenAndCommitsRaise : Prop :=
  (∀ (s : State) (tr : Nat), s.transportUp tr = true →
      (∀ key, s.sec.owner = some key → s.sec.lockUntil ≤ s.timeUs →
        (s.respBytes = s.sessionMac key tr → ∃ t, exec (.sessionOpen tr) s = .next t
          ∧ t.session tr = { s.session tr with opened := true, last := s.timeUs } ∧ t.session (1 - tr) = s.session (1 - tr)
          ∧ t.sec.fails = 0 ∧ NewNonce s t ∧ t.reg pgSec 0 0 rSecSessions = s.reg pgSec 0 0 rSecSessions + 1
          ∧ Kept { sec := true, regs := true } s t)
        ∧ (s.respBytes ≠ s.sessionMac key tr → ∃ t, exec (.sessionOpen tr) s = .next t
          ∧ (t.session tr).opened = false ∧ t.session (1 - tr) = s.session (1 - tr) ∧ t.sec.fails = s.sec.fails + 1
          ∧ t.sec.lockUntil = s.timeUs + min (2 ^ s.sec.fails * 10000) 10240000 ∧ NewNonce s t
          ∧ t.reg pgSec 0 0 rSecAuthFails = s.reg pgSec 0 0 rSecAuthFails + 1 ∧ t.fld pgSec 0 0 hErr 1 1 = 1
          ∧ Kept { sec := true, regs := true } s t))
      ∧ (s.sec.owner = none → ∃ t, exec (.sessionOpen tr) s = .next t ∧ (t.session tr).opened = false ∧ t.sec.fails = s.sec.fails + 1
        ∧ Kept { sec := true, regs := true } s t)
      ∧ (∃ t, exec (.sessionClose tr) s = .next t ∧ (t.session tr).opened = false ∧ t.session (1 - tr) = s.session (1 - tr)
        ∧ t.sec.nonce = s.sec.nonce ∧ Kept { sec := true } s t)
      ∧ (s.fld pgSec 0 0 rSecSession 31 16 ≠ 0 → ∃ t, exec (.sessionIdleTimeout tr) s = .next t ∧ (t.session tr).opened = false
        ∧ t.session (1 - tr) = s.session (1 - tr) ∧ Kept { sec := true } s t))
  ∧ ((∀ (s : State) (k fn tr target : Nat), k < 4 → transportOf fn = some tr → s.transportUp tr = true → (s.session tr).opened = true →
      s.sec.svn.length = 4 → target ≤ 64 → s.svnOf k < target → (k = 0 → target ≤ s.sec.runSvn) →
      ∃ t, exec (svnCmd k fn target) s = .next t ∧ t.svnOf k = target ∧ (∀ j < 4, j ≠ k → t.svnOf j = s.svnOf j)
        ∧ (k = 2 → t.sec.owner = none ∧ t.sec.pf1.opened = false ∧ t.sec.sb.opened = false)
        ∧ (k = 3 → t.sec.guildKey = none) ∧ (k ≠ 2 → t.sec.owner = s.sec.owner ∧ (t.session tr).opened = true)
        ∧ Kept { sec := true, fuse := true } s t)
    ∧ (∀ (s : State) (k fn tr target : Nat), k < 4 → transportOf fn = some tr → s.transportUp tr = true → (s.session tr).opened = false →
      s.reg pgSec 0 0 hRefuse < 0xFFFFFFFF → ∃ t, exec (svnCmd k fn target) s = .next t ∧ t.sec.svn = s.sec.svn ∧ t.sec.owner = s.sec.owner
        ∧ t.reg pgSec 0 0 hRefuse = s.reg pgSec 0 0 hRefuse + 1 ∧ Kept { sec := true, regs := true } s t))

/-- The responder answers GET_VERSION, GET_CAPABILITIES, NEGOTIATE_ALGORITHMS, GET_DIGESTS, GET_CERTIFICATE, CHALLENGE,
GET_MEASUREMENTS and the two chunk requests in the stages their order gives, each answer counted in SEC_SPDM_MSGS and
each signature in SEC_QUOTES; a device in ROM only answers with an error. MODEL'S CHOICE: the byte layouts of SPDM 1.3
messages are presumed, for the spec gives none (assumption 73); the alias certificate and signatures are free values
(assumption 13). (R490, R491, R492, R493, R539) -/
def Obligations.TheResponderIdentifiesTheDevice : Prop :=
  (∀ (s : State), (s.boot.state = .ready ∨ s.boot.state = .degraded) → s.sec.aliasReady = false → ∃ t, exec .aliasCertReady s = .next t
      ∧ t.sec.aliasReady = true ∧ t.sec.draws = s.sec.draws + 1
      ∧ (∃ sg, t.sec.aliasCert = Config.aliasCert s.boot.serial (Config.slhPublic 1 s.aliasKey) sg) ∧ Kept { sec := true } s t)
  ∧ (∀ (s : State) (tr : Nat) (r : List Byte), s.transportUp tr = true → s.boot.idLoaded = true → s.romOnly = true →
    ∃ t, exec (.getVersion tr r) s = .next t ∧ Answered s t tr (spdmError 0x05 0) ∧ Kept { sec := true, regs := true, sent := true } s t)
  ∧ (∀ (s : State) (tr : Nat) (r : List Byte), Responds s tr →
    let x := s.spdm tr
    (∃ t, exec (.getVersion tr r) s = .next t ∧ Answered s t tr [0x10, 0x04, 0, 0, 0, 1, 0x00, 0x13] ∧ (t.spdm tr).stage = 1
      ∧ (t.spdm tr).chunkIn = none ∧ (t.spdm tr).chunkOut = none ∧ Kept { sec := true, regs := true, sent := true } s t)
    ∧ (x.stage = 1 → 42 ≤ reqNat r 12 4 → ∃ t a, exec (.getCapabilities tr r) s = .next t ∧ Answered s t tr a ∧ a.length = 20
      ∧ (t.spdm tr).stage = 2 ∧ (t.spdm tr).peerSize = reqNat r 12 4 ∧ Kept { sec := true, regs := true, sent := true } s t)
    ∧ (x.stage = 2 → 44 ≤ s.spdmLimit tr → ∃ t a, exec (.negotiateAlgorithms tr r) s = .next t ∧ Answered s t tr a
      ∧ (t.spdm tr).stage = 3 ∧ (t.spdm tr).alg = (s.reg pgSec 0 0 rSecSpdmAlg).toNat
      ∧ (s.fld pgSec 0 0 rSecSpdmAlg 31 24 = 0 → (t.spdm tr).algSel = false) ∧ Kept { sec := true, regs := true, sent := true } s t)
    ∧ (x.stage = 3 → ∀ c, s.certChain = some c →
      (36 ≤ s.spdmLimit tr → ∃ t, exec (.getDigests tr r) s = .next t ∧ Answered s t tr ([0x13, 0x01, 1, 1] ++ sha256 c)
        ∧ Kept { sec := true, regs := true, sent := true } s t)
      ∧ (let o := reqNat r 4 2
         let n := min (reqNat r 6 2) (min (c.length - o) 65528)
         reqByte r 2 % 16 = 0 → bit (reqByte r 3) 0 = false → o < c.length → 8 + n ≤ s.spdmLimit tr →
          ∃ t, exec (.getCertificate tr r) s = .next t
            ∧ Answered s t tr ([0x13, 0x02, 0, 0] ++ leBytes 2 n ++ leBytes 2 (c.length - o - n) ++ (c.drop o).take n)
            ∧ Kept { sec := true, regs := true, sent := true } s t)
      ∧ (bits x.alg 31 24 ≠ 0 → x.algSel = true → s.sec.aliasReady = true → s.signing = false → reqByte r 2 % 16 = 0 →
          ∃ t a, exec (.challenge tr r) s = .next t ∧ Answered s t tr a ∧ t.reg pgSec 0 0 rSecQuotes = s.reg pgSec 0 0 rSecQuotes + 1
            ∧ s.timeUs ≤ t.sec.signUntil ∧ t.sec.signUntil ≤ s.timeUs + 20000 ∧ (t.spdm tr).msgB = []
            ∧ Kept { sec := true, regs := true, free := true, sent := true } s t))
    ∧ (x.stage = 3 → reqByte r 3 = 0 → bit (reqByte r 2) 0 = false → 50 ≤ s.spdmLimit tr →
      ∃ t, exec (.getMeasurements tr r) s = .next t
        ∧ Answered s t tr ([0x13, 0x60, 70, 0, 0, 0, 0, 0] ++ leBytes 32 (Config.entropy s.sec.draws).toNat ++ [0, 0] ++ sized 8 ((r.drop 4).take 8))
        ∧ Kept { sec := true, regs := true, sent := true } s t)
    ∧ (bit (reqByte r 2) 0 = false → reqNat r 4 2 = 0 → reqNat r 8 4 ≤ 65536 → ∃ t, exec (.chunkSend tr r) s = .next t
      ∧ (t.spdm tr).chunkIn = some (reqByte r 3, 1, (r.drop 16).take (reqNat r 8 4))
      ∧ Answered s t tr [0x13, 0x05, 0, BitVec.ofNat 8 (reqByte r 3), 0, 0] ∧ Kept { sec := true, regs := true, sent := true } s t)
    ∧ (∀ h q bs, x.chunkOut = some (h, q, bs) → reqByte r 3 = h → reqNat r 4 2 = q → bs.length + 16 ≤ s.spdmLimit tr →
      ∃ t a, exec (.chunkGet tr r) s = .next t ∧ Answered s t tr (a ++ bs) ∧ (t.spdm tr).chunkOut = none
        ∧ Kept { sec := true, regs := true, sent := true } s t))

/-- GET_INFO, SET_OWNER while no owner is set, READ_LOG, and in an open session SET_GUILD_KEY outside a guild,
WRITE_CONFIG, WRITE_IMAGE to the image that does not run, and RESET_DEVICE complete with OK and their tag: the key is
sealed in the configuration of both NOR devices, the bytes stand where they were written, and what runs is unchanged
until a reset. MODEL'S CHOICE: register commands and the mailbox in ROM follow assumption 74. (R489, R497, R514, R515,
R516) -/
def Obligations.TheStewardAnswersItsMailbox : Prop :=
  ∀ (s : State) (tag : Nat), s.transportUp 1 = true → s.romOnly = false →
    (∃ t, exec (.getInfo 1 tag) s = .next t ∧ MboxDone s t tag 1 [] ∧ t.sec.sbArgs.headD 0 = BitVec.ofNat 32 (s.serialWord % 4294967296)
      ∧ Kept { sec := true, regs := true, sent := true } s t)
    ∧ (∀ key, s.sec.owner = none → ∃ t, exec (.setOwner 1 tag key) s = .next t ∧ MboxDone s t tag 3 []
      ∧ t.sec.owner = some (sized 32 key) ∧ t.openKey "RSNL-OWN" "RSNL-OTG" 2 t.sec.norA.cfg.owner = some (sized 32 key)
      ∧ t.sec.norA.cfg.epoch = (s.sec.norA.cfg.epoch + 1) % 4294967296 ∧ Kept { sec := true, regs := true, sent := true } s t)
    ∧ (∀ first count, 1 ≤ count → count ≤ 64 → ∃ t bs, exec (.readLog 1 tag first count) s = .next t ∧ MboxDone s t tag 7 bs
      ∧ bs.length = 32 * (s.elog.recent.filter (fun e => decide ((e % 65536 + 65536 - first % 65536) % 65536 < count))).length
      ∧ Kept { sec := true, regs := true, sent := true } s t)
    ∧ ((s.session 1).opened = true →
      (∀ key, s.fab.isMember = false → ∃ t, exec (.setGuildKey 1 tag key) s = .next t ∧ MboxDone s t tag 4 []
        ∧ t.sec.guildKey = some (sized 32 key) ∧ t.sec.owner = s.sec.owner ∧ Kept { sec := true, regs := true, sent := true } s t)
      ∧ (∀ off len bs, 1 ≤ len → len ≤ 2048 → off + len ≤ 4194304 → ∃ t, exec (.writeConfig 1 tag off len bs) s = .next t
        ∧ MboxDone s t tag 8 [] ∧ memBytes t.sec.norA.cfg.bytes off len = sized len bs ∧ memBytes t.sec.norB.cfg.bytes off len = sized len bs
        ∧ t.sec.cfgRun = s.sec.cfgRun ∧ Kept { sec := true, regs := true, sent := true } s t)
      ∧ (∀ off len bs, 1 ≤ len → len ≤ 2048 → off + len ≤ 8388608 → s.sec.image ≠ 1 → ∃ t, exec (.writeImage 1 tag 1 off len bs) s = .next t
        ∧ MboxDone s t tag 9 [] ∧ memBytes t.sec.norB.image off len = sized len bs ∧ t.sec.norA = s.sec.norA
        ∧ t.sec.image = s.sec.image ∧ Kept { sec := true, regs := true, sent := true } s t)
      ∧ (s.tooWarm = false → ∃ t, exec (.resetDevice 1 tag) s = .next t ∧ t.boot.state = .boot ∧ ResetLeaves s t))

/-- A write of PWR_CAP stores its value held to 350 to 2,400 W and counts the clamp; WRITE_REG does the same in a sideband
session. A low-half read of STW_SERIAL answers it and latches the high half for the next high-half read of the same
function; READ_REG answers both halves. A bad access reads 0 and counts STW_BAD_ACCESS. CTL's clear zeroes BLK_CLAMP
and BLK_REFUSE of its page only. INT_FORCE sets the interrupt bits it names. Other registers are unchanged. (R7, R8,
R10, R502, R505, R507, R515) -/
def Obligations.RegistersAreWrittenAndRead : Prop :=
  (∀ (s : State) (fn off : Nat) (v : DWord), Hits s fn off pgPwr 0 rPwrCap →
    ∃ t, exec (.regWrite fn off false v) s = .next t ∧ t.fld pgPwr 0 0 rPwrCap 11 0 = min 2400 (max 350 (bits v.toNat 11 0))
      ∧ t.reg pgPwr 0 0 hClamp = (if 350 ≤ bits v.toNat 11 0 ∧ bits v.toNat 11 0 ≤ 2400 then s.reg pgPwr 0 0 hClamp
          else BitVec.ofNat 64 (min 0xFFFFFFFF ((s.reg pgPwr 0 0 hClamp).toNat + 1)))
      ∧ RegsKept s t [regKey pgPwr 0 0 rPwrCap, regKey pgPwr 0 0 hClamp, regKey pgPwr 0 0 hSts] ∧ Kept { regs := true } s t)
  ∧ (∀ (s : State) (tag off : Nat) (v : DWord), Hits s 66 off pgPwr 0 rPwrCap → s.romOnly = false → s.sec.sb.opened = true →
    350 ≤ v.toNat → v.toNat ≤ 2400 → ∃ t, exec (.writeReg tag off false v) s = .next t ∧ MboxDone s t tag 6 []
      ∧ t.fld pgPwr 0 0 rPwrCap 11 0 = v.toNat ∧ Kept { regs := true, sec := true, sent := true } s t)
  ∧ (∀ (s : State) (fn tag off : Nat), Hits s fn off pgIdent 0 rStwSerial →
    ∃ t, exec (.regReadLowLatch fn tag off false) s = .next t ∧ t.sent = .data fn tag (BitVec.ofNat 64 (s.serialWord % 4294967296)) :: s.sent
      ∧ smFind t.latch (latchKey fn pgIdent 0) = some (rStwSerial + 4, BitVec.ofNat 64 (s.serialWord % 18446744073709551616 / 4294967296))
      ∧ t.regs = s.regs ∧ Kept { regs := true, sent := true } s t)
  ∧ (∀ (s : State) (fn tag off : Nat) (v : DWord), Hits s fn off pgIdent 0 (rStwSerial + 4) →
    smFind s.latch (latchKey fn pgIdent 0) = some (rStwSerial + 4, v) →
    ∃ t, exec (.regReadLowLatch fn tag off false) s = .next t ∧ t.sent = .data fn tag v :: s.sent
      ∧ smFind t.latch (latchKey fn pgIdent 0) = none ∧ t.regs = s.regs ∧ Kept { regs := true, sent := true } s t)
  ∧ (∀ (s : State) (tag off : Nat), Hits s 66 off pgIdent 0 rStwSerial → s.romOnly = false →
    ∃ t, exec (.readReg tag off true) s = .next t ∧ MboxDone s t tag 5 [] ∧ t.sec.sbArgs.getD 2 0 = BitVec.ofNat 32 (s.serialWord % 4294967296)
      ∧ Kept { regs := true, sec := true, sent := true } s t)
  ∧ (∀ (s : State) (fn tag : Nat), s.hubOn = true → s.hostUp = true →
    ∃ t, exec (.badAccess fn tag true) s = .next t ∧ t.sent = .data fn tag 0 :: s.sent ∧ t.fld pgStw 0 0 hErr 0 0 = 1
      ∧ t.reg pgStw 0 0 rStwBadAccess = s.reg pgStw 0 0 rStwBadAccess + 1
      ∧ RegsKept s t [regKey pgStw 0 0 rStwBadAccess, regKey pgStw 0 0 hErr] ∧ Kept { regs := true, sent := true } s t)
  ∧ (∀ (s : State) (fn page code inst : Nat),
    (Hits s fn (page * 4096 + hCtl) code inst hCtl → ∃ t, exec (.clearCounts fn page) s = .next t
      ∧ t.reg code inst 0 hClamp = 0 ∧ t.reg code inst 0 hRefuse = 0
      ∧ RegsKept s t [regKey code (regInst code inst) 0 hClamp, regKey code (regInst code inst) 0 hRefuse] ∧ Kept { regs := true, sec := true } s t)
    ∧ (Hits s fn (page * 4096 + hIntForce) pgThm 0 hIntForce → ∀ v : Word, ∃ t, exec (.intForce fn page v) s = .next t
      ∧ t.reg pgThm 0 0 hIntSts = BitVec.ofNat 64 ((s.reg pgThm 0 0 hIntSts).toNat ||| (v.toNat &&& 15))
      ∧ t.reg pgThm 0 0 hIntEn = s.reg pgThm 0 0 hIntEn))

/-- LOOM_SHELF takes allowed quotas and sets 4 each otherwise. VLT_DISCARD outside serving clears the valid bits of its
range, ends at its own time, and is refused while its partition serves. RNG_ALM_DATA writes the almanac and advances
the address while nothing serves, and is refused otherwise. PWR_SHED_TX sets the level and floods it. STW_CAST_REQ
queues a castling of an active core and is refused for another. FAB_RESET_GUILD and FAB_RESET_MARKET reset the device
from its master only. (R88, R192, R202, R312, R374, R405, R455, R481) -/
def Obligations.RegistersThatCommand : Prop :=
  (∀ (s : State) (fn core : Nat) (v : Word), Meets s fn pgLoom core rLoomShelf →
    (QuotasAllowed v.toNat → ∃ t, exec (.loomShelfWrite fn core v) s = .next t ∧ t.fld pgLoom core 0 rLoomShelf 15 0 = bits v.toNat 15 0
      ∧ t.reg pgLoom core 0 hClamp = s.reg pgLoom core 0 hClamp ∧ Kept { regs := true } s t)
    ∧ (¬ QuotasAllowed v.toNat → ∃ t, exec (.loomShelfWrite fn core v) s = .next t ∧ t.fld pgLoom core 0 rLoomShelf 15 0 = 0x4444
      ∧ Kept { regs := true } s t))
  ∧ (∀ (s : State) (fn v first n : Nat), Meets s fn pgVlt v rVltDiscard → first + n ≤ 262144 → 1 ≤ n → first < 262144 →
    (s.servingPart (s.vault v).part = false → (s.vault v).discard = none → (s.vault v).mode = .memory → s.snap = none → s.abs.migs = [] →
      ∃ t, exec (.vltDiscard fn v (BitVec.ofNat 64 (n <<< 32 + first))) s = .next t ∧ (t.vault v).discard = some (first, n)
        ∧ (∀ g, (t.vault v).isValid g = ((s.vault v).isValid g && !(decide (first ≤ g) && decide (g < first + n))))
        ∧ (t.vault v).arr = (s.vault v).arr ∧ VaultsKept s t [v] ∧ Kept { regs := true, vaults := true } s t)
    ∧ (s.servingPart (s.vault v).part = true → ∃ t, exec (.vltDiscard fn v (BitVec.ofNat 64 (n <<< 32 + first))) s = .next t
        ∧ RefusedAt s t pgVlt v ∧ t.vaults = s.vaults))
  ∧ (∀ (s : State) (v : Nat) (d : Nat × Nat), (s.vault v).discard = some d → (s.vault v).held = [] →
    ∃ t, exec (.discardDone v) s = .next t ∧ t.vault v = { s.vault v with discard := none } ∧ VaultsKept s t [v] ∧ Kept { vaults := true } s t)
  ∧ (∀ (s : State) (fn : Nat) (v : Word), Meets s fn pgRng 0 rRngAlmData →
    let a := s.fld pgRng 0 0 rRngAlmAddr 13 0
    (NothingServes s → ∃ t, exec (.rngAlmDataWrite fn v) s = .next t ∧ t.alm = smPut s.alm a v
      ∧ t.fld pgRng 0 0 rRngAlmAddr 13 0 = (a + 1) % 16384 ∧ Kept { regs := true, alm := true } s t)
    ∧ (¬ NothingServes s → ∃ t, exec (.rngAlmDataWrite fn v) s = .next t ∧ RefusedAt s t pgRng 0))
  ∧ (∀ (s : State) (fn : Nat) (v : Word), Meets s fn pgPwr 0 rPwrShedTx →
    let level := bits v.toNat 11 0
    ∃ t, exec (.pwrShedTx fn v) s = .next t ∧ t.pwr.msgShed = (if level = 0 then 0 else min 2400 (max 350 level))
      ∧ t.pwr.shedTx = s.nextShed ∧ t.pwr.shedRx = s.nextShed
      ∧ (∀ e ∈ s.fab.members, e.1 ≠ s.fab.device →
          .fab (asSent s ⟨0x0B, e.1, 0, s.fab.guild, 0, false, level + s.nextShed <<< 16, []⟩) ∈ t.sent)
      ∧ Kept { pwr := true, regs := true, fab := true, sent := true } s t)
  ∧ (∀ (s : State) (fn : Nat) (v : Word), Meets s fn pgStw 0 rStwCastReq →
    let r : CastReq := ⟨bits v.toNat 7 0, 0, false, bit v.toNat 8⟩
    (s.castOf (coreHalf r.logical) = none → s.coreActive r.logical = true → (s.castDest r).1 ≠ 3 →
      s.abs.castWait.any (fun q => q.logical = r.logical && q.vault = r.vault) = false →
      ∃ t, exec (.stwCastReq fn v) s = .next t ∧ t.abs = { s.abs with castWait := s.abs.castWait ++ [r] } ∧ t.regs = s.regs
        ∧ Kept { abs := true, regs := true } s t)
    ∧ (s.coreActive r.logical = false → ∃ t, exec (.stwCastReq fn v) s = .next t ∧ RefusedAt s t pgStw 0))
  ∧ (∀ (s : State) (fn : Nat), Meets s fn pgFab 0 rFabCtl →
    (s.isMaster = true → s.tooWarm = false → ∃ t, exec (.fabResetGuild fn) s = .next t ∧ t.boot.state = .boot ∧ t.fab.members = s.fab.members
      ∧ t.fab.term = 0 ∧ ResetLeaves s t)
    ∧ (s.isMaster = false → ∃ t, exec (.fabResetGuild fn) s = .next t ∧ RefusedAt s t pgFab 0)
    ∧ (s.isMarketMaster = true → s.tooWarm = false → ∃ t, exec (.fabResetMarket fn) s = .next t ∧ t.boot.state = .boot
      ∧ t.fab.members = s.fab.members ∧ t.fab.term = 0 ∧ ResetLeaves s t)
    ∧ (s.isMarketMaster = false → ∃ t, exec (.fabResetMarket fn) s = .next t ∧ RefusedAt s t pgFab 0))

/-- Once the earlier writes of its function are seen, a request doorbell sets the tail where that is no more than the ring
holds, and otherwise the tail a full ring has, with the clamp bit set. A token head doorbell within the written
records sets the head and frees each finished stream whose end record it passes. The admin and completion doorbells
set their pointers and nothing else. (R257, R258, R260) -/
def Obligations.RingsMoveWithTheirDoorbells : Prop :=
  (∀ (s : State) (fn p v : Nat), s.bellOpen fn p = true → RingOff s p → s.host.bells = [] → s.writesSeen fn = true →
      (let n := s.fld pgFore 0 p rForeReqCfg 4 0
       let h := (s.part p).reqHead
       let d := (v % (2 * 2 ^ n) + 2 * 2 ^ n - h % (2 * 2 ^ n)) % (2 * 2 ^ n)
       (d ≤ 2 ^ n → ∃ t, exec (.requestDoorbell fn p v) s = .next t ∧ t.part p = { s.part p with reqTail := v % (2 * 2 ^ n) }
          ∧ PartsKept s t [p] ∧ Kept { parts := true } s t)
       ∧ (d > 2 ^ n → ∃ t, exec (.requestDoorbell fn p v) s = .next t ∧ t.part p = { s.part p with reqTail := (h + 2 ^ n) % (2 * 2 ^ n) }
          ∧ PartsKept s t [p] ∧ t.fld pgFore 0 0 hSts 31 31 = 1 ∧ Kept { parts := true, regs := true } s t))
      ∧ (let n := s.fld pgFore 0 p rForeTokCfg 4 0
         let m := 2 * 2 ^ n
         let h := (s.part p).tokHead
         let moved := (v % m + m - h % m) % m
         moved ≤ ((s.part p).tokTail + m - h % m) % m → s.abs.heldRecs = [] → s.abs.adoptWait = [] →
          ∃ t, exec (.tokenHeadDoorbell fn p v) s = .next t ∧ (t.part p).tokHead = v % m
            ∧ (∀ k, (s.stream k).part = p → (s.stream k).st = .done → (smFind s.rollAll k).isSome → s.abs.fence = none →
                ((s.stream k).endAt % m + m - h % m) % m < moved → (t.stream k).st = .free ∧ (t.stream k).gen = (s.stream k).gen)))
  ∧ (∀ (s : State) (v : Nat), AdminOff s →
      (let n := s.fld pgFore 0 0 rForeAdmCfg 4 0
       (v % (2 * 2 ^ n) + 2 * 2 ^ n - s.admHead % (2 * 2 ^ n)) % (2 * 2 ^ n) ≤ 2 ^ n →
        ∃ t, exec (.adminDoorbell v) s = .next t ∧ t = { s with admTail := v % (2 * 2 ^ n) })
      ∧ (let n := s.fld pgFore 0 0 rForeAdmCfg 12 8
         (v % (2 * 2 ^ n) + 2 * 2 ^ n - s.acqHead % (2 * 2 ^ n)) % (2 * 2 ^ n)
            ≤ (s.acqTail + 2 * 2 ^ n - s.acqHead % (2 * 2 ^ n)) % (2 * 2 ^ n) →
        ∃ t, exec (.adminCqHeadDoorbell v) s = .next t ∧ t = { s with acqHead := v % (2 * 2 ^ n) }))

/-- A SUBMIT at the ring's head with a loaded pattern, a history inside the window and a free entry gives that entry the
next generation in ADMITTED with the request's fields, and advances the ring. A CONTINUE of an idle or pinned stream
enters PREFILL with its prompt extended by no more than the capacity left, or by 1 where none is left (MODEL'S CHOICE,
assumption 119). Other streams, partitions, cores and vaults keep what they held. TOKEN_MSIX sends the partition's
interrupt where its threshold is reached. (R259, R262, R271, R273) -/
def Obligations.RequestsBecomeStreams : Prop :=
  (∀ (s : State) (p n : Nat) (w : List Nat), s.host.bells = [] → s.ringHead p = some w → bits (w.getD 0 0) 7 0 = 1 →
    let f := reqFields w
    ((s.part p).pattern (bits (w.getD 0 0) 31 16)).isSome → s.histInWindow p f.hist (f.nPrompt + f.maxNew) = true →
    (s.part p).farFull = false → s.takeStream p = some n → bit f.opts 16 = false → NotMirrored s p → s.abs.fence = none →
    ∃ t, exec (.submit p) s = .next t
      ∧ (t.stream n).st = .admitted ∧ (t.stream n).part = p ∧ (t.stream n).gen = ((s.stream n).gen + 1) % 16
      ∧ (t.stream n).tag = f.tag ∧ (t.stream n).nPrompt = f.nPrompt ∧ (t.stream n).maxNew = f.maxNew ∧ (t.stream n).pos = 0
      ∧ (t.stream n).pattern = bits (w.getD 0 0) 31 16 ∧ (t.stream n).cls = bits (w.getD 0 0) 11 10
      ∧ (t.part p).reqHead = ((s.part p).reqHead + 1) % (2 * 2 ^ s.fld pgFore 0 p rForeReqCfg 4 0)
      ∧ (∀ k, k ≠ n → t.stream k = s.stream k) ∧ PartsKept s t [p] ∧ t.cores = s.cores ∧ t.vaults = s.vaults)
  ∧ (∀ (s : State) (p n : Nat) (w : List Nat), s.host.bells = [] → s.ringHead p = some w → bits (w.getD 0 0) 7 0 = 2 →
    n = bits (w.getD 8 0) 17 0 →
    let e := s.stream n
    let left := max 1 (e.cap - e.total)
    e.part = p → e.gen = bits (w.getD 8 0) 21 18 → (e.idle = true ∨ e.st = .parked ∧ e.pinned = true) → NotMirrored s p →
    s.abs.fence = none →
    ∃ t, exec (.continue p) s = .next t ∧ (t.stream n).st = .prefill ∧ (t.stream n).pos = e.pos ∧ (t.stream n).gen = e.gen
      ∧ (t.stream n).nPrompt = e.nPrompt + min left (max 1 (bits (w.getD 4 0) 22 0))
      ∧ (t.part p).reqHead = ((s.part p).reqHead + 1) % (2 * 2 ^ s.fld pgFore 0 p rForeReqCfg 4 0)
      ∧ (∀ k, k ≠ n → t.stream k = s.stream k) ∧ PartsKept s t [p] ∧ t.cores = s.cores ∧ t.vaults = s.vaults)
  ∧ (∀ (s : State) (p : Nat), (s.part p).tokTimes ≠ [] → s.fld pgFore 0 p rForeMsix 12 0 ≤ (s.part p).tokTimes.length →
    ∃ t, exec (.tokenMsix p) s = .next t ∧ t.sent = (if s.host.bme.contains (p + 2) then .msix (p + 2) 0 else .msix 0 p) :: s.sent
      ∧ t.part p = { s.part p with msixAt := some s.timeUs } ∧ PartsKept s t [p] ∧ Kept { parts := true, sent := true } s t)

/-- A step that is due and allowed starts with the chosen pattern and set, counts, marks its streams, and lets each core's
queue 0 and loom 0 be served first. A draft sub-step uses one up. The end of a step of one stream leaves a voided
stream where it was, its last step too (counting the void unless uncounted), advances a prefill by its rows, and a
decode by its kept tokens, emitted alike. A recompute step takes the next rows of its stream alone and keeps its
state. MODEL'S CHOICE: the readings of assumption 66. (R130, R274, R275, R278, R283, R284, R327) -/
def Obligations.StepsStartAndEnd : Prop :=
  (∀ (s : State) (p pid : Nat) (set : List StepEntry), s.host.bells = [] → StepDue s p → s.staggerOk p = true →
    s.chooseStep p = some (pid, set) →
    ∃ t, exec (.stepStart p) s = .next t ∧ (t.part p).running = true ∧ (t.part p).steps = (s.part p).steps + 1
      ∧ (t.part p).stepPattern = pid ∧ (∀ e ∈ set, (∃ x ∈ (t.part p).set, x.stream = e.stream) ∧ (t.stream e.stream).inStep = true)
      ∧ (∀ c ∈ (s.part p).cores, s.coreActive c = true → ((s.part p).pattern pid).isSome = true → (t.part p).draftPhase = false →
          (t.core c).lastQ = 3 ∧ (t.core c).rot = 0)
      ∧ t.reg pgFore 0 p rForeSteps = s.reg pgFore 0 p rForeSteps + 1 ∧ PartsKept s t [p])
  ∧ (∀ (s : State) (p : Nat), let x := s.part p
    x.running = true → x.draftPhase = true → x.draftsLeft ≠ 0 → x.rolledBack = false → s.partQuiet p = true → s.partHeld p = false →
    ∃ t, exec (.draftSubstep p) s = .next t ∧ t.part p = { x with draftsLeft := x.draftsLeft - 1 } ∧ PartsKept s t [p])
  ∧ (∀ (s : State) (p : Nat) (e : StepEntry), s.host.bells = [] → StepOver s p → (s.part p).set = [e] → (s.part p).after = [] → RingOff s p → AdminOff s →
    NotMirrored s p → s.abs.fence = none → (s.stream e.stream).part = p →
    let x := s.stream e.stream
    (x.st = .prefill ∨ x.st = .decode) →
    ∃ t, exec (.stepEnd p) s = .next t ∧ (t.part p).running = false ∧ (t.part p).set = [] ∧ (t.part p).steps = (s.part p).steps
      ∧ (t.stream e.stream).inStep = false
      ∧ (e.voided = true → (t.stream e.stream).pos = x.pos ∧ (t.stream e.stream).emitted = x.emitted
        ∧ (t.stream e.stream).lastStep = e.oldStep ∧ (t.stream e.stream).voided = (if e.uncounted then x.voided else min 15 (x.voided + 1)))
      ∧ (e.voided = false → e.kind = 1 → (t.stream e.stream).pos = x.pos + e.rows ∧ (t.stream e.stream).emitted = x.emitted
        ∧ (t.stream e.stream).voided = 0)
      ∧ (e.voided = false → e.kind = 0 → let k := (keptToks x.stop x.maxNew e.tokens).length
        (t.stream e.stream).pos = x.pos + k ∧ (t.stream e.stream).emitted = x.emitted + k ∧ (t.stream e.stream).voided = 0))
  ∧ (∀ (s : State) (n pos left : Nat), let p := (s.stream n).part
    StepDue s p → s.canRecompute n = true → s.recomputeAt n = some (pos, left) → 0 < left →
    0 < s.fld pgFore 0 p rForeStepCfg 29 16 → (s.histRead p (s.stream n).hist pos (min left (s.fld pgFore 0 p rForeStepCfg 29 16))).isSome →
    ∃ t, exec (.recomputeStep n) s = .next t ∧ (t.part p).running = true ∧ (t.part p).steps = (s.part p).steps + 1
      ∧ (∃ e, (t.part p).set = [e] ∧ e.stream = n ∧ e.pos = pos ∧ e.kind = 3 ∧ e.rows = min left (s.fld pgFore 0 p rForeStepCfg 29 16))
      ∧ (t.stream n).inStep = true ∧ (t.stream n).st = (s.stream n).st ∧ PartsKept s t [p])

/-- With no half fenced: a parked stream whose pages are all near returns to its phase; a draining stream whose end is
written is DONE, or FREE where its end record has been consumed. An idle page of a parked stream starts its move to a
far frame, one whose user returns starts its move home, each advancing its epoch; a move's end, with no regulator in
force, gives the page its new state and frame; a held page that nothing refers to becomes FREE. Other entries are
unchanged. (R198, R243, R244, R272) -/
def Obligations.StreamsAndPagesMove : Prop :=
  ∀ (s : State), s.abs.fence = none →
    (∀ n, let x := s.stream n
      (x.st = .parked → (s.part x.part).unpark.contains n = true → PagesNear s n → NotMirrored s x.part →
        ∃ t, exec (.streamUnpark n) s = .next t ∧ (t.stream n).st = (if x.wasDecode then .decode else .prefill)
          ∧ (t.stream n).pos = x.pos ∧ (t.part x.part).unpark = (s.part x.part).unpark.filter (· != n)
          ∧ (∀ k, k ≠ n → t.stream k = s.stream k) ∧ PartsKept s t [x.part] ∧ t.ledgA = s.ledgA)
      ∧ (x.st = .draining → x.endDone = true → NotMirrored s x.part → ∃ t, exec (.streamDrainDone n) s = .next t
        ∧ (t.stream n).st = (if s.endPassed x then .free else .done) ∧ (t.stream n).gen = x.gen ∧ (∀ k, k ≠ n → t.stream k = s.stream k) ∧ t.parts = s.parts ∧ t.ledgA = s.ledgA))
    ∧ (∀ i, let e := s.ledg i
      (∀ q f, let x := s.stream e.stream
        e.st = .near → e.held = false → x.gen = e.gen → x.st = .parked → (s.part x.part).unpark.contains e.stream = false → s.pageIdle i = true →
        s.farFrame x.part e.vault e.z = some (q, f) → ∃ t, exec (.pageDemote i) s = .next t
          ∧ t.ledg i = { e with st := .moving, toFar := true, toVault := q, toFrame := f, home := e.vault, epoch := (e.epoch + 1) % 16384 }
          ∧ (∀ j, j ≠ i → t.ledg j = s.ledg j) ∧ Kept { ledg := true } s t)
      ∧ (∀ f, e.st = .far → (∃ n ∈ s.pageUsers i, (s.part (s.stream n).part).unpark.contains n = true) → s.pageIdle i = true →
        s.freeFrame e.home e.z = some f → ∃ t, exec (.pagePromote i) s = .next t
          ∧ t.ledg i = { e with st := .moving, toFar := false, toVault := e.home, toFrame := f, epoch := (e.epoch + 1) % 16384 }
          ∧ (∀ j, j ≠ i → t.ledg j = s.ledg j) ∧ Kept { ledg := true } s t)
      ∧ (∀ bs, let n := pageBytes e.z
        e.st = .moving → e.toFar = true → s.placeReady (.vault e.vault (e.frame * 32768)) n true = true →
        s.placeReady (.far e.toVault (e.toFrame * 32768)) n false = true → Unregulated s (s.partOfStream e.stream) →
        ((s.guestLines none (.vault e.vault (e.frame * 32768)) n).readRestored (.vault e.vault (e.frame * 32768)) n).2 = some bs →
        ∃ t, exec (.pageMoveDone i) s = .next t ∧ (t.ledg i).st = .far ∧ (t.ledg i).vault = e.toVault ∧ (t.ledg i).frame = e.toFrame)
      ∧ (∀ bs, let n := pageBytes e.z
        e.st = .moving → e.toFar = false → s.placeReady (.far e.vault (e.frame * 32768)) n true = true →
        s.placeReady (.vault e.toVault (e.toFrame * 32768)) n false = true → Unregulated s (s.partOfStream e.stream) → (s.readLoc (.far e.vault (e.frame * 32768)) n).2 = some bs →
        ∃ t, exec (.pageMoveDone i) s = .next t ∧ (t.ledg i).st = .near ∧ (t.ledg i).vault = e.toVault ∧ (t.ledg i).frame = e.toFrame)
      ∧ (e.held = true → e.refs = 0 → e.waits = [] → e.st = .near → ∃ t, exec (.ledgerPageFree i) s = .next t
        ∧ (t.ledg i).st = .free ∧ (∀ j, j ≠ i → t.ledg j = s.ledg j)))

/-- CREATE_PARTITION of free cores gives a CONFIGURED partition; SERVE, QUIESCE (at once, or at the running step's end),
RESET_PARTITION, its end, DESTROY_PARTITION and SET_POLICY move it as the state table says and leave every other
partition; a completed command writes its record with tag, status and phase to the completion ring and sends its
interrupt. MODEL'S CHOICE: the layout of SET_POLICY (assumption 60). (R136, R263, R264, R266, R448) -/
def Obligations.PartitionsMoveThroughTheirStates : Prop :=
  ∀ (s : State) (w : List Nat), AdmFree s →
    let p := recPart w
    let tag := recTag w
    let x := s.part p
    (CreateOk s w → ∃ t, exec (.createPartition w) s = .next t ∧ Completed s t tag 0 ∧ (t.part p).st = .configured
      ∧ (t.part p).cores = groupCores (w.getD 1 0 % 4294967296 + (w.getD 2 0 % 4294967296) <<< 32)
      ∧ t.fld pgFore 0 p rForeStreamQuota 18 0 = bits (w.getD 10 0 % 4294967296) 18 0 ∧ PartsKept s t [p])
    ∧ ((x.st = .loaded ∨ x.st = .quiesced) → RingOff s p → ∃ t, exec (.serve w) s = .next t ∧ Completed s t tag 0
      ∧ t.part p = { x with st := .serving } ∧ PartsKept s t [p])
    ∧ (x.st = .serving → x.running = false → ∃ t, exec (.quiesce w) s = .next t ∧ Completed s t tag 0
      ∧ t.part p = { x with st := .quiesced } ∧ PartsKept s t [p])
    ∧ (x.st = .serving → x.running = true → ∃ t, exec (.quiesce w) s = .next t ∧ t.admOpen = [(tag, 0x06, p)]
      ∧ t.part p = { x with after := x.after ++ [.quiesce (some tag)] } ∧ PartsKept s t [p])
    ∧ (x.st ≠ .empty → x.st ≠ .resetting → s.abs.migs = [] → ∃ t, exec (.resetPartition w) s = .next t ∧ Completed s t tag 0
      ∧ (t.part p).st = .resetting ∧ (t.part p).running = false ∧ (t.part p).cores = x.cores
      ∧ (∀ c ∈ x.cores, (t.core c).flights = [] ∧ (t.core c).sregs = [] ∧ (t.core c).ctrs = []) ∧ PartsKept s t [p])
    ∧ (x.st = .resetting → (∀ c ∈ x.cores, s.fencedHalf ≠ some (coreHalf c) ∧ (smFind s.boot.coreSite c).isSome) → RingOff s p →
      ∃ t, exec (.partitionResetDone p) s = .next t
        ∧ t.part p = { x with st := if x.patterns.isEmpty then .configured else .loaded } ∧ PartsKept s t [p] ∧ Kept { parts := true } s t)
    ∧ ((x.st = .configured ∨ x.st = .loaded ∨ x.st = .quiesced) → ∃ t, exec (.destroyPartition w) s = .next t ∧ Completed s t tag 0
      ∧ (t.part p).st = .empty ∧ (t.part p).cores = [] ∧ (t.part p).patterns = [] ∧ PartsKept s t [p])
    ∧ (x.st ≠ .empty → x.st ≠ .resetting → ∃ t st, exec (.setPolicy w) s = .next t ∧ Completed s t tag st ∧ (st = 0 ∨ st = 1)
      ∧ t.reg pgFore 0 p rForeStepCfg = BitVec.ofNat 64 (s.regTakes pgFore 0 p rForeStepCfg (Config.policyOf (w.drop 1) 0)).1
      ∧ t.parts = s.parts)

/-- LOAD_PATTERN and RESTORE_CONTEXT that their checks allow complete with the pattern loaded or the context restored.
DROP_PATTERN of an unused pattern removes it. OPEN_STREAM admits one stream as a request would. PARK_STREAM and
CANCEL_STREAM move their stream to PARKED and DRAINING. SNAPSHOT into far memory inside the partition's windows
advances the number, flips the tag and opens the copy. MODEL'S CHOICE: record layouts of assumptions 61 and 62. (R263,
R264, R273, R293, R296, R371, R451) -/
def Obligations.PatternsContextsAndStreams : Prop :=
  ∀ (s : State) (w : List Nat), AdmFree s →
    let p := recPart w
    let tag := recTag w
    let x := s.part p
    (((touched s).loadPattern p (withTop w 0)).2.1 = 0 → 2 ≤ w.length →
      ∃ t, exec (.loadPattern w) s = .next t ∧ Completed s t tag 0 ∧ PatternLoaded t p (withTop w 0) ∧ (t.part p).cores = x.cores)
    ∧ (((touched s).restoreContext p (withTop w 1)).2.1 = 0 → 2 ≤ w.length →
      ∃ t, exec (.restoreContext w) s = .next t ∧ Completed s t tag 0 ∧ (t.part p).st = .loaded)
    ∧ ((x.st = .loaded ∨ x.st = .quiesced) → (x.pattern (bits (w.getD 1 0) 15 0)).isSome →
      (∀ e ∈ s.streamsOf p, e.2.pattern ≠ bits (w.getD 1 0) 15 0) → (∀ q ∈ x.patterns, q.draftEn = true → q.draftId ≠ bits (w.getD 1 0) 15 0) →
      ∃ t, exec (.dropPattern w) s = .next t ∧ Completed s t tag 0
        ∧ (t.part p).patterns = x.patterns.filter (fun q => q.id != bits (w.getD 1 0) 15 0) ∧ PartsKept s t [p])
    ∧ (∀ q n, let f := reqFields w
      (x.st = .loaded ∨ x.st = .serving ∨ x.st = .quiesced) → x.patterns.find? (fun q => !q.draft) = some q →
      s.histInWindow p f.hist (f.nPrompt + f.maxNew) = true → s.takeStream p = some n → bit f.opts 16 = false → NotMirrored s p →
      f.clamps = 0 → s.abs.fence = none →
      ∃ t, exec (.openStream w) s = .next t ∧ Completed s t tag 0 ∧ (t.stream n).st = .admitted ∧ (t.stream n).part = p
        ∧ (t.stream n).pattern = q.id ∧ (t.stream n).gen = ((s.stream n).gen + 1) % 16 ∧ ∀ k, k ≠ n → t.stream k = s.stream k)
    ∧ (let n := bits (w.getD 1 0) 17 0
       let e := s.stream n
       (x.st = .serving ∨ x.st = .quiesced) → e.part = p → e.gen = bits (w.getD 1 0) 21 18 → e.inStep = false → NotMirrored s p →
       s.abs.fence = none →
        ((e.st = .prefill ∨ e.st = .decode) → ∃ t, exec (.parkStream w) s = .next t ∧ Completed s t tag 0 ∧ (t.stream n).st = .parked
          ∧ (t.stream n).pinned = bit (w.getD 1 0) 31 ∧ ∀ k, k ≠ n → t.stream k = s.stream k)
        ∧ ((e.st = .admitted ∨ e.st = .prefill ∨ e.st = .decode ∨ e.st = .parked) → ∃ t, exec (.cancelStream w) s = .next t
          ∧ Completed s t tag 0 ∧ (t.stream n).st = .draining ∧ (t.stream n).endCode = 2 ∧ ∀ k, k ≠ n → t.stream k = s.stream k))
    ∧ (let dest := w.getD 1 0 % 4294967296 + (w.getD 2 0 % 4294967296) <<< 32
       let h := s.contextHead p (s.fab.snapNum + 1)
       (x.st = .serving ∨ x.st = .quiesced) → bits (w.getD 3 0 % 4294967296) 1 0 = 0 → s.copyBusy = false → spaceOf dest = 6 →
       s.inWindows p (locOf 0 dest) (h.1.length + h.2.1.length + 4104 * h.2.2.length) = true →
        ∃ t, exec (.snapshot w) s = .next t ∧ Completed s t tag 0 ∧ t.fab.snapNum = (s.fab.snapNum + 1) % 65536 ∧ t.fab.snapTag = !s.fab.snapTag
          ∧ ∃ k, t.snap = some k ∧ k.part = p ∧ k.dest = dest ∧ k.number = (s.fab.snapNum + 1) % 65536)

/-- The first device forms its guild at once, at epoch 0; another challenges with a fresh nonce and its command stays
open. A right proof of the master makes it a member at epoch 0 and sends its own proof; a wrong one, or the timeout,
completes with AUTH_REFUSED. The master answers a challenge with its nonce and proof, and admits the joiner only with
the right proof. LEAVE_GUILD while nothing serves ends the membership. (R265, R498) -/
def Obligations.DevicesJoinAndLeaveTheirGuild : Prop :=
  (∀ (s : State) (w : List Nat), AdmFree s → (s.boot.state = .ready ∨ s.boot.state = .degraded) →
    (s.fab.isMember = false → s.sec.guildKey.isSome →
      (s.fld pgFab 0 0 rFabGuild 11 6 = s.boot.chartDevice → s.fab.formed = false → ∃ t, exec (.joinGuild w) s = .next t
        ∧ Completed s t (recTag w) 0 ∧ t.fab.isMember = true ∧ t.fab.guild = s.boot.chartGuild ∧ t.fab.device = s.boot.chartDevice
        ∧ t.fab.master = s.boot.chartDevice ∧ smFind t.fab.members s.boot.chartDevice = some (t.serialOf s.boot.chartDevice)
        ∧ t.fab.epoch = 0)
      ∧ ((s.fab.formed = true ∨ s.fld pgFab 0 0 rFabGuild 11 6 ≠ s.boot.chartDevice) → ∃ t nonce, exec (.joinGuild w) s = .next t ∧ t.fab.isMember = false
        ∧ t.admOpen = [(recTag w, 0x30, recPart w)] ∧ t.fab.joining = some (recTag w, nonce)
        ∧ nonce = leBytes 32 (Config.entropy s.sec.draws).toNat ∧ t.sec.draws = s.sec.draws + 1))
    ∧ (s.fab.isMember = true → NothingServes s → ∃ t, exec (.leaveGuild w) s = .next t ∧ Completed s t (recTag w) 0
      ∧ t.fab.isMember = false ∧ t.fab.members = [] ∧ t.fab.joining = none))
  ∧ (∀ (s : State) (tag : Nat) (nj : List Byte) (p : Nat), s.fab.joining = some (tag, nj) → s.admOpen = [(tag, 0x30, p)] → s.admWait = [] →
    s.fld pgFore 0 0 rForeAdmCfg 31 31 = 0 →
    (∃ t, exec .joinTimeout s = .next t ∧ Completed s t tag 7 ∧ t.fab = { s.fab with joining := none })
    ∧ (∀ m, GuildMessage s m → m.srcDev = s.fab.master →
      (m.data.drop 32 = s.masterProof nj (m.data.take 32) m.srcDev → ∃ t, exec (.joinResp m) s = .next t ∧ Completed s t tag 0
        ∧ t.fab.isMember = true ∧ t.fab.master = m.srcDev ∧ t.fab.joining = none ∧ t.fab.epoch = 0
        ∧ .fab (asSent s ⟨0x12, m.srcDev, 0, m.srcGuild, 0, false, 0, s.joinerProof nj (m.data.take 32) s.fab.device⟩) ∈ t.sent)
      ∧ (m.data.drop 32 ≠ s.masterProof nj (m.data.take 32) m.srcDev → ∃ t, exec (.joinResp m) s = .next t ∧ Completed s t tag 7
        ∧ t.fab = { s.fab with joining := none })))
  ∧ (∀ (s : State) (m : FMsg), GuildMessage s m → s.isMaster = true →
    (s.sec.guildKey.isSome → let ng := leBytes 32 (Config.entropy s.sec.draws).toNat
      ∃ t, exec (.joinChal m) s = .next t ∧ smFind t.fab.challenged m.srcDev = some (s.serialOf m.srcDev, m.data.take 32, ng)
        ∧ t.fab.members = s.fab.members
        ∧ .fab (asSent s ⟨0x11, m.srcDev, 0, m.srcGuild, 0, false, 0, ng ++ s.masterProof (m.data.take 32) ng s.fab.device⟩) ∈ t.sent)
    ∧ (∀ serial nj ng, smFind s.fab.challenged m.srcDev = some (serial, nj, ng) →
      (m.data = s.joinerProof nj ng m.srcDev → ∃ t, exec (.joinDone m) s = .next t ∧ smFind t.fab.members m.srcDev = some serial
        ∧ smFind t.fab.challenged m.srcDev = none ∧ Kept { fab := true } s t)
      ∧ (m.data ≠ s.joinerProof nj ng m.srcDev → ∃ t, exec (.joinDone m) s = .next t ∧ t.fab.members = s.fab.members
        ∧ smFind t.fab.challenged m.srcDev = none ∧ Kept { fab := true } s t)))

/-- For every state: with command c at the front of the queue, step is exec of c on the state with the rest of the queue;
with an empty queue step answers the same state. MODEL'S CHOICE: the idle step (assumption 4). -/
def Obligations.StepTakesTheFront : Prop :=
  (∀ (s : State) (c : Instr) (rest : List Instr), s.pending = c :: rest → step s = exec c { s with pending := rest })
  ∧ (∀ s : State, s.pending = [] → step s = .next s)

/-- For every command and every state, exec answers a next state, in which every kind of state that the command's reach
does not name (registers, cores, vaults, partitions, tables, host link, far ports, fabric, mesh, die-to-die, power,
heat, boot, security, log, absorption, snapshot, almanac, time, answers sent, free values) is as before, the queue and
the fuses included. -/
def Obligations.EveryCommandCompletesInItsReach : Prop :=
  ∀ (c : Instr) (s : State), ∃ t, exec c s = .next t ∧ Kept (reachOf c) s t

/-- From every state in which each of the four counters has 64 bits in three copies, every step that answers a next state
leaves that shape, keeps every blown bit blown, and gives each counter the number of bits blown in at least two
copies, from 0 to 64 and no less than before. (R487) -/
def Obligations.AntiRollbackCountersOnlyRise : Prop :=
  ∀ s t : State, FuseShape s → step s = .next t →
    FuseShape t
    ∧ (∀ k i j, fuseBit s k i j = true → fuseBit t k i j = true)
    ∧ (∀ k < 4, t.svnOf k = ((List.range 64).filter (fun j =>
          (fuseBit t k 0 j && fuseBit t k 1 j) || (fuseBit t k 0 j && fuseBit t k 2 j) || (fuseBit t k 1 j && fuseBit t k 2 j))).length)
    ∧ (∀ k < 4, s.svnOf k ≤ t.svnOf k ∧ t.svnOf k ≤ 64)

/-- State.reset has an empty command queue, the device in BOOT, no register written (each reads its reset value), empty
partitions, no order in flight, stockrooms of zeros, no granule valid, and the anti-rollback counters in their shape
at 0. MODEL'S CHOICE: stockrooms read 0 and unblown fuses at reset (assumption 1). (R188, R266, R430, R432, R487) -/
def Obligations.TheResetState : Prop :=
  State.reset.pending = [] ∧ State.reset.boot.state = .boot ∧ FuseShape State.reset
  ∧ (∀ k < 4, State.reset.svnOf k = 0)
  ∧ (∀ p < 16, (State.reset.part p).st = .empty)
  ∧ (∀ c v, c < 256 → (State.reset.core c).flights = [] ∧ memByte (State.reset.core c).stock v = 0)
  ∧ (∀ p, (State.reset.vault p).valid = [])
  ∧ State.reset.regs = []

/-- Every offset below 256 GiB splits into a logical vault below 256 and an address below 1 GiB that join to it again;
every such pair joins to one offset with o[11:0] = a[11:0], o[37:20] = a[29:12] and o[19:12] = v XOR a[19:12] XOR
a[27:20], splits back, and is the split of no other offset. (R174) -/
def Obligations.NearApertureNamesEachByteOnce : Prop :=
  (∀ o < 274877906944, (nearSplit o).1 < 256 ∧ (nearSplit o).2 < 1073741824 ∧ nearJoin (nearSplit o).1 (nearSplit o).2 = o)
  ∧ (∀ v < 256, ∀ a < 1073741824, nearJoin v a < 274877906944 ∧ nearSplit (nearJoin v a) = (v, a)
      ∧ bits (nearJoin v a) 11 0 = bits a 11 0 ∧ bits (nearJoin v a) 37 20 = bits a 29 12
      ∧ bits (nearJoin v a) 19 12 = (v ^^^ bits a 19 12 ^^^ bits a 27 20)
      ∧ ∀ o < 274877906944, nearSplit o = (v, a) → o = nearJoin v a)

end
end

