-- ==== Sys2Proof/Laws/Map.lean ====
section
/-! SUPPORT. Laws of sparse maps and byte memories: a read after a write, for any map, and the canonical form that every
write keeps. -/

namespace Sys2Proof.Machine

set_option Elab.async false

variable {α : Type}

@[simp] theorem smFind_nil (k : Nat) : smFind ([] : SMap α) k = none := rfl

/-! ### Reads after writes -/

theorem smFind_smErase_same (m : SMap α) (k : Nat) : smFind (smErase m k) k = none := by
  induction m with
  | nil => rfl
  | cons e r ih =>
    obtain ⟨j, w⟩ := e
    simp only [smErase]
    split
    · exact ih
    · rename_i h
      simp only [smFind, if_neg h, ih]

theorem smFind_smErase_other (m : SMap α) {k k' : Nat} (hk : k' ≠ k) : smFind (smErase m k) k' = smFind m k' := by
  induction m with
  | nil => rfl
  | cons e r ih =>
    obtain ⟨j, w⟩ := e
    simp only [smErase]
    split
    · rename_i h
      subst h
      simp only [smFind, if_neg (Ne.symm hk), ih]
    · simp only [smFind, ih]

theorem smFind_smPut_same (m : SMap α) (k : Nat) (v : α) : smFind (smPut m k v) k = some v := by
  induction m with
  | nil => simp [smPut, smFind]
  | cons e r ih =>
    obtain ⟨j, w⟩ := e
    simp only [smPut]
    split
    · simp [smFind]
    · split
      · simp [smFind]
      · rename_i h1 h2
        simp [smFind, h1, ih]

theorem smFind_smPut_other (m : SMap α) {k k' : Nat} (v : α) (h : k' ≠ k) : smFind (smPut m k v) k' = smFind m k' := by
  induction m with
  | nil => simp [smPut, smFind, Ne.symm h]
  | cons e r ih =>
    obtain ⟨j, w⟩ := e
    simp only [smPut]
    split
    · rename_i h1
      subst h1
      simp only [smFind, if_neg (Ne.symm h)]
    · split
      · simp only [smFind, if_neg (Ne.symm h)]
      · simp only [smFind, ih]

theorem smFind_smSet_same [DecidableEq α] (d : α) (m : SMap α) (k : Nat) (v : α) :
    smFind (smSet d m k v) k = if v = d then none else some v := by
  induction m with
  | nil =>
    simp only [smSet]
    split <;> simp [smFind]
  | cons e r ih =>
    obtain ⟨j, w⟩ := e
    simp only [smSet]
    by_cases h1 : j = k
    · simp only [if_pos h1]
      split
      · exact smFind_smErase_same r k
      · simp [smFind]
    · simp only [if_neg h1]
      split
      · split
        · simp only [smFind, if_neg h1, smFind_smErase_same]
        · simp [smFind]
      · simp only [smFind, if_neg h1, ih]

theorem smFind_smSet_other [DecidableEq α] (d : α) (m : SMap α) {k k' : Nat} (v : α) (h : k' ≠ k) :
    smFind (smSet d m k v) k' = smFind m k' := by
  induction m with
  | nil =>
    simp only [smSet]
    split
    · rfl
    · simp [smFind, Ne.symm h]
  | cons e r ih =>
    obtain ⟨j, w⟩ := e
    simp only [smSet]
    by_cases h1 : j = k
    · subst h1
      rw [if_pos rfl]
      split
      · simp only [smFind, if_neg (Ne.symm h), smFind_smErase_other r h]
      · simp only [smFind, if_neg (Ne.symm h)]
    · simp only [if_neg h1]
      split
      · split
        · simp only [smFind, smFind_smErase_other r h]
        · simp only [smFind, if_neg (Ne.symm h)]
      · simp only [smFind, ih]

/-- A read after a write to the same key gives the value written. -/
@[simp] theorem smGet_smSet_same [DecidableEq α] (d : α) (m : SMap α) (k : Nat) (v : α) : smGet d (smSet d m k v) k = v := by
  unfold smGet
  rw [smFind_smSet_same]
  split
  · rename_i h
    simp [h]
  · rfl

/-- A write leaves what every other key reads as. -/
theorem smGet_smSet_other [DecidableEq α] (x d : α) (m : SMap α) {k k' : Nat} (v : α) (h : k' ≠ k) :
    smGet x (smSet d m k v) k' = smGet x m k' := by
  unfold smGet
  rw [smFind_smSet_other d m v h]

/-! ### The canonical form -/

/-- Every key of a map is above a bound, and the keys rise strictly. -/
def SMap.Rises (m : SMap α) (b : Option Nat) : Prop :=
  match m with
  | [] => True
  | (j, _) :: r => (∀ x ∈ b, x < j) ∧ SMap.Rises r (some j)

theorem SMap.Rises.mono {m : SMap α} {a b : Option Nat} (h : SMap.Rises m b) (hab : ∀ x ∈ a, ∃ y ∈ b, x ≤ y) : SMap.Rises m a := by
  cases m with
  | nil => trivial
  | cons e r =>
    obtain ⟨j, v⟩ := e
    refine ⟨fun x hx => ?_, h.2⟩
    obtain ⟨y, hy, hxy⟩ := hab x hx
    exact lt_of_le_of_lt hxy (h.1 y hy)

theorem smErase_rises {m : SMap α} {b : Option Nat} (k : Nat) (h : SMap.Rises m b) : SMap.Rises (smErase m k) b := by
  induction m generalizing b with
  | nil => trivial
  | cons e r ih =>
    obtain ⟨j, w⟩ := e
    simp only [smErase]
    split
    · exact (ih h.2).mono (fun x hx => ⟨j, rfl, le_of_lt (h.1 x hx)⟩)
    · exact ⟨h.1, ih h.2⟩

theorem smSet_rises [DecidableEq α] {d : α} {m : SMap α} {b : Option Nat} (k : Nat) (v : α) (h : SMap.Rises m b)
    (hk : ∀ x ∈ b, x < k) : SMap.Rises (smSet d m k v) b := by
  induction m generalizing b with
  | nil =>
    simp only [smSet]
    split
    · trivial
    · exact ⟨hk, trivial⟩
  | cons e r ih =>
    obtain ⟨j, w⟩ := e
    simp only [smSet]
    split
    · rename_i h1
      subst h1
      split
      · exact (smErase_rises j h.2).mono (fun x hx => ⟨j, rfl, le_of_lt (h.1 x hx)⟩)
      · exact ⟨h.1, h.2⟩
    · split
      · rename_i h1 h2
        split
        · exact ⟨h.1, smErase_rises k h.2⟩
        · refine ⟨hk, ?_, h.2⟩
          intro x hx
          cases hx
          exact h2
      · rename_i h1 h2
        refine ⟨h.1, ih h.2 ?_⟩
        intro x hx
        cases hx
        omega

theorem mem_smErase {m : SMap α} {k : Nat} {e : Nat × α} (h : e ∈ smErase m k) : e ∈ m := by
  induction m with
  | nil => exact h
  | cons x r ih =>
    obtain ⟨j, w⟩ := x
    simp only [smErase] at h
    split at h
    · exact List.mem_cons_of_mem _ (ih h)
    · cases h with
      | head => exact List.mem_cons_self
      | tail _ h => exact List.mem_cons_of_mem _ (ih h)

theorem mem_smSet [DecidableEq α] {d : α} {m : SMap α} {k : Nat} {v : α} {e : Nat × α} (h : e ∈ smSet d m k v) :
    (e = (k, v) ∧ v ≠ d) ∨ e ∈ m := by
  induction m with
  | nil =>
    simp only [smSet] at h
    split at h
    · exact .inr h
    · rename_i hv
      exact .inl ⟨by simpa using h, hv⟩
  | cons x r ih =>
    obtain ⟨j, w⟩ := x
    simp only [smSet] at h
    split at h
    · split at h
      · exact .inr (List.mem_cons_of_mem _ (mem_smErase h))
      · rename_i hv
        cases h with
        | head => exact .inl ⟨rfl, hv⟩
        | tail _ h => exact .inr (List.mem_cons_of_mem _ h)
    · split at h
      · split at h
        · cases h with
          | head => exact .inr List.mem_cons_self
          | tail _ h => exact .inr (List.mem_cons_of_mem _ (mem_smErase h))
        · rename_i hv
          cases h with
          | head => exact .inl ⟨rfl, hv⟩
          | tail _ h => exact .inr h
      · cases h with
        | head => exact .inr List.mem_cons_self
        | tail _ h =>
          rcases ih h with h | h
          · exact .inl h
          · exact .inr (List.mem_cons_of_mem _ h)

/-- What `smWf` says: the keys rise strictly, and no entry equals what its key reads as unlisted. -/
theorem smOrdered_iff [DecidableEq α] (d : Nat → α) (m : SMap α) (b : Option Nat) :
    smOrdered d m b = true ↔ SMap.Rises m b ∧ ∀ e ∈ m, e.2 ≠ d e.1 := by
  induction m generalizing b with
  | nil => simp [smOrdered, SMap.Rises]
  | cons e r ih =>
    obtain ⟨j, v⟩ := e
    simp only [smOrdered, SMap.Rises, Bool.and_eq_true, decide_eq_true_eq, ih]
    cases b <;> simp <;> tauto

theorem smWf_iff [DecidableEq α] (d : Nat → α) (m : SMap α) :
    smWf d m = true ↔ SMap.Rises m none ∧ ∀ e ∈ m, e.2 ≠ d e.1 := smOrdered_iff d m none

/-- A write keeps the canonical form. -/
theorem smSet_wf [DecidableEq α] {d : Nat → α} {m : SMap α} (k : Nat) (v : α) (h : smWf d m = true) :
    smWf d (smSet (d k) m k v) = true := by
  rw [smWf_iff] at h ⊢
  refine ⟨smSet_rises k v h.1 (by simp), fun e he => ?_⟩
  rcases mem_smSet he with ⟨rfl, hv⟩ | he
  · exact hv
  · exact h.2 e he

/-! ### Byte memories -/

@[simp] theorem memWf_nil : memWf [] = true := rfl

theorem memSetByte_wf {m : Mem} (a : Nat) (v : Byte) (h : memWf m = true) : memWf (memSetByte m a v) = true :=
  smSet_wf (d := fun _ => (0 : Byte)) a v h

@[simp] theorem memByte_memSetByte_same (m : Mem) (a : Nat) (v : Byte) : memByte (memSetByte m a v) a = v :=
  smGet_smSet_same 0 m a v

theorem memByte_memSetByte_other (m : Mem) {a b : Nat} (v : Byte) (hb : b ≠ a) : memByte (memSetByte m a v) b = memByte m b :=
  smGet_smSet_other 0 0 m v hb

/-- Every memory write keeps the canonical form. -/
theorem memSetBytes_wf {m : Mem} (a : Nat) (bs : List Byte) (h : memWf m = true) : memWf (memSetBytes m a bs) = true := by
  induction bs generalizing m a with
  | nil => exact h
  | cons b r ih => exact ih (a + 1) (memSetByte_wf a b h)

theorem memSetBytesWrap_wf {m : Mem} (sz a : Nat) (bs : List Byte) (h : memWf m = true) : memWf (memSetBytesWrap sz m a bs) = true := by
  induction bs generalizing m a with
  | nil => exact h
  | cons b r ih => exact ih (a + 1) (memSetByte_wf (a % sz) b h)

/-- A byte outside the bytes written reads as before. -/
theorem memByte_memSetBytes_outside (m : Mem) {a x : Nat} {bs : List Byte} (hx : x < a ∨ a + bs.length ≤ x) :
    memByte (memSetBytes m a bs) x = memByte m x := by
  induction bs generalizing m a with
  | nil => rfl
  | cons b r ih =>
    simp only [List.length_cons] at hx
    rw [memSetBytes, ih (memSetByte m a b) (by omega), memByte_memSetByte_other m b (by omega)]

/-- A byte inside the bytes written reads as written. -/
theorem memByte_memSetBytes_inside (m : Mem) (a : Nat) (bs : List Byte) (i : Nat) (hi : i < bs.length) :
    memByte (memSetBytes m a bs) (a + i) = bs[i] := by
  induction bs generalizing m a i with
  | nil => simp at hi
  | cons b r ih =>
    cases i with
    | zero =>
      rw [memSetBytes, memByte_memSetBytes_outside _ (by omega)]
      simp
    | succ i =>
      have := ih (memSetByte m a b) (a + 1) i (by simpa using hi)
      simpa [memSetBytes, Nat.add_comm, Nat.add_left_comm, Nat.add_assoc] using this

/-- Reading the bytes written gives them. -/
theorem memBytes_memSetBytes (m : Mem) (a : Nat) (bs : List Byte) : memBytes (memSetBytes m a bs) a bs.length = bs := by
  apply List.ext_getElem
  · simp [memBytes]
  · intro i h1 h2
    simp only [memBytes, List.getElem_map, List.getElem_range]
    exact memByte_memSetBytes_inside m a bs i h2

/-! ### Lists of a fixed number of places -/

theorem fixSet_getD_same {n : Nat} (d : α) (l : List α) {i : Nat} (v : α) (h : i < n) : (fixSet n d l i v).getD i d = v := by
  have hl : i < (l ++ List.replicate (n - l.length) d).length := by simp; omega
  unfold fixSet
  rw [List.getD_eq_getElem _ _ (by simpa using hl)]
  simp

theorem fixSet_getD_other {n : Nat} (d : α) (l : List α) {i j : Nat} (v : α) (h : j ≠ i) : (fixSet n d l i v).getD j d = l.getD j d := by
  unfold fixSet
  rw [List.getD_eq_getElem?_getD, List.getD_eq_getElem?_getD, List.getElem?_set_ne (Ne.symm h)]
  by_cases hj : j < l.length
  · rw [List.getElem?_append_left hj]
  · rw [List.getElem?_append_right (Nat.le_of_not_lt hj), List.getElem?_eq_none (Nat.le_of_not_lt hj)]
    cases hr : (List.replicate (n - l.length) d)[j - l.length]? with
    | none => rfl
    | some x => simp [List.eq_of_mem_replicate (List.mem_of_getElem? hr)]

theorem fixSet_get_same {n : Nat} (d : α) (l : List α) {i : Nat} (v : α) (h : i < n) : (fixSet n d l i v)[i]?.getD d = v := by
  rw [← List.getD_eq_getElem?_getD]; exact fixSet_getD_same d l v h

theorem fixSet_get_other {n : Nat} (d : α) (l : List α) {i j : Nat} (v : α) (h : j ≠ i) :
    (fixSet n d l i v)[j]?.getD d = l[j]?.getD d := by
  rw [← List.getD_eq_getElem?_getD, ← List.getD_eq_getElem?_getD]; exact fixSet_getD_other d l v h

end Sys2Proof.Machine
end

