-- ==== Sys2Proof/Laws/State.lean ====
section
/-! SUPPORT. What each update of the state leaves: one lemma per field and update, so that no proof unfolds a record
update; and what a reach takes. -/

namespace Sys2Proof.Machine

variable (s : State)

/-! ### emit -/

@[simp] theorem State.emit_regs (o : Out) : (s.emit o).regs = s.regs := rfl
@[simp] theorem State.emit_latch (o : Out) : (s.emit o).latch = s.latch := rfl
@[simp] theorem State.emit_staged (o : Out) : (s.emit o).staged = s.staged := rfl
@[simp] theorem State.emit_cores (o : Out) : (s.emit o).cores = s.cores := rfl
@[simp] theorem State.emit_vaults (o : Out) : (s.emit o).vaults = s.vaults := rfl
@[simp] theorem State.emit_parts (o : Out) : (s.emit o).parts = s.parts := rfl
@[simp] theorem State.emit_rollA (o : Out) : (s.emit o).rollA = s.rollA := rfl
@[simp] theorem State.emit_rollB (o : Out) : (s.emit o).rollB = s.rollB := rfl
@[simp] theorem State.emit_ledgA (o : Out) : (s.emit o).ledgA = s.ledgA := rfl
@[simp] theorem State.emit_ledgB (o : Out) : (s.emit o).ledgB = s.ledgB := rfl
@[simp] theorem State.emit_book (o : Out) : (s.emit o).book = s.book := rfl
@[simp] theorem State.emit_alm (o : Out) : (s.emit o).alm = s.alm := rfl
@[simp] theorem State.emit_admHead (o : Out) : (s.emit o).admHead = s.admHead := rfl
@[simp] theorem State.emit_admTail (o : Out) : (s.emit o).admTail = s.admTail := rfl
@[simp] theorem State.emit_acqHead (o : Out) : (s.emit o).acqHead = s.acqHead := rfl
@[simp] theorem State.emit_acqTail (o : Out) : (s.emit o).acqTail = s.acqTail := rfl
@[simp] theorem State.emit_admOpen (o : Out) : (s.emit o).admOpen = s.admOpen := rfl
@[simp] theorem State.emit_admWait (o : Out) : (s.emit o).admWait = s.admWait := rfl
@[simp] theorem State.emit_fab (o : Out) : (s.emit o).fab = s.fab := rfl
@[simp] theorem State.emit_snap (o : Out) : (s.emit o).snap = s.snap := rfl
@[simp] theorem State.emit_d2d (o : Out) : (s.emit o).d2d = s.d2d := rfl
@[simp] theorem State.emit_meshA (o : Out) : (s.emit o).meshA = s.meshA := rfl
@[simp] theorem State.emit_meshB (o : Out) : (s.emit o).meshB = s.meshB := rfl
@[simp] theorem State.emit_gates (o : Out) : (s.emit o).gates = s.gates := rfl
@[simp] theorem State.emit_host (o : Out) : (s.emit o).host = s.host := rfl
@[simp] theorem State.emit_far (o : Out) : (s.emit o).far = s.far := rfl
@[simp] theorem State.emit_pwr (o : Out) : (s.emit o).pwr = s.pwr := rfl
@[simp] theorem State.emit_thm (o : Out) : (s.emit o).thm = s.thm := rfl
@[simp] theorem State.emit_boot (o : Out) : (s.emit o).boot = s.boot := rfl
@[simp] theorem State.emit_abs (o : Out) : (s.emit o).abs = s.abs := rfl
@[simp] theorem State.emit_sec (o : Out) : (s.emit o).sec = s.sec := rfl
@[simp] theorem State.emit_elog (o : Out) : (s.emit o).elog = s.elog := rfl
@[simp] theorem State.emit_timeUs (o : Out) : (s.emit o).timeUs = s.timeUs := rfl
@[simp] theorem State.emit_freeCtr (o : Out) : (s.emit o).freeCtr = s.freeCtr := rfl
@[simp] theorem State.emit_pending (o : Out) : (s.emit o).pending = s.pending := rfl

/-! ### freeUsed -/

@[simp] theorem State.freeUsed_regs  : (s.freeUsed).regs = s.regs := rfl
@[simp] theorem State.freeUsed_latch  : (s.freeUsed).latch = s.latch := rfl
@[simp] theorem State.freeUsed_staged  : (s.freeUsed).staged = s.staged := rfl
@[simp] theorem State.freeUsed_cores  : (s.freeUsed).cores = s.cores := rfl
@[simp] theorem State.freeUsed_vaults  : (s.freeUsed).vaults = s.vaults := rfl
@[simp] theorem State.freeUsed_parts  : (s.freeUsed).parts = s.parts := rfl
@[simp] theorem State.freeUsed_rollA  : (s.freeUsed).rollA = s.rollA := rfl
@[simp] theorem State.freeUsed_rollB  : (s.freeUsed).rollB = s.rollB := rfl
@[simp] theorem State.freeUsed_ledgA  : (s.freeUsed).ledgA = s.ledgA := rfl
@[simp] theorem State.freeUsed_ledgB  : (s.freeUsed).ledgB = s.ledgB := rfl
@[simp] theorem State.freeUsed_book  : (s.freeUsed).book = s.book := rfl
@[simp] theorem State.freeUsed_alm  : (s.freeUsed).alm = s.alm := rfl
@[simp] theorem State.freeUsed_admHead  : (s.freeUsed).admHead = s.admHead := rfl
@[simp] theorem State.freeUsed_admTail  : (s.freeUsed).admTail = s.admTail := rfl
@[simp] theorem State.freeUsed_acqHead  : (s.freeUsed).acqHead = s.acqHead := rfl
@[simp] theorem State.freeUsed_acqTail  : (s.freeUsed).acqTail = s.acqTail := rfl
@[simp] theorem State.freeUsed_admOpen  : (s.freeUsed).admOpen = s.admOpen := rfl
@[simp] theorem State.freeUsed_admWait  : (s.freeUsed).admWait = s.admWait := rfl
@[simp] theorem State.freeUsed_fab  : (s.freeUsed).fab = s.fab := rfl
@[simp] theorem State.freeUsed_snap  : (s.freeUsed).snap = s.snap := rfl
@[simp] theorem State.freeUsed_d2d  : (s.freeUsed).d2d = s.d2d := rfl
@[simp] theorem State.freeUsed_meshA  : (s.freeUsed).meshA = s.meshA := rfl
@[simp] theorem State.freeUsed_meshB  : (s.freeUsed).meshB = s.meshB := rfl
@[simp] theorem State.freeUsed_gates  : (s.freeUsed).gates = s.gates := rfl
@[simp] theorem State.freeUsed_host  : (s.freeUsed).host = s.host := rfl
@[simp] theorem State.freeUsed_far  : (s.freeUsed).far = s.far := rfl
@[simp] theorem State.freeUsed_pwr  : (s.freeUsed).pwr = s.pwr := rfl
@[simp] theorem State.freeUsed_thm  : (s.freeUsed).thm = s.thm := rfl
@[simp] theorem State.freeUsed_boot  : (s.freeUsed).boot = s.boot := rfl
@[simp] theorem State.freeUsed_abs  : (s.freeUsed).abs = s.abs := rfl
@[simp] theorem State.freeUsed_sec  : (s.freeUsed).sec = s.sec := rfl
@[simp] theorem State.freeUsed_elog  : (s.freeUsed).elog = s.elog := rfl
@[simp] theorem State.freeUsed_timeUs  : (s.freeUsed).timeUs = s.timeUs := rfl
@[simp] theorem State.freeUsed_sent  : (s.freeUsed).sent = s.sent := rfl
@[simp] theorem State.freeUsed_pending  : (s.freeUsed).pending = s.pending := rfl

/-! ### setCore -/

@[simp] theorem State.setCore_regs (c : Nat) (v : Core) : (s.setCore c v).regs = s.regs := rfl
@[simp] theorem State.setCore_latch (c : Nat) (v : Core) : (s.setCore c v).latch = s.latch := rfl
@[simp] theorem State.setCore_staged (c : Nat) (v : Core) : (s.setCore c v).staged = s.staged := rfl
@[simp] theorem State.setCore_vaults (c : Nat) (v : Core) : (s.setCore c v).vaults = s.vaults := rfl
@[simp] theorem State.setCore_parts (c : Nat) (v : Core) : (s.setCore c v).parts = s.parts := rfl
@[simp] theorem State.setCore_rollA (c : Nat) (v : Core) : (s.setCore c v).rollA = s.rollA := rfl
@[simp] theorem State.setCore_rollB (c : Nat) (v : Core) : (s.setCore c v).rollB = s.rollB := rfl
@[simp] theorem State.setCore_ledgA (c : Nat) (v : Core) : (s.setCore c v).ledgA = s.ledgA := rfl
@[simp] theorem State.setCore_ledgB (c : Nat) (v : Core) : (s.setCore c v).ledgB = s.ledgB := rfl
@[simp] theorem State.setCore_book (c : Nat) (v : Core) : (s.setCore c v).book = s.book := rfl
@[simp] theorem State.setCore_alm (c : Nat) (v : Core) : (s.setCore c v).alm = s.alm := rfl
@[simp] theorem State.setCore_admHead (c : Nat) (v : Core) : (s.setCore c v).admHead = s.admHead := rfl
@[simp] theorem State.setCore_admTail (c : Nat) (v : Core) : (s.setCore c v).admTail = s.admTail := rfl
@[simp] theorem State.setCore_acqHead (c : Nat) (v : Core) : (s.setCore c v).acqHead = s.acqHead := rfl
@[simp] theorem State.setCore_acqTail (c : Nat) (v : Core) : (s.setCore c v).acqTail = s.acqTail := rfl
@[simp] theorem State.setCore_admOpen (c : Nat) (v : Core) : (s.setCore c v).admOpen = s.admOpen := rfl
@[simp] theorem State.setCore_admWait (c : Nat) (v : Core) : (s.setCore c v).admWait = s.admWait := rfl
@[simp] theorem State.setCore_fab (c : Nat) (v : Core) : (s.setCore c v).fab = s.fab := rfl
@[simp] theorem State.setCore_snap (c : Nat) (v : Core) : (s.setCore c v).snap = s.snap := rfl
@[simp] theorem State.setCore_d2d (c : Nat) (v : Core) : (s.setCore c v).d2d = s.d2d := rfl
@[simp] theorem State.setCore_meshA (c : Nat) (v : Core) : (s.setCore c v).meshA = s.meshA := rfl
@[simp] theorem State.setCore_meshB (c : Nat) (v : Core) : (s.setCore c v).meshB = s.meshB := rfl
@[simp] theorem State.setCore_gates (c : Nat) (v : Core) : (s.setCore c v).gates = s.gates := rfl
@[simp] theorem State.setCore_host (c : Nat) (v : Core) : (s.setCore c v).host = s.host := rfl
@[simp] theorem State.setCore_far (c : Nat) (v : Core) : (s.setCore c v).far = s.far := rfl
@[simp] theorem State.setCore_pwr (c : Nat) (v : Core) : (s.setCore c v).pwr = s.pwr := rfl
@[simp] theorem State.setCore_thm (c : Nat) (v : Core) : (s.setCore c v).thm = s.thm := rfl
@[simp] theorem State.setCore_boot (c : Nat) (v : Core) : (s.setCore c v).boot = s.boot := rfl
@[simp] theorem State.setCore_abs (c : Nat) (v : Core) : (s.setCore c v).abs = s.abs := rfl
@[simp] theorem State.setCore_sec (c : Nat) (v : Core) : (s.setCore c v).sec = s.sec := rfl
@[simp] theorem State.setCore_elog (c : Nat) (v : Core) : (s.setCore c v).elog = s.elog := rfl
@[simp] theorem State.setCore_timeUs (c : Nat) (v : Core) : (s.setCore c v).timeUs = s.timeUs := rfl
@[simp] theorem State.setCore_freeCtr (c : Nat) (v : Core) : (s.setCore c v).freeCtr = s.freeCtr := rfl
@[simp] theorem State.setCore_sent (c : Nat) (v : Core) : (s.setCore c v).sent = s.sent := rfl
@[simp] theorem State.setCore_pending (c : Nat) (v : Core) : (s.setCore c v).pending = s.pending := rfl

/-! ### modCore -/

@[simp] theorem State.modCore_regs (c : Nat) (f : Core → Core) : (s.modCore c f).regs = s.regs := rfl
@[simp] theorem State.modCore_latch (c : Nat) (f : Core → Core) : (s.modCore c f).latch = s.latch := rfl
@[simp] theorem State.modCore_staged (c : Nat) (f : Core → Core) : (s.modCore c f).staged = s.staged := rfl
@[simp] theorem State.modCore_vaults (c : Nat) (f : Core → Core) : (s.modCore c f).vaults = s.vaults := rfl
@[simp] theorem State.modCore_parts (c : Nat) (f : Core → Core) : (s.modCore c f).parts = s.parts := rfl
@[simp] theorem State.modCore_rollA (c : Nat) (f : Core → Core) : (s.modCore c f).rollA = s.rollA := rfl
@[simp] theorem State.modCore_rollB (c : Nat) (f : Core → Core) : (s.modCore c f).rollB = s.rollB := rfl
@[simp] theorem State.modCore_ledgA (c : Nat) (f : Core → Core) : (s.modCore c f).ledgA = s.ledgA := rfl
@[simp] theorem State.modCore_ledgB (c : Nat) (f : Core → Core) : (s.modCore c f).ledgB = s.ledgB := rfl
@[simp] theorem State.modCore_book (c : Nat) (f : Core → Core) : (s.modCore c f).book = s.book := rfl
@[simp] theorem State.modCore_alm (c : Nat) (f : Core → Core) : (s.modCore c f).alm = s.alm := rfl
@[simp] theorem State.modCore_admHead (c : Nat) (f : Core → Core) : (s.modCore c f).admHead = s.admHead := rfl
@[simp] theorem State.modCore_admTail (c : Nat) (f : Core → Core) : (s.modCore c f).admTail = s.admTail := rfl
@[simp] theorem State.modCore_acqHead (c : Nat) (f : Core → Core) : (s.modCore c f).acqHead = s.acqHead := rfl
@[simp] theorem State.modCore_acqTail (c : Nat) (f : Core → Core) : (s.modCore c f).acqTail = s.acqTail := rfl
@[simp] theorem State.modCore_admOpen (c : Nat) (f : Core → Core) : (s.modCore c f).admOpen = s.admOpen := rfl
@[simp] theorem State.modCore_admWait (c : Nat) (f : Core → Core) : (s.modCore c f).admWait = s.admWait := rfl
@[simp] theorem State.modCore_fab (c : Nat) (f : Core → Core) : (s.modCore c f).fab = s.fab := rfl
@[simp] theorem State.modCore_snap (c : Nat) (f : Core → Core) : (s.modCore c f).snap = s.snap := rfl
@[simp] theorem State.modCore_d2d (c : Nat) (f : Core → Core) : (s.modCore c f).d2d = s.d2d := rfl
@[simp] theorem State.modCore_meshA (c : Nat) (f : Core → Core) : (s.modCore c f).meshA = s.meshA := rfl
@[simp] theorem State.modCore_meshB (c : Nat) (f : Core → Core) : (s.modCore c f).meshB = s.meshB := rfl
@[simp] theorem State.modCore_gates (c : Nat) (f : Core → Core) : (s.modCore c f).gates = s.gates := rfl
@[simp] theorem State.modCore_host (c : Nat) (f : Core → Core) : (s.modCore c f).host = s.host := rfl
@[simp] theorem State.modCore_far (c : Nat) (f : Core → Core) : (s.modCore c f).far = s.far := rfl
@[simp] theorem State.modCore_pwr (c : Nat) (f : Core → Core) : (s.modCore c f).pwr = s.pwr := rfl
@[simp] theorem State.modCore_thm (c : Nat) (f : Core → Core) : (s.modCore c f).thm = s.thm := rfl
@[simp] theorem State.modCore_boot (c : Nat) (f : Core → Core) : (s.modCore c f).boot = s.boot := rfl
@[simp] theorem State.modCore_abs (c : Nat) (f : Core → Core) : (s.modCore c f).abs = s.abs := rfl
@[simp] theorem State.modCore_sec (c : Nat) (f : Core → Core) : (s.modCore c f).sec = s.sec := rfl
@[simp] theorem State.modCore_elog (c : Nat) (f : Core → Core) : (s.modCore c f).elog = s.elog := rfl
@[simp] theorem State.modCore_timeUs (c : Nat) (f : Core → Core) : (s.modCore c f).timeUs = s.timeUs := rfl
@[simp] theorem State.modCore_freeCtr (c : Nat) (f : Core → Core) : (s.modCore c f).freeCtr = s.freeCtr := rfl
@[simp] theorem State.modCore_sent (c : Nat) (f : Core → Core) : (s.modCore c f).sent = s.sent := rfl
@[simp] theorem State.modCore_pending (c : Nat) (f : Core → Core) : (s.modCore c f).pending = s.pending := rfl

/-! ### setVault -/

@[simp] theorem State.setVault_regs (p : Nat) (v : Vault) : (s.setVault p v).regs = s.regs := rfl
@[simp] theorem State.setVault_latch (p : Nat) (v : Vault) : (s.setVault p v).latch = s.latch := rfl
@[simp] theorem State.setVault_staged (p : Nat) (v : Vault) : (s.setVault p v).staged = s.staged := rfl
@[simp] theorem State.setVault_cores (p : Nat) (v : Vault) : (s.setVault p v).cores = s.cores := rfl
@[simp] theorem State.setVault_parts (p : Nat) (v : Vault) : (s.setVault p v).parts = s.parts := rfl
@[simp] theorem State.setVault_rollA (p : Nat) (v : Vault) : (s.setVault p v).rollA = s.rollA := rfl
@[simp] theorem State.setVault_rollB (p : Nat) (v : Vault) : (s.setVault p v).rollB = s.rollB := rfl
@[simp] theorem State.setVault_ledgA (p : Nat) (v : Vault) : (s.setVault p v).ledgA = s.ledgA := rfl
@[simp] theorem State.setVault_ledgB (p : Nat) (v : Vault) : (s.setVault p v).ledgB = s.ledgB := rfl
@[simp] theorem State.setVault_book (p : Nat) (v : Vault) : (s.setVault p v).book = s.book := rfl
@[simp] theorem State.setVault_alm (p : Nat) (v : Vault) : (s.setVault p v).alm = s.alm := rfl
@[simp] theorem State.setVault_admHead (p : Nat) (v : Vault) : (s.setVault p v).admHead = s.admHead := rfl
@[simp] theorem State.setVault_admTail (p : Nat) (v : Vault) : (s.setVault p v).admTail = s.admTail := rfl
@[simp] theorem State.setVault_acqHead (p : Nat) (v : Vault) : (s.setVault p v).acqHead = s.acqHead := rfl
@[simp] theorem State.setVault_acqTail (p : Nat) (v : Vault) : (s.setVault p v).acqTail = s.acqTail := rfl
@[simp] theorem State.setVault_admOpen (p : Nat) (v : Vault) : (s.setVault p v).admOpen = s.admOpen := rfl
@[simp] theorem State.setVault_admWait (p : Nat) (v : Vault) : (s.setVault p v).admWait = s.admWait := rfl
@[simp] theorem State.setVault_fab (p : Nat) (v : Vault) : (s.setVault p v).fab = s.fab := rfl
@[simp] theorem State.setVault_snap (p : Nat) (v : Vault) : (s.setVault p v).snap = s.snap := rfl
@[simp] theorem State.setVault_d2d (p : Nat) (v : Vault) : (s.setVault p v).d2d = s.d2d := rfl
@[simp] theorem State.setVault_meshA (p : Nat) (v : Vault) : (s.setVault p v).meshA = s.meshA := rfl
@[simp] theorem State.setVault_meshB (p : Nat) (v : Vault) : (s.setVault p v).meshB = s.meshB := rfl
@[simp] theorem State.setVault_gates (p : Nat) (v : Vault) : (s.setVault p v).gates = s.gates := rfl
@[simp] theorem State.setVault_host (p : Nat) (v : Vault) : (s.setVault p v).host = s.host := rfl
@[simp] theorem State.setVault_far (p : Nat) (v : Vault) : (s.setVault p v).far = s.far := rfl
@[simp] theorem State.setVault_pwr (p : Nat) (v : Vault) : (s.setVault p v).pwr = s.pwr := rfl
@[simp] theorem State.setVault_thm (p : Nat) (v : Vault) : (s.setVault p v).thm = s.thm := rfl
@[simp] theorem State.setVault_boot (p : Nat) (v : Vault) : (s.setVault p v).boot = s.boot := rfl
@[simp] theorem State.setVault_abs (p : Nat) (v : Vault) : (s.setVault p v).abs = s.abs := rfl
@[simp] theorem State.setVault_sec (p : Nat) (v : Vault) : (s.setVault p v).sec = s.sec := rfl
@[simp] theorem State.setVault_elog (p : Nat) (v : Vault) : (s.setVault p v).elog = s.elog := rfl
@[simp] theorem State.setVault_timeUs (p : Nat) (v : Vault) : (s.setVault p v).timeUs = s.timeUs := rfl
@[simp] theorem State.setVault_freeCtr (p : Nat) (v : Vault) : (s.setVault p v).freeCtr = s.freeCtr := rfl
@[simp] theorem State.setVault_sent (p : Nat) (v : Vault) : (s.setVault p v).sent = s.sent := rfl
@[simp] theorem State.setVault_pending (p : Nat) (v : Vault) : (s.setVault p v).pending = s.pending := rfl

/-! ### modVault -/

@[simp] theorem State.modVault_regs (p : Nat) (f : Vault → Vault) : (s.modVault p f).regs = s.regs := rfl
@[simp] theorem State.modVault_latch (p : Nat) (f : Vault → Vault) : (s.modVault p f).latch = s.latch := rfl
@[simp] theorem State.modVault_staged (p : Nat) (f : Vault → Vault) : (s.modVault p f).staged = s.staged := rfl
@[simp] theorem State.modVault_cores (p : Nat) (f : Vault → Vault) : (s.modVault p f).cores = s.cores := rfl
@[simp] theorem State.modVault_parts (p : Nat) (f : Vault → Vault) : (s.modVault p f).parts = s.parts := rfl
@[simp] theorem State.modVault_rollA (p : Nat) (f : Vault → Vault) : (s.modVault p f).rollA = s.rollA := rfl
@[simp] theorem State.modVault_rollB (p : Nat) (f : Vault → Vault) : (s.modVault p f).rollB = s.rollB := rfl
@[simp] theorem State.modVault_ledgA (p : Nat) (f : Vault → Vault) : (s.modVault p f).ledgA = s.ledgA := rfl
@[simp] theorem State.modVault_ledgB (p : Nat) (f : Vault → Vault) : (s.modVault p f).ledgB = s.ledgB := rfl
@[simp] theorem State.modVault_book (p : Nat) (f : Vault → Vault) : (s.modVault p f).book = s.book := rfl
@[simp] theorem State.modVault_alm (p : Nat) (f : Vault → Vault) : (s.modVault p f).alm = s.alm := rfl
@[simp] theorem State.modVault_admHead (p : Nat) (f : Vault → Vault) : (s.modVault p f).admHead = s.admHead := rfl
@[simp] theorem State.modVault_admTail (p : Nat) (f : Vault → Vault) : (s.modVault p f).admTail = s.admTail := rfl
@[simp] theorem State.modVault_acqHead (p : Nat) (f : Vault → Vault) : (s.modVault p f).acqHead = s.acqHead := rfl
@[simp] theorem State.modVault_acqTail (p : Nat) (f : Vault → Vault) : (s.modVault p f).acqTail = s.acqTail := rfl
@[simp] theorem State.modVault_admOpen (p : Nat) (f : Vault → Vault) : (s.modVault p f).admOpen = s.admOpen := rfl
@[simp] theorem State.modVault_admWait (p : Nat) (f : Vault → Vault) : (s.modVault p f).admWait = s.admWait := rfl
@[simp] theorem State.modVault_fab (p : Nat) (f : Vault → Vault) : (s.modVault p f).fab = s.fab := rfl
@[simp] theorem State.modVault_snap (p : Nat) (f : Vault → Vault) : (s.modVault p f).snap = s.snap := rfl
@[simp] theorem State.modVault_d2d (p : Nat) (f : Vault → Vault) : (s.modVault p f).d2d = s.d2d := rfl
@[simp] theorem State.modVault_meshA (p : Nat) (f : Vault → Vault) : (s.modVault p f).meshA = s.meshA := rfl
@[simp] theorem State.modVault_meshB (p : Nat) (f : Vault → Vault) : (s.modVault p f).meshB = s.meshB := rfl
@[simp] theorem State.modVault_gates (p : Nat) (f : Vault → Vault) : (s.modVault p f).gates = s.gates := rfl
@[simp] theorem State.modVault_host (p : Nat) (f : Vault → Vault) : (s.modVault p f).host = s.host := rfl
@[simp] theorem State.modVault_far (p : Nat) (f : Vault → Vault) : (s.modVault p f).far = s.far := rfl
@[simp] theorem State.modVault_pwr (p : Nat) (f : Vault → Vault) : (s.modVault p f).pwr = s.pwr := rfl
@[simp] theorem State.modVault_thm (p : Nat) (f : Vault → Vault) : (s.modVault p f).thm = s.thm := rfl
@[simp] theorem State.modVault_boot (p : Nat) (f : Vault → Vault) : (s.modVault p f).boot = s.boot := rfl
@[simp] theorem State.modVault_abs (p : Nat) (f : Vault → Vault) : (s.modVault p f).abs = s.abs := rfl
@[simp] theorem State.modVault_sec (p : Nat) (f : Vault → Vault) : (s.modVault p f).sec = s.sec := rfl
@[simp] theorem State.modVault_elog (p : Nat) (f : Vault → Vault) : (s.modVault p f).elog = s.elog := rfl
@[simp] theorem State.modVault_timeUs (p : Nat) (f : Vault → Vault) : (s.modVault p f).timeUs = s.timeUs := rfl
@[simp] theorem State.modVault_freeCtr (p : Nat) (f : Vault → Vault) : (s.modVault p f).freeCtr = s.freeCtr := rfl
@[simp] theorem State.modVault_sent (p : Nat) (f : Vault → Vault) : (s.modVault p f).sent = s.sent := rfl
@[simp] theorem State.modVault_pending (p : Nat) (f : Vault → Vault) : (s.modVault p f).pending = s.pending := rfl

/-! ### setPart -/

@[simp] theorem State.setPart_regs (p : Nat) (v : Part) : (s.setPart p v).regs = s.regs := rfl
@[simp] theorem State.setPart_latch (p : Nat) (v : Part) : (s.setPart p v).latch = s.latch := rfl
@[simp] theorem State.setPart_staged (p : Nat) (v : Part) : (s.setPart p v).staged = s.staged := rfl
@[simp] theorem State.setPart_cores (p : Nat) (v : Part) : (s.setPart p v).cores = s.cores := rfl
@[simp] theorem State.setPart_vaults (p : Nat) (v : Part) : (s.setPart p v).vaults = s.vaults := rfl
@[simp] theorem State.setPart_rollA (p : Nat) (v : Part) : (s.setPart p v).rollA = s.rollA := rfl
@[simp] theorem State.setPart_rollB (p : Nat) (v : Part) : (s.setPart p v).rollB = s.rollB := rfl
@[simp] theorem State.setPart_ledgA (p : Nat) (v : Part) : (s.setPart p v).ledgA = s.ledgA := rfl
@[simp] theorem State.setPart_ledgB (p : Nat) (v : Part) : (s.setPart p v).ledgB = s.ledgB := rfl
@[simp] theorem State.setPart_book (p : Nat) (v : Part) : (s.setPart p v).book = s.book := rfl
@[simp] theorem State.setPart_alm (p : Nat) (v : Part) : (s.setPart p v).alm = s.alm := rfl
@[simp] theorem State.setPart_admHead (p : Nat) (v : Part) : (s.setPart p v).admHead = s.admHead := rfl
@[simp] theorem State.setPart_admTail (p : Nat) (v : Part) : (s.setPart p v).admTail = s.admTail := rfl
@[simp] theorem State.setPart_acqHead (p : Nat) (v : Part) : (s.setPart p v).acqHead = s.acqHead := rfl
@[simp] theorem State.setPart_acqTail (p : Nat) (v : Part) : (s.setPart p v).acqTail = s.acqTail := rfl
@[simp] theorem State.setPart_admOpen (p : Nat) (v : Part) : (s.setPart p v).admOpen = s.admOpen := rfl
@[simp] theorem State.setPart_admWait (p : Nat) (v : Part) : (s.setPart p v).admWait = s.admWait := rfl
@[simp] theorem State.setPart_fab (p : Nat) (v : Part) : (s.setPart p v).fab = s.fab := rfl
@[simp] theorem State.setPart_snap (p : Nat) (v : Part) : (s.setPart p v).snap = s.snap := rfl
@[simp] theorem State.setPart_d2d (p : Nat) (v : Part) : (s.setPart p v).d2d = s.d2d := rfl
@[simp] theorem State.setPart_meshA (p : Nat) (v : Part) : (s.setPart p v).meshA = s.meshA := rfl
@[simp] theorem State.setPart_meshB (p : Nat) (v : Part) : (s.setPart p v).meshB = s.meshB := rfl
@[simp] theorem State.setPart_gates (p : Nat) (v : Part) : (s.setPart p v).gates = s.gates := rfl
@[simp] theorem State.setPart_host (p : Nat) (v : Part) : (s.setPart p v).host = s.host := rfl
@[simp] theorem State.setPart_far (p : Nat) (v : Part) : (s.setPart p v).far = s.far := rfl
@[simp] theorem State.setPart_pwr (p : Nat) (v : Part) : (s.setPart p v).pwr = s.pwr := rfl
@[simp] theorem State.setPart_thm (p : Nat) (v : Part) : (s.setPart p v).thm = s.thm := rfl
@[simp] theorem State.setPart_boot (p : Nat) (v : Part) : (s.setPart p v).boot = s.boot := rfl
@[simp] theorem State.setPart_abs (p : Nat) (v : Part) : (s.setPart p v).abs = s.abs := rfl
@[simp] theorem State.setPart_sec (p : Nat) (v : Part) : (s.setPart p v).sec = s.sec := rfl
@[simp] theorem State.setPart_elog (p : Nat) (v : Part) : (s.setPart p v).elog = s.elog := rfl
@[simp] theorem State.setPart_timeUs (p : Nat) (v : Part) : (s.setPart p v).timeUs = s.timeUs := rfl
@[simp] theorem State.setPart_freeCtr (p : Nat) (v : Part) : (s.setPart p v).freeCtr = s.freeCtr := rfl
@[simp] theorem State.setPart_sent (p : Nat) (v : Part) : (s.setPart p v).sent = s.sent := rfl
@[simp] theorem State.setPart_pending (p : Nat) (v : Part) : (s.setPart p v).pending = s.pending := rfl

/-! ### modPart -/

@[simp] theorem State.modPart_regs (p : Nat) (f : Part → Part) : (s.modPart p f).regs = s.regs := rfl
@[simp] theorem State.modPart_latch (p : Nat) (f : Part → Part) : (s.modPart p f).latch = s.latch := rfl
@[simp] theorem State.modPart_staged (p : Nat) (f : Part → Part) : (s.modPart p f).staged = s.staged := rfl
@[simp] theorem State.modPart_cores (p : Nat) (f : Part → Part) : (s.modPart p f).cores = s.cores := rfl
@[simp] theorem State.modPart_vaults (p : Nat) (f : Part → Part) : (s.modPart p f).vaults = s.vaults := rfl
@[simp] theorem State.modPart_rollA (p : Nat) (f : Part → Part) : (s.modPart p f).rollA = s.rollA := rfl
@[simp] theorem State.modPart_rollB (p : Nat) (f : Part → Part) : (s.modPart p f).rollB = s.rollB := rfl
@[simp] theorem State.modPart_ledgA (p : Nat) (f : Part → Part) : (s.modPart p f).ledgA = s.ledgA := rfl
@[simp] theorem State.modPart_ledgB (p : Nat) (f : Part → Part) : (s.modPart p f).ledgB = s.ledgB := rfl
@[simp] theorem State.modPart_book (p : Nat) (f : Part → Part) : (s.modPart p f).book = s.book := rfl
@[simp] theorem State.modPart_alm (p : Nat) (f : Part → Part) : (s.modPart p f).alm = s.alm := rfl
@[simp] theorem State.modPart_admHead (p : Nat) (f : Part → Part) : (s.modPart p f).admHead = s.admHead := rfl
@[simp] theorem State.modPart_admTail (p : Nat) (f : Part → Part) : (s.modPart p f).admTail = s.admTail := rfl
@[simp] theorem State.modPart_acqHead (p : Nat) (f : Part → Part) : (s.modPart p f).acqHead = s.acqHead := rfl
@[simp] theorem State.modPart_acqTail (p : Nat) (f : Part → Part) : (s.modPart p f).acqTail = s.acqTail := rfl
@[simp] theorem State.modPart_admOpen (p : Nat) (f : Part → Part) : (s.modPart p f).admOpen = s.admOpen := rfl
@[simp] theorem State.modPart_admWait (p : Nat) (f : Part → Part) : (s.modPart p f).admWait = s.admWait := rfl
@[simp] theorem State.modPart_fab (p : Nat) (f : Part → Part) : (s.modPart p f).fab = s.fab := rfl
@[simp] theorem State.modPart_snap (p : Nat) (f : Part → Part) : (s.modPart p f).snap = s.snap := rfl
@[simp] theorem State.modPart_d2d (p : Nat) (f : Part → Part) : (s.modPart p f).d2d = s.d2d := rfl
@[simp] theorem State.modPart_meshA (p : Nat) (f : Part → Part) : (s.modPart p f).meshA = s.meshA := rfl
@[simp] theorem State.modPart_meshB (p : Nat) (f : Part → Part) : (s.modPart p f).meshB = s.meshB := rfl
@[simp] theorem State.modPart_gates (p : Nat) (f : Part → Part) : (s.modPart p f).gates = s.gates := rfl
@[simp] theorem State.modPart_host (p : Nat) (f : Part → Part) : (s.modPart p f).host = s.host := rfl
@[simp] theorem State.modPart_far (p : Nat) (f : Part → Part) : (s.modPart p f).far = s.far := rfl
@[simp] theorem State.modPart_pwr (p : Nat) (f : Part → Part) : (s.modPart p f).pwr = s.pwr := rfl
@[simp] theorem State.modPart_thm (p : Nat) (f : Part → Part) : (s.modPart p f).thm = s.thm := rfl
@[simp] theorem State.modPart_boot (p : Nat) (f : Part → Part) : (s.modPart p f).boot = s.boot := rfl
@[simp] theorem State.modPart_abs (p : Nat) (f : Part → Part) : (s.modPart p f).abs = s.abs := rfl
@[simp] theorem State.modPart_sec (p : Nat) (f : Part → Part) : (s.modPart p f).sec = s.sec := rfl
@[simp] theorem State.modPart_elog (p : Nat) (f : Part → Part) : (s.modPart p f).elog = s.elog := rfl
@[simp] theorem State.modPart_timeUs (p : Nat) (f : Part → Part) : (s.modPart p f).timeUs = s.timeUs := rfl
@[simp] theorem State.modPart_freeCtr (p : Nat) (f : Part → Part) : (s.modPart p f).freeCtr = s.freeCtr := rfl
@[simp] theorem State.modPart_sent (p : Nat) (f : Part → Part) : (s.modPart p f).sent = s.sent := rfl
@[simp] theorem State.modPart_pending (p : Nat) (f : Part → Part) : (s.modPart p f).pending = s.pending := rfl

/-! ### modFar -/

@[simp] theorem State.modFar_regs (n : Nat) (f : FarPort → FarPort) : (s.modFar n f).regs = s.regs := rfl
@[simp] theorem State.modFar_latch (n : Nat) (f : FarPort → FarPort) : (s.modFar n f).latch = s.latch := rfl
@[simp] theorem State.modFar_staged (n : Nat) (f : FarPort → FarPort) : (s.modFar n f).staged = s.staged := rfl
@[simp] theorem State.modFar_cores (n : Nat) (f : FarPort → FarPort) : (s.modFar n f).cores = s.cores := rfl
@[simp] theorem State.modFar_vaults (n : Nat) (f : FarPort → FarPort) : (s.modFar n f).vaults = s.vaults := rfl
@[simp] theorem State.modFar_parts (n : Nat) (f : FarPort → FarPort) : (s.modFar n f).parts = s.parts := rfl
@[simp] theorem State.modFar_rollA (n : Nat) (f : FarPort → FarPort) : (s.modFar n f).rollA = s.rollA := rfl
@[simp] theorem State.modFar_rollB (n : Nat) (f : FarPort → FarPort) : (s.modFar n f).rollB = s.rollB := rfl
@[simp] theorem State.modFar_ledgA (n : Nat) (f : FarPort → FarPort) : (s.modFar n f).ledgA = s.ledgA := rfl
@[simp] theorem State.modFar_ledgB (n : Nat) (f : FarPort → FarPort) : (s.modFar n f).ledgB = s.ledgB := rfl
@[simp] theorem State.modFar_book (n : Nat) (f : FarPort → FarPort) : (s.modFar n f).book = s.book := rfl
@[simp] theorem State.modFar_alm (n : Nat) (f : FarPort → FarPort) : (s.modFar n f).alm = s.alm := rfl
@[simp] theorem State.modFar_admHead (n : Nat) (f : FarPort → FarPort) : (s.modFar n f).admHead = s.admHead := rfl
@[simp] theorem State.modFar_admTail (n : Nat) (f : FarPort → FarPort) : (s.modFar n f).admTail = s.admTail := rfl
@[simp] theorem State.modFar_acqHead (n : Nat) (f : FarPort → FarPort) : (s.modFar n f).acqHead = s.acqHead := rfl
@[simp] theorem State.modFar_acqTail (n : Nat) (f : FarPort → FarPort) : (s.modFar n f).acqTail = s.acqTail := rfl
@[simp] theorem State.modFar_admOpen (n : Nat) (f : FarPort → FarPort) : (s.modFar n f).admOpen = s.admOpen := rfl
@[simp] theorem State.modFar_admWait (n : Nat) (f : FarPort → FarPort) : (s.modFar n f).admWait = s.admWait := rfl
@[simp] theorem State.modFar_fab (n : Nat) (f : FarPort → FarPort) : (s.modFar n f).fab = s.fab := rfl
@[simp] theorem State.modFar_snap (n : Nat) (f : FarPort → FarPort) : (s.modFar n f).snap = s.snap := rfl
@[simp] theorem State.modFar_d2d (n : Nat) (f : FarPort → FarPort) : (s.modFar n f).d2d = s.d2d := rfl
@[simp] theorem State.modFar_meshA (n : Nat) (f : FarPort → FarPort) : (s.modFar n f).meshA = s.meshA := rfl
@[simp] theorem State.modFar_meshB (n : Nat) (f : FarPort → FarPort) : (s.modFar n f).meshB = s.meshB := rfl
@[simp] theorem State.modFar_gates (n : Nat) (f : FarPort → FarPort) : (s.modFar n f).gates = s.gates := rfl
@[simp] theorem State.modFar_host (n : Nat) (f : FarPort → FarPort) : (s.modFar n f).host = s.host := rfl
@[simp] theorem State.modFar_pwr (n : Nat) (f : FarPort → FarPort) : (s.modFar n f).pwr = s.pwr := rfl
@[simp] theorem State.modFar_thm (n : Nat) (f : FarPort → FarPort) : (s.modFar n f).thm = s.thm := rfl
@[simp] theorem State.modFar_boot (n : Nat) (f : FarPort → FarPort) : (s.modFar n f).boot = s.boot := rfl
@[simp] theorem State.modFar_abs (n : Nat) (f : FarPort → FarPort) : (s.modFar n f).abs = s.abs := rfl
@[simp] theorem State.modFar_sec (n : Nat) (f : FarPort → FarPort) : (s.modFar n f).sec = s.sec := rfl
@[simp] theorem State.modFar_elog (n : Nat) (f : FarPort → FarPort) : (s.modFar n f).elog = s.elog := rfl
@[simp] theorem State.modFar_timeUs (n : Nat) (f : FarPort → FarPort) : (s.modFar n f).timeUs = s.timeUs := rfl
@[simp] theorem State.modFar_freeCtr (n : Nat) (f : FarPort → FarPort) : (s.modFar n f).freeCtr = s.freeCtr := rfl
@[simp] theorem State.modFar_sent (n : Nat) (f : FarPort → FarPort) : (s.modFar n f).sent = s.sent := rfl
@[simp] theorem State.modFar_pending (n : Nat) (f : FarPort → FarPort) : (s.modFar n f).pending = s.pending := rfl

/-! ### modFport -/

@[simp] theorem State.modFport_regs (n : Nat) (f : FPort → FPort) : (s.modFport n f).regs = s.regs := rfl
@[simp] theorem State.modFport_latch (n : Nat) (f : FPort → FPort) : (s.modFport n f).latch = s.latch := rfl
@[simp] theorem State.modFport_staged (n : Nat) (f : FPort → FPort) : (s.modFport n f).staged = s.staged := rfl
@[simp] theorem State.modFport_cores (n : Nat) (f : FPort → FPort) : (s.modFport n f).cores = s.cores := rfl
@[simp] theorem State.modFport_vaults (n : Nat) (f : FPort → FPort) : (s.modFport n f).vaults = s.vaults := rfl
@[simp] theorem State.modFport_parts (n : Nat) (f : FPort → FPort) : (s.modFport n f).parts = s.parts := rfl
@[simp] theorem State.modFport_rollA (n : Nat) (f : FPort → FPort) : (s.modFport n f).rollA = s.rollA := rfl
@[simp] theorem State.modFport_rollB (n : Nat) (f : FPort → FPort) : (s.modFport n f).rollB = s.rollB := rfl
@[simp] theorem State.modFport_ledgA (n : Nat) (f : FPort → FPort) : (s.modFport n f).ledgA = s.ledgA := rfl
@[simp] theorem State.modFport_ledgB (n : Nat) (f : FPort → FPort) : (s.modFport n f).ledgB = s.ledgB := rfl
@[simp] theorem State.modFport_book (n : Nat) (f : FPort → FPort) : (s.modFport n f).book = s.book := rfl
@[simp] theorem State.modFport_alm (n : Nat) (f : FPort → FPort) : (s.modFport n f).alm = s.alm := rfl
@[simp] theorem State.modFport_admHead (n : Nat) (f : FPort → FPort) : (s.modFport n f).admHead = s.admHead := rfl
@[simp] theorem State.modFport_admTail (n : Nat) (f : FPort → FPort) : (s.modFport n f).admTail = s.admTail := rfl
@[simp] theorem State.modFport_acqHead (n : Nat) (f : FPort → FPort) : (s.modFport n f).acqHead = s.acqHead := rfl
@[simp] theorem State.modFport_acqTail (n : Nat) (f : FPort → FPort) : (s.modFport n f).acqTail = s.acqTail := rfl
@[simp] theorem State.modFport_admOpen (n : Nat) (f : FPort → FPort) : (s.modFport n f).admOpen = s.admOpen := rfl
@[simp] theorem State.modFport_admWait (n : Nat) (f : FPort → FPort) : (s.modFport n f).admWait = s.admWait := rfl
@[simp] theorem State.modFport_snap (n : Nat) (f : FPort → FPort) : (s.modFport n f).snap = s.snap := rfl
@[simp] theorem State.modFport_d2d (n : Nat) (f : FPort → FPort) : (s.modFport n f).d2d = s.d2d := rfl
@[simp] theorem State.modFport_meshA (n : Nat) (f : FPort → FPort) : (s.modFport n f).meshA = s.meshA := rfl
@[simp] theorem State.modFport_meshB (n : Nat) (f : FPort → FPort) : (s.modFport n f).meshB = s.meshB := rfl
@[simp] theorem State.modFport_gates (n : Nat) (f : FPort → FPort) : (s.modFport n f).gates = s.gates := rfl
@[simp] theorem State.modFport_host (n : Nat) (f : FPort → FPort) : (s.modFport n f).host = s.host := rfl
@[simp] theorem State.modFport_far (n : Nat) (f : FPort → FPort) : (s.modFport n f).far = s.far := rfl
@[simp] theorem State.modFport_pwr (n : Nat) (f : FPort → FPort) : (s.modFport n f).pwr = s.pwr := rfl
@[simp] theorem State.modFport_thm (n : Nat) (f : FPort → FPort) : (s.modFport n f).thm = s.thm := rfl
@[simp] theorem State.modFport_boot (n : Nat) (f : FPort → FPort) : (s.modFport n f).boot = s.boot := rfl
@[simp] theorem State.modFport_abs (n : Nat) (f : FPort → FPort) : (s.modFport n f).abs = s.abs := rfl
@[simp] theorem State.modFport_sec (n : Nat) (f : FPort → FPort) : (s.modFport n f).sec = s.sec := rfl
@[simp] theorem State.modFport_elog (n : Nat) (f : FPort → FPort) : (s.modFport n f).elog = s.elog := rfl
@[simp] theorem State.modFport_timeUs (n : Nat) (f : FPort → FPort) : (s.modFport n f).timeUs = s.timeUs := rfl
@[simp] theorem State.modFport_freeCtr (n : Nat) (f : FPort → FPort) : (s.modFport n f).freeCtr = s.freeCtr := rfl
@[simp] theorem State.modFport_sent (n : Nat) (f : FPort → FPort) : (s.modFport n f).sent = s.sent := rfl
@[simp] theorem State.modFport_pending (n : Nat) (f : FPort → FPort) : (s.modFport n f).pending = s.pending := rfl

/-! ### setSite -/

@[simp] theorem State.setSite_regs (n : Nat) (v : Site) : (s.setSite n v).regs = s.regs := rfl
@[simp] theorem State.setSite_latch (n : Nat) (v : Site) : (s.setSite n v).latch = s.latch := rfl
@[simp] theorem State.setSite_staged (n : Nat) (v : Site) : (s.setSite n v).staged = s.staged := rfl
@[simp] theorem State.setSite_cores (n : Nat) (v : Site) : (s.setSite n v).cores = s.cores := rfl
@[simp] theorem State.setSite_vaults (n : Nat) (v : Site) : (s.setSite n v).vaults = s.vaults := rfl
@[simp] theorem State.setSite_parts (n : Nat) (v : Site) : (s.setSite n v).parts = s.parts := rfl
@[simp] theorem State.setSite_rollA (n : Nat) (v : Site) : (s.setSite n v).rollA = s.rollA := rfl
@[simp] theorem State.setSite_rollB (n : Nat) (v : Site) : (s.setSite n v).rollB = s.rollB := rfl
@[simp] theorem State.setSite_ledgA (n : Nat) (v : Site) : (s.setSite n v).ledgA = s.ledgA := rfl
@[simp] theorem State.setSite_ledgB (n : Nat) (v : Site) : (s.setSite n v).ledgB = s.ledgB := rfl
@[simp] theorem State.setSite_book (n : Nat) (v : Site) : (s.setSite n v).book = s.book := rfl
@[simp] theorem State.setSite_alm (n : Nat) (v : Site) : (s.setSite n v).alm = s.alm := rfl
@[simp] theorem State.setSite_admHead (n : Nat) (v : Site) : (s.setSite n v).admHead = s.admHead := rfl
@[simp] theorem State.setSite_admTail (n : Nat) (v : Site) : (s.setSite n v).admTail = s.admTail := rfl
@[simp] theorem State.setSite_acqHead (n : Nat) (v : Site) : (s.setSite n v).acqHead = s.acqHead := rfl
@[simp] theorem State.setSite_acqTail (n : Nat) (v : Site) : (s.setSite n v).acqTail = s.acqTail := rfl
@[simp] theorem State.setSite_admOpen (n : Nat) (v : Site) : (s.setSite n v).admOpen = s.admOpen := rfl
@[simp] theorem State.setSite_admWait (n : Nat) (v : Site) : (s.setSite n v).admWait = s.admWait := rfl
@[simp] theorem State.setSite_fab (n : Nat) (v : Site) : (s.setSite n v).fab = s.fab := rfl
@[simp] theorem State.setSite_snap (n : Nat) (v : Site) : (s.setSite n v).snap = s.snap := rfl
@[simp] theorem State.setSite_d2d (n : Nat) (v : Site) : (s.setSite n v).d2d = s.d2d := rfl
@[simp] theorem State.setSite_meshA (n : Nat) (v : Site) : (s.setSite n v).meshA = s.meshA := rfl
@[simp] theorem State.setSite_meshB (n : Nat) (v : Site) : (s.setSite n v).meshB = s.meshB := rfl
@[simp] theorem State.setSite_gates (n : Nat) (v : Site) : (s.setSite n v).gates = s.gates := rfl
@[simp] theorem State.setSite_host (n : Nat) (v : Site) : (s.setSite n v).host = s.host := rfl
@[simp] theorem State.setSite_far (n : Nat) (v : Site) : (s.setSite n v).far = s.far := rfl
@[simp] theorem State.setSite_pwr (n : Nat) (v : Site) : (s.setSite n v).pwr = s.pwr := rfl
@[simp] theorem State.setSite_thm (n : Nat) (v : Site) : (s.setSite n v).thm = s.thm := rfl
@[simp] theorem State.setSite_abs (n : Nat) (v : Site) : (s.setSite n v).abs = s.abs := rfl
@[simp] theorem State.setSite_sec (n : Nat) (v : Site) : (s.setSite n v).sec = s.sec := rfl
@[simp] theorem State.setSite_elog (n : Nat) (v : Site) : (s.setSite n v).elog = s.elog := rfl
@[simp] theorem State.setSite_timeUs (n : Nat) (v : Site) : (s.setSite n v).timeUs = s.timeUs := rfl
@[simp] theorem State.setSite_freeCtr (n : Nat) (v : Site) : (s.setSite n v).freeCtr = s.freeCtr := rfl
@[simp] theorem State.setSite_sent (n : Nat) (v : Site) : (s.setSite n v).sent = s.sent := rfl
@[simp] theorem State.setSite_pending (n : Nat) (v : Site) : (s.setSite n v).pending = s.pending := rfl

/-! ### setReg -/

@[simp] theorem State.setReg_latch (code inst bank off : Nat) (v : DWord) : (s.setReg code inst bank off v).latch = s.latch := rfl
@[simp] theorem State.setReg_staged (code inst bank off : Nat) (v : DWord) : (s.setReg code inst bank off v).staged = s.staged := rfl
@[simp] theorem State.setReg_cores (code inst bank off : Nat) (v : DWord) : (s.setReg code inst bank off v).cores = s.cores := rfl
@[simp] theorem State.setReg_vaults (code inst bank off : Nat) (v : DWord) : (s.setReg code inst bank off v).vaults = s.vaults := rfl
@[simp] theorem State.setReg_parts (code inst bank off : Nat) (v : DWord) : (s.setReg code inst bank off v).parts = s.parts := rfl
@[simp] theorem State.setReg_rollA (code inst bank off : Nat) (v : DWord) : (s.setReg code inst bank off v).rollA = s.rollA := rfl
@[simp] theorem State.setReg_rollB (code inst bank off : Nat) (v : DWord) : (s.setReg code inst bank off v).rollB = s.rollB := rfl
@[simp] theorem State.setReg_ledgA (code inst bank off : Nat) (v : DWord) : (s.setReg code inst bank off v).ledgA = s.ledgA := rfl
@[simp] theorem State.setReg_ledgB (code inst bank off : Nat) (v : DWord) : (s.setReg code inst bank off v).ledgB = s.ledgB := rfl
@[simp] theorem State.setReg_book (code inst bank off : Nat) (v : DWord) : (s.setReg code inst bank off v).book = s.book := rfl
@[simp] theorem State.setReg_alm (code inst bank off : Nat) (v : DWord) : (s.setReg code inst bank off v).alm = s.alm := rfl
@[simp] theorem State.setReg_admHead (code inst bank off : Nat) (v : DWord) : (s.setReg code inst bank off v).admHead = s.admHead := rfl
@[simp] theorem State.setReg_admTail (code inst bank off : Nat) (v : DWord) : (s.setReg code inst bank off v).admTail = s.admTail := rfl
@[simp] theorem State.setReg_acqHead (code inst bank off : Nat) (v : DWord) : (s.setReg code inst bank off v).acqHead = s.acqHead := rfl
@[simp] theorem State.setReg_acqTail (code inst bank off : Nat) (v : DWord) : (s.setReg code inst bank off v).acqTail = s.acqTail := rfl
@[simp] theorem State.setReg_admOpen (code inst bank off : Nat) (v : DWord) : (s.setReg code inst bank off v).admOpen = s.admOpen := rfl
@[simp] theorem State.setReg_admWait (code inst bank off : Nat) (v : DWord) : (s.setReg code inst bank off v).admWait = s.admWait := rfl
@[simp] theorem State.setReg_fab (code inst bank off : Nat) (v : DWord) : (s.setReg code inst bank off v).fab = s.fab := rfl
@[simp] theorem State.setReg_snap (code inst bank off : Nat) (v : DWord) : (s.setReg code inst bank off v).snap = s.snap := rfl
@[simp] theorem State.setReg_d2d (code inst bank off : Nat) (v : DWord) : (s.setReg code inst bank off v).d2d = s.d2d := rfl
@[simp] theorem State.setReg_meshA (code inst bank off : Nat) (v : DWord) : (s.setReg code inst bank off v).meshA = s.meshA := rfl
@[simp] theorem State.setReg_meshB (code inst bank off : Nat) (v : DWord) : (s.setReg code inst bank off v).meshB = s.meshB := rfl
@[simp] theorem State.setReg_gates (code inst bank off : Nat) (v : DWord) : (s.setReg code inst bank off v).gates = s.gates := rfl
@[simp] theorem State.setReg_host (code inst bank off : Nat) (v : DWord) : (s.setReg code inst bank off v).host = s.host := rfl
@[simp] theorem State.setReg_far (code inst bank off : Nat) (v : DWord) : (s.setReg code inst bank off v).far = s.far := rfl
@[simp] theorem State.setReg_pwr (code inst bank off : Nat) (v : DWord) : (s.setReg code inst bank off v).pwr = s.pwr := rfl
@[simp] theorem State.setReg_thm (code inst bank off : Nat) (v : DWord) : (s.setReg code inst bank off v).thm = s.thm := rfl
@[simp] theorem State.setReg_boot (code inst bank off : Nat) (v : DWord) : (s.setReg code inst bank off v).boot = s.boot := rfl
@[simp] theorem State.setReg_abs (code inst bank off : Nat) (v : DWord) : (s.setReg code inst bank off v).abs = s.abs := rfl
@[simp] theorem State.setReg_sec (code inst bank off : Nat) (v : DWord) : (s.setReg code inst bank off v).sec = s.sec := rfl
@[simp] theorem State.setReg_elog (code inst bank off : Nat) (v : DWord) : (s.setReg code inst bank off v).elog = s.elog := rfl
@[simp] theorem State.setReg_timeUs (code inst bank off : Nat) (v : DWord) : (s.setReg code inst bank off v).timeUs = s.timeUs := rfl
@[simp] theorem State.setReg_freeCtr (code inst bank off : Nat) (v : DWord) : (s.setReg code inst bank off v).freeCtr = s.freeCtr := rfl
@[simp] theorem State.setReg_sent (code inst bank off : Nat) (v : DWord) : (s.setReg code inst bank off v).sent = s.sent := rfl
@[simp] theorem State.setReg_pending (code inst bank off : Nat) (v : DWord) : (s.setReg code inst bank off v).pending = s.pending := rfl

/-! ### setFld -/

@[simp] theorem State.setFld_latch (code inst bank off hi lo x : Nat) : (s.setFld code inst bank off hi lo x).latch = s.latch := rfl
@[simp] theorem State.setFld_staged (code inst bank off hi lo x : Nat) : (s.setFld code inst bank off hi lo x).staged = s.staged := rfl
@[simp] theorem State.setFld_cores (code inst bank off hi lo x : Nat) : (s.setFld code inst bank off hi lo x).cores = s.cores := rfl
@[simp] theorem State.setFld_vaults (code inst bank off hi lo x : Nat) : (s.setFld code inst bank off hi lo x).vaults = s.vaults := rfl
@[simp] theorem State.setFld_parts (code inst bank off hi lo x : Nat) : (s.setFld code inst bank off hi lo x).parts = s.parts := rfl
@[simp] theorem State.setFld_rollA (code inst bank off hi lo x : Nat) : (s.setFld code inst bank off hi lo x).rollA = s.rollA := rfl
@[simp] theorem State.setFld_rollB (code inst bank off hi lo x : Nat) : (s.setFld code inst bank off hi lo x).rollB = s.rollB := rfl
@[simp] theorem State.setFld_ledgA (code inst bank off hi lo x : Nat) : (s.setFld code inst bank off hi lo x).ledgA = s.ledgA := rfl
@[simp] theorem State.setFld_ledgB (code inst bank off hi lo x : Nat) : (s.setFld code inst bank off hi lo x).ledgB = s.ledgB := rfl
@[simp] theorem State.setFld_book (code inst bank off hi lo x : Nat) : (s.setFld code inst bank off hi lo x).book = s.book := rfl
@[simp] theorem State.setFld_alm (code inst bank off hi lo x : Nat) : (s.setFld code inst bank off hi lo x).alm = s.alm := rfl
@[simp] theorem State.setFld_admHead (code inst bank off hi lo x : Nat) : (s.setFld code inst bank off hi lo x).admHead = s.admHead := rfl
@[simp] theorem State.setFld_admTail (code inst bank off hi lo x : Nat) : (s.setFld code inst bank off hi lo x).admTail = s.admTail := rfl
@[simp] theorem State.setFld_acqHead (code inst bank off hi lo x : Nat) : (s.setFld code inst bank off hi lo x).acqHead = s.acqHead := rfl
@[simp] theorem State.setFld_acqTail (code inst bank off hi lo x : Nat) : (s.setFld code inst bank off hi lo x).acqTail = s.acqTail := rfl
@[simp] theorem State.setFld_admOpen (code inst bank off hi lo x : Nat) : (s.setFld code inst bank off hi lo x).admOpen = s.admOpen := rfl
@[simp] theorem State.setFld_admWait (code inst bank off hi lo x : Nat) : (s.setFld code inst bank off hi lo x).admWait = s.admWait := rfl
@[simp] theorem State.setFld_fab (code inst bank off hi lo x : Nat) : (s.setFld code inst bank off hi lo x).fab = s.fab := rfl
@[simp] theorem State.setFld_snap (code inst bank off hi lo x : Nat) : (s.setFld code inst bank off hi lo x).snap = s.snap := rfl
@[simp] theorem State.setFld_d2d (code inst bank off hi lo x : Nat) : (s.setFld code inst bank off hi lo x).d2d = s.d2d := rfl
@[simp] theorem State.setFld_meshA (code inst bank off hi lo x : Nat) : (s.setFld code inst bank off hi lo x).meshA = s.meshA := rfl
@[simp] theorem State.setFld_meshB (code inst bank off hi lo x : Nat) : (s.setFld code inst bank off hi lo x).meshB = s.meshB := rfl
@[simp] theorem State.setFld_gates (code inst bank off hi lo x : Nat) : (s.setFld code inst bank off hi lo x).gates = s.gates := rfl
@[simp] theorem State.setFld_host (code inst bank off hi lo x : Nat) : (s.setFld code inst bank off hi lo x).host = s.host := rfl
@[simp] theorem State.setFld_far (code inst bank off hi lo x : Nat) : (s.setFld code inst bank off hi lo x).far = s.far := rfl
@[simp] theorem State.setFld_pwr (code inst bank off hi lo x : Nat) : (s.setFld code inst bank off hi lo x).pwr = s.pwr := rfl
@[simp] theorem State.setFld_thm (code inst bank off hi lo x : Nat) : (s.setFld code inst bank off hi lo x).thm = s.thm := rfl
@[simp] theorem State.setFld_boot (code inst bank off hi lo x : Nat) : (s.setFld code inst bank off hi lo x).boot = s.boot := rfl
@[simp] theorem State.setFld_abs (code inst bank off hi lo x : Nat) : (s.setFld code inst bank off hi lo x).abs = s.abs := rfl
@[simp] theorem State.setFld_sec (code inst bank off hi lo x : Nat) : (s.setFld code inst bank off hi lo x).sec = s.sec := rfl
@[simp] theorem State.setFld_elog (code inst bank off hi lo x : Nat) : (s.setFld code inst bank off hi lo x).elog = s.elog := rfl
@[simp] theorem State.setFld_timeUs (code inst bank off hi lo x : Nat) : (s.setFld code inst bank off hi lo x).timeUs = s.timeUs := rfl
@[simp] theorem State.setFld_freeCtr (code inst bank off hi lo x : Nat) : (s.setFld code inst bank off hi lo x).freeCtr = s.freeCtr := rfl
@[simp] theorem State.setFld_sent (code inst bank off hi lo x : Nat) : (s.setFld code inst bank off hi lo x).sent = s.sent := rfl
@[simp] theorem State.setFld_pending (code inst bank off hi lo x : Nat) : (s.setFld code inst bank off hi lo x).pending = s.pending := rfl

/-! ### bump -/

@[simp] theorem State.bump_latch (code inst bank off n : Nat) : (s.bump code inst bank off n).latch = s.latch := rfl
@[simp] theorem State.bump_staged (code inst bank off n : Nat) : (s.bump code inst bank off n).staged = s.staged := rfl
@[simp] theorem State.bump_cores (code inst bank off n : Nat) : (s.bump code inst bank off n).cores = s.cores := rfl
@[simp] theorem State.bump_vaults (code inst bank off n : Nat) : (s.bump code inst bank off n).vaults = s.vaults := rfl
@[simp] theorem State.bump_parts (code inst bank off n : Nat) : (s.bump code inst bank off n).parts = s.parts := rfl
@[simp] theorem State.bump_rollA (code inst bank off n : Nat) : (s.bump code inst bank off n).rollA = s.rollA := rfl
@[simp] theorem State.bump_rollB (code inst bank off n : Nat) : (s.bump code inst bank off n).rollB = s.rollB := rfl
@[simp] theorem State.bump_ledgA (code inst bank off n : Nat) : (s.bump code inst bank off n).ledgA = s.ledgA := rfl
@[simp] theorem State.bump_ledgB (code inst bank off n : Nat) : (s.bump code inst bank off n).ledgB = s.ledgB := rfl
@[simp] theorem State.bump_book (code inst bank off n : Nat) : (s.bump code inst bank off n).book = s.book := rfl
@[simp] theorem State.bump_alm (code inst bank off n : Nat) : (s.bump code inst bank off n).alm = s.alm := rfl
@[simp] theorem State.bump_admHead (code inst bank off n : Nat) : (s.bump code inst bank off n).admHead = s.admHead := rfl
@[simp] theorem State.bump_admTail (code inst bank off n : Nat) : (s.bump code inst bank off n).admTail = s.admTail := rfl
@[simp] theorem State.bump_acqHead (code inst bank off n : Nat) : (s.bump code inst bank off n).acqHead = s.acqHead := rfl
@[simp] theorem State.bump_acqTail (code inst bank off n : Nat) : (s.bump code inst bank off n).acqTail = s.acqTail := rfl
@[simp] theorem State.bump_admOpen (code inst bank off n : Nat) : (s.bump code inst bank off n).admOpen = s.admOpen := rfl
@[simp] theorem State.bump_admWait (code inst bank off n : Nat) : (s.bump code inst bank off n).admWait = s.admWait := rfl
@[simp] theorem State.bump_fab (code inst bank off n : Nat) : (s.bump code inst bank off n).fab = s.fab := rfl
@[simp] theorem State.bump_snap (code inst bank off n : Nat) : (s.bump code inst bank off n).snap = s.snap := rfl
@[simp] theorem State.bump_d2d (code inst bank off n : Nat) : (s.bump code inst bank off n).d2d = s.d2d := rfl
@[simp] theorem State.bump_meshA (code inst bank off n : Nat) : (s.bump code inst bank off n).meshA = s.meshA := rfl
@[simp] theorem State.bump_meshB (code inst bank off n : Nat) : (s.bump code inst bank off n).meshB = s.meshB := rfl
@[simp] theorem State.bump_gates (code inst bank off n : Nat) : (s.bump code inst bank off n).gates = s.gates := rfl
@[simp] theorem State.bump_host (code inst bank off n : Nat) : (s.bump code inst bank off n).host = s.host := rfl
@[simp] theorem State.bump_far (code inst bank off n : Nat) : (s.bump code inst bank off n).far = s.far := rfl
@[simp] theorem State.bump_pwr (code inst bank off n : Nat) : (s.bump code inst bank off n).pwr = s.pwr := rfl
@[simp] theorem State.bump_thm (code inst bank off n : Nat) : (s.bump code inst bank off n).thm = s.thm := rfl
@[simp] theorem State.bump_boot (code inst bank off n : Nat) : (s.bump code inst bank off n).boot = s.boot := rfl
@[simp] theorem State.bump_abs (code inst bank off n : Nat) : (s.bump code inst bank off n).abs = s.abs := rfl
@[simp] theorem State.bump_sec (code inst bank off n : Nat) : (s.bump code inst bank off n).sec = s.sec := rfl
@[simp] theorem State.bump_elog (code inst bank off n : Nat) : (s.bump code inst bank off n).elog = s.elog := rfl
@[simp] theorem State.bump_timeUs (code inst bank off n : Nat) : (s.bump code inst bank off n).timeUs = s.timeUs := rfl
@[simp] theorem State.bump_freeCtr (code inst bank off n : Nat) : (s.bump code inst bank off n).freeCtr = s.freeCtr := rfl
@[simp] theorem State.bump_sent (code inst bank off n : Nat) : (s.bump code inst bank off n).sent = s.sent := rfl
@[simp] theorem State.bump_pending (code inst bank off n : Nat) : (s.bump code inst bank off n).pending = s.pending := rfl

/-! ### bumpSat -/

@[simp] theorem State.bumpSat_latch (code inst off n : Nat) : (s.bumpSat code inst off n).latch = s.latch := rfl
@[simp] theorem State.bumpSat_staged (code inst off n : Nat) : (s.bumpSat code inst off n).staged = s.staged := rfl
@[simp] theorem State.bumpSat_cores (code inst off n : Nat) : (s.bumpSat code inst off n).cores = s.cores := rfl
@[simp] theorem State.bumpSat_vaults (code inst off n : Nat) : (s.bumpSat code inst off n).vaults = s.vaults := rfl
@[simp] theorem State.bumpSat_parts (code inst off n : Nat) : (s.bumpSat code inst off n).parts = s.parts := rfl
@[simp] theorem State.bumpSat_rollA (code inst off n : Nat) : (s.bumpSat code inst off n).rollA = s.rollA := rfl
@[simp] theorem State.bumpSat_rollB (code inst off n : Nat) : (s.bumpSat code inst off n).rollB = s.rollB := rfl
@[simp] theorem State.bumpSat_ledgA (code inst off n : Nat) : (s.bumpSat code inst off n).ledgA = s.ledgA := rfl
@[simp] theorem State.bumpSat_ledgB (code inst off n : Nat) : (s.bumpSat code inst off n).ledgB = s.ledgB := rfl
@[simp] theorem State.bumpSat_book (code inst off n : Nat) : (s.bumpSat code inst off n).book = s.book := rfl
@[simp] theorem State.bumpSat_alm (code inst off n : Nat) : (s.bumpSat code inst off n).alm = s.alm := rfl
@[simp] theorem State.bumpSat_admHead (code inst off n : Nat) : (s.bumpSat code inst off n).admHead = s.admHead := rfl
@[simp] theorem State.bumpSat_admTail (code inst off n : Nat) : (s.bumpSat code inst off n).admTail = s.admTail := rfl
@[simp] theorem State.bumpSat_acqHead (code inst off n : Nat) : (s.bumpSat code inst off n).acqHead = s.acqHead := rfl
@[simp] theorem State.bumpSat_acqTail (code inst off n : Nat) : (s.bumpSat code inst off n).acqTail = s.acqTail := rfl
@[simp] theorem State.bumpSat_admOpen (code inst off n : Nat) : (s.bumpSat code inst off n).admOpen = s.admOpen := rfl
@[simp] theorem State.bumpSat_admWait (code inst off n : Nat) : (s.bumpSat code inst off n).admWait = s.admWait := rfl
@[simp] theorem State.bumpSat_fab (code inst off n : Nat) : (s.bumpSat code inst off n).fab = s.fab := rfl
@[simp] theorem State.bumpSat_snap (code inst off n : Nat) : (s.bumpSat code inst off n).snap = s.snap := rfl
@[simp] theorem State.bumpSat_d2d (code inst off n : Nat) : (s.bumpSat code inst off n).d2d = s.d2d := rfl
@[simp] theorem State.bumpSat_meshA (code inst off n : Nat) : (s.bumpSat code inst off n).meshA = s.meshA := rfl
@[simp] theorem State.bumpSat_meshB (code inst off n : Nat) : (s.bumpSat code inst off n).meshB = s.meshB := rfl
@[simp] theorem State.bumpSat_gates (code inst off n : Nat) : (s.bumpSat code inst off n).gates = s.gates := rfl
@[simp] theorem State.bumpSat_host (code inst off n : Nat) : (s.bumpSat code inst off n).host = s.host := rfl
@[simp] theorem State.bumpSat_far (code inst off n : Nat) : (s.bumpSat code inst off n).far = s.far := rfl
@[simp] theorem State.bumpSat_pwr (code inst off n : Nat) : (s.bumpSat code inst off n).pwr = s.pwr := rfl
@[simp] theorem State.bumpSat_thm (code inst off n : Nat) : (s.bumpSat code inst off n).thm = s.thm := rfl
@[simp] theorem State.bumpSat_boot (code inst off n : Nat) : (s.bumpSat code inst off n).boot = s.boot := rfl
@[simp] theorem State.bumpSat_abs (code inst off n : Nat) : (s.bumpSat code inst off n).abs = s.abs := rfl
@[simp] theorem State.bumpSat_sec (code inst off n : Nat) : (s.bumpSat code inst off n).sec = s.sec := rfl
@[simp] theorem State.bumpSat_elog (code inst off n : Nat) : (s.bumpSat code inst off n).elog = s.elog := rfl
@[simp] theorem State.bumpSat_timeUs (code inst off n : Nat) : (s.bumpSat code inst off n).timeUs = s.timeUs := rfl
@[simp] theorem State.bumpSat_freeCtr (code inst off n : Nat) : (s.bumpSat code inst off n).freeCtr = s.freeCtr := rfl
@[simp] theorem State.bumpSat_sent (code inst off n : Nat) : (s.bumpSat code inst off n).sent = s.sent := rfl
@[simp] theorem State.bumpSat_pending (code inst off n : Nat) : (s.bumpSat code inst off n).pending = s.pending := rfl

/-! ### noteClamps -/

@[simp] theorem State.noteClamps_latch (code inst n : Nat) : (s.noteClamps code inst n).latch = s.latch := by unfold State.noteClamps; split <;> rfl
@[simp] theorem State.noteClamps_staged (code inst n : Nat) : (s.noteClamps code inst n).staged = s.staged := by unfold State.noteClamps; split <;> rfl
@[simp] theorem State.noteClamps_cores (code inst n : Nat) : (s.noteClamps code inst n).cores = s.cores := by unfold State.noteClamps; split <;> rfl
@[simp] theorem State.noteClamps_vaults (code inst n : Nat) : (s.noteClamps code inst n).vaults = s.vaults := by unfold State.noteClamps; split <;> rfl
@[simp] theorem State.noteClamps_parts (code inst n : Nat) : (s.noteClamps code inst n).parts = s.parts := by unfold State.noteClamps; split <;> rfl
@[simp] theorem State.noteClamps_rollA (code inst n : Nat) : (s.noteClamps code inst n).rollA = s.rollA := by unfold State.noteClamps; split <;> rfl
@[simp] theorem State.noteClamps_rollB (code inst n : Nat) : (s.noteClamps code inst n).rollB = s.rollB := by unfold State.noteClamps; split <;> rfl
@[simp] theorem State.noteClamps_ledgA (code inst n : Nat) : (s.noteClamps code inst n).ledgA = s.ledgA := by unfold State.noteClamps; split <;> rfl
@[simp] theorem State.noteClamps_ledgB (code inst n : Nat) : (s.noteClamps code inst n).ledgB = s.ledgB := by unfold State.noteClamps; split <;> rfl
@[simp] theorem State.noteClamps_book (code inst n : Nat) : (s.noteClamps code inst n).book = s.book := by unfold State.noteClamps; split <;> rfl
@[simp] theorem State.noteClamps_alm (code inst n : Nat) : (s.noteClamps code inst n).alm = s.alm := by unfold State.noteClamps; split <;> rfl
@[simp] theorem State.noteClamps_admHead (code inst n : Nat) : (s.noteClamps code inst n).admHead = s.admHead := by unfold State.noteClamps; split <;> rfl
@[simp] theorem State.noteClamps_admTail (code inst n : Nat) : (s.noteClamps code inst n).admTail = s.admTail := by unfold State.noteClamps; split <;> rfl
@[simp] theorem State.noteClamps_acqHead (code inst n : Nat) : (s.noteClamps code inst n).acqHead = s.acqHead := by unfold State.noteClamps; split <;> rfl
@[simp] theorem State.noteClamps_acqTail (code inst n : Nat) : (s.noteClamps code inst n).acqTail = s.acqTail := by unfold State.noteClamps; split <;> rfl
@[simp] theorem State.noteClamps_admOpen (code inst n : Nat) : (s.noteClamps code inst n).admOpen = s.admOpen := by unfold State.noteClamps; split <;> rfl
@[simp] theorem State.noteClamps_admWait (code inst n : Nat) : (s.noteClamps code inst n).admWait = s.admWait := by unfold State.noteClamps; split <;> rfl
@[simp] theorem State.noteClamps_fab (code inst n : Nat) : (s.noteClamps code inst n).fab = s.fab := by unfold State.noteClamps; split <;> rfl
@[simp] theorem State.noteClamps_snap (code inst n : Nat) : (s.noteClamps code inst n).snap = s.snap := by unfold State.noteClamps; split <;> rfl
@[simp] theorem State.noteClamps_d2d (code inst n : Nat) : (s.noteClamps code inst n).d2d = s.d2d := by unfold State.noteClamps; split <;> rfl
@[simp] theorem State.noteClamps_meshA (code inst n : Nat) : (s.noteClamps code inst n).meshA = s.meshA := by unfold State.noteClamps; split <;> rfl
@[simp] theorem State.noteClamps_meshB (code inst n : Nat) : (s.noteClamps code inst n).meshB = s.meshB := by unfold State.noteClamps; split <;> rfl
@[simp] theorem State.noteClamps_gates (code inst n : Nat) : (s.noteClamps code inst n).gates = s.gates := by unfold State.noteClamps; split <;> rfl
@[simp] theorem State.noteClamps_host (code inst n : Nat) : (s.noteClamps code inst n).host = s.host := by unfold State.noteClamps; split <;> rfl
@[simp] theorem State.noteClamps_far (code inst n : Nat) : (s.noteClamps code inst n).far = s.far := by unfold State.noteClamps; split <;> rfl
@[simp] theorem State.noteClamps_pwr (code inst n : Nat) : (s.noteClamps code inst n).pwr = s.pwr := by unfold State.noteClamps; split <;> rfl
@[simp] theorem State.noteClamps_thm (code inst n : Nat) : (s.noteClamps code inst n).thm = s.thm := by unfold State.noteClamps; split <;> rfl
@[simp] theorem State.noteClamps_boot (code inst n : Nat) : (s.noteClamps code inst n).boot = s.boot := by unfold State.noteClamps; split <;> rfl
@[simp] theorem State.noteClamps_abs (code inst n : Nat) : (s.noteClamps code inst n).abs = s.abs := by unfold State.noteClamps; split <;> rfl
@[simp] theorem State.noteClamps_sec (code inst n : Nat) : (s.noteClamps code inst n).sec = s.sec := by unfold State.noteClamps; split <;> rfl
@[simp] theorem State.noteClamps_elog (code inst n : Nat) : (s.noteClamps code inst n).elog = s.elog := by unfold State.noteClamps; split <;> rfl
@[simp] theorem State.noteClamps_timeUs (code inst n : Nat) : (s.noteClamps code inst n).timeUs = s.timeUs := by unfold State.noteClamps; split <;> rfl
@[simp] theorem State.noteClamps_freeCtr (code inst n : Nat) : (s.noteClamps code inst n).freeCtr = s.freeCtr := by unfold State.noteClamps; split <;> rfl
@[simp] theorem State.noteClamps_sent (code inst n : Nat) : (s.noteClamps code inst n).sent = s.sent := by unfold State.noteClamps; split <;> rfl
@[simp] theorem State.noteClamps_pending (code inst n : Nat) : (s.noteClamps code inst n).pending = s.pending := by unfold State.noteClamps; split <;> rfl

/-! ### noteRefuse -/

@[simp] theorem State.noteRefuse_latch (code inst : Nat) : (s.noteRefuse code inst).latch = s.latch := rfl
@[simp] theorem State.noteRefuse_staged (code inst : Nat) : (s.noteRefuse code inst).staged = s.staged := rfl
@[simp] theorem State.noteRefuse_cores (code inst : Nat) : (s.noteRefuse code inst).cores = s.cores := rfl
@[simp] theorem State.noteRefuse_vaults (code inst : Nat) : (s.noteRefuse code inst).vaults = s.vaults := rfl
@[simp] theorem State.noteRefuse_parts (code inst : Nat) : (s.noteRefuse code inst).parts = s.parts := rfl
@[simp] theorem State.noteRefuse_rollA (code inst : Nat) : (s.noteRefuse code inst).rollA = s.rollA := rfl
@[simp] theorem State.noteRefuse_rollB (code inst : Nat) : (s.noteRefuse code inst).rollB = s.rollB := rfl
@[simp] theorem State.noteRefuse_ledgA (code inst : Nat) : (s.noteRefuse code inst).ledgA = s.ledgA := rfl
@[simp] theorem State.noteRefuse_ledgB (code inst : Nat) : (s.noteRefuse code inst).ledgB = s.ledgB := rfl
@[simp] theorem State.noteRefuse_book (code inst : Nat) : (s.noteRefuse code inst).book = s.book := rfl
@[simp] theorem State.noteRefuse_alm (code inst : Nat) : (s.noteRefuse code inst).alm = s.alm := rfl
@[simp] theorem State.noteRefuse_admHead (code inst : Nat) : (s.noteRefuse code inst).admHead = s.admHead := rfl
@[simp] theorem State.noteRefuse_admTail (code inst : Nat) : (s.noteRefuse code inst).admTail = s.admTail := rfl
@[simp] theorem State.noteRefuse_acqHead (code inst : Nat) : (s.noteRefuse code inst).acqHead = s.acqHead := rfl
@[simp] theorem State.noteRefuse_acqTail (code inst : Nat) : (s.noteRefuse code inst).acqTail = s.acqTail := rfl
@[simp] theorem State.noteRefuse_admOpen (code inst : Nat) : (s.noteRefuse code inst).admOpen = s.admOpen := rfl
@[simp] theorem State.noteRefuse_admWait (code inst : Nat) : (s.noteRefuse code inst).admWait = s.admWait := rfl
@[simp] theorem State.noteRefuse_fab (code inst : Nat) : (s.noteRefuse code inst).fab = s.fab := rfl
@[simp] theorem State.noteRefuse_snap (code inst : Nat) : (s.noteRefuse code inst).snap = s.snap := rfl
@[simp] theorem State.noteRefuse_d2d (code inst : Nat) : (s.noteRefuse code inst).d2d = s.d2d := rfl
@[simp] theorem State.noteRefuse_meshA (code inst : Nat) : (s.noteRefuse code inst).meshA = s.meshA := rfl
@[simp] theorem State.noteRefuse_meshB (code inst : Nat) : (s.noteRefuse code inst).meshB = s.meshB := rfl
@[simp] theorem State.noteRefuse_gates (code inst : Nat) : (s.noteRefuse code inst).gates = s.gates := rfl
@[simp] theorem State.noteRefuse_host (code inst : Nat) : (s.noteRefuse code inst).host = s.host := rfl
@[simp] theorem State.noteRefuse_far (code inst : Nat) : (s.noteRefuse code inst).far = s.far := rfl
@[simp] theorem State.noteRefuse_pwr (code inst : Nat) : (s.noteRefuse code inst).pwr = s.pwr := rfl
@[simp] theorem State.noteRefuse_thm (code inst : Nat) : (s.noteRefuse code inst).thm = s.thm := rfl
@[simp] theorem State.noteRefuse_boot (code inst : Nat) : (s.noteRefuse code inst).boot = s.boot := rfl
@[simp] theorem State.noteRefuse_abs (code inst : Nat) : (s.noteRefuse code inst).abs = s.abs := rfl
@[simp] theorem State.noteRefuse_sec (code inst : Nat) : (s.noteRefuse code inst).sec = s.sec := rfl
@[simp] theorem State.noteRefuse_elog (code inst : Nat) : (s.noteRefuse code inst).elog = s.elog := rfl
@[simp] theorem State.noteRefuse_timeUs (code inst : Nat) : (s.noteRefuse code inst).timeUs = s.timeUs := rfl
@[simp] theorem State.noteRefuse_freeCtr (code inst : Nat) : (s.noteRefuse code inst).freeCtr = s.freeCtr := rfl
@[simp] theorem State.noteRefuse_sent (code inst : Nat) : (s.noteRefuse code inst).sent = s.sent := rfl
@[simp] theorem State.noteRefuse_pending (code inst : Nat) : (s.noteRefuse code inst).pending = s.pending := rfl

/-! ### setErr -/

@[simp] theorem State.setErr_latch (code inst b : Nat) : (s.setErr code inst b).latch = s.latch := rfl
@[simp] theorem State.setErr_staged (code inst b : Nat) : (s.setErr code inst b).staged = s.staged := rfl
@[simp] theorem State.setErr_cores (code inst b : Nat) : (s.setErr code inst b).cores = s.cores := rfl
@[simp] theorem State.setErr_vaults (code inst b : Nat) : (s.setErr code inst b).vaults = s.vaults := rfl
@[simp] theorem State.setErr_parts (code inst b : Nat) : (s.setErr code inst b).parts = s.parts := rfl
@[simp] theorem State.setErr_rollA (code inst b : Nat) : (s.setErr code inst b).rollA = s.rollA := rfl
@[simp] theorem State.setErr_rollB (code inst b : Nat) : (s.setErr code inst b).rollB = s.rollB := rfl
@[simp] theorem State.setErr_ledgA (code inst b : Nat) : (s.setErr code inst b).ledgA = s.ledgA := rfl
@[simp] theorem State.setErr_ledgB (code inst b : Nat) : (s.setErr code inst b).ledgB = s.ledgB := rfl
@[simp] theorem State.setErr_book (code inst b : Nat) : (s.setErr code inst b).book = s.book := rfl
@[simp] theorem State.setErr_alm (code inst b : Nat) : (s.setErr code inst b).alm = s.alm := rfl
@[simp] theorem State.setErr_admHead (code inst b : Nat) : (s.setErr code inst b).admHead = s.admHead := rfl
@[simp] theorem State.setErr_admTail (code inst b : Nat) : (s.setErr code inst b).admTail = s.admTail := rfl
@[simp] theorem State.setErr_acqHead (code inst b : Nat) : (s.setErr code inst b).acqHead = s.acqHead := rfl
@[simp] theorem State.setErr_acqTail (code inst b : Nat) : (s.setErr code inst b).acqTail = s.acqTail := rfl
@[simp] theorem State.setErr_admOpen (code inst b : Nat) : (s.setErr code inst b).admOpen = s.admOpen := rfl
@[simp] theorem State.setErr_admWait (code inst b : Nat) : (s.setErr code inst b).admWait = s.admWait := rfl
@[simp] theorem State.setErr_fab (code inst b : Nat) : (s.setErr code inst b).fab = s.fab := rfl
@[simp] theorem State.setErr_snap (code inst b : Nat) : (s.setErr code inst b).snap = s.snap := rfl
@[simp] theorem State.setErr_d2d (code inst b : Nat) : (s.setErr code inst b).d2d = s.d2d := rfl
@[simp] theorem State.setErr_meshA (code inst b : Nat) : (s.setErr code inst b).meshA = s.meshA := rfl
@[simp] theorem State.setErr_meshB (code inst b : Nat) : (s.setErr code inst b).meshB = s.meshB := rfl
@[simp] theorem State.setErr_gates (code inst b : Nat) : (s.setErr code inst b).gates = s.gates := rfl
@[simp] theorem State.setErr_host (code inst b : Nat) : (s.setErr code inst b).host = s.host := rfl
@[simp] theorem State.setErr_far (code inst b : Nat) : (s.setErr code inst b).far = s.far := rfl
@[simp] theorem State.setErr_pwr (code inst b : Nat) : (s.setErr code inst b).pwr = s.pwr := rfl
@[simp] theorem State.setErr_thm (code inst b : Nat) : (s.setErr code inst b).thm = s.thm := rfl
@[simp] theorem State.setErr_boot (code inst b : Nat) : (s.setErr code inst b).boot = s.boot := rfl
@[simp] theorem State.setErr_abs (code inst b : Nat) : (s.setErr code inst b).abs = s.abs := rfl
@[simp] theorem State.setErr_sec (code inst b : Nat) : (s.setErr code inst b).sec = s.sec := rfl
@[simp] theorem State.setErr_elog (code inst b : Nat) : (s.setErr code inst b).elog = s.elog := rfl
@[simp] theorem State.setErr_timeUs (code inst b : Nat) : (s.setErr code inst b).timeUs = s.timeUs := rfl
@[simp] theorem State.setErr_freeCtr (code inst b : Nat) : (s.setErr code inst b).freeCtr = s.freeCtr := rfl
@[simp] theorem State.setErr_sent (code inst b : Nat) : (s.setErr code inst b).sent = s.sent := rfl
@[simp] theorem State.setErr_pending (code inst b : Nat) : (s.setErr code inst b).pending = s.pending := rfl

/-! ### setMesh -/

@[simp] theorem State.setMesh_regs (h : Nat) (m : MeshHalf) : (s.setMesh h m).regs = s.regs := by unfold State.setMesh; split <;> rfl
@[simp] theorem State.setMesh_latch (h : Nat) (m : MeshHalf) : (s.setMesh h m).latch = s.latch := by unfold State.setMesh; split <;> rfl
@[simp] theorem State.setMesh_staged (h : Nat) (m : MeshHalf) : (s.setMesh h m).staged = s.staged := by unfold State.setMesh; split <;> rfl
@[simp] theorem State.setMesh_cores (h : Nat) (m : MeshHalf) : (s.setMesh h m).cores = s.cores := by unfold State.setMesh; split <;> rfl
@[simp] theorem State.setMesh_vaults (h : Nat) (m : MeshHalf) : (s.setMesh h m).vaults = s.vaults := by unfold State.setMesh; split <;> rfl
@[simp] theorem State.setMesh_parts (h : Nat) (m : MeshHalf) : (s.setMesh h m).parts = s.parts := by unfold State.setMesh; split <;> rfl
@[simp] theorem State.setMesh_rollA (h : Nat) (m : MeshHalf) : (s.setMesh h m).rollA = s.rollA := by unfold State.setMesh; split <;> rfl
@[simp] theorem State.setMesh_rollB (h : Nat) (m : MeshHalf) : (s.setMesh h m).rollB = s.rollB := by unfold State.setMesh; split <;> rfl
@[simp] theorem State.setMesh_ledgA (h : Nat) (m : MeshHalf) : (s.setMesh h m).ledgA = s.ledgA := by unfold State.setMesh; split <;> rfl
@[simp] theorem State.setMesh_ledgB (h : Nat) (m : MeshHalf) : (s.setMesh h m).ledgB = s.ledgB := by unfold State.setMesh; split <;> rfl
@[simp] theorem State.setMesh_book (h : Nat) (m : MeshHalf) : (s.setMesh h m).book = s.book := by unfold State.setMesh; split <;> rfl
@[simp] theorem State.setMesh_alm (h : Nat) (m : MeshHalf) : (s.setMesh h m).alm = s.alm := by unfold State.setMesh; split <;> rfl
@[simp] theorem State.setMesh_admHead (h : Nat) (m : MeshHalf) : (s.setMesh h m).admHead = s.admHead := by unfold State.setMesh; split <;> rfl
@[simp] theorem State.setMesh_admTail (h : Nat) (m : MeshHalf) : (s.setMesh h m).admTail = s.admTail := by unfold State.setMesh; split <;> rfl
@[simp] theorem State.setMesh_acqHead (h : Nat) (m : MeshHalf) : (s.setMesh h m).acqHead = s.acqHead := by unfold State.setMesh; split <;> rfl
@[simp] theorem State.setMesh_acqTail (h : Nat) (m : MeshHalf) : (s.setMesh h m).acqTail = s.acqTail := by unfold State.setMesh; split <;> rfl
@[simp] theorem State.setMesh_admOpen (h : Nat) (m : MeshHalf) : (s.setMesh h m).admOpen = s.admOpen := by unfold State.setMesh; split <;> rfl
@[simp] theorem State.setMesh_admWait (h : Nat) (m : MeshHalf) : (s.setMesh h m).admWait = s.admWait := by unfold State.setMesh; split <;> rfl
@[simp] theorem State.setMesh_fab (h : Nat) (m : MeshHalf) : (s.setMesh h m).fab = s.fab := by unfold State.setMesh; split <;> rfl
@[simp] theorem State.setMesh_snap (h : Nat) (m : MeshHalf) : (s.setMesh h m).snap = s.snap := by unfold State.setMesh; split <;> rfl
@[simp] theorem State.setMesh_d2d (h : Nat) (m : MeshHalf) : (s.setMesh h m).d2d = s.d2d := by unfold State.setMesh; split <;> rfl
@[simp] theorem State.setMesh_gates (h : Nat) (m : MeshHalf) : (s.setMesh h m).gates = s.gates := by unfold State.setMesh; split <;> rfl
@[simp] theorem State.setMesh_host (h : Nat) (m : MeshHalf) : (s.setMesh h m).host = s.host := by unfold State.setMesh; split <;> rfl
@[simp] theorem State.setMesh_far (h : Nat) (m : MeshHalf) : (s.setMesh h m).far = s.far := by unfold State.setMesh; split <;> rfl
@[simp] theorem State.setMesh_pwr (h : Nat) (m : MeshHalf) : (s.setMesh h m).pwr = s.pwr := by unfold State.setMesh; split <;> rfl
@[simp] theorem State.setMesh_thm (h : Nat) (m : MeshHalf) : (s.setMesh h m).thm = s.thm := by unfold State.setMesh; split <;> rfl
@[simp] theorem State.setMesh_boot (h : Nat) (m : MeshHalf) : (s.setMesh h m).boot = s.boot := by unfold State.setMesh; split <;> rfl
@[simp] theorem State.setMesh_abs (h : Nat) (m : MeshHalf) : (s.setMesh h m).abs = s.abs := by unfold State.setMesh; split <;> rfl
@[simp] theorem State.setMesh_sec (h : Nat) (m : MeshHalf) : (s.setMesh h m).sec = s.sec := by unfold State.setMesh; split <;> rfl
@[simp] theorem State.setMesh_elog (h : Nat) (m : MeshHalf) : (s.setMesh h m).elog = s.elog := by unfold State.setMesh; split <;> rfl
@[simp] theorem State.setMesh_timeUs (h : Nat) (m : MeshHalf) : (s.setMesh h m).timeUs = s.timeUs := by unfold State.setMesh; split <;> rfl
@[simp] theorem State.setMesh_freeCtr (h : Nat) (m : MeshHalf) : (s.setMesh h m).freeCtr = s.freeCtr := by unfold State.setMesh; split <;> rfl
@[simp] theorem State.setMesh_sent (h : Nat) (m : MeshHalf) : (s.setMesh h m).sent = s.sent := by unfold State.setMesh; split <;> rfl
@[simp] theorem State.setMesh_pending (h : Nat) (m : MeshHalf) : (s.setMesh h m).pending = s.pending := by unfold State.setMesh; split <;> rfl

/-! ### setIntRegs -/

@[simp] theorem State.setIntRegs_latch (code inst sts en : Nat) : (s.setIntRegs code inst sts en).latch = s.latch := by unfold State.setIntRegs State.raiseInt; dsimp only; split <;> rfl
@[simp] theorem State.setIntRegs_staged (code inst sts en : Nat) : (s.setIntRegs code inst sts en).staged = s.staged := by unfold State.setIntRegs State.raiseInt; dsimp only; split <;> rfl
@[simp] theorem State.setIntRegs_cores (code inst sts en : Nat) : (s.setIntRegs code inst sts en).cores = s.cores := by unfold State.setIntRegs State.raiseInt; dsimp only; split <;> rfl
@[simp] theorem State.setIntRegs_vaults (code inst sts en : Nat) : (s.setIntRegs code inst sts en).vaults = s.vaults := by unfold State.setIntRegs State.raiseInt; dsimp only; split <;> rfl
@[simp] theorem State.setIntRegs_parts (code inst sts en : Nat) : (s.setIntRegs code inst sts en).parts = s.parts := by unfold State.setIntRegs State.raiseInt; dsimp only; split <;> rfl
@[simp] theorem State.setIntRegs_rollA (code inst sts en : Nat) : (s.setIntRegs code inst sts en).rollA = s.rollA := by unfold State.setIntRegs State.raiseInt; dsimp only; split <;> rfl
@[simp] theorem State.setIntRegs_rollB (code inst sts en : Nat) : (s.setIntRegs code inst sts en).rollB = s.rollB := by unfold State.setIntRegs State.raiseInt; dsimp only; split <;> rfl
@[simp] theorem State.setIntRegs_ledgA (code inst sts en : Nat) : (s.setIntRegs code inst sts en).ledgA = s.ledgA := by unfold State.setIntRegs State.raiseInt; dsimp only; split <;> rfl
@[simp] theorem State.setIntRegs_ledgB (code inst sts en : Nat) : (s.setIntRegs code inst sts en).ledgB = s.ledgB := by unfold State.setIntRegs State.raiseInt; dsimp only; split <;> rfl
@[simp] theorem State.setIntRegs_book (code inst sts en : Nat) : (s.setIntRegs code inst sts en).book = s.book := by unfold State.setIntRegs State.raiseInt; dsimp only; split <;> rfl
@[simp] theorem State.setIntRegs_alm (code inst sts en : Nat) : (s.setIntRegs code inst sts en).alm = s.alm := by unfold State.setIntRegs State.raiseInt; dsimp only; split <;> rfl
@[simp] theorem State.setIntRegs_admHead (code inst sts en : Nat) : (s.setIntRegs code inst sts en).admHead = s.admHead := by unfold State.setIntRegs State.raiseInt; dsimp only; split <;> rfl
@[simp] theorem State.setIntRegs_admTail (code inst sts en : Nat) : (s.setIntRegs code inst sts en).admTail = s.admTail := by unfold State.setIntRegs State.raiseInt; dsimp only; split <;> rfl
@[simp] theorem State.setIntRegs_acqHead (code inst sts en : Nat) : (s.setIntRegs code inst sts en).acqHead = s.acqHead := by unfold State.setIntRegs State.raiseInt; dsimp only; split <;> rfl
@[simp] theorem State.setIntRegs_acqTail (code inst sts en : Nat) : (s.setIntRegs code inst sts en).acqTail = s.acqTail := by unfold State.setIntRegs State.raiseInt; dsimp only; split <;> rfl
@[simp] theorem State.setIntRegs_admOpen (code inst sts en : Nat) : (s.setIntRegs code inst sts en).admOpen = s.admOpen := by unfold State.setIntRegs State.raiseInt; dsimp only; split <;> rfl
@[simp] theorem State.setIntRegs_admWait (code inst sts en : Nat) : (s.setIntRegs code inst sts en).admWait = s.admWait := by unfold State.setIntRegs State.raiseInt; dsimp only; split <;> rfl
@[simp] theorem State.setIntRegs_fab (code inst sts en : Nat) : (s.setIntRegs code inst sts en).fab = s.fab := by unfold State.setIntRegs State.raiseInt; dsimp only; split <;> rfl
@[simp] theorem State.setIntRegs_snap (code inst sts en : Nat) : (s.setIntRegs code inst sts en).snap = s.snap := by unfold State.setIntRegs State.raiseInt; dsimp only; split <;> rfl
@[simp] theorem State.setIntRegs_d2d (code inst sts en : Nat) : (s.setIntRegs code inst sts en).d2d = s.d2d := by unfold State.setIntRegs State.raiseInt; dsimp only; split <;> rfl
@[simp] theorem State.setIntRegs_meshA (code inst sts en : Nat) : (s.setIntRegs code inst sts en).meshA = s.meshA := by unfold State.setIntRegs State.raiseInt; dsimp only; split <;> rfl
@[simp] theorem State.setIntRegs_meshB (code inst sts en : Nat) : (s.setIntRegs code inst sts en).meshB = s.meshB := by unfold State.setIntRegs State.raiseInt; dsimp only; split <;> rfl
@[simp] theorem State.setIntRegs_gates (code inst sts en : Nat) : (s.setIntRegs code inst sts en).gates = s.gates := by unfold State.setIntRegs State.raiseInt; dsimp only; split <;> rfl
@[simp] theorem State.setIntRegs_host (code inst sts en : Nat) : (s.setIntRegs code inst sts en).host = s.host := by unfold State.setIntRegs State.raiseInt; dsimp only; split <;> rfl
@[simp] theorem State.setIntRegs_far (code inst sts en : Nat) : (s.setIntRegs code inst sts en).far = s.far := by unfold State.setIntRegs State.raiseInt; dsimp only; split <;> rfl
@[simp] theorem State.setIntRegs_pwr (code inst sts en : Nat) : (s.setIntRegs code inst sts en).pwr = s.pwr := by unfold State.setIntRegs State.raiseInt; dsimp only; split <;> rfl
@[simp] theorem State.setIntRegs_thm (code inst sts en : Nat) : (s.setIntRegs code inst sts en).thm = s.thm := by unfold State.setIntRegs State.raiseInt; dsimp only; split <;> rfl
@[simp] theorem State.setIntRegs_boot (code inst sts en : Nat) : (s.setIntRegs code inst sts en).boot = s.boot := by unfold State.setIntRegs State.raiseInt; dsimp only; split <;> rfl
@[simp] theorem State.setIntRegs_abs (code inst sts en : Nat) : (s.setIntRegs code inst sts en).abs = s.abs := by unfold State.setIntRegs State.raiseInt; dsimp only; split <;> rfl
@[simp] theorem State.setIntRegs_sec (code inst sts en : Nat) : (s.setIntRegs code inst sts en).sec = s.sec := by unfold State.setIntRegs State.raiseInt; dsimp only; split <;> rfl
@[simp] theorem State.setIntRegs_elog (code inst sts en : Nat) : (s.setIntRegs code inst sts en).elog = s.elog := by unfold State.setIntRegs State.raiseInt; dsimp only; split <;> rfl
@[simp] theorem State.setIntRegs_timeUs (code inst sts en : Nat) : (s.setIntRegs code inst sts en).timeUs = s.timeUs := by unfold State.setIntRegs State.raiseInt; dsimp only; split <;> rfl
@[simp] theorem State.setIntRegs_freeCtr (code inst sts en : Nat) : (s.setIntRegs code inst sts en).freeCtr = s.freeCtr := by unfold State.setIntRegs State.raiseInt; dsimp only; split <;> rfl
@[simp] theorem State.setIntRegs_pending (code inst sts en : Nat) : (s.setIntRegs code inst sts en).pending = s.pending := by unfold State.setIntRegs State.raiseInt; dsimp only; split <;> rfl

/-! ### setInt -/

@[simp] theorem State.setInt_latch (code inst m : Nat) : (s.setInt code inst m).latch = s.latch := State.setIntRegs_latch s code inst _ _
@[simp] theorem State.setInt_staged (code inst m : Nat) : (s.setInt code inst m).staged = s.staged := State.setIntRegs_staged s code inst _ _
@[simp] theorem State.setInt_cores (code inst m : Nat) : (s.setInt code inst m).cores = s.cores := State.setIntRegs_cores s code inst _ _
@[simp] theorem State.setInt_vaults (code inst m : Nat) : (s.setInt code inst m).vaults = s.vaults := State.setIntRegs_vaults s code inst _ _
@[simp] theorem State.setInt_parts (code inst m : Nat) : (s.setInt code inst m).parts = s.parts := State.setIntRegs_parts s code inst _ _
@[simp] theorem State.setInt_rollA (code inst m : Nat) : (s.setInt code inst m).rollA = s.rollA := State.setIntRegs_rollA s code inst _ _
@[simp] theorem State.setInt_rollB (code inst m : Nat) : (s.setInt code inst m).rollB = s.rollB := State.setIntRegs_rollB s code inst _ _
@[simp] theorem State.setInt_ledgA (code inst m : Nat) : (s.setInt code inst m).ledgA = s.ledgA := State.setIntRegs_ledgA s code inst _ _
@[simp] theorem State.setInt_ledgB (code inst m : Nat) : (s.setInt code inst m).ledgB = s.ledgB := State.setIntRegs_ledgB s code inst _ _
@[simp] theorem State.setInt_book (code inst m : Nat) : (s.setInt code inst m).book = s.book := State.setIntRegs_book s code inst _ _
@[simp] theorem State.setInt_alm (code inst m : Nat) : (s.setInt code inst m).alm = s.alm := State.setIntRegs_alm s code inst _ _
@[simp] theorem State.setInt_admHead (code inst m : Nat) : (s.setInt code inst m).admHead = s.admHead := State.setIntRegs_admHead s code inst _ _
@[simp] theorem State.setInt_admTail (code inst m : Nat) : (s.setInt code inst m).admTail = s.admTail := State.setIntRegs_admTail s code inst _ _
@[simp] theorem State.setInt_acqHead (code inst m : Nat) : (s.setInt code inst m).acqHead = s.acqHead := State.setIntRegs_acqHead s code inst _ _
@[simp] theorem State.setInt_acqTail (code inst m : Nat) : (s.setInt code inst m).acqTail = s.acqTail := State.setIntRegs_acqTail s code inst _ _
@[simp] theorem State.setInt_admOpen (code inst m : Nat) : (s.setInt code inst m).admOpen = s.admOpen := State.setIntRegs_admOpen s code inst _ _
@[simp] theorem State.setInt_admWait (code inst m : Nat) : (s.setInt code inst m).admWait = s.admWait := State.setIntRegs_admWait s code inst _ _
@[simp] theorem State.setInt_fab (code inst m : Nat) : (s.setInt code inst m).fab = s.fab := State.setIntRegs_fab s code inst _ _
@[simp] theorem State.setInt_snap (code inst m : Nat) : (s.setInt code inst m).snap = s.snap := State.setIntRegs_snap s code inst _ _
@[simp] theorem State.setInt_d2d (code inst m : Nat) : (s.setInt code inst m).d2d = s.d2d := State.setIntRegs_d2d s code inst _ _
@[simp] theorem State.setInt_meshA (code inst m : Nat) : (s.setInt code inst m).meshA = s.meshA := State.setIntRegs_meshA s code inst _ _
@[simp] theorem State.setInt_meshB (code inst m : Nat) : (s.setInt code inst m).meshB = s.meshB := State.setIntRegs_meshB s code inst _ _
@[simp] theorem State.setInt_gates (code inst m : Nat) : (s.setInt code inst m).gates = s.gates := State.setIntRegs_gates s code inst _ _
@[simp] theorem State.setInt_host (code inst m : Nat) : (s.setInt code inst m).host = s.host := State.setIntRegs_host s code inst _ _
@[simp] theorem State.setInt_far (code inst m : Nat) : (s.setInt code inst m).far = s.far := State.setIntRegs_far s code inst _ _
@[simp] theorem State.setInt_pwr (code inst m : Nat) : (s.setInt code inst m).pwr = s.pwr := State.setIntRegs_pwr s code inst _ _
@[simp] theorem State.setInt_thm (code inst m : Nat) : (s.setInt code inst m).thm = s.thm := State.setIntRegs_thm s code inst _ _
@[simp] theorem State.setInt_boot (code inst m : Nat) : (s.setInt code inst m).boot = s.boot := State.setIntRegs_boot s code inst _ _
@[simp] theorem State.setInt_abs (code inst m : Nat) : (s.setInt code inst m).abs = s.abs := State.setIntRegs_abs s code inst _ _
@[simp] theorem State.setInt_sec (code inst m : Nat) : (s.setInt code inst m).sec = s.sec := State.setIntRegs_sec s code inst _ _
@[simp] theorem State.setInt_elog (code inst m : Nat) : (s.setInt code inst m).elog = s.elog := State.setIntRegs_elog s code inst _ _
@[simp] theorem State.setInt_timeUs (code inst m : Nat) : (s.setInt code inst m).timeUs = s.timeUs := State.setIntRegs_timeUs s code inst _ _
@[simp] theorem State.setInt_freeCtr (code inst m : Nat) : (s.setInt code inst m).freeCtr = s.freeCtr := State.setIntRegs_freeCtr s code inst _ _
@[simp] theorem State.setInt_pending (code inst m : Nat) : (s.setInt code inst m).pending = s.pending := State.setIntRegs_pending s code inst _ _

/-! ### hostWrite -/

@[simp] theorem State.hostWrite_latch (a : Nat) (bs : List Byte) : (s.hostWrite a bs).latch = s.latch := by unfold State.hostWrite; split <;> rfl
@[simp] theorem State.hostWrite_staged (a : Nat) (bs : List Byte) : (s.hostWrite a bs).staged = s.staged := by unfold State.hostWrite; split <;> rfl
@[simp] theorem State.hostWrite_cores (a : Nat) (bs : List Byte) : (s.hostWrite a bs).cores = s.cores := by unfold State.hostWrite; split <;> rfl
@[simp] theorem State.hostWrite_vaults (a : Nat) (bs : List Byte) : (s.hostWrite a bs).vaults = s.vaults := by unfold State.hostWrite; split <;> rfl
@[simp] theorem State.hostWrite_parts (a : Nat) (bs : List Byte) : (s.hostWrite a bs).parts = s.parts := by unfold State.hostWrite; split <;> rfl
@[simp] theorem State.hostWrite_rollA (a : Nat) (bs : List Byte) : (s.hostWrite a bs).rollA = s.rollA := by unfold State.hostWrite; split <;> rfl
@[simp] theorem State.hostWrite_rollB (a : Nat) (bs : List Byte) : (s.hostWrite a bs).rollB = s.rollB := by unfold State.hostWrite; split <;> rfl
@[simp] theorem State.hostWrite_ledgA (a : Nat) (bs : List Byte) : (s.hostWrite a bs).ledgA = s.ledgA := by unfold State.hostWrite; split <;> rfl
@[simp] theorem State.hostWrite_ledgB (a : Nat) (bs : List Byte) : (s.hostWrite a bs).ledgB = s.ledgB := by unfold State.hostWrite; split <;> rfl
@[simp] theorem State.hostWrite_book (a : Nat) (bs : List Byte) : (s.hostWrite a bs).book = s.book := by unfold State.hostWrite; split <;> rfl
@[simp] theorem State.hostWrite_alm (a : Nat) (bs : List Byte) : (s.hostWrite a bs).alm = s.alm := by unfold State.hostWrite; split <;> rfl
@[simp] theorem State.hostWrite_admHead (a : Nat) (bs : List Byte) : (s.hostWrite a bs).admHead = s.admHead := by unfold State.hostWrite; split <;> rfl
@[simp] theorem State.hostWrite_admTail (a : Nat) (bs : List Byte) : (s.hostWrite a bs).admTail = s.admTail := by unfold State.hostWrite; split <;> rfl
@[simp] theorem State.hostWrite_acqHead (a : Nat) (bs : List Byte) : (s.hostWrite a bs).acqHead = s.acqHead := by unfold State.hostWrite; split <;> rfl
@[simp] theorem State.hostWrite_acqTail (a : Nat) (bs : List Byte) : (s.hostWrite a bs).acqTail = s.acqTail := by unfold State.hostWrite; split <;> rfl
@[simp] theorem State.hostWrite_admOpen (a : Nat) (bs : List Byte) : (s.hostWrite a bs).admOpen = s.admOpen := by unfold State.hostWrite; split <;> rfl
@[simp] theorem State.hostWrite_admWait (a : Nat) (bs : List Byte) : (s.hostWrite a bs).admWait = s.admWait := by unfold State.hostWrite; split <;> rfl
@[simp] theorem State.hostWrite_fab (a : Nat) (bs : List Byte) : (s.hostWrite a bs).fab = s.fab := by unfold State.hostWrite; split <;> rfl
@[simp] theorem State.hostWrite_snap (a : Nat) (bs : List Byte) : (s.hostWrite a bs).snap = s.snap := by unfold State.hostWrite; split <;> rfl
@[simp] theorem State.hostWrite_d2d (a : Nat) (bs : List Byte) : (s.hostWrite a bs).d2d = s.d2d := by unfold State.hostWrite; split <;> rfl
@[simp] theorem State.hostWrite_meshA (a : Nat) (bs : List Byte) : (s.hostWrite a bs).meshA = s.meshA := by unfold State.hostWrite; split <;> rfl
@[simp] theorem State.hostWrite_meshB (a : Nat) (bs : List Byte) : (s.hostWrite a bs).meshB = s.meshB := by unfold State.hostWrite; split <;> rfl
@[simp] theorem State.hostWrite_gates (a : Nat) (bs : List Byte) : (s.hostWrite a bs).gates = s.gates := by unfold State.hostWrite; split <;> rfl
@[simp] theorem State.hostWrite_far (a : Nat) (bs : List Byte) : (s.hostWrite a bs).far = s.far := by unfold State.hostWrite; split <;> rfl
@[simp] theorem State.hostWrite_pwr (a : Nat) (bs : List Byte) : (s.hostWrite a bs).pwr = s.pwr := by unfold State.hostWrite; split <;> rfl
@[simp] theorem State.hostWrite_thm (a : Nat) (bs : List Byte) : (s.hostWrite a bs).thm = s.thm := by unfold State.hostWrite; split <;> rfl
@[simp] theorem State.hostWrite_boot (a : Nat) (bs : List Byte) : (s.hostWrite a bs).boot = s.boot := by unfold State.hostWrite; split <;> rfl
@[simp] theorem State.hostWrite_abs (a : Nat) (bs : List Byte) : (s.hostWrite a bs).abs = s.abs := by unfold State.hostWrite; split <;> rfl
@[simp] theorem State.hostWrite_sec (a : Nat) (bs : List Byte) : (s.hostWrite a bs).sec = s.sec := by unfold State.hostWrite; split <;> rfl
@[simp] theorem State.hostWrite_elog (a : Nat) (bs : List Byte) : (s.hostWrite a bs).elog = s.elog := by unfold State.hostWrite; split <;> rfl
@[simp] theorem State.hostWrite_timeUs (a : Nat) (bs : List Byte) : (s.hostWrite a bs).timeUs = s.timeUs := by unfold State.hostWrite; split <;> rfl
@[simp] theorem State.hostWrite_freeCtr (a : Nat) (bs : List Byte) : (s.hostWrite a bs).freeCtr = s.freeCtr := by unfold State.hostWrite; split <;> rfl
@[simp] theorem State.hostWrite_sent (a : Nat) (bs : List Byte) : (s.hostWrite a bs).sent = s.sent := by unfold State.hostWrite; split <;> rfl
@[simp] theorem State.hostWrite_pending (a : Nat) (bs : List Byte) : (s.hostWrite a bs).pending = s.pending := by unfold State.hostWrite; split <;> rfl

/-! ### log -/

@[simp] theorem State.log_latch (ev : Nat) (i : LogInfo) : (s.log ev i).latch = s.latch := by unfold State.log; dsimp only; split <;> (try split) <;> simp
@[simp] theorem State.log_staged (ev : Nat) (i : LogInfo) : (s.log ev i).staged = s.staged := by unfold State.log; dsimp only; split <;> (try split) <;> simp
@[simp] theorem State.log_cores (ev : Nat) (i : LogInfo) : (s.log ev i).cores = s.cores := by unfold State.log; dsimp only; split <;> (try split) <;> simp
@[simp] theorem State.log_vaults (ev : Nat) (i : LogInfo) : (s.log ev i).vaults = s.vaults := by unfold State.log; dsimp only; split <;> (try split) <;> simp
@[simp] theorem State.log_parts (ev : Nat) (i : LogInfo) : (s.log ev i).parts = s.parts := by unfold State.log; dsimp only; split <;> (try split) <;> simp
@[simp] theorem State.log_rollA (ev : Nat) (i : LogInfo) : (s.log ev i).rollA = s.rollA := by unfold State.log; dsimp only; split <;> (try split) <;> simp
@[simp] theorem State.log_rollB (ev : Nat) (i : LogInfo) : (s.log ev i).rollB = s.rollB := by unfold State.log; dsimp only; split <;> (try split) <;> simp
@[simp] theorem State.log_ledgA (ev : Nat) (i : LogInfo) : (s.log ev i).ledgA = s.ledgA := by unfold State.log; dsimp only; split <;> (try split) <;> simp
@[simp] theorem State.log_ledgB (ev : Nat) (i : LogInfo) : (s.log ev i).ledgB = s.ledgB := by unfold State.log; dsimp only; split <;> (try split) <;> simp
@[simp] theorem State.log_book (ev : Nat) (i : LogInfo) : (s.log ev i).book = s.book := by unfold State.log; dsimp only; split <;> (try split) <;> simp
@[simp] theorem State.log_alm (ev : Nat) (i : LogInfo) : (s.log ev i).alm = s.alm := by unfold State.log; dsimp only; split <;> (try split) <;> simp
@[simp] theorem State.log_admHead (ev : Nat) (i : LogInfo) : (s.log ev i).admHead = s.admHead := by unfold State.log; dsimp only; split <;> (try split) <;> simp
@[simp] theorem State.log_admTail (ev : Nat) (i : LogInfo) : (s.log ev i).admTail = s.admTail := by unfold State.log; dsimp only; split <;> (try split) <;> simp
@[simp] theorem State.log_acqHead (ev : Nat) (i : LogInfo) : (s.log ev i).acqHead = s.acqHead := by unfold State.log; dsimp only; split <;> (try split) <;> simp
@[simp] theorem State.log_acqTail (ev : Nat) (i : LogInfo) : (s.log ev i).acqTail = s.acqTail := by unfold State.log; dsimp only; split <;> (try split) <;> simp
@[simp] theorem State.log_admOpen (ev : Nat) (i : LogInfo) : (s.log ev i).admOpen = s.admOpen := by unfold State.log; dsimp only; split <;> (try split) <;> simp
@[simp] theorem State.log_admWait (ev : Nat) (i : LogInfo) : (s.log ev i).admWait = s.admWait := by unfold State.log; dsimp only; split <;> (try split) <;> simp
@[simp] theorem State.log_fab (ev : Nat) (i : LogInfo) : (s.log ev i).fab = s.fab := by unfold State.log; dsimp only; split <;> (try split) <;> simp
@[simp] theorem State.log_snap (ev : Nat) (i : LogInfo) : (s.log ev i).snap = s.snap := by unfold State.log; dsimp only; split <;> (try split) <;> simp
@[simp] theorem State.log_d2d (ev : Nat) (i : LogInfo) : (s.log ev i).d2d = s.d2d := by unfold State.log; dsimp only; split <;> (try split) <;> simp
@[simp] theorem State.log_meshA (ev : Nat) (i : LogInfo) : (s.log ev i).meshA = s.meshA := by unfold State.log; dsimp only; split <;> (try split) <;> simp
@[simp] theorem State.log_meshB (ev : Nat) (i : LogInfo) : (s.log ev i).meshB = s.meshB := by unfold State.log; dsimp only; split <;> (try split) <;> simp
@[simp] theorem State.log_gates (ev : Nat) (i : LogInfo) : (s.log ev i).gates = s.gates := by unfold State.log; dsimp only; split <;> (try split) <;> simp
@[simp] theorem State.log_far (ev : Nat) (i : LogInfo) : (s.log ev i).far = s.far := by unfold State.log; dsimp only; split <;> (try split) <;> simp
@[simp] theorem State.log_pwr (ev : Nat) (i : LogInfo) : (s.log ev i).pwr = s.pwr := by unfold State.log; dsimp only; split <;> (try split) <;> simp
@[simp] theorem State.log_thm (ev : Nat) (i : LogInfo) : (s.log ev i).thm = s.thm := by unfold State.log; dsimp only; split <;> (try split) <;> simp
@[simp] theorem State.log_boot (ev : Nat) (i : LogInfo) : (s.log ev i).boot = s.boot := by unfold State.log; dsimp only; split <;> (try split) <;> simp
@[simp] theorem State.log_abs (ev : Nat) (i : LogInfo) : (s.log ev i).abs = s.abs := by unfold State.log; dsimp only; split <;> (try split) <;> simp
@[simp] theorem State.log_sec (ev : Nat) (i : LogInfo) : (s.log ev i).sec = s.sec := by unfold State.log; dsimp only; split <;> (try split) <;> simp
@[simp] theorem State.log_timeUs (ev : Nat) (i : LogInfo) : (s.log ev i).timeUs = s.timeUs := by unfold State.log; dsimp only; split <;> (try split) <;> simp
@[simp] theorem State.log_freeCtr (ev : Nat) (i : LogInfo) : (s.log ev i).freeCtr = s.freeCtr := by unfold State.log; dsimp only; split <;> (try split) <;> simp
@[simp] theorem State.log_pending (ev : Nat) (i : LogInfo) : (s.log ev i).pending = s.pending := by unfold State.log; dsimp only; split <;> (try split) <;> simp

/-! ### What is written -/

@[simp] theorem State.emit_sent (o : Out) : (s.emit o).sent = o :: s.sent := rfl
@[simp] theorem State.freeUsed_freeCtr : s.freeUsed.freeCtr = s.freeCtr + 1 := rfl

/-! ### Reaches -/

variable (f : Reach) (w : State)

@[simp] theorem Reach.take_regs : (f.take s w).regs = if f.regs then w.regs else s.regs := rfl
@[simp] theorem Reach.take_latch : (f.take s w).latch = if f.regs then w.latch else s.latch := rfl
@[simp] theorem Reach.take_staged : (f.take s w).staged = if f.regs then w.staged else s.staged := rfl
@[simp] theorem Reach.take_cores : (f.take s w).cores = if f.cores then w.cores else s.cores := rfl
@[simp] theorem Reach.take_vaults : (f.take s w).vaults = if f.vaults then w.vaults else s.vaults := rfl
@[simp] theorem Reach.take_parts : (f.take s w).parts = if f.parts then w.parts else s.parts := rfl
@[simp] theorem Reach.take_rollA : (f.take s w).rollA = if f.roll then w.rollA else s.rollA := rfl
@[simp] theorem Reach.take_rollB : (f.take s w).rollB = if f.roll then w.rollB else s.rollB := rfl
@[simp] theorem Reach.take_ledgA : (f.take s w).ledgA = if f.ledg then w.ledgA else s.ledgA := rfl
@[simp] theorem Reach.take_ledgB : (f.take s w).ledgB = if f.ledg then w.ledgB else s.ledgB := rfl
@[simp] theorem Reach.take_book : (f.take s w).book = if f.book then w.book else s.book := rfl
@[simp] theorem Reach.take_alm : (f.take s w).alm = if f.alm then w.alm else s.alm := rfl
@[simp] theorem Reach.take_admHead : (f.take s w).admHead = if f.adm then w.admHead else s.admHead := rfl
@[simp] theorem Reach.take_admTail : (f.take s w).admTail = if f.adm then w.admTail else s.admTail := rfl
@[simp] theorem Reach.take_acqHead : (f.take s w).acqHead = if f.adm then w.acqHead else s.acqHead := rfl
@[simp] theorem Reach.take_acqTail : (f.take s w).acqTail = if f.adm then w.acqTail else s.acqTail := rfl
@[simp] theorem Reach.take_admOpen : (f.take s w).admOpen = if f.adm then w.admOpen else s.admOpen := rfl
@[simp] theorem Reach.take_admWait : (f.take s w).admWait = if f.adm then w.admWait else s.admWait := rfl
@[simp] theorem Reach.take_fab : (f.take s w).fab = if f.fab then w.fab else s.fab := rfl
@[simp] theorem Reach.take_snap : (f.take s w).snap = if f.snap then w.snap else s.snap := rfl
@[simp] theorem Reach.take_d2d : (f.take s w).d2d = if f.d2d then w.d2d else s.d2d := rfl
@[simp] theorem Reach.take_meshA : (f.take s w).meshA = if f.mesh then w.meshA else s.meshA := rfl
@[simp] theorem Reach.take_meshB : (f.take s w).meshB = if f.mesh then w.meshB else s.meshB := rfl
@[simp] theorem Reach.take_gates : (f.take s w).gates = if f.mesh then w.gates else s.gates := rfl
@[simp] theorem Reach.take_host : (f.take s w).host = if f.host then w.host else s.host := rfl
@[simp] theorem Reach.take_far : (f.take s w).far = if f.far then w.far else s.far := rfl
@[simp] theorem Reach.take_pwr : (f.take s w).pwr = if f.pwr then w.pwr else s.pwr := rfl
@[simp] theorem Reach.take_thm : (f.take s w).thm = if f.thm then w.thm else s.thm := rfl
@[simp] theorem Reach.take_boot : (f.take s w).boot = if f.boot then w.boot else s.boot := rfl
@[simp] theorem Reach.take_abs : (f.take s w).abs = if f.abs then w.abs else s.abs := rfl
@[simp] theorem Reach.take_elog : (f.take s w).elog = if f.elog then w.elog else s.elog := rfl
@[simp] theorem Reach.take_timeUs : (f.take s w).timeUs = if f.time then w.timeUs else s.timeUs := rfl
@[simp] theorem Reach.take_freeCtr : (f.take s w).freeCtr = if f.free then w.freeCtr else s.freeCtr := rfl
@[simp] theorem Reach.take_sent : (f.take s w).sent = if f.sent then w.sent else s.sent := rfl
@[simp] theorem Reach.take_pending : (f.take s w).pending = s.pending := rfl
@[simp] theorem Reach.take_keys : (f.take s w).sec.keys = s.sec.keys := by unfold Reach.take; cases f.sec <;> rfl
@[simp] theorem Reach.take_revoked0 : (f.take s w).sec.revoked0 = s.sec.revoked0 := by unfold Reach.take; cases f.sec <;> rfl
@[simp] theorem Reach.take_seed : (f.take s w).sec.seed = s.sec.seed := by unfold Reach.take; cases f.sec <;> rfl
@[simp] theorem Reach.take_rom : (f.take s w).sec.rom = s.sec.rom := by unfold Reach.take; cases f.sec <;> rfl

/-- Outside SECURE's part of a reach, the SECURE block stands. -/
theorem Reach.take_sec (h : f.sec = false) : (f.take s w).sec = s.sec := by simp [Reach.take, h]

/-- Where a reach leaves the fuses out, the anti-rollback counters stand. -/
theorem Reach.take_svn (h : f.fuse = false) : (f.take s w).sec.svn = s.sec.svn := by
  unfold Reach.take
  rw [h]
  cases f.sec <;> rfl

end Sys2Proof.Machine
end

