-- ==== Sys2Proof/Laws/Access.lean ====
section
/-! SUPPORT. Reads after writes of the parts of the state that are held by number, under the canonical form of their maps. -/

namespace Sys2Proof.Machine

set_option Elab.async false

variable (s : State)

/-! ### Cores, vaults and partitions -/

@[simp] theorem State.core_setCore_same (c : Nat) (v : Core) : (s.setCore c v).core c = v := smGet_smSet_same _ _ c v

theorem State.core_setCore_other {c c' : Nat} (v : Core) (hc : c' ≠ c) : (s.setCore c v).core c' = s.core c' :=
  smGet_smSet_other _ _ _ v hc

@[simp] theorem State.core_modCore_same (c : Nat) (f : Core → Core) : (s.modCore c f).core c = f (s.core c) :=
  s.core_setCore_same c _

theorem State.core_modCore_other {c c' : Nat} (f : Core → Core) (hc : c' ≠ c) : (s.modCore c f).core c' = s.core c' :=
  s.core_setCore_other _ hc

@[simp] theorem State.vault_setVault_same (p : Nat) (v : Vault) : (s.setVault p v).vault p = v := smGet_smSet_same _ _ p v

theorem State.vault_setVault_other {p p' : Nat} (v : Vault) (hp : p' ≠ p) : (s.setVault p v).vault p' = s.vault p' :=
  smGet_smSet_other _ _ _ v hp

@[simp] theorem State.vault_modVault_same (p : Nat) (f : Vault → Vault) : (s.modVault p f).vault p = f (s.vault p) :=
  s.vault_setVault_same p _

theorem State.vault_modVault_other {p p' : Nat} (f : Vault → Vault) (hp : p' ≠ p) : (s.modVault p f).vault p' = s.vault p' :=
  s.vault_setVault_other _ hp

@[simp] theorem State.part_setPart_same (p : Nat) (v : Part) : (s.setPart p v).part p = v := smGet_smSet_same _ _ p v

theorem State.part_setPart_other {p p' : Nat} (v : Part) (hp : p' ≠ p) : (s.setPart p v).part p' = s.part p' :=
  smGet_smSet_other _ _ _ v hp

@[simp] theorem State.part_modPart_same (p : Nat) (f : Part → Part) : (s.modPart p f).part p = f (s.part p) :=
  s.part_setPart_same p _

theorem State.part_modPart_other {p p' : Nat} (f : Part → Part) (hp : p' ≠ p) : (s.modPart p f).part p' = s.part p' :=
  s.part_setPart_other _ hp

/-! ### Counters and s-registers -/

theorem State.sreg_setSreg_same (c k : Nat) (v : DWord) : (s.setSreg c k v).sreg c k = v := by
  unfold State.sreg State.setSreg
  simp

theorem State.ctr_setCtr_same (c k : Nat) (v : Word) : (s.setCtr c k v).ctr c k = v := by
  unfold State.ctr State.setCtr
  simp

/-! ### Registers -/

/-- Keys of registers in range are told apart by page type, instance, bank and offset. -/
theorem regKey_inj {code inst bank off code' inst' bank' off' : Nat} (hi : inst < 512) (hb : bank < 64) (ho : off < 4096)
    (hi' : inst' < 512) (hb' : bank' < 64) (ho' : off' < 4096) (h : regKey code inst bank off = regKey code' inst' bank' off') :
    code = code' ∧ inst = inst' ∧ bank = bank' ∧ off = off' := by
  unfold regKey at h
  omega

@[simp] theorem State.reg_setReg_same (code inst bank off : Nat) (v : DWord) :
    (s.setReg code inst bank off v).reg code inst bank off = v := smGet_smSet_same _ _ _ v

theorem State.reg_setReg_other {code inst bank off code' inst' bank' off' : Nat} (v : DWord)
    (hk : regKey code' (regInst code' inst') bank' off' ≠ regKey code (regInst code inst) bank off) :
    (s.setReg code inst bank off v).reg code' inst' bank' off' = s.reg code' inst' bank' off' :=
  smGet_smSet_other _ _ _ v hk

/-- What an unlisted key of the register store reads as. -/
def regDefault (k : Nat) : DWord := regReset (k / 134217728) (k % 4096)

theorem regDefault_regKey (code : Nat) {inst bank off : Nat} (hi : inst < 512) (hb : bank < 64) (ho : off < 4096) :
    regDefault (regKey code inst bank off) = regReset code off := by
  have h1 : regKey code inst bank off / 134217728 = code := by unfold regKey; omega
  have h2 : regKey code inst bank off % 4096 = off := by unfold regKey; omega
  unfold regDefault
  rw [h1, h2]

/-- A register write keeps the canonical form of the register store. -/
theorem State.regs_setReg_wf (code : Nat) {inst bank off : Nat} (v : DWord) (h : smWf regDefault s.regs = true)
    (hi : regInst code inst < 512) (hb : bank < 64) (ho : off < 4096) : smWf regDefault (s.setReg code inst bank off v).regs = true := by
  have := smSet_wf (d := regDefault) (regKey code (regInst code inst) bank off) v h
  rw [regDefault_regKey code hi hb ho] at this
  exact this

end Sys2Proof.Machine
end

