-- ==== Sys2Proof/Laws/Orders.lean ====
section
/-! SUPPORT. What starting an order and completing it do: the new order's number is free, and an order that completes in
its start cycle leaves its core as it was but for its queue, its s-registers and counters. -/

namespace Sys2Proof.Machine

set_option Elab.async false

theorem foldl_max_ge (l : List Flight) : ∀ m : Nat, m ≤ l.foldl (fun m f => max m (f.id + 1)) m := by
  induction l with
  | nil => intro m; exact Nat.le_refl m
  | cons f r ih => intro m; exact Nat.le_trans (Nat.le_max_left _ _) (ih _)

theorem foldl_max_mem (l : List Flight) : ∀ m : Nat, ∀ f ∈ l, f.id < l.foldl (fun m f => max m (f.id + 1)) m := by
  induction l with
  | nil => intro m f h; cases h
  | cons g r ih =>
    intro m f h
    rcases List.mem_cons.1 h with h | h
    · subst h; exact Nat.lt_of_lt_of_le (Nat.lt_succ_self _) (Nat.le_trans (Nat.le_max_right _ _) (foldl_max_ge r _))
    · exact ih _ f h

/-- No order that a core holds has the number of the next started order. -/
theorem Core.freshId_ne (x : Core) {f : Flight} (h : f ∈ x.flights) : f.id ≠ x.freshId :=
  Nat.ne_of_lt (foldl_max_mem x.flights _ f h)

theorem Core.filter_fresh (x : Core) : x.flights.filter (fun y => y.id != x.freshId) = x.flights :=
  List.filter_eq_self.2 (fun f h => by simpa using x.freshId_ne h)

theorem Core.find_fresh (x : Core) : x.flights.find? (fun y => y.id = x.freshId) = none :=
  List.find?_eq_none.2 (fun f h => by simpa using x.freshId_ne h)

/-- The order that a start holds. -/
def Start.flight (st : Start) (id : Nat) : Flight :=
  { id := id, q := st.q, idx := st.idx, ord := st.ord, op := st.op, clamped := decide (st.clamps > 0), status := stOk, done := false }

/-- What a start leaves of its core. -/
def Core.started (x : Core) (st : Start) (len : Nat) : Core :=
  { x with
    nextId := x.freshId + 1
    lastQ := st.q
    lastOp := st.op
    rot := if opUnit st.op = .loom && decide (ordF st.ord 11 2 0 ≥ 4) then (x.rot + 1) % 4 else x.rot
    flights := x.flights ++ [st.flight x.freshId]
    qs := fixSet 4 {} x.qs st.q (({ (x.qs.getD st.q {}) with index := st.idx + 1 } : OrderQ).trim len) }

theorem State.startOrder_snd (s : State) (c : Nat) (st : Start) : (s.startOrder c st).2 = (s.core c).freshId := rfl

theorem State.startOrder_cores (s : State) (c : Nat) (st : Start) :
    (s.startOrder c st).1.cores = (s.setCore c ((s.core c).started st (s.queueLen c st.q))).cores := by
  show (State.noteClamps _ _ _ _).cores = _
  rw [State.noteClamps_cores]; rfl

theorem State.startOrder_core (s : State) (c : Nat) (st : Start) :
    (s.startOrder c st).1.core c = (s.core c).started st (s.queueLen c st.q) := by
  unfold State.core
  rw [State.startOrder_cores]
  exact State.core_setCore_same s c _

theorem State.startOrder_core_other (s : State) {c d : Nat} (st : Start) (h : d ≠ c) :
    (s.startOrder c st).1.core d = s.core d := by
  unfold State.core
  rw [State.startOrder_cores]
  exact State.core_setCore_other s _ h

theorem Core.started_flight (x : Core) (st : Start) (len : Nat) :
    (x.started st len).flight x.freshId = some (st.flight x.freshId) := by
  have h := x.find_fresh
  simp only [Core.flight, Core.started, List.find?_append, h]
  simp [Start.flight]

theorem Core.started_filter (x : Core) (st : Start) (len : Nat) :
    (x.started st len).flights.filter (fun y => y.id != x.freshId) = x.flights := by
  have h := x.filter_fresh
  simp only [Core.started, List.filter_append, h]
  simp [Start.flight]

/-- The status of an order that completes in its start cycle (R9, R135). -/
def Start.status (st : Start) : Nat := if st.clamps > 0 then stClamped else stOk

/-- What an order that completes in its start cycle leaves of its core (R138, R143). -/
def Core.retired (x : Core) (st : Start) (len : Nat) : Core :=
  let w2 := ordW st.ord 2
  let k := ordF st.ord 0 23 18
  { x.started st len with
    flights := x.flights
    sregs := if bit w2 14 then smSet 0 x.sregs (bits w2 13 8 % 64) (BitVec.ofNat 64 st.status) else x.sregs
    ctrs := if bit st.ord 10 then smSet 0 x.ctrs (k % 64) (smGet 0 x.ctrs (k % 64) + BitVec.ofNat 32 (bits w2 7 0)) else x.ctrs }

/-- The completion of an order that has only started: `status_sreg`, then `sig_ctr` (R143). -/
theorem State.startOrder_complete (s : State) (c : Nat) (st : Start) :
    let s1 := (s.startOrder c st).1.modCore c (fun x => { x with flights := x.flights.filter (fun y => y.id != (s.core c).freshId) })
    let s2 := if bit (ordW st.ord 2) 14 then s1.setSreg c (bits (ordW st.ord 2) 13 8) (BitVec.ofNat 64 st.status) else s1
    (s.startOrder c st).1.complete c (s.core c).freshId
      = if bit st.ord 10 then s2.signal c (ordF st.ord 0 23 18) (bits (ordW st.ord 2) 7 0) else s2 := by
  have hf : ((s.startOrder c st).1.core c).flight (s.core c).freshId = some (st.flight (s.core c).freshId) := by
    rw [State.startOrder_core, Core.started_flight]
  unfold State.complete
  rw [hf]
  by_cases hk : st.clamps > 0 <;>
    simp [Start.flight, Start.status, hk, stOk, stClamped, stState, stQuota, stLost, stReplayed, statusOf, statusJoin, statusRank, statusValid]

/-- An order that starts and completes at once leaves its core as `Core.retired` says. -/
theorem State.retired_core (s : State) (c : Nat) (st : Start) :
    ((s.startOrder c st).1.complete c (s.core c).freshId).core c = (s.core c).retired st (s.queueLen c st.q) := by
  rw [State.startOrder_complete]
  have h := Core.started_filter (s.core c) st (s.queueLen c st.q)
  by_cases h1 : bit (ordW st.ord 2) 14 <;> by_cases h2 : bit st.ord 10 <;>
    simp [h1, h2, State.signal, State.setCtr, State.ctr, State.setSreg, State.startOrder_core, Core.retired, h] <;> exact ⟨rfl, rfl⟩

/-- Other cores keep what they hold. -/
theorem State.retired_core_other (s : State) {c d : Nat} (st : Start) (hd : d ≠ c) :
    ((s.startOrder c st).1.complete c (s.core c).freshId).core d = s.core d := by
  rw [State.startOrder_complete]
  by_cases h1 : bit (ordW st.ord 2) 14 <;> by_cases h2 : bit st.ord 10 <;>
    simp [h1, h2, State.signal, State.setCtr, State.setSreg, State.core_modCore_other, State.startOrder_core_other, hd]

/-- The registers that change are those of the start. -/
theorem State.retired_regs (s : State) (c : Nat) (st : Start) :
    ((s.startOrder c st).1.complete c (s.core c).freshId).regs = (s.startOrder c st).1.regs := by
  rw [State.startOrder_complete]
  by_cases h1 : bit (ordW st.ord 2) 14 <;> by_cases h2 : bit st.ord 10 <;>
    simp [h1, h2, State.signal, State.setCtr, State.setSreg]

/-! ### The frame of an order that completes in its start cycle -/

open Sys2Proof.Safety

/-- The order that a clerk starts next heads a RUNNING queue of a core whose orders may start (R131, R136). -/
theorem State.pick_inv {s : State} {c : Nat} {st : Start} (h : s.pick c = some st) :
    s.coreRuns c = true ∧ s.queueState c st.q = qRunning ∧ st.idx = (s.queue c st.q).index ∧
      ∃ raw, s.headOrd c st.q = some raw ∧ (st.ord, st.op, st.clamps) = prepOrder s c raw := by
  unfold State.pick at h
  split at h
  · cases h
  · rename_i hr
    split at h
    · cases h
    · rename_i hf
      split at h
      · cases h
      · rename_i raw hraw
        cases h
        exact ⟨by simpa using hr, by simpa using List.find?_some hf, rfl, raw, hraw, rfl⟩

/-- A picked order's queue is one of the four. -/
theorem State.pick_lt {s : State} {c : Nat} {st : Start} (h : s.pick c = some st) : st.q < 4 := by
  unfold State.pick at h
  split at h
  · cases h
  · split at h
    · cases h
    · rename_i hf
      split at h
      · cases h
      · cases h
        have hm := List.mem_of_find?_eq_some hf
        simp only [List.mem_map] at hm
        obtain ⟨k, _, rfl⟩ := hm
        exact Nat.mod_lt _ (by decide)

theorem State.setReg_regs_other (s : State) {code inst bank off k : Nat} (v : DWord) (h : k ≠ regKey code (regInst code inst) bank off) :
    smFind (s.setReg code inst bank off v).regs k = smFind s.regs k := smFind_smSet_other _ _ v h

theorem regKey_off {code inst bank off off' : Nat} (h : off ≠ off') : regKey code inst bank off ≠ regKey code inst bank off' := by
  unfold regKey; omega

/-- Clamps are counted in two registers of their page (R8, R505). -/
theorem State.noteClamps_regs_other (s : State) {code inst n k : Nat} (h1 : k ≠ regKey code (regInst code inst) 0 hClamp)
    (h2 : k ≠ regKey code (regInst code inst) 0 hSts) : smFind (s.noteClamps code inst n).regs k = smFind s.regs k := by
  unfold State.noteClamps State.bumpSat State.setFld
  split
  · rfl
  · rw [State.setReg_regs_other _ _ h2, State.setReg_regs_other _ _ h1]

theorem State.startOrder_regs (s : State) (c : Nat) (st : Start) :
    (s.startOrder c st).1.regs = ((s.bump pgClerk c 0 rClerkOrders 1).noteClamps pgClerk c st.clamps).regs := by
  have h (a : State) (v : Core) (n : Nat) : ((a.setCore c v).noteClamps pgClerk c n).regs = (a.noteClamps pgClerk c n).regs := by
    unfold State.noteClamps; split <;> rfl
  exact h (s.bump pgClerk c 0 rClerkOrders 1) _ _

/-- An order that starts and completes at once retires as `RetiresAtStart` says (R135, R143). -/
theorem State.retires {s : State} {c k : Nat} {st : Start} (h : s.pick c = some st) :
    RetiresAtStart s ((s.startOrder c { st with clamps := st.clamps + k }).1.complete c (s.core c).freshId) c st k [] [] (st.idx + 1) := by
  have hq := State.pick_lt h
  have hc := State.retired_core s c { st with clamps := st.clamps + k }
  constructor
  · unfold State.queue; rw [hc]; simp [Core.retired, Core.started, fixSet_get_same _ _ _ hq, OrderQ.trim]
  · intro q hne; unfold State.queue; rw [hc]
    simp [Core.retired, Core.started, fixSet_get_other _ _ _ hne]
  · intro r _
    unfold State.sreg; rw [hc]
    simp only [Core.retired, tellsStatus, Start.status, startStatus]
    by_cases hb : bit (ordW st.ord 2) 14
    · by_cases hr : r % 64 = bits (ordW st.ord 2) 13 8 % 64
      · by_cases hk : st.clamps + k = 0
        · simp [hb, hr, hk, stOk]
        · rw [if_pos (Nat.pos_of_ne_zero hk), if_neg hk]; simp [hb, hr, stClamped]
      · simp [hb, Ne.symm hr, smGet_smSet_other _ _ _ _ hr]
    · simp [hb]
  · intro r _; unfold State.ctr; rw [hc]
    simp only [Core.retired, tellsCounter]
    by_cases hb : bit st.ord 10
    · by_cases hr : r % 64 = ordF st.ord 0 23 18 % 64
      · simp [hb, hr]
      · simp [hb, Ne.symm hr, smGet_smSet_other _ _ _ _ hr]
    · simp [hb]
  · intro d hd; exact State.retired_core_other s _ (by simpa using hd)
  · unfold State.reg
    rw [State.retired_regs, State.startOrder_regs]
    unfold smGet
    rw [State.noteClamps_regs_other _ (regKey_off (by decide)) (regKey_off (by decide))]
    show smGet _ (smSet _ s.regs _ _) _ = _
    rw [smGet_smSet_same]; rfl
  · intro x hx; rw [State.retired_regs, State.startOrder_regs]
    have h0 : x ≠ regKey pgClerk c 0 rClerkOrders := by intro e; exact hx (by simp [startKeys, e])
    by_cases hk : st.clamps + k = 0
    · simp only [hk, State.noteClamps, if_true]
      exact State.setReg_regs_other _ _ h0
    · have h1 : x ≠ regKey pgClerk c 0 hClamp := by intro e; exact hx (by rw [e]; unfold startKeys; rw [if_neg hk]; simp)
      have h2 : x ≠ regKey pgClerk c 0 hSts := by intro e; exact hx (by rw [e]; unfold startKeys; rw [if_neg hk]; simp)
      rw [State.noteClamps_regs_other _ h1 h2]
      exact State.setReg_regs_other _ _ h0
  · rw [State.startOrder_complete]
    by_cases h1 : bit (ordW st.ord 2) 14 <;> by_cases h2 : bit st.ord 10 <;>
      constructor <;> simp [h1, h2, State.signal, State.setCtr, State.setSreg, State.startOrder]
  · rw [State.startOrder_complete]
    by_cases h1 : bit (ordW st.ord 2) 14 <;> by_cases h2 : bit st.ord 10 <;>
      constructor <;> simp [h1, h2, State.signal, State.setCtr, State.setSreg, State.startOrder]

/-- The units of a core are untouched by an order that starts and completes at once. -/
theorem State.retires_units (s : State) (c : Nat) (st : Start) :
    UnitsKept (s.core c) (((s.startOrder c st).1.complete c (s.core c).freshId).core c) := by
  rw [State.retired_core]
  constructor <;> simp [Core.retired, Core.started]

theorem State.startOrder_kept (s : State) (c : Nat) (st : Start) :
    Kept { regs := true, cores := true } s (s.startOrder c st).1 ∧ (s.startOrder c st).1.latch = s.latch
      ∧ (s.startOrder c st).1.staged = s.staged := by
  refine ⟨?_, ?_, ?_⟩
  · constructor <;> simp [State.startOrder]
  · simp [State.startOrder]
  · simp [State.startOrder]

/-- An order that starts and stays incomplete is held as `HeldAtStart` says (R131, R132). -/
theorem State.holds {s : State} {c k : Nat} {st : Start} (h : s.pick c = some st) :
    HeldAtStart s (s.startOrder c { st with clamps := st.clamps + k }).1 c st k := by
  have hq := State.pick_lt h
  have hc := State.startOrder_core s c { st with clamps := st.clamps + k }
  obtain ⟨hk, hl, hg⟩ := State.startOrder_kept s c { st with clamps := st.clamps + k }
  constructor
  · rw [hc]; exact ⟨_, rfl, rfl, rfl, rfl, rfl, rfl, rfl⟩
  · unfold State.queue; rw [hc]; simp [Core.started, fixSet_get_same _ _ _ hq, OrderQ.trim]
  · intro q hne; unfold State.queue; rw [hc]
    simp [Core.started, fixSet_get_other _ _ _ hne]
  · rw [hc]; rfl
  · rw [hc]; rfl
  · intro d hd; exact State.startOrder_core_other s _ (by simpa using hd)
  · unfold State.reg
    rw [State.startOrder_regs]
    unfold smGet
    rw [State.noteClamps_regs_other _ (regKey_off (by decide)) (regKey_off (by decide))]
    show smGet _ (smSet _ s.regs _ _) _ = _
    rw [smGet_smSet_same]; rfl
  · intro x hx; rw [State.startOrder_regs]
    have h0 : x ≠ regKey pgClerk c 0 rClerkOrders := by intro e; exact hx (by simp [startKeys, e])
    by_cases hk : st.clamps + k = 0
    · simp only [hk, State.noteClamps, if_true]
      exact State.setReg_regs_other _ _ h0
    · have h1 : x ≠ regKey pgClerk c 0 hClamp := by intro e; exact hx (by rw [e]; unfold startKeys; rw [if_neg hk]; simp)
      have h2 : x ≠ regKey pgClerk c 0 hSts := by intro e; exact hx (by rw [e]; unfold startKeys; rw [if_neg hk]; simp)
      rw [State.noteClamps_regs_other _ h1 h2]
      exact State.setReg_regs_other _ _ h0
  · exact hk
  · exact ⟨hl, hg⟩

/-- A core after a jump of its queue q (R152). -/
def Core.jumped (x : Core) (q i len : Nat) : Core :=
  { x with qs := fixSet 4 {} x.qs q (({ (x.qs.getD q {}) with index := i } : OrderQ).trim len) }

/-! ### Running the next order, and writes beside its retirement -/

theorem State.runOrder_pick {s : State} {c : Nat} {st : Start} (h : s.pick c = some st) {want : Start → Bool}
    (hw : want st = true) (run : State → Start → State) : s.runOrder c want run = run s st := by
  unfold State.runOrder; rw [h]; simp [hw]

/-- What stays within the registers and the cores is all of the effect of a core's command. -/
theorem reachCore_take {s w : State} (h : Kept { regs := true, cores := true } s w) (hl : w.latch = s.latch ∧ w.staged = s.staged) :
    reachCore.take s w = w := by
  obtain ⟨-, -, h3, h4, h5, h6, h7, h8, h9, h10, h11, h12, h13, h14, h15, h16, h17, h18, h19, h20, -, h22, h23, h24, h25, -, h27⟩ := h
  cases w; cases s
  simp_all [Reach.take, reachCore]

/-- Starting an order leaves the queues' lengths. -/
theorem State.queueLen_start {s t : State} {c q n : Nat} (hq : q < 4) (h : RegsKept s t (startKeys c n)) :
    t.queueLen c q = s.queueLen c q := by
  have hr : t.reg pgClerk c 0 (rClerkQSpan + 4 * q) = s.reg pgClerk c 0 (rClerkQSpan + 4 * q) := by
    unfold State.reg smGet
    rw [h]
    show regKey pgClerk c 0 (rClerkQSpan + 4 * q) ∉ _
    unfold startKeys
    split <;> simp [regKey, rClerkOrders, hClamp, hSts, rClerkQSpan] <;> omega
  unfold State.queueLen State.fld; rw [hr]

end Sys2Proof.Machine

namespace Sys2Proof.Safety

open Sys2Proof.Machine

theorem Kept.setCore {s t : State} {f : Reach} (h : Kept f s t) (hf : f.cores = true) (c : Nat) (v : Core) :
    Kept f s (t.setCore c v) := by
  obtain ⟨h1, -, h3, h4, h5, h6, h7, h8, h9, h10, h11, h12, h13, h14, h15, h16, h17, h18, h19, h20, h21, h22, h23, h24, h25, h26, h27⟩ := h
  constructor <;> simp_all

theorem RetiresAtStart.modCore {s t : State} {c : Nat} {st : Start} {k n : Nat} {dst cdst : List Nat}
    (h : RetiresAtStart s t c st k dst cdst n) (g : Core → Core) (dst' cdst' : List Nat)
    (hq : (g (t.core c)).qs = (t.core c).qs) (hd : ∀ d ∈ dst, d ∈ dst') (hcd : ∀ d ∈ cdst, d ∈ cdst')
    (hs : ∀ r, (∀ d ∈ dst', r % 64 ≠ d % 64) → smGet 0 (g (t.core c)).sregs (r % 64) = smGet 0 (t.core c).sregs (r % 64))
    (hk : ∀ r, (∀ d ∈ cdst', r % 64 ≠ d % 64) → smGet 0 (g (t.core c)).ctrs (r % 64) = smGet 0 (t.core c).ctrs (r % 64)) :
    RetiresAtStart s (t.modCore c g) c st k dst' cdst' n := by
  have hc : (t.modCore c g).core c = g (t.core c) := State.core_modCore_same t c g
  constructor
  · unfold State.queue; rw [hc, hq]; exact h.queue
  · intro q hne; unfold State.queue; rw [hc, hq]; exact h.queues q hne
  · intro r hr
    rw [← h.sregs r (fun d hx => hr d (hd d hx))]
    unfold State.sreg; rw [hc]; exact hs r hr
  · intro r hr
    rw [← h.ctrs r (fun d hx => hr d (hcd d hx))]
    unfold State.ctr; rw [hc]; exact hk r hr
  · intro x hx
    rw [← h.cores x hx]
    exact State.core_modCore_other _ _ (by simpa using hx)
  · exact h.orders
  · exact h.regs
  · exact Kept.setCore h.rest rfl c _
  · exact h.latches

/-- An s-register is written beside the retirement. -/
theorem RetiresAtStart.setSreg {s t : State} {c : Nat} {st : Start} {k n : Nat} {dst cdst : List Nat}
    (h : RetiresAtStart s t c st k dst cdst n) (d : Nat) (v : DWord) :
    RetiresAtStart s (t.setSreg c d v) c st k (d :: dst) cdst n :=
  RetiresAtStart.modCore h _ _ _ rfl (fun _ hx => List.mem_cons_of_mem _ hx) (fun _ hx => hx)
    (fun _ hr => smGet_smSet_other _ _ _ _ (hr d (List.mem_cons_self ..))) (fun _ _ => rfl)

/-- A counter is written beside the retirement. -/
theorem RetiresAtStart.setCtr {s t : State} {c : Nat} {st : Start} {k n : Nat} {dst cdst : List Nat}
    (h : RetiresAtStart s t c st k dst cdst n) (d : Nat) (v : Word) :
    RetiresAtStart s (t.setCtr c d v) c st k dst (d :: cdst) n :=
  RetiresAtStart.modCore h _ _ _ rfl (fun _ hx => hx) (fun _ hx => List.mem_cons_of_mem _ hx)
    (fun _ _ => rfl) (fun _ hr => smGet_smSet_other _ _ _ _ (hr d (List.mem_cons_self ..)))

/-- The queue jumps after the order has retired (R152). -/
theorem RetiresAtStart.jump {s t : State} {c : Nat} {st : Start} {k n : Nat} {dst cdst : List Nat}
    (h : RetiresAtStart s t c st k dst cdst n) (hq : st.q < 4) (i : Int) :
    RetiresAtStart s (t.jump c st.q i) c st k dst cdst
      (if i < 0 then 0 else if i.toNat > t.queueLen c st.q then t.queueLen c st.q else i.toNat) := by
  generalize hj : (if i < 0 then 0 else if i.toNat > t.queueLen c st.q then t.queueLen c st.q else i.toNat) = j
  have he : t.jump c st.q i = t.setCore c ((t.core c).jumped st.q j (t.queueLen c st.q)) := by rw [← hj]; rfl
  have hk := Kept.setCore h.rest rfl c ((t.core c).jumped st.q j (t.queueLen c st.q))
  rw [he]
  have hc := State.core_setCore_same t c ((t.core c).jumped st.q j (t.queueLen c st.q))
  constructor
  · unfold State.queue; rw [hc]; simp [Core.jumped, fixSet_get_same _ _ _ hq, OrderQ.trim]
  · intro q hne; rw [← h.queues q hne]; unfold State.queue; rw [hc]; simp [Core.jumped, fixSet_get_other _ _ _ hne]
  · intro r hr; rw [← h.sregs r hr]; unfold State.sreg; rw [hc]; rfl
  · intro r hr; rw [← h.ctrs r hr]; unfold State.ctr; rw [hc]; rfl
  · intro x hx
    rw [← h.cores x hx]
    exact State.core_setCore_other _ _ (by simpa using hx)
  · exact h.orders
  · exact h.regs
  · exact hk
  · exact h.latches

end Sys2Proof.Safety
end

