-- ==== Sys2Proof/WellFormed.lean ====
section
/-! DEFINITION. Well-formed commands: every operand in the range that the numbers of the spec give it (cores, vaults, ports,
partitions, rows of tables, lengths of records). The meanings are total and answer for every operand. -/

namespace Sys2Proof

/-- A 64 B admin record: 16 words of 32 bits (R258). -/
def recOk (rec : List Nat) : Bool := decide (rec.length = 16) && rec.all (fun w => decide (w < 4294967296))

/-- An SPDM request: its version, its code, two parameters (R492). -/
def reqOk (code : Nat) (req : List Byte) : Bool :=
  decide (4 ≤ req.length) && decide ((req.getD 1 0).toNat = code)

/-- A fabric message: fields in their widths, at most 576 B of data (R356, R357). -/
def fmsgOk (m : Machine.FMsg) : Bool :=
  decide (m.ty < 256) && decide (m.dstDev < 64) && decide (m.srcDev < 64) && decide (m.dstGuild < 4096) && decide (m.srcGuild < 4096)
    && decide (m.info < 18446744073709551616) && decide (m.data.length ≤ 576)

/-- A mesh flit: a router, a class, 64 B, and an entry of the flow table (R337, R339, R345). -/
def mflitOk (f : Machine.MFlit) : Bool := decide (f.dst < 288) && decide (f.cls < 4) && decide (f.data.length = 64) && decide (f.flow < 64)

/-- A length up to a bound. -/
def fitsIn (n k : Nat) : Bool := decide (k ≤ n)

/-- Every operand of a command is in its range. -/
def Instr.wf (i : Instr) : Bool :=
  match i with
  | .regWrite fn off _ _ => decide (fn < 68) && decide (off < 52428800)
  | .regReadLowLatch fn tag off _ => decide (fn < 68) && decide (tag < 16384) && decide (off < 52428800)
  | .badAccess fn tag _ => decide (fn < 68) && decide (tag < 16384)
  | .clearCounts fn page => decide (fn < 68) && decide (page < 12800)
  | .intForce fn page _ => decide (fn < 68) && decide (page < 12800)
  | .loomShelfWrite fn core _ => decide (fn < 68) && decide (core < 256)
  | .vltDiscard fn vault _ => decide (fn < 68) && decide (vault < 288)
  | .rngAlmDataWrite fn _ => decide (fn < 68)
  | .pwrShedTx fn _ => decide (fn < 68)
  | .stwCastReq fn _ => decide (fn < 68)
  | .fabResetGuild fn => decide (fn < 68)
  | .fabResetMarket fn => decide (fn < 68)
  | .sessionOpen t => decide (t < 2)
  | .sessionClose t => decide (t < 2)
  | .sessionIdleTimeout t => decide (t < 2)
  | .svnCommitFirmware fn target => decide (fn < 68) && decide (target < 128)
  | .svnCommitIdentity fn target => decide (fn < 68) && decide (target < 128)
  | .svnCommitOwner fn target => decide (fn < 68) && decide (target < 128)
  | .svnCommitGuild fn target => decide (fn < 68) && decide (target < 128)
  | .requestDoorbell fn part _ => decide (fn < 68) && decide (part < 64)
  | .tokenHeadDoorbell fn part _ => decide (fn < 68) && decide (part < 64)
  | .adminDoorbell _ => true
  | .adminCqHeadDoorbell _ => true
  | .submit part => decide (part < 64)
  | .continue part => decide (part < 64)
  | .createPartition rec => recOk rec
  | .loadPattern rec => recOk rec
  | .restoreContext rec => recOk rec
  | .dropPattern rec => recOk rec
  | .setPolicy rec => recOk rec
  | .serve rec => recOk rec
  | .quiesce rec => recOk rec
  | .resetPartition rec => recOk rec
  | .partitionResetDone part => decide (part < 64)
  | .destroyPartition rec => recOk rec
  | .openStream rec => recOk rec
  | .parkStream rec => recOk rec
  | .cancelStream rec => recOk rec
  | .snapshot rec => recOk rec
  | .joinGuild rec => recOk rec
  | .joinTimeout => true
  | .leaveGuild rec => recOk rec
  | .stepStart part => decide (part < 64)
  | .draftSubstep part => decide (part < 64)
  | .stepEnd part => decide (part < 64)
  | .streamUnpark stream => decide (stream < 262144)
  | .streamDrainDone stream => decide (stream < 262144)
  | .tokenMsix part => decide (part < 64)
  | .pageDemote entry => decide (entry < 33554432)
  | .pagePromote entry => decide (entry < 33554432)
  | .pageMoveDone entry => decide (entry < 33554432)
  | .ledgerPageFree entry => decide (entry < 33554432)
  | .recomputeStep stream => decide (stream < 262144)
  | .orderRefetch core q => decide (core < 256) && decide (q < 4)
  | .orderComplete core _ => decide (core < 256)
  | .clerkBufferParity core q => decide (core < 256) && decide (q < 4)
  | .clerkRegUe core => decide (core < 256)
  | .restEnd core => decide (core < 256)
  | .load core => decide (core < 256)
  | .store core => decide (core < 256)
  | .move core => decide (core < 256)
  | .loomGemm core => decide (core < 256)
  | .loomGemmSparse core => decide (core < 256)
  | .loomOrderStart core loom => decide (core < 256) && decide (loom < 4)
  | .fillWindowExpired core loom place => decide (core < 256) && decide (loom < 4) && decide (place < 2)
  | .weightTileArrive core loom => decide (core < 256) && decide (loom < 4)
  | .shadowLoadDone core loom => decide (core < 256) && decide (loom < 4)
  | .loomTileStart core loom => decide (core < 256) && decide (loom < 4)
  | .boundaryPauseEnd core loom => decide (core < 256) && decide (loom < 4)
  | .shelfSlotFull core loom => decide (core < 256) && decide (loom < 4)
  | .loomRecompute core loom cause => decide (core < 256) && decide (loom < 4) && decide (cause < 3)
  | .treadleWindow core loom act => decide (core < 256) && decide (loom < 4) && decide (act < 1000001)
  | .treadleGapExpired core loom => decide (core < 256) && decide (loom < 4)
  | .treadle core => decide (core < 256)
  | .treadleDurationEnd core _ => decide (core < 256)
  | .recipe core => decide (core < 256)
  | .elemGroupIssue core fault => decide (core < 256) && decide (fault < 4)
  | .shelfUnitStart core => decide (core < 256)
  | .elemParityReload core st => decide (core < 256) && decide (st < 2)
  | .uopMov core => decide (core < 256)
  | .uopAbs core => decide (core < 256)
  | .uopNeg core => decide (core < 256)
  | .uopI2f core => decide (core < 256)
  | .uopF2i core => decide (core < 256)
  | .uopIdx core => decide (core < 256)
  | .uopRow core => decide (core < 256)
  | .uopCol core => decide (core < 256)
  | .uopAdd core => decide (core < 256)
  | .uopSub core => decide (core < 256)
  | .uopMul core => decide (core < 256)
  | .uopFma core => decide (core < 256)
  | .uopFms core => decide (core < 256)
  | .uopIadd core => decide (core < 256)
  | .uopIsub core => decide (core < 256)
  | .uopImul core => decide (core < 256)
  | .uopExp2 core => decide (core < 256)
  | .uopLog2 core => decide (core < 256)
  | .uopRecip core => decide (core < 256)
  | .uopRsqrt core => decide (core < 256)
  | .uopSin core => decide (core < 256)
  | .uopCos core => decide (core < 256)
  | .uopBmRad core => decide (core < 256)
  | .uopBmCos core => decide (core < 256)
  | .uopBmSin core => decide (core < 256)
  | .uopMax core => decide (core < 256)
  | .uopMin core => decide (core < 256)
  | .uopClamp core => decide (core < 256)
  | .uopCmplt core => decide (core < 256)
  | .uopCmple core => decide (core < 256)
  | .uopCmpeq core => decide (core < 256)
  | .uopIsnan core => decide (core < 256)
  | .uopSel core => decide (core < 256)
  | .uopMul5 core => decide (core < 256)
  | .uopLut0 core => decide (core < 256)
  | .uopLut1 core => decide (core < 256)
  | .uopRandU core => decide (core < 256)
  | .uopRandBits core => decide (core < 256)
  | .uopMask core => decide (core < 256)
  | .uopDither core => decide (core < 256)
  | .uopCompress core => decide (core < 256)
  | .uopExpandFill core => decide (core < 256)
  | .uopExpandKeep core => decide (core < 256)
  | .uopCvt core => decide (core < 256)
  | .uopCvtSr core => decide (core < 256)
  | .uopQuant core => decide (core < 256)
  | .uopQuantSr core => decide (core < 256)
  | .uopRoute core => decide (core < 256)
  | .tally core => decide (core < 256)
  | .tallySum core err => decide (core < 256) && decide (err < 3)
  | .tallyMax core err => decide (core < 256) && decide (err < 3)
  | .tallyMin core err => decide (core < 256) && decide (err < 3)
  | .tallyArgmax core err => decide (core < 256) && decide (err < 3)
  | .tallyTopk core err => decide (core < 256) && decide (err < 3)
  | .tallyRmaxsum core err => decide (core < 256) && decide (err < 3)
  | .tallyHist core err => decide (core < 256) && decide (err < 3)
  | .tallyCount core err => decide (core < 256) && decide (err < 3)
  | .tallyScan core err => decide (core < 256) && decide (err < 3)
  | .tallyRowResult core => decide (core < 256)
  | .scalarAdd core => decide (core < 256)
  | .scalarSub core => decide (core < 256)
  | .scalarMul core => decide (core < 256)
  | .scalarShl core => decide (core < 256)
  | .scalarShr core => decide (core < 256)
  | .scalarSar core => decide (core < 256)
  | .scalarAnd core => decide (core < 256)
  | .scalarOr core => decide (core < 256)
  | .scalarXor core => decide (core < 256)
  | .scalarMadd core => decide (core < 256)
  | .scalarCmpeq core => decide (core < 256)
  | .scalarCmplt core => decide (core < 256)
  | .scalarCmpltu core => decide (core < 256)
  | .scalarLi core => decide (core < 256)
  | .scalarLds core => decide (core < 256)
  | .scalarSts core => decide (core < 256)
  | .scalarRdctr core => decide (core < 256)
  | .loop core => decide (core < 256)
  | .branchIf core => decide (core < 256)
  | .signalAdd core => decide (core < 256)
  | .signalSet core => decide (core < 256)
  | .signalDeliver core _ => decide (core < 256)
  | .wait core => decide (core < 256)
  | .fence core => decide (core < 256)
  | .barrierJoin core => decide (core < 256)
  | .attend core => decide (core < 256)
  | .selectionProgram core vault => decide (core < 256) && decide (vault < 288)
  | .attendBackward core => decide (core < 256)
  | .kvAppend core => decide (core < 256)
  | .bookMatch core => decide (core < 256)
  | .bookAttach core => decide (core < 256)
  | .bookInsert core => decide (core < 256)
  | .bookPeek core => decide (core < 256)
  | .sample core mism => decide (core < 256) && decide (mism < 3)
  | .gambitVerify core mism => decide (core < 256) && decide (mism < 3)
  | .dispatch core => decide (core < 256)
  | .collectReturn core => decide (core < 256)
  | .collectGather core => decide (core < 256)
  | .allreduce core => decide (core < 256)
  | .reduce core => decide (core < 256)
  | .broadcast core => decide (core < 256)
  | .allgather core => decide (core < 256)
  | .reducescatter core => decide (core < 256)
  | .bankProgram core => decide (core < 256)
  | .bankProgramStart vault => decide (vault < 288)
  | .bankItem vault bank => decide (vault < 288) && decide (bank < 128)
  | .bankNop vault bank => decide (vault < 288) && decide (bank < 128)
  | .bankMov vault bank => decide (vault < 288) && decide (bank < 128)
  | .bankAdd vault bank => decide (vault < 288) && decide (bank < 128)
  | .bankMax vault bank => decide (vault < 288) && decide (bank < 128)
  | .bankCmpge vault bank => decide (vault < 288) && decide (bank < 128)
  | .bankDot vault bank => decide (vault < 288) && decide (bank < 128)
  | .bankDotmax vault bank => decide (vault < 288) && decide (bank < 128)
  | .bankCopy vault bank => decide (vault < 288) && decide (bank < 128)
  | .bankEmita vault bank => decide (vault < 288) && decide (bank < 128)
  | .bankClra vault bank => decide (vault < 288) && decide (bank < 128)
  | .bankStepEnd vault => decide (vault < 288)
  | .reseal vault err => decide (vault < 288) && decide (err < 3)
  | .enPassant vault => decide (vault < 288)
  | .bankPause vault => decide (vault < 288)
  | .bankEccPause vault line _ => decide (vault < 288) && decide (line < 16777216)
  | .bankUe vault line _ => decide (vault < 288) && decide (line < 16777216)
  | .flagScan vault => decide (vault < 288)
  | .watchmanTakeover half => decide (half < 2)
  | .watchmanHandback half => decide (half < 2)
  | .vaultRead vault addr _ err => decide (vault < 288) && decide (addr < 1073741824) && decide (err < 3)
  | .vaultWrite vault addr bs => decide (vault < 288) && decide (addr < 1073741824) && !bs.isEmpty && decide (addr % 64 + bs.length ≤ 64)
  | .writeDrain vault err => decide (vault < 288) && decide (err < 3)
  | .mergeEvict vault line _ err => decide (vault < 288) && decide (line < 16777216) && decide (err < 3)
  | .granuleMaterialise vault granule => decide (vault < 288) && decide (granule < 262144)
  | .refreshCommand vault bank => decide (vault < 288) && decide (bank < 128)
  | .interfaceRecentre vault => decide (vault < 288)
  | .rewriteVerify vault line _ => decide (vault < 288) && decide (line < 16777216)
  | .bucketLeak vault => decide (vault < 288)
  | .patrolScrub vault _ _ => decide (vault < 288)
  | .rowSpare vault => decide (vault < 288)
  | .remapReload vault words => decide (vault < 288) && words.all (fun w => decide (w < 524288))
  | .patternRestore vault granule => decide (vault < 288) && decide (granule < 262144)
  | .stockroomScrub core errs => decide (core < 256) && errs.all (fun e => decide (e.1 < 8) && decide (1 ≤ e.2) && decide (e.2 ≤ 2))
  | .meshFlit half src dst flit _ => decide (half < 2) && decide (src < 144) && decide (dst < 144) && flit.all mflitOk
  | .meshPacket half src dst bs => decide (half < 2) && decide (src < 288) && decide (dst < 288) && decide (bs.length ≤ 4096)
  | .d2dFlit m half _ => decide (m < 16) && decide (half < 2)
  | .d2dClockSilence _ half => decide (half < 2)
  | .d2dRetrain m _ => decide (m < 16)
  | .fabFrame port _ => decide (port < 8)
  | .fabPortDown port => decide (port < 8)
  | .wavelengthFail port w => decide (port < 8) && decide (w < 16)
  | .ringTuneTick port _ _ => decide (port < 8)
  | .laserWaitDone port => decide (port < 8)
  | .ringLockDone port _ => decide (port < 8)
  | .alignDone port guild dev peer _ => decide (port < 8) && decide (guild < 4096) && decide (dev < 64) && decide (peer < 8)
  | .fabPortRetry port => decide (port < 8)
  | .put m => fmsgOk m
  | .getReq m => fmsgOk m
  | .getRsp m => fmsgOk m
  | .ack m => fmsgOk m
  | .e2eTimeout _ => true
  | .coll m => fmsgOk m
  | .barJoin m => fmsgOk m
  | .barRelease m => fmsgOk m
  | .snapMark m => fmsgOk m
  | .snapshotCopy => true
  | .heartbeat m => fmsgOk m
  | .heartbeatSend => true
  | .heartbeatLoss => true
  | .linkState m => fmsgOk m
  | .routeTableUpdate => true
  | .shed m => fmsgOk m
  | .reset m => fmsgOk m
  | .msg m => fmsgOk m
  | .mirrorEntry m => fmsgOk m
  | .mirrorTokens m => fmsgOk m
  | .mirrorRelease m => fmsgOk m
  | .deviceLost m => fmsgOk m
  | .deviceHoldExpired dev => decide (dev < 64)
  | .adoptTimeout part stream => decide (part < 64) && decide (stream < 262144)
  | .joinChal m => fmsgOk m
  | .joinResp m => fmsgOk m
  | .joinDone m => fmsgOk m
  | .hostConfigRequest fn tag _ => decide (fn < 68) && decide (tag < 16384)
  | .hostNearRead fn tag _ len => decide (fn < 68) && decide (tag < 16384) && decide (0 < len) && fitsIn 4096 len
  | .hostNearWrite fn _ bs => decide (fn < 68) && !bs.isEmpty && fitsIn 4096 bs.length
  | .hostReadTimeout part purpose _ how => decide (part < 64) && decide (purpose < 4) && decide (how < 3)
  | .fenceHoldExpired fn tag => decide (fn < 68) && decide (tag < 16384)
  | .hostLinkLoss => true
  | .perstDeassert width rate _ => decide (width ≤ 16) && decide (rate ≤ 5)
  | .flrVf vf => decide (1 ≤ vf) && decide (vf ≤ 64)
  | .flrPf0 => true
  | .flrPf1 => true
  | .farReadFail port addr how => decide (port < 4) && decide (addr < 1099511627776) && decide (how < 2)
  | .farHoldExpired port addr => decide (port < 4) && decide (addr < 1099511627776)
  | .farEventPoll port _ => decide (port < 4)
  | .farPortDown port => decide (port < 4)
  | .governorTick _ _ => true
  | .housekeepingRound temps _ => decide (temps.length = 352)
  | .gridShedAssert => true
  | .gridShedRelease => true
  | .coolantFault => true
  | .coolantFaultRelease => true
  | .sealedMove us => decide (us ≤ 50000)
  | .sealTimeout => true
  | .adjournPhase3 => true
  | .resume => true
  | .railFault rail => decide (rail < 6)
  | .aonSupplyGood => true
  | .aonSupplyLoss => true
  | .hubSupplySettled => true
  | .bootDone => true
  | .interfaceTrained unit _ => decide (unit < 317)
  | .trainingDone => true
  | .startUpTestDone logic vaults d2d far opt routers tr => logic.all (fun x => decide (x < 288)) && vaults.all (fun x => decide (x < 288)) && d2d.all (fun x => decide (x < 16)) && far.all (fun x => decide (x < 4)) && opt.all (fun x => decide (x < 8)) && routers.all (fun x => decide (x < 2)) && decide (tr < 4096)
  | .topologyDeadline => true
  | .deviceReset => true
  | .stewardWatchdog => true
  | .aliasCertReady => true
  | .clerkHeartbeatMiss core => decide (core < 256)
  | .castlingGraceful half => decide (half < 2)
  | .castlingAbrupt half => decide (half < 2)
  | .castleSwitch half => decide (half < 2)
  | .migrateGranule logical granule _ => decide (logical < 256) && decide (granule < 262144)
  | .oldShellLost logical => decide (logical < 256)
  | .rejoinRestart => true
  | .rejoinTrain => true
  | .rejoinShellRestore => true
  | .rejoinReplay => true
  | .rejoinCoreRestore => true
  | .rejoinResume => true
  | .halfEscalate => true
  | .halfRetrain _ => true
  | .getVersion t req => decide (t < 2) && reqOk 0x84 req
  | .getCapabilities t req => decide (t < 2) && reqOk 0xE1 req
  | .negotiateAlgorithms t req => decide (t < 2) && reqOk 0xE3 req
  | .getDigests t req => decide (t < 2) && reqOk 0x81 req
  | .getCertificate t req => decide (t < 2) && reqOk 0x82 req
  | .challenge t req => decide (t < 2) && reqOk 0x83 req
  | .getMeasurements t req => decide (t < 2) && reqOk 0xE0 req
  | .chunkSend t req => decide (t < 2) && reqOk 0x85 req
  | .chunkGet t req => decide (t < 2) && reqOk 0x86 req
  | .getInfo t tag => decide (t < 2) && decide (tag < 256)
  | .resetDevice t tag => decide (t < 2) && decide (tag < 256)
  | .setOwner t tag key => decide (t < 2) && decide (tag < 256) && decide (key.length = 32)
  | .setGuildKey t tag key => decide (t < 2) && decide (tag < 256) && decide (key.length = 32)
  | .readReg tag off _ => decide (tag < 256) && decide (off < 52428800)
  | .writeReg tag off _ _ => decide (tag < 256) && decide (off < 52428800)
  | .readLog t tag _ _ => decide (t < 2) && decide (tag < 256)
  | .writeConfig t tag _ len bs => decide (t < 2) && decide (tag < 256) && decide (len ≤ 2048) && decide (bs.length = len)
  | .writeImage t tag nor _ len bs => decide (t < 2) && decide (tag < 256) && decide (nor < 2) && decide (len ≤ 2048) && decide (bs.length = len)
  | .discardDone vault => decide (vault < 288)
  | .watchmanBandSelect half => decide (half < 2)
  | .hostSpurDown => true

/-- A well-formed command. -/
abbrev WellFormed (i : Instr) : Prop := i.wf = true

end Sys2Proof
end

