-- ==== Sys2Proof/Tests/Slice0.lean ====
section
/-! SUPPORT. Tests: the checks of ill-formed commands, a witness for the hypotheses of every obligation, and single steps whose
results the spec gives. -/

namespace Sys2Proof.Tests

open Sys2Proof Sys2Proof.Machine Sys2Proof.Safety Sys2Proof.Claims

set_option maxRecDepth 20000
set_option Elab.async false

/-! ### States built for the tests -/

/-- An order from its words: (word number, value). -/
def ordOf (ws : List (Nat × Nat)) : Nat := ws.foldl (fun o w => o + w.2 <<< (32 * w.1)) 0

/-- Core 0 runs in a SERVING partition 0; queue 0 holds one order, which is next. -/
def oneOrder (o : Nat) (x : Core := {}) : State :=
  { regs := [(regKey pgClerk 0 0 rClerkQSpan, 1)]
    cores := [(0, { x with qs := [{ running := true, buf := [(0, o)] }] })]
    parts := [(0, { st := .serving, cores := [0] })]
    boot := { state := .ready, coreSite := [(0, 0)], sites := [(0, { core := 0 })] } }

/-- What the clerk makes of that order. -/
def started (o : Nat) : Start := ⟨0, 0, o, bits o 7 0, 0⟩

/-- A state with one core as given. -/
def oneCore (x : Core) : State := { cores := [(0, x)] }

/-- As `oneOrder`, with core 1 in the partition as well. -/
def twoCores (o : Nat) (x : Core := {}) (y : Core := {}) : State :=
  { oneOrder o x with
    cores := [(0, { x with qs := [{ running := true, buf := [(0, o)] }] }), (1, y)]
    parts := [(0, { st := .serving, cores := [0, 1] })]
    boot := { state := .ready, coreSite := [(0, 0), (1, 1)], sites := [(0, { core := 0 }), (1, { core := 0 })] } }

/-- Registers below 2^16 set no rate: the rates of the regulators are their bits 31 to 16, and 0 after reset. -/
theorem gateRate_zero {s : State} (h : ∀ e ∈ s.regs, e.2.toNat < 65536) (g : Gate) : s.gateRate g = 0 := by
  have hf : ∀ (m : SMap DWord) (k : Nat) (v : DWord), (∀ e ∈ m, e.2.toNat < 65536) → smFind m k = some v → v.toNat < 65536 := by
    intro m
    induction m with
    | nil => intro k v _ hv; cases hv
    | cons e m ih =>
      intro k v hm hv
      obtain ⟨j, w⟩ := e
      simp only [smFind] at hv
      split at hv
      · cases hv; exact hm _ (List.mem_cons_self ..)
      · exact ih k v (fun e he => hm e (List.mem_cons_of_mem _ he)) hv
  have hr : ∀ code inst bank off, (regReset code off).toNat < 65536 → s.fld code inst bank off 31 16 = 0 := by
    intro code inst bank off h0
    simp only [State.fld, State.reg, smGet]
    cases hk : smFind s.regs (regKey code (regInst code inst) bank off) with
    | none => simp only [Option.getD_none, bits]; omega
    | some v => have := hf _ _ _ h hk; simp only [Option.getD_some, bits]; omega
  have : s.fld g.reg.1 g.reg.2.1 g.reg.2.2.1 g.reg.2.2.2 31 16 = 0 := by
    apply hr
    cases g with
    | mesh p a => change (regReset pgMesh rMeshReg).toNat < 65536; decide
    | d2d p x => change (regReset pgD2d rD2dReg).toNat < 65536; decide
    | host p o =>
      cases o
      · change (regReset pgHost rHostRegIn).toNat < 65536; decide
      · change (regReset pgHost rHostRegOut).toNat < 65536; decide
    | far p f o =>
      cases o
      · change (regReset pgFarp rFarpRegIn).toNat < 65536; decide
      · change (regReset pgFarp rFarpRegOut).toNat < 65536; decide
  simp only [State.gateRate, this]

theorem unregulated_of {s : State} (h : ∀ e ∈ s.regs, e.2.toNat < 65536) (p : Nat) : Unregulated s p :=
  ⟨fun _ => gateRate_zero h _, fun _ _ => gateRate_zero h _, fun _ => gateRate_zero h _, fun _ _ _ => gateRate_zero h _⟩

/-! ### Control orders -/

/-- s1 and s2 hold 3 and 5; c2 holds 9. -/
def regCore : Core := { sregs := [(1, 3), (2, 5)], ctrs := [(2, 9)] }

theorem test_meets_ScalarOrdersComputeOverSRegisters : (oneOrder 0x58 regCore).pick 0 = some (started 0x58) := by decide
theorem test_scalarSub : ((oneOrder (ordOf [(0, 0x58), (4, 0x02010301)]) regCore).pick 0).map (fun st => (ordF st.ord 4 21 16, ordF st.ord 4 29 24)) = some (1, 2) := by decide
theorem test_meets_ScalarOrdersComputeOverSRegisters_lds :
    (oneOrder (ordOf [(0, 0x58), (4, 0x0001030E), (5, 0x1FFFF8)]) regCore).pick 0
      = some (started (ordOf [(0, 0x58), (4, 0x0001030E), (5, 0x1FFFF8)]))
    ∧ (oneOrder (ordOf [(0, 0x58), (4, 0x0001030E), (5, 0x1FFFF8)]) regCore).stockLost 0 0x1FFFF8 8 = false := by decide
theorem test_meets_ScalarOrdersComputeOverSRegisters_sts :
    (oneOrder (ordOf [(0, 0x58), (4, 0x8001030F), (5, 0x1FFFF8)]) regCore).pick 0
      = some (started (ordOf [(0, 0x58), (4, 0x8001030F), (5, 0x1FFFF8)])) := by decide
theorem test_meets_LoopCountsDown :
    (oneOrder (ordOf [(0, 0x59), (4, 1), (5, 0xFFFF)]) regCore).pick 0 = some (started (ordOf [(0, 0x59), (4, 1), (5, 0xFFFF)]))
    ∧ (oneOrder (ordOf [(0, 0x59), (4, 0)]) regCore).pick 0 = some (started (ordOf [(0, 0x59), (4, 0)])) := by decide
theorem test_meets_BranchFollowsItsCondition :
    (oneOrder (ordOf [(0, 0x5A), (4, 0x20201), (5, 0xFFFFFFFF)]) regCore).pick 0
      = some (started (ordOf [(0, 0x5A), (4, 0x20201), (5, 0xFFFFFFFF)])) := by decide
theorem test_meets_SignalsChangeTheirCounters_add :
    (oneOrder (ordOf [(0, 0x50), (4, 2), (5, 0xFFFFFFFF)]) regCore).pick 0 = some (started (ordOf [(0, 0x50), (4, 2), (5, 0xFFFFFFFF)])) := by decide
theorem test_meets_SignalsChangeTheirCounters_set :
    (oneOrder (ordOf [(0, 0x50), (4, 0x20002), (5, 7)]) regCore).pick 0 = some (started (ordOf [(0, 0x50), (4, 0x20002), (5, 7)])) := by decide
theorem test_meets_SignalsChangeTheirCounters_remote :
    (oneOrder (ordOf [(0, 0x50), (4, 0x10002), (5, 7)])).pick 0 = some (started (ordOf [(0, 0x50), (4, 0x10002), (5, 7)]))
    ∧ (oneOrder (ordOf [(0, 0x50), (4, 0x10002), (5, 7)])).samePart 0 0 = true
    ∧ (oneOrder (ordOf [(0, 0x50), (4, 0x30002), (5, 7)])).pick 0 = some (started (ordOf [(0, 0x50), (4, 0x30002), (5, 7)])) := by decide
/-- One remote signal to counter 3 of core 5 waits for nothing. -/
def sentSignal : State := oneCore { sigs := [⟨0, 5, 3, false, 7, []⟩] }
theorem test_meets_SignalsChangeTheirCounters_deliver :
    (sentSignal.core 0).sigs.find? (fun h => h.id = 0) = some ⟨0, 5, 3, false, 7, []⟩
    ∧ (∀ h ∈ (sentSignal.core 0).sigs, h.core = 5 → 0 ≤ h.id) ∧ sentSignal.fencedHalf ≠ some (coreHalf 5) := by decide
/-- A SIGNAL that sets its counter by 7, and one to a core that the partition does not hold. -/
theorem test_meets_SignalsComplete_order :
    (oneOrder (ordOf [(0, 0x50), (4, 2), (5, 7)])).pick 0 = some (started (ordOf [(0, 0x50), (4, 2), (5, 7)]))
    ∧ bit (ordW (ordOf [(0, 0x50), (4, 2), (5, 7)]) 4) 17 = false
    ∧ (oneOrder (ordOf [(0, 0x50), (4, 0x30902), (5, 7)])).pick 0 = some (started (ordOf [(0, 0x50), (4, 0x30902), (5, 7)]))
    ∧ bit (ordW (ordOf [(0, 0x50), (4, 0x30902), (5, 7)]) 4) 17 = true := by decide
theorem test_meets_SignalsComplete_deliver :
    (sentSignal.core 0).sigs.find? (fun h => h.id = 0) = some ⟨0, 5, 3, false, 7, []⟩
    ∧ (∀ h ∈ (sentSignal.core 0).sigs, h.core = 5 → 0 ≤ h.id) ∧ sentSignal.fencedHalf ≠ some (coreHalf 5) := by decide
theorem test_meets_WaitsFencesTreadlesAndRests_wait :
    (oneOrder (ordOf [(0, 0x51), (4, 0x404042), (5, 9)]) regCore).pick 0 = some (started (ordOf [(0, 0x51), (4, 0x404042), (5, 9)]))
    ∧ waitHolds (oneOrder (ordOf [(0, 0x51), (4, 0x404042), (5, 9)]) regCore) 0 (ordOf [(0, 0x51), (4, 0x404042), (5, 9)]) 6 5 0 5
    ∧ ¬ waitHolds (oneOrder (ordOf [(0, 0x51), (4, 0x404042), (5, 10)]) regCore) 0 (ordOf [(0, 0x51), (4, 0x404042), (5, 10)]) 6 5 0 5 := by
  unfold waitHolds; decide
theorem test_meets_WaitsFencesTreadlesAndRests_wait2 :
    waitHolds (oneOrder (ordOf [(0, 0x51), (4, 0x404042), (5, 9)]) regCore) 0 (ordOf [(0, 0x51), (4, 0x404042), (5, 9)]) 14 13 8 6
    ∧ waitHolds (oneOrder (ordOf [(0, 0x51), (4, 0x404042), (5, 9)]) regCore) 0 (ordOf [(0, 0x51), (4, 0x404042), (5, 9)]) 22 21 16 7 := by
  unfold waitHolds; decide
theorem test_meets_WaitsFencesTreadlesAndRests_fence :
    (oneOrder 0x5B).pick 0 = some (started 0x5B)
    ∧ (oneOrder (ordOf [(0, 0x5B), (4, 6)]) { flights := [⟨0, 1, 0, 0x58, 0x58, false, 0, false, false, [], [], []⟩] }).pick 0
        = some (started (ordOf [(0, 0x5B), (4, 6)])) := by decide
theorem test_meets_WaitsFencesTreadlesAndRests_treadle :
    (oneOrder (ordOf [(0, 0x60), (4, 0x640F), (5, 1)])).pick 0 = some (started (ordOf [(0, 0x60), (4, 0x640F), (5, 1)])) := by decide
/-- A TREADLE holds loom 1 at level 50. -/
def treadled : State :=
  oneCore { flights := [⟨4, 0, 0, 0x60, 0x60, false, 0, false, false, [], [], []⟩], looms := [{}, { fixedBy := some (4, 50) }, {}, {}] }
theorem test_meets_WaitsFencesTreadlesAndRests_end :
    ((treadled.core 0).flight 4).map (·.op) = some 0x60 := by decide
theorem test_meets_WaitsFencesTreadlesAndRests_rest : ((oneCore { rest := 9 }).core 0).rest ≠ 0 := by decide
/-- Queue 0 of core 0 holds one order, at offset 128 of its own stockroom, and has fetched nothing. -/
def unfetched : State :=
  { regs := [(regKey pgClerk 0 0 rClerkQBase, 0x80), (regKey pgClerk 0 0 rClerkQSpan, 1)] }
theorem test_meets_WaitsFencesTreadlesAndRests_fetch :
    unfetched.orderLoc 0 0 (unfetched.queue 0 0).index = .stock 0 128 ∧ (unfetched.core 0).stockBad = []
    ∧ (unfetched.queue 0 0).index < unfetched.queueLen 0 0 ∧ (unfetched.queue 0 0).stopped = false
    ∧ smFind ((unfetched.queue 0 0).trim (unfetched.queueLen 0 0)).buf (unfetched.queue 0 0).index = none := by decide

/-! ### Completion, transfers and looms -/

/-- A finished order that reports QUOTA_REFUSED to s4, signals c5 by 3 and counts its error in c6. -/
def finished : Flight := ⟨3, 0, 0, ordOf [(0, 0x5414), (2, 0x464403)], 0x01, false, 3, true, false, [], [], []⟩
theorem test_meets_CompletionReportsStatusAndCounters :
    ((oneCore { flights := [finished] }).core 0).flight 3 = some finished ∧ finished.done = true
    ∧ (oneCore { flights := [finished] }).abandoned 0 = false ∧ (oneCore { flights := [finished] }).replayHolds = false := by decide

/-- MOVE of 8 bytes of its own stockroom, from 0 to its last byte on, with its counter c1. -/
def moveOrd : Nat := ordOf [(0, 0x03), (6, 0x1FFFFF), (8, 8), (9, 1), (12, 0x10041)]
theorem test_meets_StockroomTransferCopiesItsBytes :
    (oneOrder moveOrd).pick 0 = some (started moveOrd)
    ∧ locOf 0 (xferOf 0 3 moveOrd).src = .stock 0 0 ∧ locOf 0 (xferOf 0 3 moveOrd).dst = .stock 0 0x1FFFFF
    ∧ (xferOf 0 3 moveOrd).rows = 1 ∧ (xferOf 0 3 moveOrd).len ≤ 2097152
    ∧ (oneOrder moveOrd).xferRefusal 0 (xferOf 0 3 moveOrd) = none ∧ ((oneOrder moveOrd).core 0).stockBad = []
    ∧ (oneOrder moveOrd).abs.fence = none := by decide
theorem test_meets_StockroomTransferCopiesItsBytes_free : CoreUnregulated (oneOrder moveOrd) 0 ∧ TransfersDone (oneOrder moveOrd) 0 :=
  ⟨fun p _ => unregulated_of (by decide) p, by unfold TransfersDone; decide⟩
/-- MOVE of 8 bytes to the stockroom of core 1, while core 0's injection regulator is 2,000 B short of its 1,024 B. -/
def moveHeld : State :=
  { twoCores (ordOf [(0, 0x03), (6, 0x40000000), (7, 0x20000000), (8, 8), (9, 1)]) with
    regs := [(regKey pgClerk 0 0 rClerkQSpan, 1), (regKey pgMesh 0 0 rMeshReg, 0x10001)], gates := [(0, (2000, 0))] }
theorem test_meets_StockroomTransferCopiesItsBytes_held :
    moveHeld.pick 0 = some (started (ordOf [(0, 0x03), (6, 0x40000000), (7, 0x20000000), (8, 8), (9, 1)]))
    ∧ moveHeld.gatesOpen (moveHeld.xferCost 0 (xferOf 0 3 (ordOf [(0, 0x03), (6, 0x40000000), (7, 0x20000000), (8, 8), (9, 1)]))) = false := by decide

/-- A loom order: weights in vault 0 of its own core, 64 rows at most, one output tile, loom 1. -/
def loomOrd : Nat := ordOf [(0, 0x10), (5, 0x10000000), (11, 0x11), (12, 32), (13, 0x20400001), (14, 0x04020010)]
theorem test_meets_LoomOrdersIssueAndTakeRows_issue :
    (oneOrder loomOrd).pick 0 = some (started loomOrd) ∧ (oneOrder loomOrd).partOfCore 0 = some 0
    ∧ (oneOrder loomOrd).inWindows 0 (locOf 0 (loomFields false loomOrd).wAddr)
        ((loomFields false loomOrd).nTiles * (loomFields false loomOrd).kTiles * (loomGeom (loomFields false loomOrd)).bytes) = true := by decide
/-- The same with weights in vault 9, which its partition does not hold. -/
def loomFar : Nat := ordOf [(0, 0x10), (4, 0x40000000), (5, 0x30000002), (11, 0x11), (12, 32), (13, 0x20400001)]
theorem test_meets_LoomOrdersIssueAndTakeRows_refused :
    (oneOrder loomFar).pick 0 = some (started loomFar)
    ∧ (oneOrder loomFar).inWindows 0 (locOf 0 (loomFields false loomFar).wAddr)
        ((loomFields false loomFar).nTiles * (loomFields false loomFar).kTiles * (loomGeom (loomFields false loomFar)).bytes) = false := by decide

/-- The flight of that loom order, and the order as a loom holds it. -/
def loomFlight : Flight := ⟨0, 0, 0, loomOrd, 0x10, false, 0, false, false, [], [], [1]⟩
def heldLoom : LoomOrd := ⟨0, 0, false, none, 0, 0, 0, 0, false, false, none, none, [], [], false⟩
/-- Loom 1 holds an order, with `n` deliveries in the row counter c2. -/
def loomHeld (o : LoomOrd) (n : Word) (m : Loom := {}) : State :=
  { oneCore { flights := [loomFlight], ctrs := [(2, n)], looms := [{}, { m with ords := [o] }, {}, {}] } with
    vaults := [(0, { role := .logical })] }
theorem test_meets_LoomOrdersIssueAndTakeRows_full :
    (loomHeld heldLoom 64).loomCur 0 1 = some heldLoom ∧ heldLoom.rows = none
    ∧ rowsPresent (loomHeld heldLoom 64) 0 heldLoom ≥ rowTarget (loomHeld heldLoom 64) 0 heldLoom := by decide
theorem test_meets_LoomOrdersIssueAndTakeRows_short :
    (loomHeld { heldLoom with expired := true } 1).loomCur 0 1 = some { heldLoom with expired := true }
    ∧ rowsPresent (loomHeld heldLoom 1) 0 { heldLoom with expired := true } ≥ 1
    ∧ rowsPresent (loomHeld heldLoom 1) 0 heldLoom < rowTarget (loomHeld heldLoom 1) 0 heldLoom := by decide
theorem test_meets_LoomTilesMoveThroughTheirStages_arrive :
    (loomHeld heldLoom 0).loomFetch 0 1 = some heldLoom ∧ ((loomHeld heldLoom 0).loomF 0 0).zmapEn = false
    ∧ ((loomHeld heldLoom 0).loom 0 1).staged + (loomGeom ((loomHeld heldLoom 0).loomF 0 0)).bytes ≤ 24576
    ∧ (loomHeld heldLoom 0).placeReady (((loomHeld heldLoom 0).loomF 0 0).tileLoc 0 0 0) (loomGeom ((loomHeld heldLoom 0).loomF 0 0)).bytes true = true
    ∧ ((loomHeld heldLoom 0).readRestored (((loomHeld heldLoom 0).loomF 0 0).tileLoc 0 0 0)
        (loomGeom ((loomHeld heldLoom 0).loomF 0 0)).bytes).2.isSome = true := by decide
theorem test_meets_LoomTilesMoveThroughTheirStages_free : CoreUnregulated (loomHeld heldLoom 0) 0 :=
  fun p _ => unregulated_of (by decide) p
/-- The weights lie in vault 1 of the partition, and core 1's injection regulator is 2,000 B short of its 1,024 B. -/
def farWeights : Nat := ordOf [(0, 0x10), (4, 0x40000000), (5, 0x30000000), (11, 0x11), (12, 32), (13, 0x20400001)]
def weightsHeld : State :=
  { oneCore { flights := [⟨0, 0, 0, farWeights, 0x10, false, 0, false, false, [], [], [1]⟩], looms := [{}, { ords := [heldLoom] }, {}, {}] } with
    regs := [(regKey pgMesh 0 0 rMeshReg, 0x10001)], gates := [(1, (2000, 0))]
    parts := [(0, { st := .serving, cores := [0, 1] })], vaults := [(1, { role := .logical, logical := 1 })] }
theorem test_meets_LoomTilesMoveThroughTheirStages_held :
    weightsHeld.loomFetch 0 1 = some heldLoom ∧ (weightsHeld.loomF 0 0).zmapEn = false
    ∧ weightsHeld.placeReady ((weightsHeld.loomF 0 0).tileLoc 0 0 0) (loomGeom (weightsHeld.loomF 0 0)).bytes true = true
    ∧ weightsHeld.gatesOpen (weightsHeld.weightCost 0 ((weightsHeld.loomF 0 0).tileLoc 0 0 0) (loomGeom (weightsHeld.loomF 0 0)).bytes) = false := by decide
theorem test_meets_LoomTilesMoveThroughTheirStages_load :
    ((loomHeld heldLoom 0 { stage := [[1]] }).loom 0 1).shadow = none
    ∧ ((loomHeld heldLoom 0 { stage := [[1]] }).loom 0 1).stage = [[1]]
    ∧ ∀ o ∈ ((loomHeld heldLoom 0 { stage := [[1]] }).loom 0 1).ords, o.begun = false := by decide
/-- The order in mid-tile with its rows taken. -/
def begunLoom : LoomOrd := { heldLoom with rows := some 64, begun := true }
theorem test_meets_LoomTilesMoveThroughTheirStages_activate :
    (loomHeld begunLoom 0 { stage := [[1]] }).loomCur 0 1 = some begunLoom ∧ begunLoom.begun = true ∧ begunLoom.rows.isSome = true
    ∧ ((loomHeld begunLoom 0 { stage := [[1]] }).loomF 0 0).zmapEn = false
    ∧ ∀ x ∈ ((loomHeld begunLoom 0 { stage := [[1]] }).loom 0 1).ords, x.pause = false := by decide
theorem test_meets_LoomTilesMoveThroughTheirStages_tile :
    (loomHeld { heldLoom with rows := some 64 } 0).loomCur 0 1 = some { heldLoom with rows := some 64 }
    ∧ (∀ x ∈ ((loomHeld { heldLoom with rows := some 64 } 0).loom 0 1).ords, x.pause = false)
    ∧ (((loomHeld { heldLoom with rows := some 64 } 0).core 0).shelf.getD 1 []).length + 2
        ≤ (loomHeld { heldLoom with rows := some 64 } 0).loomQuota 0 1
    ∧ shelfUsed (loomHeld { heldLoom with rows := some 64 } 0) 0 + 2 ≤ 16
    ∧ ((loomHeld { heldLoom with rows := some 64 } 0).loom 0 1).shadow = none := by decide
/-- Loom 1 with one slot whose last row has issued. -/
def slotIssued : State := oneCore { shelf := [[], [⟨false, true, 0, 0, 0, 5, []⟩], [], []] }
theorem test_meets_LoomTilesMoveThroughTheirStages_slot :
    ((slotIssued.core 0).shelf.getD 1 []).findIdx? (fun y => y.issued && !y.full) = some 0
    ∧ ((slotIssued.core 0).shelf.getD 1 [])[0]? = some ⟨false, true, 0, 0, 0, 5, []⟩ := by decide
theorem test_meets_LoomTimersTreadlesAndRecompute_pause :
    (∃ x ∈ (slotIssued.core 0).shelf.getD 1 [], x.issued = true ∧ x.full = false)
    ∧ ∀ x ∈ ((oneCore { shelf := [[], [⟨true, true, 0, 0, 0, 5, []⟩], [], []] }).core 0).shelf.getD 1 [], x.issued = true → x.full = true := by
  decide
theorem test_meets_LoomTimersTreadlesAndRecompute_recompute :
    (loomHeld begunLoom 0).loomCur 0 1 = some begunLoom ∧ ((loomHeld begunLoom 0).core 0).stockBad = [] := by decide
/-- A running ATTEND on every loom of core 0. -/
def attendRuns : State := oneCore { flights := [{ finished with op := 0x20, aux := [15], done := false }] }
theorem test_meets_LoomTimersTreadlesAndRecompute_attend :
    attendRuns.loomCur 0 1 = none ∧ (attendRuns.core 0).attends 1 = true := by decide
theorem test_meets_LoomTimersTreadlesAndRecompute_idle :
    (({ regs := [(regKey pgLoom 0 0 rLoomTreadle, 0)] } : State).loom 0 1).fixedBy = none
    ∧ ({ regs := [(regKey pgLoom 0 0 rLoomTreadle, 0)] } : State).fld pgLoom 0 0 rLoomTreadle 31 31 = 0 := by decide
theorem test_meets_LoomTimersTreadlesAndRecompute_level :
    treadled.thm.phase = 0 ∧ (treadled.loom 0 1).fixedBy = some (4, 50) ∧ 1 < min 50 treadled.pwr.tc * 10000
    ∧ min 50 treadled.pwr.tc ≤ 100 := by decide
theorem test_meets_LoomTimersTreadlesAndRecompute_gap :
    ((oneCore { looms := [{ level := 1 }, {}, {}, {}] }).loom 0 0).level ≠ 0 := by decide

/-! ### Arithmetic and the element engine -/

theorem test_meets_Fp32SpecialValues :
    nanBits 0xFF800001#32 ∧ infBits 0xFF800000#32 ∧ zeroBits 0x80000000#32
    ∧ ¬ nanBits 1#32 ∧ ¬ infBits 1#32 ∧ ¬ zeroBits 1#32 := by unfold nanBits infBits zeroBits; decide
theorem test_meets_ConversionsOfExactValues :
    ¬ nanBits 0x7F800000#32 ∧ ¬ nanBits (rawDecode32 3 ⟨0x7B, 127, 0⟩) ∧ ¬ nanBits (rawDecode32 4 ⟨0, 127, 0⟩)
    ∧ ¬ nanBits (rawDecode32 5 ⟨0, 127, 0⟩) := by
  unfold nanBits; decide

/-- A recipe whose elements are all in flight. -/
def runOf (uops : List Nat) (lanes : List ElemLane) : RecipeRun :=
  { flight := 0, uops := uops, carryEn := false, t0 := [], t1 := [], lo0 := 0, sc0 := 0, lo1 := 0, sc1 := 0, scal := [],
    mexp := 1, kinds := [1, 0, 0], dests := [1, 0], tOp := 0, tapSt := 0, draws := false, next := 1, unit := 1, unitLen := 1,
    units := 1, unitOn := false, unitRows := 0, lanes := lanes, pc := 0, parked := [], unparked := false, kept := 0,
    out0 := [], out1 := [], tapped := false, tapEnd := 0, missed := false }
/-- Element 0, holding 1.0 and 2.0. -/
def lane1 : ElemLane :=
  ⟨0, 0x3F800000, 0x40000000, 0, List.replicate 8 0x3F800000, true, false, ⟨1, 2, 3, 4⟩, (none, .none), (none, .none), 0, 0⟩
/-- A core whose element engine runs that recipe, for an order of 4 elements in rows of 2. -/
def running (r : RecipeRun) (o : Nat := ordOf [(0, 0x18), (5, 4), (6, 2), (18, 1)]) : State :=
  oneCore { flights := [⟨0, 0, 0, o, 0x18, false, 0, false, false, [], [], []⟩], eng := { runs := [r] } }
/-- A micro-op of a station and opcode: v1 from v0, v2, v3. -/
def uop (station op : Nat) : Nat := station + op * 16 + 0x200 + 0x321000

theorem test_meets_LaneMicroOpsGiveTheirResults :
    ∀ row ∈ laneRows 0 2, ∀ st ∈ row.2.1,
      ((running (runOf [uop st row.2.2.1, uop 10 0, uop 10 0] [lane1])).uopReady 0 row.2.1 row.2.2.1).isSome = true := by decide
theorem test_meets_LaneMicroOpsGiveTheirResults_next :
    ∀ row ∈ laneRows 0 2, ∀ st ∈ row.2.1, GoesOn (runOf [uop st row.2.2.1, uop 10 0, uop 10 0] [lane1]) 0 := by
  unfold GoesOn; decide
/-- A RECIPE of one output to its own stockroom. -/
def recipeOrd : Nat := ordOf [(0, 0x18), (5, 4), (6, 2), (8, 1), (12, 1)]
theorem test_meets_RecipesStartAndIssueTheirGroups_start :
    (oneOrder 0x18).pick 0 = some (started 0x18) ∧ (oneOrder 0x18).partOfCore 0 = some 0 ∧ ((oneOrder 0x18).core 0).stockBad = []
    ∧ ∀ n < 2, (outDests 0x18 (inKinds 0x18).1).1.getD n 0 ∉ [1, 2, 3] := by decide
/-- Its elements have not issued. -/
def toIssue : RecipeRun := { runOf [uop 1 0] [] with unit := 0, next := 0, unitLen := 4 }
theorem test_meets_RecipesStartAndIssueTheirGroups_issue :
    (running toIssue).run 0 = some toIssue ∧ toIssue.shelfIns = [] ∧ toIssue.allIssued = false
    ∧ toIssue.parkAt ((running toIssue).ordOf 0 0) ≠ some 0
    ∧ toIssue.usesDraws ((running toIssue).ordOf 0 0) ((running toIssue).srEnable 0) 0 24 = false
    ∧ toIssue.at8 = none ∧ (running toIssue).boot.lanes > 0 := by decide
/-- Its input 0 is the shelf queue of loom 0. -/
def fromShelf : RecipeRun := { toIssue with kinds := [2, 0, 0] }
def shelved : State :=
  oneCore { flights := [⟨0, 0, 0, ordOf [(0, 0x18), (5, 4), (6, 2), (8, 2)], 0x18, false, 0, false, false, [], [], []⟩],
            eng := { runs := [fromShelf] }, shelf := [[⟨true, true, 0, 0, 0, 3, []⟩], [], [], []] }
theorem test_meets_RecipesStartAndIssueTheirGroups_unit :
    shelved.run 0 = some fromShelf ∧ fromShelf.shelfIns = [0] ∧ fromShelf.allIssued = false
    ∧ shelved.unitSlot 0 (shelved.ordOf 0 0) fromShelf 0 = some ⟨true, true, 0, 0, 0, 3, []⟩ := by decide

/-- COMPRESS, EXPAND_FILL or EXPAND_KEEP, with a MOV after it. -/
def station8 (op : Nat) : State := running (runOf [uop 8 op, uop 10 0, uop 10 0] [lane1])
theorem test_meets_ElementsAreRenumberedConvertedAndRouted_8 :
    ∀ op < 3, ((station8 op).uopReady 0 [8] op).isSome = true
      ∧ (runOf [uop 8 op, uop 10 0, uop 10 0] [lane1]).usesDraws ((station8 op).ordOf 0 0) ((station8 op).srEnable 0) 1 25 = false
      ∧ ((station8 op).core 0).stockBad = [] ∧ (runOf [uop 8 op, uop 10 0, uop 10 0] [lane1]).allIssued = true
      ∧ bits (uop 8 op) 23 20 ≠ 11 := by decide
/-- A conversion to FP16 of output 0. -/
def cvtOrd : Nat := ordOf [(0, 0x18), (5, 4), (6, 2), (12, 1 + 1 * 8)]
theorem test_meets_ElementsAreRenumberedConvertedAndRouted_9 :
    ∀ row ∈ convertRows 0, ((running (runOf [uop 9 row.2.1, uop 10 0, uop 10 0] [lane1]) cvtOrd).uopReady 0 [9] row.2.1).isSome = true
      ∧ fmtIsBlock (outFmt cvtOrd 0 [1, 0]) = false := by decide
theorem test_meets_ElementsAreRenumberedConvertedAndRouted_10 :
    ((running (runOf [uop 10 0, uop 10 1, uop 10 1] [lane1])).uopReady 0 [10] 0).isSome = true
    ∧ (runOf [uop 10 0, uop 10 1, uop 10 1] [lane1]).dests.getD 0 0 = 1
    ∧ (running (runOf [uop 10 0, uop 10 1, uop 10 1] [lane1])).outsReady 0 ((running (runOf [] [])).ordOf 0 0) (runOf [uop 10 0, uop 10 1, uop 10 1] [lane1]) = true
    ∧ outFmt ((running (runOf [] [])).ordOf 0 0) 0 [1, 0] = 0 ∧ predTrue (uop 10 0) lane1 = true
    ∧ lane1.enc0.1 = none ∧ lane1.enc1.1 = none := by decide
theorem test_meets_ElementsAreRenumberedConvertedAndRouted_out1 :
    ((running { runOf [uop 10 1, uop 10 0, uop 10 0] [lane1] with dests := [0, 1] }).uopReady 0 [10] 1).isSome = true
    ∧ (running { runOf [uop 10 1, uop 10 0, uop 10 0] [lane1] with dests := [0, 1] }).uopReady 0 [10] 0 = none := by decide
/-- A TALLY order of 4 elements in rows of 2, and one that has begun. -/
def tallyOrd (op : Nat) : Nat := ordOf [(0, 0x19), (5, 4), (6, 2), (8, 1), (18, op)]
def tallyRun (op : Nat) : TallyRun := ⟨0, true, op, 0, 0, [], [], [], 0, [], false, 4, false, false⟩
def tallying (x : TallyRun) : State :=
  oneCore { flights := [⟨0, 0, 0, tallyOrd x.op, 0x19, false, 0, false, false, [], [], []⟩], tally := [x] }
theorem test_meets_TallyTakesAndReportsRows :
    (oneOrder (tallyOrd 9)).pick 0 = some (started (tallyOrd 9)) ∧ ((oneOrder (tallyOrd 9)).core 0).tally = [] ∧ tallyOp0 (tallyOrd 9) = 9
    ∧ ∀ row ∈ tallyRows 0, ((tallying (tallyRun row.2)).core 0).tally = [tallyRun row.2]
        ∧ (tallyRun row.2).written < ((tallyRun row.2).total + recRow ((tallying (tallyRun row.2)).ordOf 0 0) - 1)
            / recRow ((tallying (tallyRun row.2)).ordOf 0 0) := by decide
/-- A COUNT with the two elements of row 0 taken. -/
def counted : TallyRun := { tallyRun 8 with next := 2, rows := [(0, [(0, 1, 0), (1, 0, 0)])] }
theorem test_meets_TallyTakesAndReportsRows_row :
    counted.next ≥ min counted.total ((counted.written + 1) * recRow ((tallying counted).ordOf 0 0))
    ∧ bit (ordW ((tallying counted).ordOf 0 0) 18) 26 = false ∧ bit (ordW ((tallying counted).ordOf 0 0) 18) 25 = false
    ∧ ((smFind counted.rows counted.written).getD []).length < 4294967296 := by decide

/-! ### Collectives, barriers, attention, book, sampling, porter -/

/-- A partition collective of an op over cores 0 to n, 4 bytes from 0 to 64. -/
def collOrd (op n : Nat) : Nat := ordOf [(0, 0x48), (4, op + 5 * 256), (6, 64), (7, 4), (9, n * 256)]
theorem test_meets_CollectivesOfAPartition_one :
    ∀ row ∈ collRows 0, (oneOrder (collOrd row.2 0)).pick 0 = some (started (collOrd row.2 0))
      ∧ ((oneOrder (collOrd row.2 0)).cvFields 0 (collOrd row.2 0)).op = row.2
      ∧ ((oneOrder (collOrd row.2 0)).cvFields 0 (collOrd row.2 0)).scope = 0
      ∧ ((oneOrder (collOrd row.2 0)).cvFields 0 (collOrd row.2 0)).members (oneOrder (collOrd row.2 0)) 0 = [0]
      ∧ ((oneOrder (collOrd row.2 0)).cvFields 0 (collOrd row.2 0)).root = 0 := by decide
theorem test_meets_CollectivesOfAPartition_two :
    ∀ row ∈ collRows 0, (twoCores (collOrd row.2 1)).pick 0 = some (started (collOrd row.2 1))
      ∧ ((twoCores (collOrd row.2 1)).cvFields 0 (collOrd row.2 1)).members (twoCores (collOrd row.2 1)) 0 = [0, 1]
      ∧ ((twoCores (collOrd row.2 1)).cvFields 0 (collOrd row.2 1)).root < 2 := by decide
theorem test_meets_CollectivesOfAPartition_open : (twoCores (collOrd 0 1)).fab.colls = [] := by decide

/-- BARRIER_JOIN of barrier 5, its epoch to s3. -/
def joinOrd : Nat := ordOf [(0, 0x61), (4, 0x430500)]
theorem test_meets_BarriersRelease_last :
    (oneOrder joinOrd).pick 0 = some (started joinOrd) ∧ barScope joinOrd = 0 ∧ ((oneOrder joinOrd).part 0).joins = []
    ∧ ((oneOrder joinOrd).part 0).cores.filter (fun d => (oneOrder joinOrd).coreActive d) = [0] := by decide
theorem test_meets_BarriersRelease_first :
    (twoCores joinOrd).pick 0 = some (started joinOrd) ∧ 1 ∈ ((twoCores joinOrd).part 0).cores ∧ (twoCores joinOrd).coreActive 1 = true := by decide
/-- Device 2 of a guild of three, whose master is device 0. -/
def member : State := { fab := { isMember := true, device := 2, members := [(0, 9), (1, 8), (2, 7)] } }
/-- A message from device 0 about barrier or collective 5 at GUILD scope. -/
def fromMaster (ty : Nat) : FMsg := ⟨ty, 2, 0, 0, 0, false, 0x45, leBytes 8 6⟩
theorem test_meets_BarriersRelease_messages :
    Accepts member (fromMaster 9) ∧ bits (fromMaster 9).info 7 6 = 1 ∧ member.barChildren = []
    ∧ member.fab.bars = [] ∧ (member.bar 5 1).self = false ∧ member.fab.colls = [] := by
  unfold Accepts; decide

/-- ATTEND of stream 3 at position 0: one new token, d 64, one head, keys and values in E4M3, in FP32 form out. -/
def attendOrd (op : Nat) : Nat := ordOf [(0, op), (4, 0x800000), (5, 0), (6, 0x704), (7, 0x3F800000), (10, 0)]
/-- Its list entry at 0: query at 256, new keys and values at 512, output at 1,024. -/
def attendStock : Mem :=
  memSetBytes [] 0 (leBytes 4 (3 + 1 <<< 22) ++ leBytes 4 0 ++ leBytes 4 256 ++ leBytes 4 512 ++ leBytes 4 1024)
/-- Stream 3 of partition 0 in DECODE. -/
def attending (op : Nat) : State :=
  { oneOrder (attendOrd op) { stock := attendStock } with
    rollA := [(3, { st := .decode })], rollB := [(3, { st := .decode })], vaults := [(0, { role := .logical })] }
def attendEnt : AttEnt := ⟨0, 3, 0, 1, 0, 0, [3 + 1 <<< 22, 0, 256, 512, 1024, 0, 0, 0], false⟩
theorem test_meets_AttentionOverNewTokens_pick :
    ∀ op ∈ [0x20, 0x21], (attending op).pick 0 = some (started (attendOrd op)) := by decide
theorem test_meets_AttentionOverNewTokens_entry :
    SoleEntry (attending 0x20) 0 0 ((attending 0x20).attFields 0 false false (attendOrd 0x20)) false attendEnt
    ∧ SoleEntry (attending 0x21) 0 0 ((attending 0x21).attFields 0 true false (attendOrd 0x21)) false attendEnt := by
  unfold SoleEntry; decide
theorem test_meets_AttentionOverNewTokens_ready :
    (attending 0x20).attEntSt 0 ((attending 0x20).attFields 0 false false (attendOrd 0x20)) attendEnt = .ready
    ∧ ((attending 0x20).attFields 0 false false (attendOrd 0x20)).stats = false
    ∧ ((attending 0x20).attFields 0 false false (attendOrd 0x20)).outFmt = 0
    ∧ ((attending 0x20).attFields 0 false false (attendOrd 0x20)).geo.g = 1
    ∧ ((attending 0x20).attFields 0 false false (attendOrd 0x20)).list = 0
    ∧ ((attending 0x20).attFields 0 false false (attendOrd 0x20)).geo.d = 64
    ∧ (attending 0x21).attEntSt 0 ((attending 0x21).attFields 0 true false (attendOrd 0x21)) attendEnt = .ready
    ∧ (attending 0x21).placeReady (.vault 0 0) 1 true = true := by decide

/-- Where the ledger holds page 0 of slot 0 of stream 3 (R242), and a ledger whose only entry is that page, with a fill. -/
def pageOf3 : Nat := 16 * homeGroup (runKey 3 0 0 0)
def withPage (s : State) (fill : Nat) : State :=
  let l : SMap LEntry := [(pageOf3, { st := .near, refs := 1, fill := fill, stream := 3 })]
  { s with ledgA := l, ledgB := l }
/-- An ATTEND with shadow keys over 128 cached positions of stream 3, of which SELECT takes one block. -/
def selectOrd : Nat := ordOf [(0, 0x20), (4, 0x800000), (6, 0x1704), (7, 0x3F800000), (8, 1), (9, 0x1000001)]
def selecting : State :=
  let s := attending 0x20
  withPage { s with cores := [(0, { stock := memSetBytes [] 0 (leBytes 4 (3 + 1 <<< 22) ++ leBytes 4 128 ++ leBytes 4 256),
                                    flights := [⟨0, 0, 0, selectOrd, 0x20, false, 0, false, false, [], [], []⟩], jobs := [⟨0, 0, [], []⟩] })] } 128
def selectEnt : AttEnt := ⟨0, 3, 0, 1, 0, 128, [3 + 1 <<< 22, 128, 256, 0, 0, 0, 0, 0], false⟩
theorem test_meets_SelectionAndAppendQueuePrograms_select :
    ((selecting.core 0).flights.find? (fun f => f.op = 0x20 && !f.done)).map (·.id) = some 0 ∧ selecting.job 0 0 = some ⟨0, 0, [], []⟩
    ∧ (selecting.core 0).stockBad = [] ∧ selecting.vaultOf 0 = some 0
    ∧ (let f := selecting.attFields 0 false false selectOrd
       (((attEnts f false (selecting.core 0).stock).filter (fun e => selecting.attEntSt 0 f e = .ready)).filter f.selects)[0]? = some selectEnt
       ∧ (((selecting.ledgView 0).selItems f selectEnt).mapIdx (fun i x => (i, x))).filterMap (fun x =>
          if x.2.1 = 0 then some (x.1, x.2.2.1, x.2.2.2.1, 0) else none) ≠ []) := by decide +kernel
/-- KV_APPEND of one token to that page, which is empty. -/
def appendOrd : Nat := ordOf [(0, 0x30), (4, 0x800000), (6, 0x704)]
def appending : State :=
  withPage { oneOrder appendOrd { stock := memSetBytes [] 0 (leBytes 4 (3 + 1 <<< 22) ++ leBytes 4 (1 <<< 23) ++ leBytes 4 512) } with
    rollA := [(3, { st := .decode })], rollB := [(3, { st := .decode })], vaults := [(0, { role := .logical })] } 0
def appendEnt : AttEnt := ⟨0, 3, 0, 1, 1, 0, [3 + 1 <<< 22, 1 <<< 23, 512, 0], false⟩
theorem test_meets_SelectionAndAppendQueuePrograms_append :
    appending.pick 0 = some (started appendOrd) ∧ SoleEntry appending 0 0 (appending.attFields 0 false true appendOrd) true appendEnt
    ∧ (let f := appending.attFields 0 false true appendOrd
       appending.kvSt 0 f appendEnt = .ready ∧ appending.inRecompute 3 = false ∧ appending.kvWrites f appendEnt = [0]
       ∧ appending.pageEntry 3 0 f.slot 0 = some pageOf3 ∧ (appending.ledg pageOf3).st = .near
       ∧ appending.vaultOf (appending.ledg pageOf3).vault = some 0) := by
  unfold SoleEntry; decide +kernel
theorem test_meets_SelectionAndAppendQueuePrograms_free : Unregulated appending 0 := unregulated_of (by decide +kernel) 0

/-- BOOK_LOOKUP of a mode over n tokens at 0 for stream 3, its result at 2,048. -/
def bookOrd (mode n : Nat) : Nat := ordOf [(0, 0x31), (4, 3 + mode * 4194304), (8, n), (9, 2048)]
/-- The node hash and check of 64 tokens 0 of pattern 0. -/
def zeroHash : DWord × Word := (bookHashes 0 (List.replicate 64 0) 1).getD 0 (0, 0)
def bookState (mode n : Nat) (st : SState) (book : SMap BookNode) : State :=
  { oneOrder (bookOrd mode n) with
    regs := [(regKey pgClerk 0 0 rClerkQSpan, 1), (regKey pgBook 0 0 rBookCfg, 0x80000000)]
    rollA := [(3, { st := st, pos := 64 }), (4, { st := .decode })], rollB := [(3, { st := st, pos := 64 }), (4, { st := .decode })]
    book := book }
def bookHit : SMap BookNode :=
  [(firstSpot zeroHash.1, { live := true, h := zeroHash.1, check := zeroHash.2, parent := 0x3FFFFF, child := 0x3FFFFF, stream := 4 })]
theorem test_meets_BookFindsAndInsertsBlocks_match :
    ∀ mode ∈ [0, 1, 3], OneBlock (bookState mode 128 .admitted bookHit) 0 0 (started (bookOrd mode 128)) mode 0 0 := by
  unfold OneBlock; decide
set_option maxRecDepth 4000 in
theorem test_meets_BookFindsAndInsertsBlocks_spot :
    blockHash (bookState 0 128 .admitted bookHit) (started (bookOrd 0 128)) 0 0 = zeroHash
    ∧ SpotMatches (bookState 0 128 .admitted bookHit) zeroHash ∧ (bookFields (bookOrd 0 128)).n = 128
    ∧ (bookState 0 128 .admitted bookHit).ledgAll = [] := by
  unfold SpotMatches; decide
theorem test_meets_BookFindsAndInsertsBlocks_insert :
    OneBlock (bookState 2 64 .decode []) 0 0 (started (bookOrd 2 64)) 2 0 0 ∧ (bookFields (bookOrd 2 64)).n = 64
    ∧ ∀ x ∈ bookSpots (blockHash (bookState 2 64 .decode []) (started (bookOrd 2 64)) 0 0).1, ((bookState 2 64 .decode []).node x).live = false := by
  unfold OneBlock; decide

/-- SAMPLE or GAMBIT_VERIFY of stream 3 over 2 logits at 64. -/
def sampleOrd (op : Nat) : Nat := ordOf [(0, op), (4, 64), (5, 2), (7, 1), (8, 128)]
def sampling (op : Nat) : State :=
  { oneOrder (sampleOrd op) { stock := memSetBytes [] 0 (leBytes 4 (3 + 1 <<< 22) ++ List.replicate 64 0 ++ leBytes 4 0x3F800000) } with
    rollA := [(3, { st := .decode })], rollB := [(3, { st := .decode })] }
theorem test_meets_GreedySamplingTakesTheArgmax :
    ∀ op ∈ [0x38, 0x39], (sampling op).pick 0 = some (started (sampleOrd op)) ∧ (sampFields (sampleOrd op)).n = 1
      ∧ (sampFields (sampleOrd op)).draft = false ∧ ((sampling op).core 0).stockBad = []
      ∧ (sampling op).sampOk 0 (sampEnt (stockAt (sampling op) 0 0 16)) = true
      ∧ (sampEnt (stockAt (sampling op) 0 0 16)).gambits = 0
      ∧ f32IsZero ((sampling op).stream 3).temp = true ∧ (sampling op).abs.fence = none := by decide

/-- DISPATCH of one row of 64 B at 0 to one expert, its map in the write queue of vault 0, its inbox at 4,096. -/
def dispatchOrd : Nat := ordOf [(0, 0x40), (5, 0x10001), (6, 1), (8, 64), (10, 0x10000000), (12, 4), (13, 0x401000)]
/-- The map's line: expert 0's team is core 1 alone. -/
def mapLine : List Byte := 1 :: List.replicate 63 0
def dispatching : State := { twoCores dispatchOrd with vaults := [(0, { role := .logical, wq := [(0, mapLine)] })] }
theorem test_meets_PorterDeliversAndReturnsRows_dispatch :
    dispatching.pick 0 = some (started dispatchOrd) ∧ locOf 0 (dispFields dispatchOrd).map = .vault 0 0
    ∧ (dispFields dispatchOrd).n = 1 ∧ (dispFields dispatchOrd).ne = 1 ∧ (dispFields dispatchOrd).cap ≥ 1
    ∧ (dispatching.part 0).cores.Nodup ∧ dispatching.vaultOf 0 = some 0
    ∧ (dispatching.vault 0).wq.find? (fun x => x.1 = 0) = some (0, mapLine) ∧ mapLine.length = 64
    ∧ (expertOf (mapLine.take 16)).loc = 0 ∧ (expertOf (mapLine.take 16)).team = (1, 1) := by decide
theorem test_meets_PorterDeliversAndReturnsRows_idle :
    (dispatching.vault 0).mode = .memory ∧ dispatching.abs.migs = [] ∧ dispatching.abs.fence = none
    ∧ (∀ e ∈ dispatching.cores, e.2.flights = []) ∧ (dispatching.part 0).set = [] := by decide
/-- COLLECT's return of the one row of an inbox at 4,096 to core 1, and its gather from a return area at 512. -/
def returnOrd : Nat := ordOf [(0, 0x41), (5, 4096), (6, 256), (7, 1), (8, 1), (9, 0x7010001), (10, 512)]
def gatherOrd : Nat := ordOf [(0, 0x41), (4, 1), (5, 64), (6, 256), (7, 1), (8, 1), (9, 0x10001), (10, 512)]
theorem test_meets_PorterDeliversAndReturnsRows_return :
    (twoCores returnOrd { inbox := [(4096, [⟨1, 0, 0, 0, 1⟩])] }).pick 0 = some (started returnOrd) ∧ bit (ordW returnOrd 4) 0 = false
    ∧ smGet [] ((twoCores returnOrd { inbox := [(4096, [⟨1, 0, 0, 0, 1⟩])] }).core 0).inbox (collFields returnOrd).addr = [⟨1, 0, 0, 0, 1⟩]
    ∧ (collFields returnOrd).seg = 1 := by decide
theorem test_meets_PorterDeliversAndReturnsRows_gather :
    (oneOrder gatherOrd { retIn := [(512, 0)] }).pick 0 = some (started gatherOrd) ∧ bit (ordW gatherOrd 4) 0 = true
    ∧ (collFields gatherOrd).n = 1 ∧ (collFields gatherOrd).k = 1 ∧ (collFields gatherOrd).seg = 1
    ∧ ((collFields gatherOrd).ret, 0) ∈ ((oneOrder gatherOrd { retIn := [(512, 0)] }).core 0).retIn := by decide
theorem test_meets_PorterDeliversAndReturnsRows_free :
    Unregulated dispatching 0 ∧ Unregulated (twoCores returnOrd { inbox := [(4096, [⟨1, 0, 0, 0, 1⟩])] }) 0 :=
  ⟨unregulated_of (by decide) 0, unregulated_of (by decide) 0⟩
theorem test_meets_AttentionOverNewTokens_apart :
    (∀ i < 4 * 64, ∀ j < 4, (1024 % 2097152 + i) % 2097152 ≠ (0 + 4 + j) % 2097152)
    ∧ ∀ g ∈ ((attending 0x21).core 0).flights, g.op = 0x21 → g.done = true := by
  refine ⟨fun i hi j hj => by omega, by decide⟩

/-! ### Bank units and vaults -/

/-- One vault, number 0, as given; it serves logical vault 0. -/
def oneVault (v : Vault) : State := { vaults := [(0, { v with role := .logical })], parts := [(0, { st := .serving, cores := [0] })] }
/-- Vault 0 behind the core of `oneOrder`. -/
def vaulted (o : Nat) (v : Vault := {}) : State := { oneOrder o with vaults := [(0, { v with role := .logical })] }
def bankProg (instrs : List Nat) (items : List (Nat × Nat × Nat × Nat)) : BankProg :=
  ⟨0, 0, 0, .attend, true, instrs, List.replicate 1024 0, items, 32, 0, 4096, 64, false, []⟩
def bankRun (instrs : List Nat) (left : List (Nat × Nat × Nat × Nat)) (units : List BankUnit) : BankRun :=
  ⟨bankProg instrs left, left, units, 0, false, false⟩
def unit3 : BankUnit := ⟨3, 0, 0, 0, 0, [0, 0, 0, 0], [0, 0, 0, 0, 0, 0, 0, 0], 0, false⟩
/-- A bank instruction on chunk 5: one chunk, 16-bit lanes, its result in w0 where `dst` is 2. -/
def bankIns (op dst : Nat) : Nat := op + 5 * 32 + 1 * 2048 + dst * 8388608 + 2 * 134217728

theorem test_meets_BankProgramsStartAndEnd_queue :
    (vaulted 0x28).pick 0 = some (started 0x28) ∧ (vaulted 0x28).vaultOf 0 = some 0 ∧ (vaulted 0x28).partOfCore 0 = some 0
    ∧ ((vaulted 0x28).part 0).cores.contains (stockOf 0 (emitAddr 0x28).1).1 = true := by decide
/-- A program of one item waits. -/
def progWaits : State := oneVault { progs := [bankProg [0] [(0, 3, 7, 0)]] }
theorem test_meets_BankProgramsStartAndEnd_start :
    (progWaits.vault 0).run = none ∧ (progWaits.vault 0).paused = false ∧ (progWaits.vault 0).progs = [bankProg [0] [(0, 3, 7, 0)]]
    ∧ (∀ m ∈ progWaits.abs.migs, m.old ≠ 0 ∧ m.new ≠ 0) ∧ (progWaits.vault 0).mode = .memory ∧ (progWaits.vault 0).grant ≠ 0
    ∧ (bankProg [0] [(0, 3, 7, 0)]).again = false ∧ (progWaits.vault 0).mb = [] ∧ (progWaits.core 0).stockBad = []
    ∧ (progWaits.vault 0).filling = []
    ∧ ∀ i ∈ (bankProg [0] [(0, 3, 7, 0)]).items, (progWaits.vault 0).busyAt (segOf i.2.2.1 i.2.1 / 2) = false := by decide
/-- An item of bank 3 waits. -/
def itemWaits : BankRun := bankRun [0] [(0, 3, 7, 0)] []
def itemState : State := oneVault { mode := .bankCompute, run := some itemWaits }
theorem test_meets_BankProgramsStartAndEnd_item :
    (itemState.vault 0).run = some itemWaits ∧ itemWaits.nextItem 3 = some (0, 3, 7, 0) ∧ (itemState.vault 0).mode = .bankCompute
    ∧ (itemState.vault 0).paused = false ∧ itemWaits.stopped = false ∧ (itemState.vault 0).guests = []
    ∧ (itemState.vault 0).change.length + 16 * (itemWaits.units.length + 1) ≤ 2048 ∧ itemState.abs.migs = [] ∧ itemState.snap = none
    ∧ itemWaits.prog.src ≠ .kvAppend
    ∧ ((itemWaits.readyBanks (itemState.vault 0).rot).take (itemState.tokenLimit 0 itemWaits.prog - itemWaits.units.length)).contains 3 = true := by
  decide
/-- A vault whose bank 3 is at an instruction. -/
def atIns (op dst : Nat) : State := oneVault { mode := .bankCompute, run := some (bankRun [bankIns op dst, 0] [] [unit3]), flags := [98] }
theorem test_meets_BankInstructionsGiveTheirResults :
    ∀ op < 10, UnitAt (atIns op 0) 0 3 (bankRun [bankIns op 0, 0] [] [unit3]) unit3 (bankIns op 0)
      ∧ bOp (bankIns op 0) = op ∧ bCount (bankIns op 0) = 1 ∧ bDst (bankIns op 0) = 0 := by
  unfold UnitAt; decide
theorem test_meets_BankInstructionsGiveTheirResults_w :
    ∀ row ∈ laneCmds 0 3, UnitAt (atIns row.2 2) 0 3 (bankRun [bankIns row.2 2, 0] [] [unit3]) unit3 (bankIns row.2 2)
      ∧ bOp (bankIns row.2 2) = row.2 ∧ bDst (bankIns row.2 2) = 2 := by
  unfold UnitAt; decide
theorem test_meets_BankProgramsStartAndEnd_step :
    itemWaits.units = [] ∧ itemWaits.stopped = false ∧ Quiet itemState 0 ∧ itemWaits.left ≠ [] ∧ (itemState.vault 0).changeLost = false
    ∧ (itemState.vault 0).change = [] ∧ (bankRun [0] [] []).left = []
    ∧ ((oneVault { mode := .bankCompute, run := some itemWaits, change := [1] }).vault 0).change ≠ [] := by unfold Quiet; decide
/-- A step has ended, and a guest waits for line 1, which stands in the write queue. -/
def guestWaits : Vault :=
  { mode := .bankCompute, run := some { itemWaits with stepOver := true }, guests := [.line 64], wq := [(1, List.replicate 64 7)] }
theorem test_meets_BankProgramsStartAndEnd_guest :
    guestWaits.guests = [.line 64] ∧ guestWaits.held = [] ∧ guestWaits.clears = [] ∧ guestWaits.mb = [] ∧ guestWaits.filling = []
    ∧ guestWaits.busyAt (64 / 4096) = false ∧ guestWaits.wq.find? (fun e => e.1 = 64 / 64) = some (64 / 64, List.replicate 64 7) := by
  decide
def resealing : Vault := { mode := .resealing, run := some itemWaits, flags := [2, 3], change := [1] }
theorem test_meets_BankProgramsStartAndEnd_reseal :
    resealing.run = some itemWaits ∧ resealing.mode = .resealing ∧ itemWaits.stopped = false ∧ itemWaits.left ≠ [] ∧ resealing.paused = false
    ∧ resealing.changeLost = false ∧ resealing.remap = [] := by decide
/-! Lines that nothing has written hold zero codewords. -/

def zeroLine : List Byte := List.replicate 72 0
theorem test_zeroLine_clean : lineDecode zeroLine = .clean (List.replicate 64 0) := by decide +kernel
theorem test_oneSymbol_fixed : lineDecode (1 :: List.replicate 71 0) = .fixed (List.replicate 64 0) 1 := by decide +kernel
theorem test_lostWord_lost : lineDecode lostWord = .lost := by decide +kernel
theorem test_fiveSymbols_lost : lineDecode ([5, 4, 3, 2, 1] ++ List.replicate 67 0) = .lost := by decide +kernel
theorem test_noisy_none : noisy zeroLine 0#576 = zeroLine := by decide +kernel
theorem test_noisy_one : noisy zeroLine 1#576 = 1 :: List.replicate 71 0 := by decide +kernel
theorem test_noisy_five : noisy zeroLine 0x0102030405#576 = [5, 4, 3, 2, 1] ++ List.replicate 67 0 := by decide +kernel

/-- Bank 3 is at a MOV that reads line 98, where nothing is stored. -/
def reading : BankRun := bankRun [bankIns 1 0, 0] [] [unit3]
def working : State := oneVault { mode := .bankCompute, run := some reading }
theorem test_meets_BankErrorsAndTheWatchman_fixed :
    (working.vault 0).run = some reading ∧ (working.vault 0).mode = .bankCompute ∧ (working.vault 0).flags.contains 98 = false
    ∧ reading.readsLine 98 = true ∧ Quiet working 0
    ∧ lineDecode (noisy ((working.vault 0).stored 98) 1#576) = .fixed (List.replicate 64 0) 1 :=
  ⟨rfl, rfl, rfl, by decide, by unfold Quiet; decide,
    by rw [show (working.vault 0).stored 98 = zeroLine from rfl, test_noisy_one, test_oneSymbol_fixed]⟩
theorem test_meets_BankErrorsAndTheWatchman_lost : lineDecode (noisy ((working.vault 0).stored 98) 0x0102030405#576) = .lost := by
  rw [show (working.vault 0).stored 98 = zeroLine from rfl, test_noisy_five, test_fiveSymbols_lost]
theorem test_meets_BankErrorsAndTheWatchman :
    (∃ p ∈ halfVaults 1, p = 287 ∧ ((oneVault {}).vault p).watchman = none) ∧ ((oneVault { watchman := some 1 }).vault 0).watchman = some 1
    ∧ ∀ p ∈ halfVaults 0, Quiet (oneVault { watchman := some 1 }) p ∧ ∀ r, ((oneVault { watchman := some 1 }).vault p).run = some r → r.stopped = false := by
  refine ⟨⟨287, by decide, rfl, by decide⟩, by decide, ?_⟩
  have h : ∀ p ∈ halfVaults 0, (((oneVault { watchman := some 1 }).vault p).guests, ((oneVault { watchman := some 1 }).vault p).held,
      ((oneVault { watchman := some 1 }).vault p).clears, ((oneVault { watchman := some 1 }).vault p).run) = ([], [], [], none) := by decide
  intro p hp
  have := h p hp
  simp only [Prod.mk.injEq] at this
  obtain ⟨h1, h2, h3, h4⟩ := this
  exact ⟨⟨h1, h2, h3⟩, fun r hr => by rw [h4] at hr; cases hr⟩
theorem test_meets_UnwrittenGranulesReadZero :
    Open (oneVault {}) 0 1073741823 ∧ ((oneVault {}).vault 0).isValid (1073741823 / 4096) = false
    ∧ ((oneVault {}).vault 0).wq.find? (fun e => e.1 = 1073741823 / 64) = none ∧ ((oneVault {}).vault 0).mb = []
    ∧ NoTableLost (oneVault {}) 0 := by
  unfold Open NoTableLost; decide
theorem test_meets_VaultWritesReachTheArray_read :
    Open (oneVault { wq := [(1, List.replicate 64 7)] }) 0 64
    ∧ ((oneVault { wq := [(1, List.replicate 64 7)] }).vault 0).wq.find? (fun e => e.1 = 64 / 64) = some (64 / 64, List.replicate 64 7)
    ∧ (∀ e ∈ ((oneVault { wq := [(1, List.replicate 64 7)] }).vault 0).mb, e.line ≠ 64 / 64)
    ∧ NoTableLost (oneVault { wq := [(1, List.replicate 64 7)] }) 0 := by
  unfold Open NoTableLost; decide
theorem test_meets_VaultWritesReachTheArray_write :
    Open (oneVault { valid := [0] }) 0 64 ∧ (oneVault { valid := [0] }).vaultOf 0 = some 0 ∧ ((oneVault { valid := [0] }).vault 0).isValid 0 = true
    ∧ (oneVault { valid := [0] }).abs.migs = [] ∧ (oneVault { valid := [0] }).snap = none ∧ ((oneVault { valid := [0] }).vault 0).role = .logical
    ∧ ((oneVault { valid := [0] }).vault 0).wq.length + 1 < (oneVault { valid := [0] }).fld pgVlt 0 0 rVltCfg 6 0
    ∧ ((oneVault { valid := [0] }).vault 0).mb.length < 64
    ∧ ((oneVault { valid := [0] }).vault 0).mb.find? (fun e => e.line = 64 / 64) = none
    ∧ (oneVault { valid := [0] }).vaultOf ((oneVault { valid := [0] }).vault 0).logical = some 0 := by
  unfold Open; decide
theorem test_meets_VaultWritesReachTheArray_queue :
    ((oneVault { wq := [(1, List.replicate 64 7)] }).vault 0).wq = [(1, List.replicate 64 7)]
    ∧ ((oneVault { wq := [(1, List.replicate 64 7)] }).vault 0).filling = []
    ∧ ((oneVault { wq := [(1, List.replicate 64 7)] }).vault 0).rewrites = [] ∧ NoTableLost (oneVault { wq := [(1, List.replicate 64 7)] }) 0
    ∧ ((oneVault {}).vault 0).isValid 262143 = false ∧ ((oneVault {}).vault 0).mode = .memory := by unfold NoTableLost; decide
/-- A merge-buffer entry of line 1, and the clean line behind it. -/
def merging : Vault := { valid := [0], mb := [⟨1, [some 5], false, false⟩] }
theorem test_meets_VaultWritesReachTheArray_evict :
    ((oneVault merging).vault 0).wq.find? (fun y => y.1 = 1) = none ∧ ((oneVault merging).vault 0).flags.contains 1 = false
    ∧ ((oneVault merging).vault 0).wq.length + 1 < (oneVault merging).fld pgVlt 0 0 rVltCfg 6 0 ∧ NoTableLost (oneVault merging) 0 := by
  unfold NoTableLost; decide
theorem test_meets_VaultWritesReachTheArray_line :
    ((oneVault { valid := [0], mb := [⟨1, [some 5], false, false⟩] }).vault 0).mb.find? (fun x => x.line = 1) = some ⟨1, [some 5], false, false⟩
    ∧ ((oneVault { valid := [0] }).vault 0).isValid (1 / 64) = true
    ∧ lineDecode (noisy (((oneVault { valid := [0], mb := [⟨1, [some 5], false, false⟩] }).vault 0).stored 1) 0#576) = .clean (List.replicate 64 0) :=
  ⟨rfl, rfl, by rw [show ((oneVault { valid := [0], mb := [⟨1, [some 5], false, false⟩] }).vault 0).stored 1 = zeroLine from rfl, test_noisy_none,
    test_zeroLine_clean]⟩
theorem test_meets_VaultsAreMaintained_refresh :
    Quiet (oneVault {}) 0 ∧ ((oneVault {}).vault 0).run = none ∧ ((oneVault {}).vault 0).mode ≠ .retention
    ∧ ((oneVault { mode := .bankCompute, run := some reading }).vault 0).mode ≠ .retention ∧ unit3 ∈ reading.units ∧ unit3.bank = 3
    ∧ 64 / 2048 % 128 = 0 ∧ ((oneVault { guests := [.line 64] }).vault 0).guests = [.line 64]
    ∧ smGet 0 ((oneVault { guests := [.line 64] }).vault 0).debt 0 < 8 := by unfold Quiet; decide
/-- The scrubber is at its last line pair but one. -/
def scrubbing : State := oneVault { valid := [262143], scrub := 8388606 }
theorem test_meets_VaultsAreMaintained_patrol :
    ((scrubbing.vault 0).mode = .memory ∧ (scrubbing.vault 0).role = .logical ∧ (scrubbing.vault 0).flags = []
      ∧ (scrubbing.vault 0).remapBad = [] ∧ NoTableLost scrubbing 0) ∧ scrubbing.fld pgVlt 0 0 rVltScrubCfg 31 31 = 1 ∧ (scrubbing.vault 0).isValid (8388606 / 32) = true
    ∧ lineDecode (noisy ((scrubbing.vault 0).stored (2 * 8388606)) 0#576) = .clean (List.replicate 64 0)
    ∧ lineDecode (noisy ((scrubbing.vault 0).stored (2 * 8388606 + 1)) 0#576) = .clean (List.replicate 64 0) :=
  ⟨by unfold NoTableLost; decide, by decide, by decide, by rw [show (scrubbing.vault 0).stored (2 * 8388606) = zeroLine from rfl, test_noisy_none, test_zeroLine_clean],
    by rw [show (scrubbing.vault 0).stored (2 * 8388606 + 1) = zeroLine from rfl, test_noisy_none, test_zeroLine_clean]⟩
theorem test_zeroLine_encoded : (lineEncode (List.replicate 64 0)).take 72 = zeroLine := by decide +kernel
theorem test_meets_VaultsAreMaintained_verify :
    ((oneVault { rewrites := [(1, List.replicate 64 0)] }).vault 0).rewrites.find? (fun e => e.1 = 1) = some (1, List.replicate 64 0)
    ∧ lineDecode (noisy ((lineEncode (List.replicate 64 0)).take 72) 0#576) = .clean (List.replicate 64 0) :=
  ⟨by decide, by rw [test_zeroLine_encoded, test_noisy_none, test_zeroLine_clean]⟩
/-- Row segment 5 waits for a spare row. -/
def sparing : State := oneVault { toSpare := [5] }
theorem test_meets_VaultsAreMaintained_spare :
    (sparing.vault 0).toSpare = [5] ∧ (sparing.vault 0).freeSpare (5 % 128) = some 0 ∧ (sparing.vault 0).flags = [] ∧ (sparing.vault 0).remap = []
    ∧ ∀ l ∈ segLines 5, lineDecode ((sparing.vault 0).stored l) = .clean (List.replicate 64 0) :=
  ⟨rfl, by decide, rfl, rfl, fun l _ => by
    rw [show (sparing.vault 0).stored l = zeroLine from by
      show (List.range 72).map (fun i => memByte [] ((sparing.vault 0).physLine l * 72 + i)) = zeroLine
      exact List.map_const' .., test_zeroLine_clean]⟩
/-- A PATTERN region of one granule of vault 0, whose golden copy is 4 KiB of zeros in core 0's stockroom, with page hash h. -/
def goldenRegion (h : List Byte) : Region := ⟨0, 0, 0, false, 0, 0, 1, 0, 4096, 0, [h], []⟩
def patternLost (h : List Byte) : State :=
  { oneVault { lostLines := [(1, 2)] } with parts := [(0, { st := .serving, cores := [0], patterns := [⟨0, false, false, 0, [], [goldenRegion h], []⟩] })] }
theorem test_meets_VaultsAreMaintained_restore (h : List Byte) :
    (∃ e ∈ ((patternLost h).vault 0).lostLines, e.1 / 64 = 0 ∧ e.2 = 2)
    ∧ (patternLost h).regionAt ((patternLost h).vault 0).logical (0 * 4096) = some (goldenRegion h)
    ∧ ((patternLost h).vault 0).mb = [] ∧ ((patternLost h).vault 0).held = [] ∧ ((patternLost h).vault 0).remap = [] :=
  ⟨⟨(1, 2), List.mem_singleton.mpr rfl, rfl, rfl⟩, rfl, rfl, rfl, rfl⟩
theorem test_meets_VaultsAreMaintained_golden (h : List Byte) (hh : sha256 (List.replicate 4096 0) = h) :
    (patternLost h).goldenPage 0 (goldenRegion h) 0 = (patternLost h, some (List.replicate 4096 0)) := by
  have e : (patternLost h).readLoc ((locOf 0 (goldenRegion h).golden).plus (0 * 65536)) (min 65536 ((goldenRegion h).len - 0 * 65536))
      = (patternLost h, some (List.replicate 4096 0)) := by
    have : (List.range 4096).map (fun i => memByte [] ((0 + i) % 2097152)) = List.replicate 4096 (0 : Byte) :=
      List.map_const' ..
    rw [show (locOf 0 (goldenRegion h).golden).plus (0 * 65536) = .stock 0 0 from (by decide : (locOf 0 0).plus 0 = .stock 0 0),
      show min 65536 ((goldenRegion h).len - 0 * 65536) = 4096 from (by decide : min 65536 (4096 - 0 * 65536) = 4096)]
    show (if (patternLost h).stockLost 0 0 4096 = true then ((patternLost h).sramUe 0 0, none)
      else (patternLost h, some ((patternLost h).stockBytes 0 0 4096))) = _
    rw [if_neg (show ¬ (patternLost h).stockLost 0 0 4096 = true from Bool.noConfusion)]
    exact congrArg (fun b => (patternLost h, some b)) this
  unfold State.goldenPage
  simp only [e]
  exact if_pos hh
theorem test_meets_VaultsAreMaintained_stockroom :
    ((oneVault {}).core 0).stockPtr < 32768 ∧ ((oneVault {}).core 0).stockBad = [] := by decide

/-! ### The fabric, the mesh and the die-to-die link -/

/-- Port 0 in a state, of a device that is in no guild. -/
def port0 (p : FPort) : State := { fab := { ports := [p, {}, {}, {}, {}, {}, {}, {}] } }
theorem test_meets_PortsTrainAndFail :
    (port0 { st := .up }).fab.isMember = false ∧ (port0 { st := .up }).fab.waiting = [] ∧ ((port0 { st := .up }).fport 0).st ≠ .down
    ∧ ((port0 { st := .up }).fport 0).replay = [] ∧ ((port0 { st := .ringLock }).fport 0).st = .ringLock
    ∧ ((port0 { st := .ringLock }).fport 0).cold = false ∧ ((port0 { st := .align }).fport 0).st = .align
    ∧ smFind (port0 { st := .align }).boot.chart 0 = none := by decide
/-- The same with the port enabled. -/
def enabled0 (p : FPort) : State := { port0 p with regs := [(regKey pgFabp 0 0 rFabpCfg, 1)] }
theorem test_meets_PortsTrainAndFail_enabled :
    ((enabled0 { st := .laserWait }).fport 0).st = .laserWait ∧ (enabled0 { st := .laserWait }).portTrains 0 = true
    ∧ ((enabled0 { st := .failed }).fport 0).st = .failed ∧ (enabled0 { st := .failed }).portTrains 0 = true := by decide
/-- A frame's first 616 bytes without messages; its word 3 makes the CRC 0. -/
def plainBody : List Byte := List.replicate 12 0 ++ [0xB7, 0x9D, 0x57, 0xFA] ++ List.replicate 600 0
theorem test_meets_FramesAndRoutes_frame :
    (port0 { st := .up }).portUp 0 = true ∧ ((port0 { st := .up }).fport 0).symErr = [] ∧ ((port0 { st := .up }).fport 0).rxSeq = 0
    ∧ bits (frameWord plainBody 0) 11 0 = 0 ∧ bit (frameWord plainBody 0) 12 = false
    ∧ bit (frameWord plainBody 0) 27 = false ∧ areaMsgs 38 (plainBody.drop 16) = []
    ∧ ((port0 { st := .up }).fport 0).bad < 63
    ∧ ((port0 { st := .up }).fport 0).naks + 1 ≤ (port0 { st := .up }).fld pgFabp 0 0 rFabpCfg 31 24 := by decide
/-- A frame without messages, sealed: it opens; and a frame of zeros, whose CRC is wrong: it does not. -/
def idleFrame : BitVec 5120 := BitVec.ofNat 5120 (0xFA579DB7 <<< 96 + 1377118769530178706909400658485497992507177418418 <<< 4960)
theorem test_meets_FramesAndRoutes_opens : frameOpen idleFrame = some (plainBody, []) := by decide +kernel
theorem test_meets_FramesAndRoutes_lost : frameOpen 0 = none := by decide +kernel
/-- LINK_STATE of device 1, to device 2. -/
def linkMsg : FMsg := ⟨0x0B, 2, 1, 0, 0, false, 1 + 0x3F <<< 6 + 5 <<< 14, []⟩
theorem test_meets_FramesAndRoutes_link :
    member.isMine linkMsg = true ∧ bits linkMsg.info 5 0 ≠ member.fab.device ∧ (smFind member.fab.members (bits linkMsg.info 5 0)).isSome
    ∧ smFind member.fab.links (bits linkMsg.info 5 0) = none ∧ member.fab.waiting = [] := by decide

/-- A flit of a class on its way to router 7, and a mesh that holds such flits at router 5 and at router 7. -/
def flitOf (cls : Nat) : MFlit := ⟨7, cls, true, true, List.replicate 64 1, 0⟩
def meshed (l : List MFlit) : State :=
  { meshA := { bufs := [(bufKey 5 0 0, l), (bufKey 5 0 2, l.filter (fun f => f.cls = 2)), (bufKey 7 1 0, l)] } }
theorem test_meets_MeshAndDieToDieLinks_inject :
    (meshed []).meshRuns 0 = true ∧ (((meshed []).mesh 0).buf 5 0 (flitOf 0).cls).length < 4
    ∧ smGet 0 ((meshed []).mesh 0).replays (5 * 144 + 5) ≠ 15 ∧ 4 ≤ (((meshed (List.replicate 4 (flitOf 0))).mesh 0).buf 5 0 (flitOf 0).cls).length := by
  decide
theorem test_meets_MeshAndDieToDieLinks_free : TileUnregulated (meshed []) (144 * 0 + 5) := fun p _ => unregulated_of (by decide) p
/-- Core 0's bucket is empty, and fills at 0.1 GB/s. -/
def noTokens : State :=
  { oneOrder 0 with regs := [(regKey pgMesh 0 0 rMeshReg, 0x10001)], gates := [((Gate.mesh 0 0).key, (1024, 0))] }
theorem test_meets_MeshAndDieToDieLinks_closed : noTokens.gatesOpen (noTokens.injectCost 0 0 (flitOf 0)) = false ∧ noTokens.meshRuns 0 = true := by decide
theorem test_meets_MeshAndDieToDieLinks_pick :
    ((meshed [flitOf 0]).mesh 0).pick 0 5 6 = some 0 ∧ ((meshed [flitOf 0]).mesh 0).buf 5 (0 / 4) (0 % 4) = [flitOf 0]
    ∧ smGet 0 ((meshed [flitOf 0]).mesh 0).replays (5 * 144 + 6) ≠ 15
    ∧ ((meshed [flitOf 0]).mesh 0).pick 0 7 7 = some 4 ∧ ((meshed [flitOf 0]).mesh 0).buf 7 (4 / 4) (4 % 4) = [flitOf 0]
    ∧ (meshed [flitOf 0]).sitePart (144 * 0 + 7) = none := by decide
/-- A flit for router 7 of half B at the attach router of its flow's module. -/
def crossing : State := { meshA := { bufs := [(bufKey 11 1 0, [{ flitOf 0 with dst := 151, flow := 16 }])] } }
theorem test_meets_MeshAndDieToDieLinks_cross :
    (crossing.mesh 0).pick 0 11 11 = some 4 ∧ (crossing.mesh 0).buf 11 (4 / 4) (4 % 4) = [{ flitOf 0 with dst := 151, flow := 16 }]
    ∧ siteHalf 151 ≠ 0 ∧ crossing.abs.fence = none ∧ crossing.d2d.length = 16 ∧ crossing.flowMod 0 16 < 16
    ∧ (crossing.mod (crossing.flowMod 0 16)).replay.length = 2 ∧ crossing.meshRuns 0 = true := by decide
/-- The corners of the attach table: module 0 at rank 1, module 15 at rank 12, both on file l (R338). -/
theorem test_attach : attachRouter 0 = 11 ∧ attachRouter 15 = 143 := by decide
theorem test_meets_MeshAndDieToDieLinks_first : 2 ∈ ((meshed [flitOf 2]).mesh 0).ready 0 5 6 ∧ 0 ∈ ((meshed [flitOf 2]).mesh 0).ready 0 5 6 := by decide
theorem test_meets_MeshAndDieToDieLinks_packet :
    TileUnregulated ({} : State) (144 * 1 + 5 % 144) ∧ siteHalf 287 = 1 ∧ ({} : State).sitePart 287 = none ∧ ({} : State).meshRuns 1 = true :=
  ⟨fun p _ => unregulated_of (by decide) p, by decide⟩
/-- Half B is fenced. -/
def fencedB : State := { abs := { fence := some ⟨1, 0, 0, false, false, [], [], []⟩ } }
theorem test_meets_MeshAndDieToDieLinks_held :
    fencedB.abs.fence.map (·.half) = some (1 - 0) ∧ fencedB.abs.fence.map (·.escalated) = some false ∧ siteHalf 144 = 1 - 0
    ∧ fencedB.meshRuns 0 = true := by decide
/-- A die-to-die flit of zeros with its CRC. -/
def emptyFlit : BitVec 2048 := BitVec.ofNat 2048 (0xA66359F1 <<< 2016)
theorem test_meets_MeshAndDieToDieLinks_flit :
    (({} : State).mod 15).rx.length = 2
    ∧ (let a := leNat (((leBytes 256 emptyFlit.toNat).drop 2).take 2); bit a 10 = false ∧ bit a 11 = false ∧ bit a 12 = false) := by decide +kernel
theorem test_meets_MeshAndDieToDieLinks_sequence : FlitInSequence {} 15 1 emptyFlit := by
  have b : leBytes 256 emptyFlit.toNat = List.replicate 252 0 ++ [0xF1, 0x59, 0x63, 0xA6] := by decide +kernel
  unfold FlitInSequence
  simp only [b]
  decide +kernel
theorem test_meets_MeshAndDieToDieLinks_silence :
    ({} : State).upMods.filter (fun m => (0x8000#16).getLsbD m) = [15] ∧ [15] ≠ ({} : State).upMods := by decide
/-- Module 3 has been disabled for longer than its hold. -/
def modDown : State := { timeUs := 100000000, d2d := (List.replicate 16 {}).set 3 { st := .disabled } }
theorem test_meets_MeshAndDieToDieLinks_retrain :
    (modDown.mod 3).st = .disabled ∧ modDown.timeUs ≥ (modDown.mod 3).since + 100000 * modDown.fld pgD2d 0 0 rD2dCfg 15 8
    ∧ modDown.abs.fence = none ∧ modDown.boot.d2dFused.testBit 3 = false ∧ modDown.boot.d2dTest.testBit 3 = false := by decide

/-- Device 2 of the guild, with vault 0 behind logical vault 0. -/
def memberVault (v : Vault) : State := { member with vaults := [(0, { v with role := .logical })] }
/-- PUT of one line at offset 0, the transfer's last message, to counter 1 of core 3. -/
def putMsg : FMsg := ⟨0x01, 2, 0, 0, 0, false, 7 <<< 48, List.replicate 64 (9 : Byte) ++ leBytes 8 (1 <<< 29 + 1 <<< 35 + 3 <<< 36 + 1 <<< 44)⟩
theorem test_meets_FabricMessagesTakeEffect_put :
    Accepts (memberVault { valid := [0] }) putMsg ∧ NearLine (memberVault { valid := [0] }) (putOff putMsg) 0 0 0 ∧ putMsg.data.length = 72
    ∧ (memberVault { valid := [0] }).snap = none ∧ ((memberVault { valid := [0] }).vault 0).isValid (0 / 64) = true
    ∧ ((memberVault { valid := [0] }).vault 0).wq.length + 1 < (memberVault { valid := [0] }).fld pgVlt 0 0 rVltCfg 6 0 := by
  unfold Accepts NearLine; decide
theorem test_meets_FabricMessagesTakeEffect_tail :
    bits (putTail putMsg) 9 0 = 0 ∧ bits (putTail putMsg) 28 10 = 0 ∧ bit (putTail putMsg) 35 = true ∧ putIdx putMsg = 0
    ∧ member.fab.ins = [] ∧ member.fab.tags = [] := by decide
/-- GET_REQ of 64 bytes at offset 0, and its data in the write queue. -/
def getMsg : FMsg := ⟨0x02, 2, 0, 0, 0, false, 5 <<< 38, leBytes 8 64⟩
theorem test_meets_FabricMessagesTakeEffect_get :
    Accepts (memberVault { valid := [0], wq := [(0, List.replicate 64 9)] }) getMsg ∧ NearLine (memberVault { valid := [0], wq := [(0, List.replicate 64 9)] }) 0 0 0 0
    ∧ bits getMsg.info 37 0 = 0 ∧ bits (leNat getMsg.data) 19 0 = 64
    ∧ ((memberVault { valid := [0], wq := [(0, List.replicate 64 9)] }).vault 0).wq.find? (fun e => e.1 = 0) = some (0, List.replicate 64 9)
    ∧ (∀ e ∈ ((memberVault { valid := [0], wq := [(0, List.replicate 64 9)] }).vault 0).mb, e.line ≠ 0)
    ∧ (memberVault { valid := [0], wq := [(0, List.replicate 64 9)] }).snap = none
    ∧ ((memberVault { valid := [0], wq := [(0, List.replicate 64 9)] }).vault 0).isValid (0 / 64) = true := by
  unfold Accepts NearLine; decide
/-- An open GET of 576 bytes from device 0 into core 0's stockroom at 64, and its answer. -/
def getFlight : Flight := ⟨4, 0, 0, ordOf [(0, 0x01), (4, 0), (5, 0x70000000), (6, 64), (8, 576)], 0x01, false, 0, false, false, [], [], []⟩
def openGet : XferOut := ⟨9, .get, 0, 0, 0, 4, [], 0, 0, 576, [], false⟩
def getting : State := { member with cores := [(0, { flights := [getFlight] })], fab := { member.fab with outs := [openGet] } }
def rspMsg : FMsg := ⟨0x03, 2, 0, 0, 0, false, 1 + 9 <<< 20, List.replicate 576 5⟩
theorem test_meets_FabricMessagesTakeEffect_rsp :
    Accepts getting rspMsg ∧ getting.getOf rspMsg = some openGet ∧ getting.getPlace openGet rspMsg = some (.stock 0 64)
    ∧ bits rspMsg.info 9 0 ≥ 1 ∧ bits rspMsg.info 19 10 = 0 ∧ rspMsg.data.length = 576 ∧ ∀ y ∈ getting.fab.outs, y.id = openGet.id → y = openGet := by
  unfold Accepts; decide
/-- Device 2 with core 0 running in a SERVING partition, and a MSG of 8 bytes to its stockroom, the last of its transfer. -/
def memberCore : State := { oneOrder 0x58 with fab := member.fab }
def msgMsg : FMsg := ⟨0x05, 2, 0, 0, 0, false, 1 <<< 8 + 1 <<< 14, leBytes 8 64 ++ List.replicate 8 5⟩
theorem test_meets_FabricMessagesTakeEffect_msg :
    Accepts memberCore msgMsg ∧ memberCore.partOfCore (bits msgMsg.info 7 0) = some 0 ∧ memberCore.coreActive 0 = true
    ∧ (memberCore.part 0).st = .serving ∧ memberCore.abs.fence = none ∧ msgMsg.data.length = 16 ∧ bit msgMsg.info 14 = true := by
  unfold Accepts; decide
/-- An open PUT of core 0, and the ACK that reports lost data or none. -/
def openPut : XferOut := ⟨9, .put, 0, 0, 0, 4, [putMsg], 0, 0, 0, [], false⟩
def putting (fl : List Flight) : State := { member with cores := [(0, { flights := fl })], fab := { member.fab with outs := [openPut] } }
def ackMsg (lost : Nat) : FMsg := ⟨0x04, 2, 0, 0, 0, false, 9 + lost <<< 13, []⟩
theorem test_meets_FabricMessagesTakeEffect_ack :
    Accepts (putting [getFlight]) (ackMsg 1) ∧ (putting [getFlight]).fab.outs.find? (fun t => t.id = 9 && t.guild = 0 && t.dev = 0) = some openPut
    ∧ bit (ackMsg 1).info 13 = true ∧ bit (ackMsg 1).info 15 = false ∧ ((putting [getFlight]).core 0).flight 4 = some getFlight
    ∧ statusJoin getFlight.status 4 = 4 ∧ bit (ackMsg 0).info 13 = false ∧ ((putting []).core 0).flight 4 = none := by
  unfold Accepts; decide
theorem test_meets_FabricMessagesTakeEffect_ack_guild :
    (let d := spaceOf (xferOf 0 0x02 (ordOf [(0, 0x02), (4, 0), (6, 64), (7, 0x70000000), (8, 576)])).dst; d = 7 ∨ d = 8)
    ∧ openPut.kind ≠ .get ∧ openPut.kind ≠ .mirror := by decide
/-- A market message toward a guild to which no link leads. -/
def cutOff : XferOut := { openPut with guild := 1, kind := .msg }
theorem test_meets_FabricMessagesTakeEffect_cut :
    ({ putting [] with fab := { (putting []).fab with outs := [cutOff] } }).fab.outs.find? (fun t => t.id = 9) = some cutOff
    ∧ cutOff.fenced = false ∧ cutOff.kind ≠ .mirror ∧ cutOff.guild ≠ (putting []).fab.guild
    ∧ ({ putting [] with fab := { (putting []).fab with outs := [cutOff] } }).marketLink cutOff.guild = none := by decide
theorem test_meets_FabricMessagesTakeEffect_timeout :
    (putting []).fab.outs.find? (fun t => t.id = 9) = some openPut ∧ openPut.fenced = false ∧ openPut.resends < 3
    ∧ (putting []).unreachable 0 0 = false ∧ openPut.guild = (putting []).fab.guild := by decide

/-- HEARTBEAT of term 1 from device 0, which names itself master. -/
theorem test_meets_MastersSnapshotsAndMirrors_heartbeat :
    Accepts member ⟨0x09, 2, 0, 0, 0, false, 1, []⟩ ∧ bits 1 31 0 > member.fab.term ∧ member.isMaster = false := by
  unfold Accepts; decide
/-- Device 2 as master; and device 2 as the first reachable successor of device 0. -/
def master : State := { member with fab := { member.fab with master := 2 } }
def orphan : State := { member with fab := { member.fab with members := [(0, 9), (2, 7)], routes := [(0, (none, none))] } }
theorem test_orphan_succession : orphan.succession = [0, 2] := by
  show 0 :: (([(2, 7)] : List (Nat × Nat)).mergeSort (fun a b => decide (a.2 ≤ b.2))).map (·.1) = [0, 2]
  rw [List.mergeSort_singleton]
  rfl
theorem test_meets_MastersSnapshotsAndMirrors_masters :
    master.isMaster = true ∧ orphan.isMaster = false
    ∧ (let i := (orphan.succession.findIdx? (· = orphan.fab.master)).getD 0;
       (orphan.succession.drop (i + 1) ++ orphan.succession.take i).find? (fun d => orphan.reachable d) = some 2) := by
  rw [test_orphan_succession]
  decide
/-- A snapshot with one granule left. -/
def snapping : State := { snap := some ⟨1, 0, 0, [5], [], 0, []⟩ }
theorem test_meets_MastersSnapshotsAndMirrors_snapshot :
    snapping.snap.map (·.uncopied) = some [5] ∧ snapping.fencedHalf = none := by decide
/-- Partition 0 takes mirrors of partition 3 of device 0, in far port 0 from 0 on; the record of stream 5 lives and has one history page. -/
def mirroring : State :=
  { member with
    regs := [(regKey pgStw 0 0 rStwMirrorIn, 0x80000300), (regKey pgFore 0 0 rForeStreamQuota, 0)]
    abs := { mirLive := [(0, [5])] }
    far := [{ mem := memSetBytes [] (5 * 2048 + 256) [1] }, {}, {}, {}] }
def mirrorMsg (data : List Byte) : FMsg := ⟨0x0D, 2, 0, 0, 0, false, 5 + 9 <<< 47, data⟩
/-- A roll entry in partition 3, of epoch 1. -/
def mirrorImage : List Byte := leBytes 4 (3 + 3 <<< 7) ++ List.replicate 96 0 ++ leBytes 4 1 ++ List.replicate 152 0
theorem test_meets_MastersSnapshotsAndMirrors_entry :
    Accepts mirroring (mirrorMsg mirrorImage) ∧ (mirroring.mirrorIns 0).find? (fun x => x.2 = bits (leNat (mirrorImage.take 4)) 12 7) = some (0, 3)
    ∧ mirroring.isAdopted 0 3 = false ∧ mirrorImage.length = 256
    ∧ (let a := mirroring.mirrorRec 0 5;
       epochAhead (leNat (((mirrorImage.take 256).drop 100).take 4)) (leNat (((mirroring.farBytes a.1 a.2 260).drop 100).take 4)) = true) := by
  unfold Accepts; decide
theorem test_meets_MastersSnapshotsAndMirrors_tokens :
    mirroring.mirrorOf (mirrorMsg [1, 2, 3, 4]) = some (0, 3) ∧ mirStream (mirrorMsg []) = 5 ∧ mirFirst (mirrorMsg []) = 0
    ∧ (let a := mirroring.mirrorRec 0 5; a = (0, 10240) ∧ 0 / 16384 < ceilDiv (bits (leNat (mirroring.farBytes a.1 (a.2 + 256) 4)) 22 0) 16384)
    ∧ (let t := mirroring.poolTok 0 (mirroring.mirrorHist 0 5) 0; t.2 + 4 ≤ 1099511627776 ∧ 10240 + 260 ≤ t.2) := by decide
/-- DEVICE_LOST of device 1, whole. -/
def lostMsg : FMsg := ⟨0x0E, 2, 0, 0, 0, false, 1 + 1 <<< 6, []⟩
theorem test_meets_MastersSnapshotsAndMirrors_lost :
    Accepts member lostMsg ∧ bits lostMsg.info 44 13 ≥ member.fab.term ∧ bit lostMsg.info 6 = true ∧ bits lostMsg.info 5 0 ≠ member.fab.device
    ∧ (∀ p < 64, member.fld pgStw 0 p rStwMirrorOut 31 31 = 0) ∧ member.mirrorIns 1 = [] := by
  unfold Accepts; decide
def orphanMaster : State := { master with fab := { master.fab with routes := [(1, (none, none))] } }
theorem test_meets_MastersSnapshotsAndMirrors_hold :
    orphanMaster.isMaster = true ∧ 1 ≠ orphanMaster.fab.device ∧ (smFind orphanMaster.fab.members 1).isSome ∧ orphanMaster.reachable 1 = false := by decide
/-- The mirrored stream 5 ran, and partition 0 may hold no stream. -/
def adopting : State :=
  { mirroring with far := [{ mem := memSetBytes [] (5 * 2048) mirrorImage }, {}, {}, {}], abs := { adoptWait := [(0, 5, 0, 1000)] } }
theorem test_meets_MastersSnapshotsAndMirrors_adopt :
    adopting.abs.adoptWait = [(0, 5, 0, 1000)] ∧ adopting.adoptOne 0 5 0 = (adopting, false) := by decide +kernel

/-! ### The host link and the far ports -/

/-- A READY device with its link up and vault 0 as given. -/
def hosted (v : Vault := {}) : State := { oneVault v with boot := { state := .ready }, host := { perst := false, width := 16, rate := 5 } }
theorem test_meets_TheHostLinkAnswersTrainsAndFails_config : hosted.hostUp = true := by decide
theorem test_meets_TheHostLinkAnswersTrainsAndFails_read :
    Awake (hosted { wq := [(0, List.replicate 64 9)] }) ∧ NearLine (hosted { wq := [(0, List.replicate 64 9)] }) 0 0 0 0
    ∧ (hosted { wq := [(0, List.replicate 64 9)] }).writesSeen 0 = true
    ∧ (∀ e ∈ ((hosted { wq := [(0, List.replicate 64 9)] }).vault 0).mb, e.line ≠ 0)
    ∧ ((hosted { wq := [(0, List.replicate 64 9)] }).vault 0).wq.find? (fun e => e.1 = 0) = some (0, List.replicate 64 9) := by
  unfold Awake NearLine; decide
theorem test_meets_TheHostLinkAnswersTrainsAndFails_write :
    Awake (hosted { valid := [0] }) ∧ NearLine (hosted { valid := [0] }) 0 0 0 0 ∧ ((hosted { valid := [0] }).vault 0).isValid (0 / 64) = true
    ∧ ((hosted { valid := [0] }).vault 0).role = .logical ∧ ((hosted { valid := [0] }).vault 0).logical = 0
    ∧ (hosted { valid := [0] }).snap = none
    ∧ ((hosted { valid := [0] }).vault 0).wq.length + 1 < (hosted { valid := [0] }).fld pgVlt 0 0 rVltCfg 6 0 := by
  unfold Awake NearLine; decide
theorem test_meets_TheHostLinkAnswersTrainsAndFails_hold :
    ({ host := { reads := [(0, 7, 0, 0, 64, 0)] } } : State).host.reads.any (fun r => r.1 = 0 && r.2.1 = 7) = true := by decide
/-- The LOAD of core 1 that reads the host and whose read has been issued again. -/
def readAgain : State :=
  { cores := [(1, { flights := [⟨4, 0, 0, 0x01, 0x01, false, 0, true, false, [], [], []⟩] })], host := { retried := [256 * (1 + 256 * 4)] } }
theorem test_meets_TheHostLinkAnswersTrainsAndFails_timeout :
    readAgain.host.retried.contains (4 * (0 % 64) + 256 * (1 + 256 * 4)) = true ∧ readAgain.host.retried.contains (4 * (1 % 64) + 256 * (1 + 256 * 4)) = false
    ∧ ((readAgain.core ((1 + 256 * 4) % 256)).flight ((1 + 256 * 4) / 256)).map (·.done) = some true := by decide
/-- Partitions 0 and 63 serve; the step of partition 0 runs. -/
def served : State :=
  { hosted with parts := [(0, { st := .serving, cores := [0], running := true }), (63, { st := .serving, cores := [1] })] }
theorem test_meets_TheHostLinkAnswersTrainsAndFails_train : served.boot.state ≠ .off ∧ served.boot.state ≠ .aon := by decide
theorem test_meets_TheHostLinkAnswersTrainsAndFails_loss :
    (served.part 63).st = .serving ∧ (served.part 63).running = false ∧ (served.part 0).st = .serving ∧ (served.part 0).running = true
    ∧ served.abs.migs = [] ∧ (served.part (64 - 1)).st ≠ .empty ∧ (served.part (64 - 1)).st ≠ .resetting := by decide
/-- Far port 3 is DOWN, and no ledger page is far. -/
def farDown : State := { far := [{}, {}, {}, { st := .down }] }
theorem test_meets_FarReadsFailOnlyTheirLines :
    NoFarPages farDown ∧ (farDown.farPort 3).st ≠ .up ∧ (farDown.farPort 3).st ≠ .upDegraded ∧ farDown.farWaiters 3 64 = []
    ∧ farDown.farClass 3 64 ≠ 2 := by
  unfold NoFarPages; decide
theorem test_meets_FarReadsFailOnlyTheirLines_down :
    ((({ far := [{}, {}, {}, { st := .up }] } : State)).farPort 3).st ≠ .absent ∧ ((({ far := [{}, {}, {}, { st := .up }] } : State)).farPort 3).st ≠ .down := by
  decide

/-! ### Power, heat and bring-up -/

/-- A device whose shed response is enabled to pin and message. -/
def sheds (p : Power) : State := { regs := [(regKey pgPwr 0 0 rPwrShed, 0xC0000000)], pwr := p }
theorem test_meets_ThePowerGovernorAndShedding_pin :
    ShedStaysHere (sheds {}) ∧ (sheds {}).fld pgPwr 0 0 rPwrShed 31 31 = 1 ∧ (sheds {}).pwr.pinShed = false ∧ (sheds {}).pwr.shedding = false
    ∧ ShedStaysHere (sheds { pinShed := true, shedding := true }) ∧ (sheds { pinShed := true, shedding := true }).pwr.pinShed = true
    ∧ (sheds { pinShed := true, shedding := true }).pwr.msgShed = 0 ∧ (sheds {}).boot.state ≠ .off ∧ (sheds {}).boot.state ≠ .aon
    ∧ ShedStaysHere { sheds {} with boot := { state := .aon } } ∧ ({ sheds {} with boot := { state := .aon } } : State).pwr.msgShed = 0 := by
  unfold ShedStaysHere; decide
/-- A SHED from the master with a sequence number and a level. -/
def shedMsg (q level : Nat) : FMsg := { fromMaster 1 with info := q * 65536 + level }
theorem test_meets_ThePowerGovernorAndShedding_shed :
    Accepts { member with regs := (sheds {}).regs } (shedMsg 32767 0) ∧ bits (shedMsg 32767 0).info 31 16 = 32767
    ∧ bits (shedMsg 1 349).info 15 0 = 349 ∧ (sheds {}).fld pgPwr 0 0 rPwrShed 30 30 = 1 := by unfold Accepts; decide

/-- Thermal protection is on, and partition 0 runs a step. -/
def hot : State :=
  { served with regs := [(regKey pgThm 0 0 rThmCfg, 0x80000000)], vaults := [(3, {})] }
theorem test_meets_HeatAdjournsAndResumes_coolant :
    ({ hot with regs := [] } : State).fld pgThm 0 0 rThmCfg 31 31 = 1 ∧ ({ hot with regs := [(regKey pgThm 0 0 rThmCfg, 0)] } : State).fld pgThm 0 0 rThmCfg 31 31 = 0
    ∧ hot.fld pgThm 0 0 rThmCfg 31 31 = 1 ∧ hot.boot.state = .ready ∧ hot.thm.phase = 0 ∧ (hot.part 0).running = true
    ∧ (hot.vault 3).watchman = none ∧ ({ thm := { coolant := true } } : State).thm.coolant = true := by decide
/-- Phase 1 is over for nobody yet; phase 2. -/
def inPhase (k : Nat) : State := { hot with thm := { phase := k } }
theorem test_meets_HeatAdjournsAndResumes_phases :
    (inPhase 1).thm.phase = 1 ∧ (inPhase 1).fab.isMember = false ∧ (inPhase 1).fencedHalf = none ∧ (inPhase 2).thm.phase = 2 := by decide
/-- ADJOURNED, sealed, cool and held long enough. -/
def cooled : State :=
  { timeUs := 300000000, thm := { phase := 3, sealA := some (({} : State).sealOf 0), sealB := some (({} : State).sealOf 1), sealedOk := true }
    boot := { state := .adjourned, prior := .degraded } }
theorem test_meets_HeatAdjournsAndResumes_resume :
    cooled.boot.state = .adjourned ∧ cooled.resumeOk = true ∧ cooled.thm.sealA.isSome = true ∧ cooled.thm.sealB.isSome = true
    ∧ cooled.boot.prior = .degraded := by decide
theorem test_meets_HeatAdjournsAndResumes_round : hot.thm.resetHeld = false ∧ hot.boot.resetRequested = false
    ∧ ({ thm := { resetHeld := true } } : State).thm.resetHeld = true := by decide
/-- The bounds of R195's bands and R194's 4 °C: 85 °C and 85 °C + 1/16; 91 °C and 91 °C + 1/16 at band 2. -/
theorem test_bands : nextBand 0 1360 = 0 ∧ nextBand 0 1361 = 1 ∧ nextBand 0 1681 = 3 ∧ nextBand 2 1456 = 1 ∧ nextBand 2 1457 = 2 := by decide
theorem test_meets_HeatAdjournsAndResumes_rail :
    served.boot.rails.getD 0 false = true ∧ served.boot.rails.getD 5 false = true ∧ served.abs.fence = none := by decide

/-- The same sensors, all hot. -/
def tooHot : State := { thm := { hist := [List.replicate 352 2000] } }
theorem test_meets_ResetsLeaveWhatOutlivesThem : ({} : State).tooWarm = false ∧ tooHot.tooWarm = true ∧ member.tooWarm = false
    ∧ ({ boot := { state := .off } } : State).boot.state = .off ∧ ({ boot := { state := .aon } } : State).boot.state = .aon
    ∧ ({ boot := { state := .aon } } : State).thm.bringupHeld = false := by decide
theorem test_meets_ResetsLeaveWhatOutlivesThem_message : Accepts member (fromMaster 0) := by unfold Accepts; decide

theorem test_meets_BringUpMovesThroughItsStates_none :
    ({} : State).thm.bringupHeld = false ∧ ({} : State).boot.state = .boot ∧ ({} : State).resolveFuses.checkImages.sec.image = 2 := by decide
/-- In TRAINING; in CHECK. -/
def training : State := { boot := { state := .training, trained := [(0, 2), (304, 2), (290, 3)], seedsValid := true } }
theorem test_meets_BringUpMovesThroughItsStates_training :
    training.thm.bringupHeld = false ∧ training.boot.state = .training ∧ smGet 0 training.boot.trained 1 = 0 ∧ smGet 0 training.boot.trained 303 = 0
    ∧ smGet 0 training.boot.trained (289 + 1) ≠ 2 ∧ smGet 0 training.boot.trained (289 + 15) = 2 := by decide
def checking (b : Bool) : State := { boot := { state := .check, tested := b, named := 7, agreed := 1, miscabled := 2, trained := [(0, 2), (287, 2)] } }
theorem test_meets_BringUpMovesThroughItsStates_check :
    (checking false).boot.state = .check ∧ (checking false).boot.tested = false ∧ (checking true).boot.tested = true
    ∧ (checking true).thm.bringupHeld = false := by decide

/-! ### Castling and the loss of a half -/

/-- Core 0 runs at site 0 and site 5 is a spare; partition 0 serves. -/
def castling (a : Absorb) : State :=
  { parts := [(0, { st := .serving, cores := [0], running := false })]
    vaults := [(0, { role := .logical, logical := 0 }), (5, { role := .reserve })], abs := a
    boot := { state := .ready, coreSite := [(0, 0)], sites := [(0, { core := 0, valid := true }), (5, { core := 2, valid := true })] } }
theorem test_meets_CastlingMovesACore_begins :
    (castling { castWait := [⟨0, 0, false, false⟩] }).castDue 0 = some ⟨0, 0, false, false⟩
    ∧ (castling { castWait := [⟨0, 0, false, false⟩] }).castDest ⟨0, 0, false, false⟩ = (0, 5)
    ∧ (castling { castWait := [⟨0, 0, false, false⟩] }).atBoundary 0 = true
    ∧ (castling { castWait := [⟨0, 1, true, false⟩] }).castDue 0 = some ⟨0, 1, true, false⟩
    ∧ (castling { castWait := [⟨0, 1, true, false⟩] }).castDest ⟨0, 1, true, false⟩ = (0, 5) := by decide +kernel
/-- The castling of core 0 to the spare, copied and not switched. -/
def copied : State := castling { castA := some ⟨⟨0, 0, false, false⟩, 0, 0, 5, true, false⟩ }
theorem test_meets_CastlingMovesACore_switch :
    copied.castOf 0 = some ⟨⟨0, 0, false, false⟩, 0, 0, 5, true, false⟩ ∧ copied.abs.fence = none ∧ copied.abs.migs = []
    ∧ copied.vaultOf 0 = some 0 ∧ (0 : Nat) ≠ 5 := by decide
/-- A migration with two granules left, one of them valid. -/
def migrating : State :=
  { castling { migs := [⟨0, 0, 5, [0, 7], .reserve, [], false⟩] } with
    vaults := [(0, { role := .orphan, logical := 0, valid := [7] }), (5, { role := .logical, logical := 0 })] }
theorem test_meets_CastlingMovesACore_migrate :
    migrating.abs.fence = none ∧ migrating.abs.migs.find? (fun m => m.logical = 0) = some ⟨0, 0, 5, [0, 7], .reserve, [], false⟩
    ∧ (Migrate.mk 0 0 5 [0, 7] .reserve [] false).left.contains 7 = true
    ∧ (migrating.vault ((Migrate.mk 0 0 5 [0, 7] .reserve [] false).src 7)).isValid 7 = true := by decide
theorem test_meets_CastlingMovesACore_register :
    (castling {}).coreActive 1 = false ∧ (castling {}).coreActive 0 = true ∧ ((castling {}).castDest ⟨0, 1, true, false⟩).1 ≠ 3
    ∧ (castling {}).abs.castWait.any (fun q => q.logical = 0 && q.vault = false) = false
    ∧ (castling {}).partOfCore 0 = some 0 ∧ (castling {}).spans 0 = false ∧ ((castling {}).part 0).st ≠ .resetting := by decide +kernel

/-- Half B is lost and has come back as far as a stage. -/
def fenced (f : Fence) : State := { castling { fence := some f } with timeUs := 900 }
/-- The fence. -/
def fence (stage : Nat) (esc : Bool := false) : Fence := ⟨1, 100, stage, esc, false, [0], [], []⟩
theorem test_meets_ALostHalfRejoinsOrEscalates_stages :
    (fenced (fence 0)).atStage 1 = some (fence 0) ∧ (fenced (fence 1)).atStage 2 = some (fence 1) ∧ (fenced (fence 2)).atStage 3 = some (fence 2)
    ∧ (fenced (fence 3)).atStage 4 = some (fence 3) ∧ (fence 3).msgs = [] ∧ (fence 3).orders = [] ∧ (fenced (fence 3)).host.posted = []
    ∧ (fenced (fence 3)).host.reads = [] ∧ (fenced (fence 3)).abs.heldRecs = [] ∧ (fenced (fence 4)).atStage 5 = some (fence 4)
    ∧ (fenced (fence 5)).atStage 6 = some (fence 5) := by decide
theorem test_meets_ALostHalfRejoinsOrEscalates_vaults :
    200 ∈ halfVaults 1 ∧ (({ fenced (fence 2) with vaults := [(200, { role := .reserve })] } : State).vault 200).role ≠ .disabled := by decide
theorem test_meets_ALostHalfRejoinsOrEscalates_cores :
    0 ∈ (fence 4).parts ∧ 160 ∈ (({ fenced (fence 4) with parts := [(0, { cores := [0, 160] })] } : State).part 0).cores ∧ coreHalf 160 = (fence 4).half := by
  decide
theorem test_meets_ALostHalfRejoinsOrEscalates_escalated :
    (fenced (fence 2 true)).abs.fence = some (fence 2 true) ∧ (fence 2 true).escalated = true
    ∧ (3, 9, 0, 0, 64, 0) ∈ ({ fenced (fence 2) with host := { reads := [(3, 9, 0, 0, 64, 0)] } } : State).host.reads := by decide

/-! ### Security -/

/-- READY, host link up, with the security block as given. -/
def secured (x : Secure := {}) : State :=
  { boot := { state := .ready, idLoaded := true }, host := { perst := false, width := 16, rate := 5 }, sec := x }
theorem test_meets_SessionsOpenAndCommitsRaise_open :
    (secured { owner := some (List.replicate 32 7) }).transportUp 0 = true ∧ (secured { owner := some (List.replicate 32 7) }).transportUp 1 = true
    ∧ (secured { owner := some (List.replicate 32 7) }).sec.lockUntil ≤ (secured { owner := some (List.replicate 32 7) }).timeUs
    ∧ (secured { owner := some (List.replicate 32 7) }).sec.owner = some (List.replicate 32 7) ∧ (secured {}).sec.owner = none := by decide
/-- R as SEC_RESP0 to SEC_RESP7 hold it: what the owner key gives for PF1, or all zeros. -/
def withResp (s : State) (bs : List Byte) : State :=
  { s with regs := (List.range 8).map (fun n => (regKey pgSec 0 0 (rSecRespn + 4 * n), BitVec.ofNat 64 (leNat ((bs.drop (4 * n)).take 4)))) }
theorem test_meets_SessionsOpenAndCommitsRaise_response :
    (withResp (secured { owner := some (List.replicate 32 7) }) ((secured {}).sessionMac (List.replicate 32 7) 0)).respBytes
      = (withResp (secured { owner := some (List.replicate 32 7) }) ((secured {}).sessionMac (List.replicate 32 7) 0)).sessionMac (List.replicate 32 7) 0
    ∧ (secured { owner := some (List.replicate 32 7) }).respBytes ≠ (secured { owner := some (List.replicate 32 7) }).sessionMac (List.replicate 32 7) 0 := by
  decide +kernel
theorem test_meets_SessionsOpenAndCommitsRaise_idle :
    ({ secured {} with regs := [(regKey pgSec 0 0 rSecSession, 0x10000)] } : State).fld pgSec 0 0 rSecSession 31 16 ≠ 0 := by decide
theorem test_meets_SessionsOpenAndCommitsRaise_commit :
    transportOf 1 = some 0 ∧ transportOf 66 = some 1 ∧ (secured { pf1 := { opened := true }, runSvn := 64 }).transportUp 0 = true
    ∧ ((secured { pf1 := { opened := true }, runSvn := 64 }).session 0).opened = true ∧ ((secured {}).session 0).opened = false
    ∧ (secured {}).sec.svn.length = 4 ∧ (secured {}).svnOf 0 < 64 ∧ (secured {}).svnOf 3 < 1 ∧ (64 : Nat) ≤ (secured { runSvn := 64 }).sec.runSvn
    ∧ (secured {}).reg pgSec 0 0 hRefuse < 0xFFFFFFFF := by decide
theorem test_meets_TheResponderIdentifiesTheDevice_rom :
    (secured {}).boot.state = .ready ∧ (secured {}).sec.aliasReady = false
    ∧ ({ boot := { idLoaded := true }, sec := { image := 2 } } : State).romOnly = true ∧ ({ boot := { idLoaded := true } } : State).transportUp 1 = true := by
  decide
/-- A responder at a stage of its negotiation, with the requester's transfer size. -/
def spdmAt (x : Spdm) : State := secured { doe := x }
theorem test_meets_TheResponderIdentifiesTheDevice_version :
    Responds (spdmAt { stage := 1 }) 0 ∧ ((spdmAt { stage := 1 }).spdm 0).stage = 1 ∧ 42 ≤ reqNat (leBytes 16 (42 <<< 96)) 12 4
    ∧ ((spdmAt { stage := 2, peerSize := 44 }).spdm 0).stage = 2 ∧ 44 ≤ (spdmAt { stage := 2, peerSize := 44 }).spdmLimit 0 := by
  unfold Responds; decide
/-- At stage 3, with a certificate area whose public key is the device's, an alias certificate, and an algorithm selected. -/
def certified : State :=
  secured { doe := { stage := 3, algSel := true, alg := 0x80000000 }, aliasReady := true
            norA := { certs := [[1], [2], [3]], certKey := Config.slhPublic 0 (secured {}).identityKey } }
theorem test_meets_TheResponderIdentifiesTheDevice_chain :
    Responds certified 0 ∧ (certified.spdm 0).stage = 3 ∧ 36 ≤ certified.spdmLimit 0 ∧ bits (certified.spdm 0).alg 31 24 ≠ 0
    ∧ (certified.spdm 0).algSel = true ∧ certified.sec.aliasReady = true ∧ certified.signing = false ∧ 50 ≤ certified.spdmLimit 0
    ∧ reqByte [] 2 % 16 = 0 ∧ bit (reqByte [] 3) 0 = false := by unfold Responds; decide
theorem test_meets_TheResponderIdentifiesTheDevice_certificate :
    ∃ c, certified.certChain = some c ∧ reqNat [] 4 2 < c.length
      ∧ 8 + min (reqNat [] 6 2) (min (c.length - reqNat [] 4 2) 65528) ≤ certified.spdmLimit 0 := by
  have h : certified.sec.norA.certKey = Config.slhPublic 0 certified.identityKey := rfl
  have a : certified.sec.aliasReady = true := rfl
  have n : certified.sec.norA.certs = [[1], [2], [3]] := rfl
  refine ⟨leBytes 2 (36 + (certified.sec.norA.certs.flatten ++ certified.sec.aliasCert).length) ++ leBytes 2 0
      ++ sha256 (certified.sec.norA.certs.headD []) ++ (certified.sec.norA.certs.flatten ++ certified.sec.aliasCert), ?_, ?_, ?_⟩
  · unfold State.certChain
    simp only [h, a, n]
    rfl
  · simp only [n, List.length_append]
    decide
  · rw [show reqNat [] 6 2 = 0 from rfl, Nat.zero_min]
    decide
theorem test_meets_TheResponderIdentifiesTheDevice_chunks :
    bit (reqByte [] 2) 0 = false ∧ reqNat [] 4 2 = 0 ∧ reqNat [] 8 4 ≤ 65536
    ∧ ((spdmAt { stage := 3, chunkOut := some (0, 0, [1, 2]) }).spdm 0).chunkOut = some (0, 0, [1, 2])
    ∧ ([1, 2] : List Byte).length + 16 ≤ (spdmAt { stage := 3, chunkOut := some (0, 0, [1, 2]) }).spdmLimit 0 := by decide
theorem test_meets_TheStewardAnswersItsMailbox :
    (secured {}).transportUp 1 = true ∧ (secured {}).romOnly = false ∧ (secured {}).sec.owner = none
    ∧ ((secured { sb := { opened := true } }).session 1).opened = true ∧ (secured {}).fab.isMember = false ∧ (secured {}).sec.image ≠ 1
    ∧ (secured {}).tooWarm = false := by decide

/-! ### Register accesses -/

theorem test_meets_RegistersAreWrittenAndRead_hits :
    Hits (secured {}) 0 (0x4000 + rPwrCap) pgPwr 0 rPwrCap ∧ Hits (secured { sb := { opened := true } }) 66 (0x4000 + rPwrCap) pgPwr 0 rPwrCap
    ∧ (secured { sb := { opened := true } }).romOnly = false ∧ (secured { sb := { opened := true } }).sec.sb.opened = true
    ∧ Hits (secured {}) 1 (0x1000 + rStwSerial) pgIdent 0 rStwSerial ∧ Hits (secured {}) 1 (0x1004 + rStwSerial) pgIdent 0 (rStwSerial + 4)
    ∧ Hits (secured {}) 66 (0x1000 + rStwSerial) pgIdent 0 rStwSerial ∧ (secured {}).hubOn = true ∧ (secured {}).hostUp = true
    ∧ Hits (secured {}) 0 (0x203 * 4096 + hCtl) pgRng 0 hCtl ∧ Hits (secured {}) 0 (5 * 4096 + hIntForce) pgThm 0 hIntForce := by
  unfold Hits; decide
theorem test_meets_RegistersAreWrittenAndRead_latched :
    Hits ({ secured {} with latch := [(latchKey 1 pgIdent 0, (rStwSerial + 4, 5))] } : State) 1 (0x1004 + rStwSerial) pgIdent 0 (rStwSerial + 4)
    ∧ smFind ({ secured {} with latch := [(latchKey 1 pgIdent 0, (rStwSerial + 4, 5))] } : State).latch (latchKey 1 pgIdent 0) = some (rStwSerial + 4, 5) := by
  unfold Hits; decide
/-- Core 0 and its vault, whose partition 0 is EMPTY. -/
def registers (a : Absorb := {}) : State := { castling a with parts := [], host := { perst := false, width := 16, rate := 5 } }
theorem test_meets_RegistersThatCommand_quota :
    Meets (registers {}) 0 pgLoom 0 rLoomShelf ∧ QuotasAllowed 0x111D ∧ ¬ QuotasAllowed 0x0448 := by unfold Meets QuotasAllowed; decide
/-- The same with partition 0 SERVING and the vault in it. -/
def discardRefused : State := { registers {} with parts := [(0, { st := .serving })], vaults := [(0, { role := .logical, part := some 0 })] }
theorem test_meets_RegistersThatCommand_discard :
    Meets (registers {}) 0 pgVlt 0 rVltDiscard ∧ 0 + 262144 ≤ 262144 ∧ (registers {}).servingPart ((registers {}).vault 0).part = false
    ∧ ((registers {}).vault 0).discard = none ∧ ((registers {}).vault 0).mode = .memory ∧ (registers {}).snap = none ∧ (registers {}).abs.migs = []
    ∧ Meets discardRefused 0 pgVlt 0 rVltDiscard ∧ discardRefused.servingPart (discardRefused.vault 0).part = true
    ∧ (({ vaults := [(0, { discard := some (3, 4) })] } : State).vault 0).discard = some (3, 4)
    ∧ (({ vaults := [(0, { discard := some (3, 4) })] } : State).vault 0).held = [] := by unfold Meets; decide
theorem test_meets_RegistersThatCommand_serving :
    Meets (registers {}) 0 pgRng 0 rRngAlmData ∧ NothingServes (registers {}) ∧ ¬ NothingServes { registers {} with parts := [(0, { st := .serving })] } := by
  unfold Meets NothingServes; decide
theorem test_meets_RegistersThatCommand_pages :
    Meets (registers {}) 0 pgPwr 0 rPwrShedTx ∧ Meets (registers {}) 0 pgStw 0 rStwCastReq ∧ (registers {}).castOf 0 = none
    ∧ (registers {}).coreActive 0 = true ∧ (registers {}).coreActive 1 = false ∧ Meets (registers {}) 0 pgFab 0 rFabCtl
    ∧ (registers {}).isMaster = false ∧ (registers {}).isMarketMaster = false := by unfold Meets; decide
theorem test_meets_RegistersThatCommand_castle : ((registers {}).castDest ⟨0, 0, false, false⟩).1 ≠ 3 := by decide +kernel
/-- The guildmaster of guild 0, which is the marketplace's master too. -/
def marketMaster : State := { registers {} with fab := { isMember := true, master := 0, members := [(0, 9), (1, 8)], market := some 4 } }
theorem test_meets_RegistersThatCommand_master :
    Meets marketMaster 0 pgFab 0 rFabCtl ∧ marketMaster.isMaster = true ∧ marketMaster.isMarketMaster = true ∧ marketMaster.tooWarm = false
    ∧ (1, 8) ∈ marketMaster.fab.members ∧ (1 : Nat) ≠ marketMaster.fab.device := by unfold Meets; decide

/-! ### The serving engine -/

/-- Partition 0 serves on core 0, with a request ring of 4 records at host address 0 in use; a pattern 1 and a host window. -/
def ringed (rec : List (Nat × Nat)) (roll : SMap Stream) : State :=
  { registers {} with
    parts := [(0, { st := .serving, cores := [0], host := (0, 4096), reqTail := 1, patterns := [⟨1, false, false, 0, [], [], []⟩] })]
    regs := [(regKey pgFore 0 0 rForeStepCfg, 0x00040010), (regKey pgFore 0 0 rForeStreamQuota, 4), (regKey pgFore 0 0 rForeReqCfg, 0x80000002),
             (regKey pgFore 0 0 rForeTokCfg, 0x8000000A), (regKey pgFore 0 0 rForeMsix, 1)]
    host := { perst := false, width := 16, rate := 5, mem := memSetBytes [] 0 (leBytes 64 (ordOf rec)) }
    rollA := roll, rollB := roll }
/-- The request ring is off, with 2^2 records. -/
def ringOff : State := { regs := [(regKey pgFore 0 0 rForeReqCfg, 2)], parts := [(0, { reqHead := 6 })] }
theorem test_meets_RingsMoveWithTheirDoorbells_request :
    ringOff.host.bells = [] ∧ ringOff.writesSeen 0 = true ∧ ringOff.writesSeen 2 = true ∧ ringOff.bellOpen 0 0 = true ∧ ringOff.bellOpen 2 0 = true ∧ RingOff ringOff 0 ∧ ringOff.fld pgFore 0 0 rForeReqCfg 4 0 = 2
    ∧ (2 % 8 + 8 - (ringOff.part 0).reqHead % 8) % 8 ≤ 4 ∧ (3 % 8 + 8 - (ringOff.part 0).reqHead % 8) % 8 > 4 := by unfold RingOff; decide
/-- Ten records are in the token ring, the last of which is the end record of stream 3. -/
def tokens : State :=
  { regs := [(regKey pgFore 0 0 rForeTokCfg, 10)], parts := [(0, { tokTail := 10, tokHead := 0 })]
    rollA := [(3, { st := .done, gen := 2, endAt := 9 })], rollB := [(3, { st := .done, gen := 2, endAt := 9 })] }
theorem test_meets_RingsMoveWithTheirDoorbells_tokens :
    tokens.bellOpen 0 0 = true ∧ RingOff tokens 0 ∧ tokens.host.bells = [] ∧ tokens.writesSeen 0 = true ∧ (10 % 2048 + 2048 - (tokens.part 0).tokHead % 2048) % 2048 ≤ ((tokens.part 0).tokTail + 2048 - (tokens.part 0).tokHead % 2048) % 2048
    ∧ tokens.fld pgFore 0 0 rForeTokCfg 4 0 = 10 ∧ tokens.abs.heldRecs = [] ∧ tokens.abs.adoptWait = [] ∧ (tokens.stream 3).part = 0
    ∧ (tokens.stream 3).st = .done ∧ (smFind tokens.rollAll 3).isSome ∧ tokens.abs.fence = none
    ∧ ((tokens.stream 3).endAt % 2048 + 2048 - (tokens.part 0).tokHead % 2048) % 2048 < 10 := by unfold RingOff; decide
/-- A SUBMIT for pattern 1: eight prompt tokens at address 64, up to four new ones. -/
def submits : State := ringed [(0, 0x00010001), (1, 7), (2, 64), (4, 8), (5, 4)] [(0, { st := .decode })]
theorem test_meets_RequestsBecomeStreams_submit :
    ∃ w, submits.host.bells = [] ∧ submits.ringHead 0 = some w ∧ bits (w.getD 0 0) 7 0 = 1 ∧ ((submits.part 0).pattern (bits (w.getD 0 0) 31 16)).isSome
      ∧ submits.histInWindow 0 (reqFields w).hist ((reqFields w).nPrompt + (reqFields w).maxNew) = true
      ∧ (submits.part 0).farFull = false ∧ submits.takeStream 0 = some 1 ∧ bit (reqFields w).opts 16 = false ∧ NotMirrored submits 0
      ∧ submits.abs.fence = none := by
  refine ⟨_, rfl, rfl, ?_⟩
  unfold NotMirrored
  decide +kernel
/-- A CONTINUE of stream 1, generation 5, which is idle with six tokens' room. -/
def continues : State :=
  ringed [(0, 0x00000002), (4, 9), (8, 5 * 262144 + 1)] [(1, { st := .decode, gen := 5, cap := 16, nPrompt := 8, emitted := 2, pos := 10 })]
theorem test_meets_RequestsBecomeStreams_continue :
    ∃ w, continues.host.bells = [] ∧ continues.ringHead 0 = some w ∧ bits (w.getD 0 0) 7 0 = 2 ∧ 1 = bits (w.getD 8 0) 17 0 ∧ (continues.stream 1).part = 0
      ∧ (continues.stream 1).gen = bits (w.getD 8 0) 21 18 ∧ (continues.stream 1).idle = true
      ∧ NotMirrored continues 0 ∧ continues.abs.fence = none := by
  refine ⟨_, rfl, rfl, ?_⟩
  unfold NotMirrored
  decide +kernel
theorem test_meets_RequestsBecomeStreams_msix :
    (({ submits with parts := [(0, { tokTimes := [5] })] } : State).part 0).tokTimes ≠ []
    ∧ submits.fld pgFore 0 0 rForeMsix 12 0 ≤ (({ submits with parts := [(0, { tokTimes := [5] })] } : State).part 0).tokTimes.length := by decide
/-- Stream 1 is to prefill eight tokens of pattern 1. -/
def prefills : State := ringed [] [(1, { st := .prefill, pattern := 1, nPrompt := 8, maxNew := 4, cap := 12 })]
/-- The step set that R275 gives. -/
def prefillEntry : StepEntry := ⟨1, 4, 0, 0, 0, 1, [], false, false, false, 0, 0, []⟩
theorem test_meets_StepsStartAndEnd_start :
    prefills.host.bells = [] ∧ StepDue prefills 0 ∧ 0 ∈ (prefills.part 0).cores ∧ prefills.coreActive 0 = true
    ∧ ((prefills.part 0).pattern 1).isSome = true ∧ prefills.staggerOk 0 = true ∧ prefills.chooseStep 0 = some (1, [prefillEntry]) := by
  unfold StepDue; decide +kernel
/-- A step runs in partition 0. -/
def stepping (x : Part) (roll : SMap Stream) : State := { castling {} with parts := [(0, { x with st := .serving, cores := [0], running := true })], rollA := roll, rollB := roll }
theorem test_meets_StepsStartAndEnd_draft :
    let s := stepping { draftPhase := true, drafts := 2, draftsLeft := 2 } []
    (s.part 0).running = true ∧ (s.part 0).draftPhase = true ∧ (s.part 0).draftsLeft ≠ 0 ∧ (s.part 0).rolledBack = false
    ∧ s.partQuiet 0 = true ∧ s.partHeld 0 = false := by decide
/-- An entry's step is over: a kind, whether it is voided, and its tokens. -/
def overBy (e : StepEntry) (st : SState) : State :=
  stepping { set := [e] } [(1, { st := st, nPrompt := 8, maxNew := 4, cap := 12, inStep := true, pos := if st = .decode then 7 else 0 })]
theorem test_meets_StepsStartAndEnd_end :
    let s := overBy { prefillEntry with voided := true } .prefill
    s.host.bells = [] ∧ StepOver s 0 ∧ (s.part 0).set = [{ prefillEntry with voided := true }] ∧ (s.part 0).after = [] ∧ RingOff s 0 ∧ AdminOff s ∧ NotMirrored s 0
    ∧ s.abs.fence = none ∧ (s.stream 1).part = 0 ∧ (s.stream 1).st = .prefill ∧ StepOver (overBy prefillEntry .prefill) 0
    ∧ StepOver (overBy { prefillEntry with kind := 0, rows := 1, tokens := [(77, false)] } .decode) 0 := by
  unfold StepOver RingOff AdminOff NotMirrored; decide
/-- Stream 1 has lost a page of eight tokens. -/
def recomputes : State :=
  { ringed [] [(1, { st := .prefill, nPrompt := 8, pos := 8, cap := 12 })] with
    ledgA := [(0, { st := .recompute, stream := 1, fill := 8 })], ledgB := [(0, { st := .recompute, stream := 1, fill := 8 })] }
theorem test_meets_StepsStartAndEnd_recompute :
    StepDue recomputes (recomputes.stream 1).part ∧ recomputes.canRecompute 1 = true ∧ recomputes.recomputeAt 1 = some (0, 8)
    ∧ 0 < recomputes.fld pgFore 0 0 rForeStepCfg 29 16
    ∧ (recomputes.histRead 0 (recomputes.stream 1).hist 0 (min 8 (recomputes.fld pgFore 0 0 rForeStepCfg 29 16))).isSome := by
  unfold StepDue; decide +kernel
/-- Stream 1 is parked and to be fetched back; stream 2 drains, its record written. -/
def parked : State :=
  { parts := [(0, { unpark := [1] })], rollA := [(1, { st := .parked, wasDecode := true }), (2, { st := .draining, endDone := true })]
    rollB := [(1, { st := .parked, wasDecode := true }), (2, { st := .draining, endDone := true })] }
theorem test_meets_StreamsAndPagesMove_streams :
    parked.abs.fence = none ∧ (parked.stream 1).st = .parked ∧ (parked.part (parked.stream 1).part).unpark.contains 1 = true ∧ PagesNear parked 1
    ∧ NotMirrored parked 0 ∧ (parked.stream 2).st = .draining ∧ (parked.stream 2).endDone = true
    ∧ parked.endPassed (parked.stream 2) = true ∧ ({ parked with parts := [(0, { tokTail := 1 })] } : State).endPassed (parked.stream 2) = false := by unfold PagesNear NotMirrored; decide
/-- A page as given, of a parked stream 1, which is to be fetched back or not; far ports 0 to 3 are up, and the window is 1 MiB. -/
def paged (e : LEntry) (back : Bool) : State :=
  { ledgA := [(0, e)], ledgB := [(0, e)], rollA := [(1, { st := .parked })], rollB := [(1, { st := .parked })]
    regs := [(regKey pgAtt 0 0 rAttKvwin, 0x00080000)]
    parts := [(0, { far := List.replicate 4 (0, 1048576), unpark := if back then [1] else [] })], vaults := [(0, { role := .logical })]
    far := List.replicate 4 { st := .up } }
theorem test_meets_StreamsAndPagesMove_demote :
    let s := paged { st := .near, stream := 1, refs := 0 } false
    (s.ledg 0).st = .near ∧ (s.ledg 0).held = false ∧ (s.stream 1).gen = (s.ledg 0).gen ∧ (s.stream 1).st = .parked
    ∧ (s.part 0).unpark.contains 1 = false ∧ s.pageIdle 0 = true ∧ s.farFrame 0 0 0 = some (0, 0) := by decide +kernel
theorem test_meets_StreamsAndPagesMove_promote :
    let s := paged { st := .far, stream := 1 } true
    (s.ledg 0).st = .far ∧ (∃ n ∈ s.pageUsers 0, (s.part (s.stream n).part).unpark.contains n = true) ∧ s.pageIdle 0 = true
    ∧ s.freeFrame 0 0 = some 0 := by decide +kernel
theorem test_meets_StreamsAndPagesMove_moved :
    let s := paged { st := .moving, stream := 1, toFar := true } false
    (s.ledg 0).st = .moving ∧ (s.ledg 0).toFar = true ∧ s.placeReady (.vault 0 0) (pageBytes 0) true = true
    ∧ s.placeReady (.far 0 0) (pageBytes 0) false = true := by decide +kernel
theorem test_meets_StreamsAndPagesMove_bytes :
    let s : State := { paged { st := .moving, stream := 1, toFar := true } false with regs := [] }
    let t : State := { paged { st := .moving, stream := 1 } true with regs := [] }
    Unregulated s (s.partOfStream 1) ∧ ((s.guestLines none (.vault 0 0) (pageBytes 0)).readRestored (.vault 0 0) (pageBytes 0)).2.isSome = true
    ∧ (t.ledg 0).toFar = false ∧ t.placeReady (.far 0 0) (pageBytes 0) true = true ∧ t.placeReady (.vault 0 0) (pageBytes 0) false = true
    ∧ Unregulated t (t.partOfStream 1) ∧ (t.readLoc (.far 0 0) (pageBytes 0)).2.isSome = true :=
  ⟨unregulated_of (by decide) _, by decide +kernel, by decide, by decide +kernel, by decide +kernel, unregulated_of (by decide) _, by decide +kernel⟩
theorem test_meets_StreamsAndPagesMove_free :
    let s := paged { st := .near, held := true } false
    (s.ledg 0).held = true ∧ (s.ledg 0).refs = 0 ∧ (s.ledg 0).waits = [] ∧ (s.ledg 0).st = .near := by decide

/-! ### Admin commands and the guild -/

/-- PF1's session is open; partition 0 is as given and core 0 is at site 0. -/
def admin (x : Part) (roll : SMap Stream := []) (k : Secure := {}) : State :=
  { secured { k with pf1 := { opened := true } } with
    parts := [(0, x)], rollA := roll, rollB := roll, cores := [(0, { sregs := [(1, 5)] })]
    regs := [(regKey pgFore 0 0 rForeStreamQuota, 8)]
    boot := { state := .ready, coreSite := [(0, 0), (1, 1), (2, 2), (3, 3)], sites := [(0, { core := 0 })] } }
theorem test_meets_RingsMoveWithTheirDoorbells :
    AdminOff (admin {}) ∧ (64 % 128 + 128 - (admin {}).admHead % 128) % 128 ≤ 64 ∧ (admin {}).fld pgFore 0 0 rForeAdmCfg 4 0 = 6
    ∧ (0 % 128 + 128 - (admin {}).acqHead % 128) % 128 ≤ ((admin {}).acqTail + 128 - (admin {}).acqHead % 128) % 128 := by unfold AdminOff; decide
/-- A CREATE_PARTITION of group 0, with quotas of 262,144 streams and 33,554,432 pages. -/
def createRec : List Nat := [0x12340001, 1, 0, 0, 0, 0, 0, 0, 0, 0, 262144, 33554432]
theorem test_meets_PartitionsMoveThroughTheirStates_create :
    AdmFree (admin {}) ∧ recPart createRec = 0 ∧ CreateOk (admin {}) createRec := by unfold AdmFree AdminOff CreateOk; decide
theorem test_meets_PartitionsMoveThroughTheirStates :
    ((admin { st := .loaded }).part 0).st = .loaded ∧ RingOff (admin { st := .loaded }) 0 ∧ ((admin { st := .serving }).part 0).running = false
    ∧ ((admin { st := .serving, running := true }).part 0).running = true ∧ (admin { st := .serving }).abs.migs = []
    ∧ (∀ c ∈ ((admin { st := .resetting, cores := [0] }).part 0).cores, (admin { st := .resetting, cores := [0] }).fencedHalf ≠ some (coreHalf c)
        ∧ (smFind (admin { st := .resetting, cores := [0] }).boot.coreSite c).isSome) := by unfold RingOff; decide

/-- A manifest of two pages lies at host address 0, with one queue program of one order, whose golden copy is 128 zero bytes at
address 8,192, and half A has a RESERVE vault for its page hashes (header, region entry, and the SHA-256 of those bytes at 4,160). The partition may load it. -/
def loads : State :=
  { admin { st := .configured, cores := [0], host := (0, 65536) } with
    vaults := [(1, { role := .reserve })]
    host := { perst := false, width := 16, rate := 5
              mem := [(0, 82), (1, 80), (2, 65), (3, 84), (4, 1), (8, 1), (12, 1), (16, 64), (17, 16), (24, 1), (4096, 1), (4099, 18), (4112, 128), (4121, 32),
                      (4127, 96), (4160, 56), (4161, 114), (4162, 58), (4163, 46), (4164, 94), (4165, 138), (4166, 23), (4167, 170), (4168, 121),
                      (4169, 80), (4170, 220), (4172, 130), (4173, 9), (4174, 148), (4175, 78), (4176, 137), (4177, 143), (4178, 105), (4179, 167),
                      (4180, 189), (4181, 16), (4182, 162), (4183, 60), (4184, 131), (4185, 157), (4186, 52), (4187, 30), (4188, 147), (4189, 95),
                      (4190, 213), (4191, 202)] } }
def loadRec : List Nat := [0x12340002, 1, 0, 0x60000000, 2, 0, 0, 0, 0, 0, 0, 0, 0, 0, 0, 0]
set_option maxRecDepth 200000 in
theorem test_meets_PatternsContextsAndStreams_load : ((touched loads).loadPattern (recPart loadRec) (withTop loadRec 0)).2.1 = 0 := by decide +kernel
/-- A context of an empty partition of group 0 lies there: its head page. The partition may restore it. -/
def restores : State :=
  { admin { st := .configured, cores := [0, 1, 2, 3], host := (0, 65536) } with
    host := { perst := false, width := 16, rate := 5
              mem := [(0, 1), (4, 96), (8, 1), (36, 253), (37, 112), (38, 14), (39, 195)] } }
def restoreRec : List Nat := [0x12340002, 0x80000000, 0, 0x60000000, 0, 0, 0, 0, 0, 0, 0, 0, 0, 0, 0, 0]
set_option maxRecDepth 200000 in
theorem test_meets_PatternsContextsAndStreams_restore : ((touched restores).restoreContext (recPart restoreRec) (withTop restoreRec 1)).2.1 = 0 := by
  decide +kernel
/-- Pattern 1 is loaded. -/
def withPattern (st : PState) (roll : SMap Stream := []) : State :=
  admin { st := st, cores := [0], host := (0, 65536), patterns := [⟨1, false, false, 0, [], [], []⟩] } roll
theorem test_meets_PatternsContextsAndStreams_drop :
    (((withPattern .loaded).part 0).pattern (bits ([0, 1].getD 1 0) 15 0)).isSome
    ∧ (∀ e ∈ (withPattern .loaded).streamsOf 0, e.2.pattern ≠ bits ([0, 1].getD 1 0) 15 0)
    ∧ (∀ q ∈ ((withPattern .loaded).part 0).patterns, q.draftEn = true → q.draftId ≠ bits ([0, 1].getD 1 0) 15 0) := by decide
/-- An OPEN_STREAM of eight prompt tokens and four new ones. -/
def openRec : List Nat := [0x12340010, 7, 64, 0, 8, 4, 0, 0, 0, 0, 0x3F800000, 0, 0, 0, 0, 0]
theorem test_meets_PatternsContextsAndStreams_open :
    ((withPattern .serving).part 0).patterns.find? (fun q => !q.draft) = some ⟨1, false, false, 0, [], [], []⟩
    ∧ (withPattern .serving).histInWindow 0 (reqFields openRec).hist ((reqFields openRec).nPrompt + (reqFields openRec).maxNew) = true
    ∧ (withPattern .serving).takeStream 0 = some 0 ∧ bit (reqFields openRec).opts 16 = false ∧ NotMirrored (withPattern .serving) 0
    ∧ (reqFields openRec).clamps = 0 ∧ (withPattern .serving).abs.fence = none := by unfold NotMirrored; decide +kernel
/-- Stream 2, generation 3, as a record names it. -/
def streamRec : List Nat := [0x12340011, 0x80000000 + 3 * 262144 + 2]
theorem test_meets_PatternsContextsAndStreams_park :
    let s := withPattern .serving [(2, { st := .decode, gen := 3 })]
    bits (streamRec.getD 1 0) 17 0 = 2 ∧ (s.stream 2).part = 0 ∧ (s.stream 2).gen = bits (streamRec.getD 1 0) 21 18 ∧ (s.stream 2).inStep = false
    ∧ NotMirrored s 0 ∧ s.abs.fence = none ∧ (s.stream 2).st = .decode := by unfold NotMirrored; decide
/-- A SNAPSHOT of a partition's context to host address 0. -/
def snapRec : List Nat := [0x12340020, 0, 0x60000000, 0]
theorem test_meets_PatternsContextsAndStreams_snapshot :
    let s := withPattern .serving
    let h := s.contextHead 0 (s.fab.snapNum + 1)
    bits (snapRec.getD 3 0 % 4294967296) 1 0 = 0 ∧ s.copyBusy = false
    ∧ spaceOf (snapRec.getD 1 0 % 4294967296 + (snapRec.getD 2 0 % 4294967296) <<< 32) = 6
    ∧ s.inWindows 0 (locOf 0 (snapRec.getD 1 0 % 4294967296 + (snapRec.getD 2 0 % 4294967296) <<< 32)) (h.1.length + h.2.1.length + 4104 * h.2.2.length) = true := by
  decide +kernel
/-- A device with a guild key, alone or joining. -/
def joiner (f : Fabric) : State := { admin {} with fab := f, sec := { pf1 := { opened := true }, guildKey := some (List.replicate 32 9) }, admOpen := if f.joining.isSome then [(5, 0x30, 0)] else [] }
theorem test_meets_DevicesJoinAndLeaveTheirGuild_join :
    AdmFree (joiner {}) ∧ (joiner {}).boot.state = .ready ∧ (joiner {}).fab.isMember = false ∧ (joiner {}).sec.guildKey.isSome
    ∧ (joiner {}).fld pgFab 0 0 rFabGuild 11 6 = (joiner {}).boot.chartDevice ∧ (joiner {}).fab.formed = false ∧ (joiner { formed := true }).fab.formed = true
    ∧ (joiner { isMember := true }).fab.isMember = true ∧ NothingServes (joiner { isMember := true }) ∧ AdmFree (joiner { isMember := true }) := by
  unfold AdmFree AdminOff NothingServes; decide
/-- What the guildmaster, device 0, answers a joiner, device 2; and what the joiner sends. -/
def joining : State := joiner { joining := some (5, List.replicate 32 1), device := 2 }
def joinMsg (src dst : Nat) (bs : List Byte) : FMsg := ⟨0x11, dst, src, 0, 0, false, 0, bs⟩
theorem test_meets_DevicesJoinAndLeaveTheirGuild_joining :
    joining.fab.joining = some (5, List.replicate 32 1) ∧ joining.admOpen = [(5, 0x30, 0)] ∧ joining.admWait = [] ∧ joining.fld pgFore 0 0 rForeAdmCfg 31 31 = 0 := by decide
/-- The right response; opaque serial numbers enter its proof. -/
def joinResponse : List Byte := List.replicate 32 2 ++ joining.masterProof (List.replicate 32 1) (List.replicate 32 2) 0
theorem test_after (f : List Byte → List Byte) (a b : List Byte) (h : a.length = 32) (hb : b = f a) : (a ++ b).drop 32 = f ((a ++ b).take 32) := by
  rw [List.drop_left' h, List.take_left' h, hb]
theorem test_meets_DevicesJoinAndLeaveTheirGuild_response :
    GuildMessage joining (joinMsg 0 2 joinResponse) ∧ (joinMsg 0 2 joinResponse).srcDev = joining.fab.master
    ∧ (joinMsg 0 2 joinResponse).data.drop 32 = joining.masterProof (List.replicate 32 1) ((joinMsg 0 2 joinResponse).data.take 32) 0 :=
  ⟨⟨by decide, by decide⟩, by decide, test_after (fun x => joining.masterProof (List.replicate 32 1) x 0) (List.replicate 32 2) _ (List.length_replicate ..) rfl⟩
theorem test_meets_DevicesJoinAndLeaveTheirGuild_refused :
    ∃ bs, GuildMessage joining (joinMsg 0 2 bs)
      ∧ (joinMsg 0 2 bs).data.drop 32 ≠ joining.masterProof (List.replicate 32 1) ((joinMsg 0 2 bs).data.take 32) 0 := by
  have t (y : Byte) : (List.replicate 32 (0 : Byte) ++ [y]).take 32 = List.replicate 32 0 := List.take_left' (List.length_replicate ..)
  have d (y : Byte) : (List.replicate 32 (0 : Byte) ++ [y]).drop 32 = [y] := List.drop_left' (List.length_replicate ..)
  by_cases h : ([1] : List Byte) = joining.masterProof (List.replicate 32 1) (List.replicate 32 0) 0
  · refine ⟨List.replicate 32 0 ++ [2], ⟨by decide, by decide⟩, ?_⟩
    show (List.replicate 32 (0 : Byte) ++ [2]).drop 32 ≠ joining.masterProof (List.replicate 32 1) ((List.replicate 32 (0 : Byte) ++ [2]).take 32) 0
    rw [t, d, ← h]
    decide
  · refine ⟨List.replicate 32 0 ++ [1], ⟨by decide, by decide⟩, ?_⟩
    show (List.replicate 32 (0 : Byte) ++ [1]).drop 32 ≠ joining.masterProof (List.replicate 32 1) ((List.replicate 32 (0 : Byte) ++ [1]).take 32) 0
    rw [t, d]
    exact h
/-- The guildmaster, device 0, has challenged device 2. -/
def challenged : State := joiner { isMember := true, members := [(0, 9)], challenged := [(2, (7, List.replicate 32 1, List.replicate 32 2))] }
theorem test_meets_DevicesJoinAndLeaveTheirGuild_master :
    GuildMessage challenged (joinMsg 2 0 []) ∧ challenged.isMaster = true ∧ challenged.sec.guildKey.isSome
    ∧ smFind challenged.fab.challenged 2 = some (7, List.replicate 32 1, List.replicate 32 2) := ⟨⟨by decide, by decide⟩, by decide, by decide, by decide⟩

/-! ### The machine -/

theorem test_meets_StepTakesTheFront : ({ pending := [.snapshotCopy] } : State).pending = [.snapshotCopy] ∧ State.reset.pending = [] := by decide
/-- A commit of the counter OWNER to 64 waits, in an open session. -/
def commits : State := { secured { pf1 := { opened := true } } with pending := [.svnCommitOwner 1 64] }
theorem test_meets_AntiRollbackCountersOnlyRise :
    FuseShape commits ∧ ∃ t, step commits = .next t ∧ commits.svnOf 2 = 0 ∧ t.svnOf 2 = 64 := by
  refine ⟨by unfold FuseShape; decide, _, rfl, ?_⟩
  decide +kernel
theorem test_near_ends : nearSplit 0 = (0, 0) ∧ nearSplit 274877906943 = (255, 1073741823) ∧ nearJoin 255 1073741823 = 274877906943
    ∧ nearJoin 0 0 = 0 := by decide

/-! ### Values that the spec's worked examples give -/

/-- A VSF4 block whose byte 4 is 0x5A, byte 16 is 0x7E and byte 17 is 0x04: elements 9 and 8 are 0.75 and −0.25 (R44). -/
def vsf4 : Nat → Byte := fun i => if i = 4 then 0x5A else if i = 16 then 0x7E else if i = 17 then 0x04 else 0
theorem test_vsf4_elements : rawDecode32 12 (tensorElem 12 vsf4 9) = 0x3F400000 ∧ rawDecode32 12 (tensorElem 12 vsf4 8) = 0xBE800000 := by decide
/-- Aperture offset 0x2A_5C3E_91B7 is local 0x2A5C_31B7 of vault 143; granules 0 to 3 at local 0x0030_0000 of vault 5 (R174). -/
theorem test_aperture_offset : nearSplit 0x2A5C3E91B7 = (143, 0x2A5C31B7) ∧ nearJoin 143 0x2A5C31B7 = 0x2A5C3E91B7 := by decide
theorem test_aperture_run : (List.range 4).map (fun g => nearJoin 5 (0x00300000 + 0x1000 * g)) = [0x30006000, 0x30107000, 0x30204000, 0x30305000] := by decide
/-- cg(0, 0, 0, 0) and its shares at f = 4 (R298, R301). -/
theorem test_draw_words : (cg 0 0 0 0).y0 = 0xEFAEAC19 ∧ (cg 0 0 0 0).y1 = 0xAD2A9AAD := by decide
theorem test_draw_shares : (List.range 4).map (fun j => (drawShare (cg 0 0 0 0) j 4).y0) = [0xEFAEAC19, 0x19EFAEAC, 0xAC19EFAE, 0xAEAC19EF] := by decide
/-- Segment sums 2^24, 1 and 1: the result is 0x4B80_0000, and the grouping that R55 forbids gives 0x4B80_0001. -/
theorem test_segment_sums : f32Add (f32Add 0x4B800000 0x3F800000) 0x3F800000 = 0x4B800000 ∧ f32Add 0x4B800000 (f32Add 0x3F800000 0x3F800000) = 0x4B800001 := by
  decide
/-- The BANK_ page of vault 218 is page 0x2DA1, its VLT_ page 0x2DA0 (R201, R510). -/
theorem test_pages_of_vault_218 : pageAt 0x2DA1 = some (pgBank, 218) ∧ pageAt 0x2DA0 = some (pgVlt, 218) := by decide
/-- Vault 218 is in service, and PF0 writes VLT_CFG. -/
def vault218 : State :=
  { boot := { state := .ready }, host := { perst := false, width := 16, rate := 5 }, vaults := [(218, { role := .logical, logical := 200 })] }
theorem test_vault_write_clamps :
    ∃ t, exec (.regWrite 0 0x02DA0040 false 0x00140203) vault218 = .next t ∧ t.reg pgVlt 218 0 rVltCfg = 0x00140208
      ∧ t.reg pgVlt 218 0 hClamp = 1 ∧ t.reg pgVlt 218 0 hSts = 0x80000000 := by
  refine ⟨_, rfl, ?_⟩
  decide +kernel
theorem test_status_write_clears :
    ∃ t, exec (.regWrite 0 (0x02DA0000 + hSts) false 0x7FFFFFFF) { vault218 with regs := [(regKey pgVlt 218 0 hSts, 0x80000000)] } = .next t
      ∧ t.reg pgVlt 218 0 hSts = 0 := by
  refine ⟨_, rfl, ?_⟩
  decide +kernel
/-- The check values of CRC-32 and SHA-256 for "123456789" and "abc". -/
theorem test_crc32_check : crc32 (asciiBytes "123456789") = 0xCBF43926 := by decide +kernel
theorem test_sha256_check : leNat (sha256 (asciiBytes "abc")).reverse = 0xBA7816BF8F01CFEA414140DE5DAE2223B00361A396177A9CB410FF61F20015AD := by
  decide +kernel

/-! ### Ill-formed commands are refused by the check that an operand fails -/

/-- No command of a list is well-formed. -/
def allBad (l : List Instr) : Bool := l.all (fun i => !i.wf)
theorem test_illFormed_functions : allBad [
      .regWrite 68 0 false 0, .regReadLowLatch 68 0 0 false, .badAccess 68 0 false, .clearCounts 68 0,
      .intForce 68 0 0, .loomShelfWrite 68 0 0, .vltDiscard 68 0 0, .rngAlmDataWrite 68 0, .pwrShedTx 68 0,
      .stwCastReq 68 0, .fabResetGuild 68, .fabResetMarket 68, .svnCommitFirmware 68 0, .svnCommitIdentity 68 0,
      .svnCommitOwner 68 0, .svnCommitGuild 68 0, .requestDoorbell 68 0 0, .tokenHeadDoorbell 68 0 0,
      .hostConfigRequest 68 0 none, .hostNearRead 68 0 0 1, .hostNearWrite 68 0 [], .fenceHoldExpired 68 0] = true := by decide
theorem test_illFormed_cores1 : allBad [
      .loomShelfWrite 0 256 0, .orderRefetch 256 0, .orderComplete 256 0, .clerkBufferParity 256 0,
      .clerkRegUe 256, .restEnd 256, .load 256, .store 256, .move 256, .loomGemm 256, .loomGemmSparse 256,
      .loomOrderStart 256 0, .fillWindowExpired 256 0 0, .weightTileArrive 256 0, .shadowLoadDone 256 0,
      .loomTileStart 256 0, .boundaryPauseEnd 256 0, .shelfSlotFull 256 0, .loomRecompute 256 0 0,
      .treadleWindow 256 0 0, .treadleGapExpired 256 0, .treadle 256, .treadleDurationEnd 256 0, .recipe 256,
      .elemGroupIssue 256 0, .shelfUnitStart 256, .elemParityReload 256 0, .uopMov 256, .uopAbs 256, .uopNeg 256,
      .uopI2f 256, .uopF2i 256, .uopIdx 256, .uopRow 256, .uopCol 256, .uopAdd 256, .uopSub 256, .uopMul 256,
      .uopFma 256, .uopFms 256, .uopIadd 256, .uopIsub 256, .uopImul 256, .uopExp2 256, .uopLog2 256,
      .uopRecip 256, .uopRsqrt 256, .uopSin 256, .uopCos 256, .uopBmRad 256, .uopBmCos 256, .uopBmSin 256,
      .uopMax 256, .uopMin 256, .uopClamp 256, .uopCmplt 256, .uopCmple 256, .uopCmpeq 256, .uopIsnan 256,
      .uopSel 256] = true := by decide
theorem test_illFormed_cores2 : allBad [
      .uopMul5 256, .uopLut0 256, .uopLut1 256, .uopRandU 256, .uopRandBits 256, .uopMask 256, .uopDither 256,
      .uopCompress 256, .uopExpandFill 256, .uopExpandKeep 256, .uopCvt 256, .uopCvtSr 256, .uopQuant 256,
      .uopQuantSr 256, .uopRoute 256, .tally 256, .tallySum 256 0, .tallyMax 256 0, .tallyMin 256 0,
      .tallyArgmax 256 0, .tallyTopk 256 0, .tallyRmaxsum 256 0, .tallyHist 256 0, .tallyCount 256 0,
      .tallyScan 256 0, .tallyRowResult 256, .scalarAdd 256, .scalarSub 256, .scalarMul 256, .scalarShl 256,
      .scalarShr 256, .scalarSar 256, .scalarAnd 256, .scalarOr 256, .scalarXor 256, .scalarMadd 256,
      .scalarCmpeq 256, .scalarCmplt 256, .scalarCmpltu 256, .scalarLi 256, .scalarLds 256, .scalarSts 256,
      .scalarRdctr 256, .loop 256, .branchIf 256, .signalAdd 256, .signalSet 256, .signalDeliver 256 0, .wait 256,
      .fence 256, .barrierJoin 256, .attend 256, .selectionProgram 256 0, .attendBackward 256, .kvAppend 256,
      .bookMatch 256, .bookAttach 256, .bookInsert 256, .bookPeek 256, .sample 256 0, .sample 0 3] = true := by decide
theorem test_illFormed_cores3 : allBad [
      .gambitVerify 256 0, .gambitVerify 0 3, .dispatch 256, .collectReturn 256, .collectGather 256, .allreduce 256, .reduce 256,
      .broadcast 256, .allgather 256, .reducescatter 256, .bankProgram 256, .stockroomScrub 256 [],
      .clerkHeartbeatMiss 256] = true := by decide
theorem test_illFormed_vaults : allBad [
      .vltDiscard 0 288 0, .selectionProgram 0 288, .bankProgramStart 288, .bankItem 288 0, .bankNop 288 0,
      .bankMov 288 0, .bankAdd 288 0, .bankMax 288 0, .bankCmpge 288 0, .bankDot 288 0, .bankDotmax 288 0,
      .bankCopy 288 0, .bankEmita 288 0, .bankClra 288 0, .bankStepEnd 288, .reseal 288 0, .reseal 0 3, .enPassant 288,
      .bankPause 288, .bankEccPause 288 0 0, .bankUe 288 0 0, .flagScan 288, .vaultRead 288 0 0 0, .vaultRead 0 0 0 3,
      .vaultWrite 288 0 [], .writeDrain 288 0, .writeDrain 0 3, .mergeEvict 288 0 0 0, .mergeEvict 0 0 0 3, .granuleMaterialise 288 0, .refreshCommand 288 0,
      .interfaceRecentre 288, .rewriteVerify 288 0 0, .bucketLeak 288, .patrolScrub 288 0 0, .rowSpare 288,
      .remapReload 288 [], .remapReload 0 [524288], .patternRestore 288 0, .discardDone 288] = true := by decide
theorem test_illFormed_transports : allBad [
      .sessionOpen 2, .sessionClose 2, .sessionIdleTimeout 2, .getVersion 2 [0x13, 0x84, 0, 0],
      .getCapabilities 2 [0x13, 0xE1, 0, 0], .negotiateAlgorithms 2 [0x13, 0xE3, 0, 0],
      .getDigests 2 [0x13, 0x81, 0, 0], .getCertificate 2 [0x13, 0x82, 0, 0], .challenge 2 [0x13, 0x83, 0, 0],
      .getMeasurements 2 [0x13, 0xE0, 0, 0], .chunkSend 2 [0x13, 0x85, 0, 0], .chunkGet 2 [0x13, 0x86, 0, 0],
      .getInfo 2 0, .resetDevice 2 0, .setOwner 2 0 (List.replicate 32 0), .setGuildKey 2 0 (List.replicate 32 0),
      .readLog 2 0 0 0, .writeConfig 2 0 0 1 [0], .writeImage 2 0 0 0 1 [0]] = true := by decide
theorem test_illFormed_partitions : allBad [
      .requestDoorbell 0 64 0, .tokenHeadDoorbell 0 64 0, .submit 64, .continue 64, .partitionResetDone 64,
      .stepStart 64, .draftSubstep 64, .stepEnd 64, .tokenMsix 64, .adoptTimeout 64 0, .hostReadTimeout 64 0 0 0] = true := by decide
theorem test_illFormed_records : allBad [
      .createPartition (List.replicate 15 0), .loadPattern (List.replicate 15 0),
      .restoreContext (List.replicate 15 0), .dropPattern (List.replicate 15 0), .setPolicy (List.replicate 15 0),
      .serve (List.replicate 15 0), .quiesce (List.replicate 15 0), .resetPartition (List.replicate 15 0),
      .destroyPartition (List.replicate 15 0), .openStream (List.replicate 15 0),
      .parkStream (List.replicate 15 0), .cancelStream (List.replicate 15 0), .snapshot (List.replicate 15 0),
      .joinGuild (List.replicate 15 0), .leaveGuild (List.replicate 15 0)] = true := by decide
theorem test_illFormed_looms : allBad [
      .loomOrderStart 0 4, .fillWindowExpired 0 4 0, .weightTileArrive 0 4, .shadowLoadDone 0 4,
      .loomTileStart 0 4, .boundaryPauseEnd 0 4, .shelfSlotFull 0 4, .loomRecompute 0 4 0, .treadleWindow 0 4 0,
      .treadleGapExpired 0 4] = true := by decide
theorem test_illFormed_banks : allBad [
      .bankItem 0 128, .bankNop 0 128, .bankMov 0 128, .bankAdd 0 128, .bankMax 0 128, .bankCmpge 0 128,
      .bankDot 0 128, .bankDotmax 0 128, .bankCopy 0 128, .bankEmita 0 128, .bankClra 0 128, .refreshCommand 0 128] = true := by decide
theorem test_illFormed_halves : allBad [
      .watchmanTakeover 2, .watchmanHandback 2, .meshFlit 2 0 0 none false, .meshPacket 2 0 0 [], .d2dFlit 0 2 0,
      .d2dClockSilence 0 2, .castlingGraceful 2, .castlingAbrupt 2, .castleSwitch 2, .watchmanBandSelect 2] = true := by decide
theorem test_illFormed_ports : allBad [
      .fabFrame 8 0, .fabPortDown 8, .wavelengthFail 8 0, .ringTuneTick 8 0 0, .laserWaitDone 8,
      .ringLockDone 8 false, .alignDone 8 0 0 0 0, .fabPortRetry 8] = true := by decide
theorem test_illFormed_messages : allBad [
      .put ⟨256, 0, 0, 0, 0, false, 0, []⟩, .getReq ⟨256, 0, 0, 0, 0, false, 0, []⟩,
      .getRsp ⟨256, 0, 0, 0, 0, false, 0, []⟩, .ack ⟨256, 0, 0, 0, 0, false, 0, []⟩,
      .coll ⟨256, 0, 0, 0, 0, false, 0, []⟩, .barJoin ⟨256, 0, 0, 0, 0, false, 0, []⟩,
      .barRelease ⟨256, 0, 0, 0, 0, false, 0, []⟩, .snapMark ⟨256, 0, 0, 0, 0, false, 0, []⟩,
      .heartbeat ⟨256, 0, 0, 0, 0, false, 0, []⟩, .linkState ⟨256, 0, 0, 0, 0, false, 0, []⟩,
      .shed ⟨256, 0, 0, 0, 0, false, 0, []⟩, .reset ⟨256, 0, 0, 0, 0, false, 0, []⟩,
      .msg ⟨256, 0, 0, 0, 0, false, 0, []⟩, .mirrorEntry ⟨256, 0, 0, 0, 0, false, 0, []⟩,
      .mirrorTokens ⟨256, 0, 0, 0, 0, false, 0, []⟩, .mirrorRelease ⟨256, 0, 0, 0, 0, false, 0, []⟩,
      .deviceLost ⟨256, 0, 0, 0, 0, false, 0, []⟩, .joinChal ⟨256, 0, 0, 0, 0, false, 0, []⟩,
      .joinResp ⟨256, 0, 0, 0, 0, false, 0, []⟩, .joinDone ⟨256, 0, 0, 0, 0, false, 0, []⟩] = true := by decide
theorem test_illFormed_requests : allBad [
      .getVersion 0 [0x13, 0, 0, 0], .getCapabilities 0 [0x13, 0, 0, 0], .negotiateAlgorithms 0 [0x13, 0, 0, 0],
      .getDigests 0 [0x13, 0, 0, 0], .getCertificate 0 [0x13, 0, 0, 0], .challenge 0 [0x13, 0, 0, 0],
      .getMeasurements 0 [0x13, 0, 0, 0], .chunkSend 0 [0x13, 0, 0, 0], .chunkGet 0 [0x13, 0, 0, 0]] = true := by decide
theorem test_illFormed_bounds1 : allBad [
      .regWrite 0 52428800 false 0, .regReadLowLatch 0 0 52428800 false, .readReg 0 52428800 false,
      .writeReg 0 52428800 false 0, .regReadLowLatch 0 16384 0 false, .badAccess 0 16384 false,
      .hostConfigRequest 0 16384 none, .hostNearRead 0 16384 0 1, .fenceHoldExpired 0 16384, .clearCounts 0 12800,
      .intForce 0 12800 0, .svnCommitFirmware 0 128, .svnCommitIdentity 0 128, .svnCommitOwner 0 128,
      .svnCommitGuild 0 128, .streamUnpark 262144, .streamDrainDone 262144, .recomputeStep 262144,
      .adoptTimeout 0 262144, .pageDemote 33554432, .pagePromote 33554432, .pageMoveDone 33554432,
      .ledgerPageFree 33554432, .orderRefetch 0 4, .clerkBufferParity 0 4, .fillWindowExpired 0 0 2,
      .loomRecompute 0 0 3, .treadleWindow 0 0 1000001, .elemGroupIssue 0 4, .elemParityReload 0 2, .tallySum 0 3,
      .tallyMax 0 3, .tallyMin 0 3, .tallyArgmax 0 3, .tallyTopk 0 3, .tallyRmaxsum 0 3, .tallyHist 0 3,
      .tallyCount 0 3, .tallyScan 0 3, .bankEccPause 0 16777216 0, .bankUe 0 16777216 0, .mergeEvict 0 16777216 0 0,
      .rewriteVerify 0 16777216 0, .vaultRead 0 1073741824 0 0, .vaultWrite 0 1073741824 [],
      .granuleMaterialise 0 262144, .patternRestore 0 262144, .migrateGranule 0 262144 false,
      .meshFlit 0 144 0 none false, .meshFlit 0 0 144 none false, .meshFlit 0 0 0 (some ⟨288, 0, true, true, List.replicate 64 0, 0⟩) true,
      .meshFlit 0 0 0 (some ⟨0, 4, true, true, List.replicate 64 0, 0⟩) true, .meshFlit 0 0 0 (some ⟨0, 0, true, true, List.replicate 63 0, 0⟩) true, .meshPacket 0 288 0 [], .meshPacket 0 0 288 [],
      .d2dFlit 16 0 0, .d2dRetrain 16 false, .wavelengthFail 0 16, .alignDone 0 4096 0 0 0, .alignDone 0 0 64 0 0,
      .deviceHoldExpired 64, .alignDone 0 0 0 8 0, .hostReadTimeout 0 4 0 0, .hostReadTimeout 0 0 0 3, .farReadFail 0 0 2] = true := by decide
theorem test_illFormed_bounds2 : allBad [
      .perstDeassert 17 0 false, .perstDeassert 0 6 false, .flrVf 65, .farReadFail 4 0 0, .farHoldExpired 4 0,
      .farEventPoll 4 [], .farPortDown 4, .farReadFail 0 1099511627776 0, .farHoldExpired 0 1099511627776,
      .sealedMove 50001, .railFault 6, .interfaceTrained 317 false, .startUpTestDone [] [] [] [] [] [] 4096,
      .migrateGranule 256 0 false, .oldShellLost 256, .getInfo 0 256, .resetDevice 0 256,
      .setOwner 0 256 (List.replicate 32 0), .setGuildKey 0 256 (List.replicate 32 0), .readReg 256 0 false,
      .writeReg 256 0 false 0, .readLog 0 256 0 0, .writeConfig 0 256 0 1 [0], .writeImage 0 256 0 0 1 [0],
      .writeConfig 0 0 0 2049 (List.replicate 2049 0), .writeImage 0 0 0 0 2049 (List.replicate 2049 0),
      .writeImage 0 0 2 0 1 [0]] = true := by decide
theorem test_illFormed_lengths : allBad [
      .hostNearRead 0 0 0 0, .flrVf 0, .housekeepingRound [] 0, .setOwner 0 0 [], .setGuildKey 0 0 [],
      .vaultWrite 0 0 [], .vaultWrite 0 60 [0, 0, 0, 0, 0], .stockroomScrub 0 [(8, 1)], .stockroomScrub 0 [(0, 0)],
      .stockroomScrub 0 [(0, 3)], .meshPacket 0 0 0 (List.replicate 4097 0), .hostNearRead 0 0 0 4097,
      .hostNearWrite 0 0 [], .hostNearWrite 0 0 (List.replicate 4097 0), .startUpTestDone [288] [] [] [] [] [] 0,
      .startUpTestDone [] [288] [] [] [] [] 0, .startUpTestDone [] [] [16] [] [] [] 0,
      .startUpTestDone [] [] [] [4] [] [] 0, .startUpTestDone [] [] [] [] [8] [] 0,
      .startUpTestDone [] [] [] [] [] [2] 0, .writeConfig 0 0 0 2 [0], .writeImage 0 0 0 0 2 [0],
      .serve (List.replicate 16 4294967296), .chunkGet 0 [0x13], .put ⟨0, 64, 0, 0, 0, false, 0, []⟩,
      .put ⟨0, 0, 64, 0, 0, false, 0, []⟩, .put ⟨0, 0, 0, 4096, 0, false, 0, []⟩,
      .put ⟨0, 0, 0, 0, 4096, false, 0, []⟩, .put ⟨0, 0, 0, 0, 0, false, 18446744073709551616, []⟩,
      .put ⟨0, 0, 0, 0, 0, false, 0, List.replicate 577 0⟩] = true := by decide
theorem test_wellFormed : ([.load 255, .vaultRead 287 1073741823 0 2, .meshFlit 1 143 143 (some ⟨287, 3, false, true, List.replicate 64 0, 63⟩) true, .remapReload 0 [524287], .vaultWrite 0 60 [0, 0, 0, 0], .serve (List.replicate 16 4294967295),
      .getVersion 1 [0x13, 0x84, 0, 0],
      .put ⟨255, 63, 63, 4095, 4095, true, 18446744073709551615, List.replicate 576 0⟩, .flrVf 64,
      .writeConfig 1 255 0 2048 (List.replicate 2048 0), .sealedMove 50000,
      .startUpTestDone [287] [0] [15] [3] [7] [1] 4095] : List Instr).all Instr.wf = true := by decide

end Sys2Proof.Tests
end

section
/-! PROOFS. Frames: what one effect after another leaves, what stays within a reach, and how registers, fields, s-registers and
counters read after a write. -/

namespace Sys2Proof.Machine

/-- Every part of one reach is a part of another. -/
def Reach.within (f g : Reach) : Bool :=
  [(f.regs, g.regs), (f.cores, g.cores), (f.vaults, g.vaults), (f.parts, g.parts), (f.roll, g.roll), (f.ledg, g.ledg),
   (f.book, g.book), (f.alm, g.alm), (f.adm, g.adm), (f.fab, g.fab), (f.snap, g.snap), (f.d2d, g.d2d), (f.mesh, g.mesh),
   (f.host, g.host), (f.far, g.far), (f.pwr, g.pwr), (f.thm, g.thm), (f.boot, g.boot), (f.abs, g.abs), (f.sec, g.sec),
   (f.fuse, g.fuse), (f.elog, g.elog), (f.time, g.time), (f.free, g.free), (f.sent, g.sent)].all (fun p => !p.1 || p.2)

/-- What a reach takes, where what lies outside it is kept. -/
theorem ite_eq_of_kept {α : Type} {b : Bool} {x y : α} (h : b = false → x = y) : (if b then x else y) = x := by
  cases b with
  | true => rfl
  | false => exact (h rfl).symm

end Sys2Proof.Machine

namespace Sys2Proof.Safety

open Sys2Proof.Machine

variable {s t u : State} {f g : Reach} {keys keys' : List Nat}

theorem Kept.refl (f : Reach) (s : State) : Kept f s s := by constructor <;> simp

theorem Kept.trans (h : Kept f s t) (h' : Kept f t u) : Kept f s u := by
  constructor <;> intros <;> simp_all [h.regs, h.cores, h.vaults, h.parts, h.roll, h.ledg, h.book, h.alm, h.adm, h.fab, h.snap, h.d2d,
    h.mesh, h.host, h.far, h.pwr, h.thm, h.boot, h.abs, h.sec, h.fuse, h.elog, h.time, h.free, h.sent, h.fused, h.pending,
    h'.regs, h'.cores, h'.vaults, h'.parts, h'.roll, h'.ledg, h'.book, h'.alm, h'.adm, h'.fab, h'.snap, h'.d2d, h'.mesh, h'.host,
    h'.far, h'.pwr, h'.thm, h'.boot, h'.abs, h'.sec, h'.fuse, h'.elog, h'.time, h'.free, h'.sent, h'.fused, h'.pending]

theorem Kept.mono (h : Kept f s t) (hfg : f.within g = true) : Kept g s t := by
  simp only [Reach.within, List.all_cons, List.all_nil, Bool.and_true, Bool.and_eq_true, Bool.or_eq_true, Bool.not_eq_true'] at hfg
  constructor <;> intros <;> simp_all [h.regs, h.cores, h.vaults, h.parts, h.roll, h.ledg, h.book, h.alm, h.adm, h.fab, h.snap, h.d2d,
    h.mesh, h.host, h.far, h.pwr, h.thm, h.boot, h.abs, h.sec, h.fuse, h.elog, h.time, h.free, h.sent, h.fused, h.pending]

/-- What stays within a command's reach is all of its effect. -/
theorem Kept.take_eq {w : State} (h : Kept g s w) : g.take s w = w := by
  obtain ⟨hkeys, hrevoked, hseed, hrom⟩ := h.fused
  have hsec : (g.take s w).sec = w.sec := by
    show (if g.sec then _ else _) = _
    rw [← hkeys, ← hrevoked, ← hseed, ← hrom, ite_eq_of_kept h.fuse]
    exact ite_eq_of_kept h.sec
  cases w
  simp only [Reach.take, State.mk.injEq] at hsec ⊢
  exact ⟨ite_eq_of_kept (fun e => (h.regs e).1), ite_eq_of_kept (fun e => (h.regs e).2.1), ite_eq_of_kept (fun e => (h.regs e).2.2),
    ite_eq_of_kept h.cores, ite_eq_of_kept h.vaults, ite_eq_of_kept h.parts, ite_eq_of_kept (fun e => (h.roll e).1),
    ite_eq_of_kept (fun e => (h.roll e).2), ite_eq_of_kept (fun e => (h.ledg e).1), ite_eq_of_kept (fun e => (h.ledg e).2),
    ite_eq_of_kept h.book, ite_eq_of_kept h.alm, ite_eq_of_kept (fun e => (h.adm e).1), ite_eq_of_kept (fun e => (h.adm e).2.1),
    ite_eq_of_kept (fun e => (h.adm e).2.2.1), ite_eq_of_kept (fun e => (h.adm e).2.2.2.1),
    ite_eq_of_kept (fun e => (h.adm e).2.2.2.2.1), ite_eq_of_kept (fun e => (h.adm e).2.2.2.2.2), ite_eq_of_kept h.fab,
    ite_eq_of_kept h.snap, ite_eq_of_kept h.d2d, ite_eq_of_kept (fun e => (h.mesh e).1), ite_eq_of_kept (fun e => (h.mesh e).2.1),
    ite_eq_of_kept (fun e => (h.mesh e).2.2), ite_eq_of_kept h.host, ite_eq_of_kept h.far, ite_eq_of_kept h.pwr,
    ite_eq_of_kept h.thm, ite_eq_of_kept h.boot, ite_eq_of_kept h.abs, hsec, ite_eq_of_kept h.elog, ite_eq_of_kept h.time,
    ite_eq_of_kept h.free, ite_eq_of_kept h.sent, h.pending.symm⟩

theorem Kept.setReg (h : Kept f s t) (hf : f.regs = true) (code inst bank off : Nat) (v : DWord) :
    Kept f s (t.setReg code inst bank off v) :=
  { h with regs := fun e => by simp [hf] at e }

theorem Kept.bump (h : Kept f s t) (hf : f.regs = true) (code inst bank off n : Nat) : Kept f s (t.bump code inst bank off n) :=
  h.setReg hf ..

theorem Kept.setFld (h : Kept f s t) (hf : f.regs = true) (code inst bank off hi lo x : Nat) :
    Kept f s (t.setFld code inst bank off hi lo x) :=
  h.setReg hf ..

theorem Kept.noteClamps (h : Kept f s t) (hf : f.regs = true) (code inst n : Nat) : Kept f s (t.noteClamps code inst n) := by
  unfold State.noteClamps State.bumpSat
  split
  · exact h
  · exact (h.setReg hf ..).setFld hf ..

theorem Kept.dropLatch (h : Kept f s t) (hf : f.regs = true) (fn code inst : Nat) : Kept f s (t.dropLatch fn code inst) :=
  { h with regs := fun e => by simp [hf] at e }

theorem Kept.emit (h : Kept f s t) (hf : f.sent = true) (o : Out) : Kept f s (t.emit o) :=
  { h with sent := fun e => by simp [hf] at e }

theorem Kept.modPart (h : Kept f s t) (hf : f.parts = true) (p : Nat) (x : Part → Part) : Kept f s (t.modPart p x) :=
  { h with parts := fun e => by simp [hf] at e }

theorem CoresKept.refl {cs : List Nat} : CoresKept s s cs := fun _ _ => rfl

theorem CoresKept.trans {cs : List Nat} (h : CoresKept s t cs) (h' : CoresKept t u cs) : CoresKept s u cs := fun d hd =>
  (h' d hd).trans (h d hd)

theorem CoresKept.of_cores_eq {cs : List Nat} (h : t.cores = s.cores) : CoresKept s t cs := fun d _ => by
  unfold State.core
  rw [h]

theorem CoresKept.setCore {cs : List Nat} (h : CoresKept s t cs) {c : Nat} (hc : c ∈ cs) (v : Core) : CoresKept s (t.setCore c v) cs :=
  fun d hd => (t.core_setCore_other v (ne_of_mem_of_not_mem hc hd).symm).trans (h d hd)

/-! ### Which stored registers an effect leaves -/

theorem RegsKept.of_regs_eq (h : t.regs = s.regs) : RegsKept s t keys := fun k _ => by rw [h]

theorem RegsKept.setReg (h : RegsKept s t keys) {code inst bank off : Nat} (v : DWord)
    (hk : regKey code (regInst code inst) bank off ∈ keys) : RegsKept s (t.setReg code inst bank off v) keys := fun k hne =>
  (State.setReg_regs_other t v (ne_of_mem_of_not_mem hk hne).symm).trans (h k hne)

theorem RegsKept.noteClamps (h : RegsKept s t keys) {code inst n : Nat} (hc : regKey code (regInst code inst) 0 hClamp ∈ keys)
    (hs : regKey code (regInst code inst) 0 hSts ∈ keys) : RegsKept s (t.noteClamps code inst n) keys := fun k hne =>
  (State.noteClamps_regs_other t (ne_of_mem_of_not_mem hc hne).symm (ne_of_mem_of_not_mem hs hne).symm).trans (h k hne)

theorem RegsKept.trans (h : RegsKept s t keys) (h' : RegsKept t u keys) : RegsKept s u keys := fun k hne =>
  (h' k hne).trans (h k hne)

theorem RegsKept.mono (h : RegsKept s t keys) (hk : ∀ k ∈ keys, k ∈ keys') : RegsKept s t keys' := fun k hne =>
  h k (fun hm => hne (hk k hm))

/-- A register outside the listed keys reads as before. -/
theorem RegsKept.reg_eq (h : RegsKept s t keys) {code inst bank off : Nat} (hk : regKey code (regInst code inst) bank off ∉ keys) :
    t.reg code inst bank off = s.reg code inst bank off := by
  unfold State.reg smGet
  rw [h _ hk]

end Sys2Proof.Safety

namespace Sys2Proof.Machine

variable {s : State}

/-! ### What reads the same parts of the state reads the same -/

theorem State.core_congr {t : State} (h : t.cores = s.cores) (c : Nat) : t.core c = s.core c := by
  unfold State.core
  rw [h]

theorem State.sreg_congr {t : State} (h : t.cores = s.cores) (c k : Nat) : t.sreg c k = s.sreg c k := by
  unfold State.sreg
  rw [State.core_congr h]

theorem State.ctr_congr {t : State} (h : t.cores = s.cores) (c k : Nat) : t.ctr c k = s.ctr c k := by
  unfold State.ctr
  rw [State.core_congr h]

theorem State.reg_congr {t : State} (h : t.regs = s.regs) (code inst bank off : Nat) :
    t.reg code inst bank off = s.reg code inst bank off := by
  unfold State.reg
  rw [h]

variable (s)

/-! ### What registers and fields read as after a write -/

theorem regKey_ne_of_off {code inst bank off code' inst' bank' off' : Nat} (h : off % 4096 ≠ off' % 4096) :
    regKey code inst bank off ≠ regKey code' inst' bank' off' := by
  unfold regKey
  omega

theorem State.reg_bump_same (code inst bank off n : Nat) :
    (s.bump code inst bank off n).reg code inst bank off = s.reg code inst bank off + BitVec.ofNat 64 n :=
  s.reg_setReg_same ..

theorem State.reg_noteClamps_other {code inst n code' inst' bank' off' : Nat}
    (hc : regKey code' (regInst code' inst') bank' off' ≠ regKey code (regInst code inst) 0 hClamp)
    (hs : regKey code' (regInst code' inst') bank' off' ≠ regKey code (regInst code inst) 0 hSts) :
    (s.noteClamps code inst n).reg code' inst' bank' off' = s.reg code' inst' bank' off' := by
  unfold State.reg smGet
  rw [s.noteClamps_regs_other hc hs]

/-- A page's clamp count rises by the clamps, and ends at its largest value (R8, R507). -/
theorem State.reg_noteClamps_clamp (code inst n : Nat) :
    (s.noteClamps code inst n).reg code inst 0 hClamp =
      if n = 0 then s.reg code inst 0 hClamp else BitVec.ofNat 64 (min 0xFFFFFFFF ((s.reg code inst 0 hClamp).toNat + n)) := by
  unfold State.noteClamps
  split
  · rfl
  · exact (State.reg_setReg_other _ _ (regKey_off (by decide))).trans (s.reg_setReg_same ..)

theorem bits_setBits_same (v hi lo x : Nat) : bits (setBits v hi lo x) hi lo = x % 2 ^ (hi + 1 - lo) := by
  have hsplit : setBits v hi lo x
      = 2 ^ lo * (2 ^ (hi + 1 - lo) * (v / 2 ^ lo / 2 ^ (hi + 1 - lo)) + x % 2 ^ (hi + 1 - lo)) + v % 2 ^ lo := by
    have hv : v = 2 ^ lo * (2 ^ (hi + 1 - lo) * (v / 2 ^ lo / 2 ^ (hi + 1 - lo))) + 2 ^ lo * (v / 2 ^ lo % 2 ^ (hi + 1 - lo)) + v % 2 ^ lo := by
      rw [← Nat.mul_add, Nat.div_add_mod, Nat.div_add_mod]
    unfold setBits bits
    rw [Nat.shiftLeft_eq, Nat.shiftLeft_eq, Nat.shiftRight_eq_div_pow, Nat.mul_comm _ (2 ^ lo), Nat.mul_comm _ (2 ^ lo), Nat.mul_add]
    omega
  unfold bits
  rw [hsplit, Nat.shiftRight_eq_div_pow, Nat.mul_add_div (Nat.two_pow_pos lo), Nat.div_eq_of_lt (Nat.mod_lt _ (Nat.two_pow_pos lo)),
    Nat.add_zero, Nat.mul_add_mod, Nat.mod_mod]

/-- A field below bit n does not see the bits from n on. -/
theorem bits_mod_two_pow (v : Nat) {n hi lo : Nat} (h : hi < n) (hl : lo ≤ hi) : bits (v % 2 ^ n) hi lo = bits v hi lo := by
  unfold bits
  apply Nat.eq_of_testBit_eq
  intro i
  simp only [Nat.testBit_mod_two_pow, Nat.testBit_shiftRight]
  by_cases hi' : i < hi + 1 - lo
  · simp [show lo + i < n by omega]
  · simp [hi']

theorem State.fld_setReg_same (code inst bank off hi lo n : Nat) (h : hi < 64) (hl : lo ≤ hi) :
    (s.setReg code inst bank off (BitVec.ofNat 64 n)).fld code inst bank off hi lo = bits n hi lo := by
  unfold State.fld
  rw [State.reg_setReg_same, BitVec.toNat_ofNat, bits_mod_two_pow n h hl]

theorem State.fld_setFld_same (code inst bank off x : Nat) {hi lo : Nat} (h : hi < 64) (hl : lo ≤ hi) :
    (s.setFld code inst bank off hi lo x).fld code inst bank off hi lo = x % 2 ^ (hi + 1 - lo) :=
  (s.fld_setReg_same _ _ _ _ _ _ _ h hl).trans (bits_setBits_same ..)

end Sys2Proof.Machine
end

section
/-! PROOFS. The completion of an order (R9 to R11, R139, R143, R144): its steps, what each changes and leaves, and what a done
order's ORDER_COMPLETE answers. O7 is refuted at the end, beside the statement that holds. -/

namespace Sys2Proof.Machine

open Sys2Proof.Safety Sys2Proof.Claims

variable (s : State) (c : Nat) (f : Flight)

/-! #### What an order tells its core -/

/-- A started order leaves its core's flights. -/
def State.leave (s : State) (c id : Nat) : State :=
  s.modCore c (fun x => { x with flights := x.flights.filter (fun y => y.id != id) })

/-- An s-register takes a value where a bit of the order says so. -/
def State.setSregIf (s : State) (b : Bool) (c k : Nat) (v : DWord) : State := if b then s.setSreg c k v else s

/-- A counter rises where a bit of the order says so. -/
def State.signalIf (s : State) (b : Bool) (c k n : Nat) : State := if b then s.signal c k n else s

@[simp] theorem State.flights_leave (id : Nat) :
    ((s.leave c id).core c).flights = (s.core c).flights.filter (fun y => y.id != id) := by simp [State.leave]
@[simp] theorem State.flights_setSregIf (b : Bool) (k : Nat) (v : DWord) :
    ((s.setSregIf b c k v).core c).flights = (s.core c).flights := by cases b <;> simp [State.setSregIf, State.setSreg]
@[simp] theorem State.flights_signalIf (b : Bool) (k n : Nat) : ((s.signalIf b c k n).core c).flights = (s.core c).flights := by
  cases b <;> simp [State.signalIf, State.signal, State.setCtr]

@[simp] theorem State.sreg_leave (id k : Nat) : (s.leave c id).sreg c k = s.sreg c k := by simp [State.sreg, State.leave]
@[simp] theorem State.sreg_signalIf (b : Bool) (j n k : Nat) : (s.signalIf b c j n).sreg c k = s.sreg c k := by
  cases b <;> simp [State.sreg, State.signalIf, State.signal, State.setCtr]
@[simp] theorem State.sreg_setSregIf (b : Bool) (j : Nat) (v : DWord) (k : Nat) :
    (s.setSregIf b c j v).sreg c k = if b && decide (j % 64 = k % 64) then v else s.sreg c k := by
  unfold State.setSregIf State.sreg State.setSreg
  by_cases h : j % 64 = k % 64
  · cases b <;> simp [h]
  · cases b <;> simp [h, smGet_smSet_other _ _ _ v (Ne.symm h)]

@[simp] theorem State.ctr_leave (id k : Nat) : (s.leave c id).ctr c k = s.ctr c k := by simp [State.ctr, State.leave]
@[simp] theorem State.ctr_setSregIf (b : Bool) (j : Nat) (v : DWord) (k : Nat) : (s.setSregIf b c j v).ctr c k = s.ctr c k := by
  cases b <;> simp [State.ctr, State.setSregIf, State.setSreg]
@[simp] theorem State.ctr_signalIf (b : Bool) (j n k : Nat) :
    (s.signalIf b c j n).ctr c k = s.ctr c k + if b && decide (j % 64 = k % 64) then BitVec.ofNat 32 n else 0 := by
  unfold State.signalIf State.signal State.setCtr State.ctr
  by_cases h : j % 64 = k % 64
  · cases b <;> simp [h]
  · cases b <;> simp [h, smGet_smSet_other _ _ _ _ (Ne.symm h)]

end Sys2Proof.Machine

namespace Sys2Proof.Safety

open Sys2Proof.Machine

variable {s t : State} {f : Reach} {cs : List Nat}

theorem Kept.setSregIf (h : Kept f s t) (hf : f.cores = true) (b : Bool) (c k : Nat) (v : DWord) :
    Kept f s (t.setSregIf b c k v) := by
  cases b with
  | false => exact h
  | true => exact h.setCore hf ..

theorem Kept.signalIf (h : Kept f s t) (hf : f.cores = true) (b : Bool) (c k n : Nat) :
    Kept f s (t.signalIf b c k n) := by
  cases b with
  | false => exact h
  | true => exact h.setCore hf ..

theorem CoresKept.setSregIf (h : CoresKept s t cs) {c : Nat} (hc : c ∈ cs) (b : Bool) (k : Nat) (v : DWord) :
    CoresKept s (t.setSregIf b c k v) cs := by
  cases b with
  | false => exact h
  | true => exact h.setCore hc _

theorem CoresKept.signalIf (h : CoresKept s t cs) {c : Nat} (hc : c ∈ cs) (b : Bool) (k n : Nat) :
    CoresKept s (t.signalIf b c k n) cs := by
  cases b with
  | false => exact h
  | true => exact h.setCore hc _

end Sys2Proof.Safety

namespace Sys2Proof.Machine

open Sys2Proof.Safety Sys2Proof.Claims

variable (s : State) (c : Nat) (f : Flight)

/-! #### The steps of `State.complete` -/

/-- The status that a completion reports. -/
def Flight.reported (f : Flight) : Nat :=
  if f.status = stState || f.status = stQuota then f.status
  else statusOf [f.status, if f.replayed then stReplayed else stOk, if f.clamped || !f.owed.isEmpty then stClamped else stOk]

/-- The clamps that an order still owes are counted, unless it is refused (R10). -/
def State.payOwed (s : State) (f : Flight) : State :=
  if f.reported = stState || f.reported = stQuota then s else f.owed.foldl (fun s k => s.noteClamps k.1 k.2.1 k.2.2) s

/-- An order leaves its core's flights and tells its status, its error counter and its counter (R139, R143). -/
def State.tell (s : State) (c : Nat) (f : Flight) : State :=
  (((s.leave c f.id).setSregIf (bit (ordW f.ord 2) 14) c (bits (ordW f.ord 2) 13 8) (BitVec.ofNat 64 f.reported)).signalIf
    (bit (ordW f.ord 2) 22 && !statusValid f.reported) c (bits (ordW f.ord 2) 21 16) 1).signalIf
      (bit f.ord 10) c (ordF f.ord 0 23 18) (bits (ordW f.ord 2) 7 0)

/-- A status other than OK and CLAMPED is counted, and the first such order is recorded (R143). -/
def State.recordNonok (s : State) (c : Nat) (f : Flight) : State :=
  if f.reported = stOk || f.reported = stClamped then s
  else
    let s' := s.bump pgClerk c 0 rClerkNonok 1
    if s'.fld pgClerk c 0 rClerkLastFault 31 31 = 1 then s'
    else s'.setReg pgClerk c 0 rClerkLastFault
      (BitVec.ofNat 64 (1 <<< 31 + f.idx <<< 15 + f.q <<< 13 + f.op <<< 5 + f.reported))

/-- The foreman hears of lost data and of a replay (R144). -/
def State.reportStep (s : State) (c : Nat) (f : Flight) : State :=
  let s1 := if f.reported = stLost then s.reportLost c (if listsStreams f.op then some f.lost else none) else s
  if f.reported = stReplayed then
    match s1.partOfCore c with
    | some p => s1.modPart p (fun x => { x with set := x.set.map (fun e =>
        if listsStreams f.op && !f.lost.contains e.stream && !f.lost.isEmpty then e else { e with replayed := true }) })
    | none => s1
  else s1

theorem State.complete_eq (h : (s.core c).flight f.id = some f) :
    s.complete c f.id = (((s.payOwed f).tell c f).recordNonok c f).reportStep c f := by
  unfold State.complete
  rw [h]
  rfl

/-! #### The status -/

theorem statusRank_of_ge {n : Nat} (h : 8 ≤ n) : statusRank n = 8 := by
  unfold statusRank
  split <;> omega

/-- The status reported is the first that applies in the order of R11. -/
theorem Flight.reported_eq_finalStatus : f.reported = finalStatus f := by
  unfold Flight.reported finalStatus
  generalize f.status = n, f.replayed = r, (f.clamped || !f.owed.isEmpty) = k
  rcases Nat.lt_or_ge n 8 with h | h
  · revert r k
    interval_cases n <;> decide
  · -- a code outside the table of R9 gives way to every other
    have hn : ∀ m < 8, n ≠ m := fun m hm => by omega
    have hq : (n = stState || n = stQuota) = false := by simp [stState, stQuota, hn]
    rw [hq]
    cases r <;> cases k <;> simp [hn, statusOf, statusJoin, statusRank_of_ge h] <;> simp [statusRank]

theorem statusValid_eq_validStatus (n : Nat) : statusValid n = validStatus n := rfl

/-! #### What each step leaves -/

theorem State.payOwed_kept : Kept { regs := true } s (s.payOwed f) := by
  unfold State.payOwed
  split
  · exact Kept.refl ..
  · generalize f.owed = l
    induction l generalizing s with
    | nil => exact Kept.refl ..
    | cons k r ih => exact ((Kept.refl _ s).noteClamps rfl ..).trans (ih _)

/-- The registers in which the owed clamps of an order are counted. -/
def owedKeys (owed : List (Nat × Nat × Nat)) : List Nat :=
  owed.flatMap (fun k => [regKey k.1 (regInst k.1 k.2.1) 0 hClamp, regKey k.1 (regInst k.1 k.2.1) 0 hSts])

theorem State.payOwed_regs : RegsKept s (s.payOwed f) (owedKeys f.owed) := by
  unfold State.payOwed
  split
  · exact RegsKept.of_regs_eq rfl
  · generalize f.owed = l
    induction l generalizing s with
    | nil => exact RegsKept.of_regs_eq rfl
    | cons k r ih =>
      have hfirst : RegsKept s (s.noteClamps k.1 k.2.1 k.2.2) (owedKeys (k :: r)) :=
        (RegsKept.of_regs_eq rfl).noteClamps (by simp [owedKeys]) (by simp [owedKeys])
      exact hfirst.trans ((ih _).mono fun x hx => by simp only [owedKeys, List.flatMap_cons, List.mem_append] at hx ⊢; exact .inr hx)

theorem State.tell_sreg (k : Nat) :
    (s.tell c f).sreg c k = if tellsStatus f.ord k then BitVec.ofNat 64 (finalStatus f) else s.sreg c k := by
  simp [State.tell, tellsStatus, f.reported_eq_finalStatus]

theorem State.tell_ctr (k : Nat) : (s.tell c f).ctr c k = s.ctr c k + completionAdds f k := by
  simp only [State.tell, State.ctr_signalIf, State.ctr_setSregIf, State.ctr_leave, completionAdds, tellsCounter,
    f.reported_eq_finalStatus, statusValid_eq_validStatus, BitVec.add_assoc, BitVec.add_comm (if _ then BitVec.ofNat 32 1 else 0)]
  rfl

theorem State.tell_flights : ((s.tell c f).core c).flights = (s.core c).flights.filter (fun g => g.id != f.id) := by
  simp [State.tell]

theorem State.tell_kept : Kept { cores := true } s (s.tell c f) := by
  have hleave : Kept { cores := true } s (s.leave c f.id) := (Kept.refl ..).setCore rfl ..
  exact ((hleave.setSregIf rfl ..).signalIf rfl ..).signalIf rfl ..

theorem State.tell_cores : CoresKept s (s.tell c f) [c] := by
  have hc : c ∈ [c] := List.mem_singleton_self c
  have hleave : CoresKept s (s.leave c f.id) [c] := CoresKept.refl.setCore hc _
  exact ((hleave.setSregIf hc _ _ _).signalIf hc _ _ _).signalIf hc _ _ _

theorem State.recordNonok_kept : Kept { regs := true } s (s.recordNonok c f) := by
  unfold State.recordNonok
  split
  · exact Kept.refl ..
  · dsimp only
    split
    · exact (Kept.refl ..).bump rfl ..
    · exact ((Kept.refl ..).bump rfl ..).setReg rfl ..

theorem State.recordNonok_regs :
    RegsKept s (s.recordNonok c f) [regKey pgClerk c 0 rClerkNonok, regKey pgClerk c 0 rClerkLastFault] := by
  have hbump : RegsKept s (s.bump pgClerk c 0 rClerkNonok 1) [regKey pgClerk c 0 rClerkNonok, regKey pgClerk c 0 rClerkLastFault] :=
    (RegsKept.of_regs_eq rfl).setReg _ (by simp [regInst])
  unfold State.recordNonok
  split
  · exact RegsKept.of_regs_eq rfl
  · dsimp only
    split
    · exact hbump
    · exact hbump.setReg _ (by simp [regInst])

/-- CLERK_NONOK counts the statuses other than OK and CLAMPED (R143). -/
theorem State.recordNonok_count : (s.recordNonok c f).reg pgClerk c 0 rClerkNonok
    = s.reg pgClerk c 0 rClerkNonok + if f.reported = 0 ∨ f.reported = 1 then 0 else 1 := by
  unfold State.recordNonok
  by_cases h : f.reported = 0 ∨ f.reported = 1
  · simp [h]
  · have hb := s.reg_bump_same pgClerk c 0 rClerkNonok 1
    simp only [Bool.or_eq_true, decide_eq_true_eq, h, if_false]
    split
    · exact hb
    · rw [State.reg_setReg_other _ _ (regKey_off (by decide))]
      exact hb

theorem State.reportStep_kept : Kept { parts := true } s (s.reportStep c f) := by
  have hlost : Kept { parts := true } s (if f.reported = stLost then s.reportLost c (if listsStreams f.op then some f.lost else none) else s) := by
    unfold State.reportLost
    split
    · split
      · exact (Kept.refl ..).modPart rfl ..
      · exact Kept.refl ..
    · exact Kept.refl ..
  unfold State.reportStep
  dsimp only
  split
  · split
    · exact hlost.modPart rfl ..
    · exact hlost
  · exact hlost

/-- No owed clamp is counted in CLERK_NONOK. -/
theorem nonok_not_owed (c : Nat) (owed : List (Nat × Nat × Nat)) : regKey pgClerk (regInst pgClerk c) 0 rClerkNonok ∉ owedKeys owed := by
  simp only [owedKeys, List.mem_flatMap, List.mem_cons, List.not_mem_nil, or_false, not_exists, not_and, not_or]
  exact fun _ _ => ⟨regKey_ne_of_off (by decide), regKey_ne_of_off (by decide)⟩

/-! #### The whole completion -/

variable {s c f}

theorem State.complete_kept (h : (s.core c).flight f.id = some f) :
    Kept { regs := true, cores := true, parts := true } s (s.complete c f.id) := by
  rw [State.complete_eq s c f h]
  exact ((((s.payOwed_kept f).mono rfl).trans ((State.tell_kept _ c f).mono rfl)).trans
    ((State.recordNonok_kept _ c f).mono rfl)).trans ((State.reportStep_kept _ c f).mono rfl)

/-- Only what an order tells changes the cores. -/
theorem State.complete_cores_eq (h : (s.core c).flight f.id = some f) :
    (s.complete c f.id).cores = ((s.payOwed f).tell c f).cores := by
  rw [State.complete_eq s c f h, (State.reportStep_kept _ c f).cores rfl, (State.recordNonok_kept _ c f).cores rfl]

/-- Only the owed clamps and the record of a status change the registers. -/
theorem State.complete_regs_eq (h : (s.core c).flight f.id = some f) :
    (s.complete c f.id).regs = (((s.payOwed f).tell c f).recordNonok c f).regs := by
  rw [State.complete_eq s c f h, ((State.reportStep_kept _ c f).regs rfl).1]

theorem State.settle_of_done (h : (s.core c).flight f.id = some f) (hd : f.done = true) : s.settle c f.id = s := by
  unfold State.settle
  simp [h, hd]

/-- A done order of a core whose step stands completes at once, unless a half's copies are to be replayed (R143, R465). -/
theorem exec_orderComplete_of_done (h : (s.core c).flight f.id = some f) (hd : f.done = true) (ha : s.abandoned c = false)
    (hr : s.replayHolds = false) : exec (.orderComplete c f.id) s = .next (s.complete c f.id) := by
  show execOrderComplete c f.id s = _
  unfold execOrderComplete
  simp only [h, ha, State.settle_of_done h hd, hd, hr]
  simp only [Bool.false_and, Bool.and_false, Bool.not_true, Bool.false_eq_true, if_false]
  exact congrArg _ ((State.complete_kept h).mono rfl).take_eq

end Sys2Proof.Machine

namespace Sys2Proof.Proofs

open Sys2Proof Sys2Proof.Machine Sys2Proof.Safety Sys2Proof.Claims

/-- The registers that the completion of an order of core c may write. -/
def completionKeys (c : Nat) (f : Flight) : List Nat :=
  [regKey pgClerk c 0 rClerkNonok, regKey pgClerk c 0 rClerkLastFault] ++ owedKeys f.owed

/-- What a completion reports and leaves (R9, R11, R139, R143). Both FORE_ and both PORT_ pages show one set of registers (R255), so
a clamp owed to either page is counted in the registers of number 0, as `owedKeys` says. -/
theorem orderComplete_reports {s : State} {c : Nat} {f : Flight} (h : (s.core c).flight f.id = some f) (hd : f.done = true)
    (ha : s.abandoned c = false) (hr : s.replayHolds = false) :
    ∃ t, exec (.orderComplete c f.id) s = .next t
      ∧ (t.core c).flights = (s.core c).flights.filter (fun g => g.id != f.id)
      ∧ (∀ k, t.sreg c k = if tellsStatus f.ord k then BitVec.ofNat 64 (finalStatus f) else s.sreg c k)
      ∧ (∀ k, t.ctr c k = s.ctr c k + completionAdds f k)
      ∧ t.reg pgClerk c 0 rClerkNonok = s.reg pgClerk c 0 rClerkNonok + (if finalStatus f = 0 ∨ finalStatus f = 1 then 0 else 1)
      ∧ CoresKept s t [c] ∧ RegsKept s t (completionKeys c f)
      ∧ Kept { regs := true, cores := true, parts := true } s t := by
  have hcores := State.complete_cores_eq h
  have hpaid : (s.payOwed f).cores = s.cores := (s.payOwed_kept f).cores rfl
  have htold : ((s.payOwed f).tell c f).regs = (s.payOwed f).regs := ((State.tell_kept _ c f).regs rfl).1
  have hregs := State.complete_regs_eq h
  refine ⟨_, exec_orderComplete_of_done h hd ha hr, ?_, fun k => ?_, fun k => ?_, ?_, ?_, ?_, State.complete_kept h⟩
  · rw [State.core_congr hcores, State.tell_flights, State.core_congr hpaid]
  · rw [State.sreg_congr hcores, State.tell_sreg, State.sreg_congr hpaid]
  · rw [State.ctr_congr hcores, State.tell_ctr, State.ctr_congr hpaid]
  · rw [State.reg_congr hregs, State.recordNonok_count, f.reported_eq_finalStatus, State.reg_congr htold,
      (s.payOwed_regs f).reg_eq (nonok_not_owed c f.owed)]
  · exact ((CoresKept.of_cores_eq hpaid).trans (State.tell_cores _ c f)).trans (CoresKept.of_cores_eq hcores)
  · have hpay : RegsKept s (s.payOwed f) (completionKeys c f) := (s.payOwed_regs f).mono fun _ hk => List.mem_append_right _ hk
    have hrecord := (State.recordNonok_regs ((s.payOwed f).tell c f) c f).mono (keys' := completionKeys c f)
      fun _ hk => List.mem_append_left _ hk
    exact ((hpay.trans (RegsKept.of_regs_eq htold)).trans hrecord).trans (RegsKept.of_regs_eq hregs)

/-- A done order of core 0 that owes a clamp to FORE_ page 1. -/
def owesFore : Flight := {
  id := 0, q := 0, idx := 0, ord := 0, op := 0x01, clamped := false, status := stOk, done := true,
  owed := [(pgFore, 1, 1)] }

/-- The state that holds it. -/
def owing : State := { cores := [(0, { flights := [owesFore] })] }

/-- Refutes O7: it names the registers of an owed clamp by the number of the page, but both FORE_ pages show one set of registers
(R255). The clamp that `owesFore` owes to FORE_ page 1 is counted in the registers of number 0, which O7 says are unchanged. No
command of the model owes a clamp to a FORE_ or PORT_ page; `orderComplete_reports` is the statement for every order, with the
registers named as the model names them. -/
theorem not_completionReportsStatusAndCounters : ¬ Obligations.CompletionReportsStatusAndCounters := by
  unfold Obligations.CompletionReportsStatusAndCounters
  intro h
  have hflight : (owing.core 0).flight owesFore.id = some owesFore := by decide
  obtain ⟨t, hexec, -, -, -, -, -, hregs, -⟩ := h owing 0 owesFore hflight rfl (by decide) (by decide)
  rw [exec_orderComplete_of_done hflight rfl (by decide) (by decide)] at hexec
  cases hexec
  have hkept := hregs (regKey pgFore 0 0 hClamp) (by decide)
  have hcounted : smFind (owing.complete 0 owesFore.id).regs (regKey pgFore 0 0 hClamp) = some 1 := by decide
  rw [hcounted] at hkept
  exact absurd hkept (by decide)

end Sys2Proof.Proofs
end

section
/-! PROOFS. Accesses to registers (R7, R8, R10, R502, R505 to R507, R515): where they fall, what a write and a read of a page do,
and what the commands that access a register leave. O47 is settled at the end. -/

namespace Sys2Proof.Machine

open Sys2Proof.Safety Sys2Proof.Claims

variable {s : State} {fn tag off code inst o : Nat} {wide : Bool}

/-! #### Where an access falls -/

theorem State.hitPage_page {code' inst' o : Nat} (h : s.hitPage fn code inst off = .page code' inst' o) :
    o = off := by
  unfold State.hitPage at h
  repeat' split at h
  all_goals simp_all

/-- An access meets the register at its offset in the page. -/
theorem State.hitAt_off (h : s.hitAt fn off = .page code inst o) : o = off % 4096 := by
  unfold State.hitAt at h
  split at h
  · split at h
    · split at h <;> cases h
    · split at h
      · exact State.hitPage_page h
      · split at h <;> cases h
  · split at h
    · exact State.hitPage_page h
    · split at h <;> cases h

/-- An access that meets an aligned register is legal (R502). -/
theorem State.legal_of_hitAt (h : s.hitAt fn off = .page code inst o) (ho : o % (if wide then 8 else 4) = 0) :
    legalAccess off wide = true := by
  have := State.hitAt_off h
  cases wide <;> simp [legalAccess] at ho ⊢ <;> omega

theorem State.barWrite_hits (h : Hits s fn off code inst o) (ho : o % (if wide then 8 else 4) = 0) (v : Nat) :
    s.barWrite fn off wide v = s.writeAccess fn code inst o wide v := by
  obtain ⟨hon, hhit⟩ := h
  simp [State.barWrite, hhit, hon, State.legal_of_hitAt hhit ho, State.writeHit]

theorem State.barRead_hits (h : Hits s fn off code inst o) (ho : o % (if wide then 8 else 4) = 0) (tag : Nat) :
    s.barRead fn tag off wide
      = (s.readWord fn code inst o wide).1.emit (.data fn tag (BitVec.ofNat 64 (s.readWord fn code inst o wide).2)) := by
  obtain ⟨hon, hhit⟩ := h
  simp [State.barRead, hhit, hon, State.legal_of_hitAt hhit ho, State.readHit]

/-! #### What a write finds -/

/-- The state in which a write of a function to a page acts: its read latch is dropped, and a SEC_ write keeps its session from
the idle limit (R496, R502). -/
def State.accessed (s : State) (fn code inst : Nat) : State :=
  (if code = pgSec then (match transportOf fn with | some t => s.touchSession t | none => s) else s).dropLatch fn code inst

theorem State.writeAccess_eq (v : Nat) : s.writeAccess fn code inst off false v
    = (s.accessed fn code inst).write4 (State.writeReg fn) (State.denies fn) code inst off (v % 4294967296) := rfl

theorem State.touchSession_kept (t : Nat) : Kept { sec := true } s (s.touchSession t) := by
  unfold State.touchSession State.setSession
  split <;> constructor <;> simp

theorem State.accessed_kept : Kept { regs := true, sec := true } s (s.accessed fn code inst) := by
  unfold State.accessed
  refine Kept.dropLatch ?_ rfl ..
  split
  · split
    · exact (State.touchSession_kept _).mono rfl
    · exact Kept.refl ..
  · exact Kept.refl ..

theorem State.accessed_regs : (s.accessed fn code inst).regs = s.regs := by
  unfold State.accessed
  show State.regs (if _ then _ else _) = _
  split
  · split
    · exact ((State.touchSession_kept _).regs rfl).1
    · rfl
  · rfl

theorem State.accessed_of_ne_sec (h : code ≠ pgSec) : s.accessed fn code inst = s.dropLatch fn code inst := by
  simp [State.accessed, h]

/-- A 4 B write of a header register (R505). -/
theorem State.writeAccess_head (h : off < 0x40) (v : Nat) :
    s.writeAccess fn code inst off false v = (s.accessed fn code inst).writeHead code inst off (v % 4294967296) := by
  rw [State.writeAccess_eq, State.write4, if_pos h]

/-- A 4 B write of a 32-bit register. -/
theorem State.writeAccess_narrow {d : RegDef} (hoff : 0x40 ≤ off) (hd : regFind code off = some d) (hw : d.wide = false) (v : Nat) :
    s.writeAccess fn code inst off false v = State.writeReg fn (s.accessed fn code inst) code inst off (v % 4294967296) := by
  simp [State.writeAccess_eq, State.write4, regStart, hd, hw, Nat.not_lt.2 hoff]

/-! #### PWR_CAP -/

theorem regFind_pwrCap : regFind pgPwr rPwrCap = some ⟨0x040, 4, 1, false, false, [⟨11, 0, .rw, 2400, 350, 2400⟩]⟩ := by decide

/-- PWR_CAP takes its value held to its range, and a value out of it is one clamp (R7, R8). -/
theorem State.writeReg_pwrCap (w : Nat) : State.writeReg fn s pgPwr 0 rPwrCap w
    = (s.setFld pgPwr 0 0 rPwrCap 11 0 (clampNat 350 2400 (bits w 11 0))).noteClamps pgPwr 0
        (b2n (clampNat 350 2400 (bits w 11 0) != bits w 11 0)) := by
  have hpf1 : pf1Only pgPwr rPwrCap = false := rfl
  have hhalf : pageHalf pgPwr 0 = none := rfl
  have hrefuse : s.devRefuses pgPwr 0 rPwrCap = false := rfl
  simp [State.writeReg, regFind_pwrCap, RegDef.takes, hpf1, hhalf, hrefuse, State.setFld]

/-! #### STW_SERIAL -/

theorem regFind_serial :
    regFind pgIdent rStwSerial = some ⟨0x048, 4, 1, true, false, [⟨63, 0, .ro, 0, 0, 18446744073709551615⟩]⟩ := by decide

theorem regFind_serial_high : regFind pgIdent (rStwSerial + 4) = none := by decide

/-- STW_SERIAL shows the serial, and 0 until the identity is loaded (R511). -/
theorem State.startWord_serial (x : Nat) : s.startWord State.live pgIdent 0 rStwSerial
    ⟨0x048, 4, 1, true, false, [⟨63, 0, .ro, 0, 0, x⟩]⟩ = (s, s.serialWord % 18446744073709551616) := by
  have htimed : s.untimed pgIdent 0 0 rStwSerial = false := rfl
  have hlive : s.live pgIdent 0 0 rStwSerial = some s.serialWord := by
    show s.identLive rStwSerial = _
    unfold State.identLive State.serialWord
    cases s.boot.idLoaded <;> rfl
  simp [State.startWord, htimed, hlive, RegDef.shown, bits]

theorem State.serialWord_dropLatch : (s.dropLatch fn code inst).serialWord = s.serialWord := rfl

/-- The high half of a register is latched for the next read at its offset. -/
def State.holdLatch (s : State) (k off : Nat) (v : DWord) : State := { s with latch := smPut s.latch k (off, v) }

end Sys2Proof.Machine

namespace Sys2Proof.Safety

open Sys2Proof.Machine

theorem Kept.holdLatch {s t : State} {f : Reach} (h : Kept f s t) (hf : f.regs = true) (k o : Nat) (v : DWord) :
    Kept f s (t.holdLatch k o v) :=
  { h with regs := fun e => by simp [hf] at e }

end Sys2Proof.Safety

namespace Sys2Proof.Machine

open Sys2Proof.Safety Sys2Proof.Claims

variable {s : State} {fn tag off code inst o : Nat} {wide : Bool}

/-- A 4 B read of STW_SERIAL answers its low half and latches its high half (R502). -/
theorem State.readWord_serial_low : s.readWord fn pgIdent 0 rStwSerial false
    = ((s.dropLatch fn pgIdent 0).holdLatch (latchKey fn pgIdent 0) (rStwSerial + 4)
        (BitVec.ofNat 64 (s.serialWord % 18446744073709551616 / 4294967296)),
       s.serialWord % 18446744073709551616 % 4294967296) := by
  show s.read4 State.live fn pgIdent 0 rStwSerial = _
  simp [State.read4, regFind_serial, State.startWord_serial, State.serialWord_dropLatch, State.holdLatch]

/-- A read of the high half answers what the low half's read has latched (R502). -/
theorem State.readWord_serial_high {v : DWord} (h : smFind s.latch (latchKey fn pgIdent 0) = some (rStwSerial + 4, v)) :
    s.readWord fn pgIdent 0 (rStwSerial + 4) false = (s.dropLatch fn pgIdent 0, v.toNat) := by
  show s.read4 State.live fn pgIdent 0 (rStwSerial + 4) = _
  simp [State.read4, regFind_serial_high, h]

/-- An 8 B read of STW_SERIAL answers it whole. -/
theorem State.readWord_serial_wide :
    s.readWord fn pgIdent 0 rStwSerial true = (s.dropLatch fn pgIdent 0, s.serialWord % 18446744073709551616) := by
  show s.readPage State.live fn pgIdent 0 rStwSerial true = _
  simp [State.readPage, regFind_serial, State.startWord_serial, State.serialWord_dropLatch]

/-! #### The mailbox's register commands -/

/-- A mailbox command that comes over the sideband and ends with OK (R514, R516). -/
theorem MboxRes.done_sideband {r : MboxRes} {tag c : Nat} (hr : r.status = stOk) (hs : r.s.sent = s.sent)
    (hn : r.s.reg pgStw 0 0 rStwMboxCmds = s.reg pgStw 0 0 rStwMboxCmds) (hc : c < 256) :
    MboxDone s (r.done 1 tag c) tag c r.data := by
  have hword : mboxStatus r.status tag c = (tag % 256) <<< 8 + c := by
    simp [mboxStatus, hr, Nat.mod_eq_of_lt hc, stOk]
  refine ⟨congrArg (BitVec.ofNat 32) hword, ?_, ?_⟩
  · show _ :: r.s.sent = _ :: s.sent
    rw [hs]
    rfl
  · show (r.s.bump pgStw 0 0 rStwMboxCmds 1).reg pgStw 0 0 rStwMboxCmds = _
    rw [State.reg_bump_same, hn]
    rfl

theorem MboxRes.done_regs_eq (r : MboxRes) (tag c : Nat) : (r.done 1 tag c).regs = (r.s.bump pgStw 0 0 rStwMboxCmds 1).regs := rfl

theorem MboxRes.done_kept {r : MboxRes} {tag c : Nat} (h : Kept { regs := true, sec := true, sent := true } s r.s) :
    Kept { regs := true, sec := true, sent := true } s (r.done 1 tag c) :=
  { h with
    regs := fun e => by simp at e
    sec := fun e => by simp at e
    sent := fun e => by simp at e }

/-! #### The interrupt registers -/

theorem State.setIntRegs_regs (code inst sts en : Nat) : (s.setIntRegs code inst sts en).regs
    = ((s.setReg code inst 0 hIntSts (BitVec.ofNat 64 sts)).setReg code inst 0 hIntEn (BitVec.ofNat 64 en)).regs := by
  unfold State.setIntRegs
  dsimp only
  split <;> rfl

theorem State.setIntRegs_kept (code inst sts en : Nat) : Kept { regs := true, sent := true } s (s.setIntRegs code inst sts en) := by
  have hset : Kept { regs := true, sent := true } s
      ((s.setReg code inst 0 hIntSts (BitVec.ofNat 64 sts)).setReg code inst 0 hIntEn (BitVec.ofNat 64 en)) :=
    ((Kept.refl _ s).setReg rfl ..).setReg rfl ..
  unfold State.setIntRegs
  dsimp only
  split
  · exact hset
  · exact (hset.emit rfl _).emit rfl _

/-- Forced interrupt bits are set, and the enables stand (R507). -/
theorem State.reg_intForce_sts (code inst v : Nat) : (s.intForce code inst v).reg code inst 0 hIntSts
    = BitVec.ofNat 64 ((s.reg code inst 0 hIntSts).toNat ||| (v &&& intBits code)) := by
  rw [State.intForce, State.setInt, State.reg_congr (State.setIntRegs_regs ..), State.reg_setReg_other _ _ (regKey_off (by decide)),
    State.reg_setReg_same]

theorem State.reg_intForce_en (code inst v : Nat) : (s.intForce code inst v).reg code inst 0 hIntEn = s.reg code inst 0 hIntEn := by
  rw [State.intForce, State.setInt, State.reg_congr (State.setIntRegs_regs ..), State.reg_setReg_same, BitVec.ofNat_toNat,
    BitVec.setWidth_eq]

/-! #### Commands that access a register -/

/-- A register write reaches at least what any command but a fuse's commit reaches. -/
theorem writeReach_covers (fn off : Nat) {f : Reach} (h : f.within reachDev = true) (h' : f.within reachAll = true) :
    f.within (writeReach fn off) = true := by
  unfold writeReach
  split
  · exact h'
  · exact h

theorem exec_regRead_hits {w : State} {x : Nat} (h : Hits s fn off code inst o) (ho : o % (if wide then 8 else 4) = 0)
    (hread : s.readWord fn code inst o wide = (w, x)) (hkept : Kept { regs := true, sent := true } s w) :
    exec (.regReadLowLatch fn tag off wide) s = .next (w.emit (.data fn tag (BitVec.ofNat 64 x))) := by
  show Host.Outcome.next (reachLink.take s (s.barRead fn tag off wide)) = _
  rw [State.barRead_hits h ho, hread, ((hkept.emit rfl _).mono rfl).take_eq]

theorem exec_readReg_on (hon : s.hubOn = true) (hrom : s.romOnly = false)
    (hkept : Kept { regs := true, sec := true, sent := true } s ((s.mboxRead off wide).done 1 tag 5)) :
    exec (.readReg tag off wide) s = .next ((s.mboxRead off wide).done 1 tag 5) := by
  show Host.Outcome.next (reachSec.take s _) = _
  simp only [hon, hrom]
  exact congrArg _ (hkept.mono rfl).take_eq

theorem exec_writeReg_on {v : DWord} (hon : s.hubOn = true) (hrom : s.romOnly = false)
    (hkept : Kept { regs := true, sec := true, sent := true } s ((s.mboxWrite off wide v.toNat).done 1 tag 6)) :
    exec (.writeReg tag off wide v) s = .next ((s.mboxWrite off wide v.toNat).done 1 tag 6) := by
  show Host.Outcome.next ((writeReach 66 off).take s _) = _
  simp only [hon, hrom]
  exact congrArg _ (hkept.mono (writeReach_covers 66 off rfl rfl)).take_eq

theorem State.badAccess_kept : Kept { regs := true, sent := true } s (s.badAccess.emit (.data fn tag 0)) :=
  (((Kept.refl _ s).bump rfl ..).setFld rfl ..).emit rfl _

theorem exec_badAccess_read (hon : s.hubOn = true) (hup : s.hostUp = true) :
    exec (.badAccess fn tag true) s = .next (s.badAccess.emit (.data fn tag 0)) := by
  show Host.Outcome.next (reachSec.take s _) = _
  simp only [hon, hup, Bool.not_true, Bool.and_false, Bool.or_false, Bool.false_eq_true, if_false, if_true]
  exact congrArg _ (State.badAccess_kept.mono rfl).take_eq

theorem State.clearCounts_kept : Kept { regs := true, sec := true } s ((s.accessed fn code inst).clearCounts code inst) :=
  (State.accessed_kept.setReg rfl ..).setReg rfl ..

theorem exec_clearCounts_hits {page : Nat} (h : Hits s fn (page * 4096 + hCtl) code inst hCtl) :
    exec (.clearCounts fn page) s = .next ((s.accessed fn code inst).clearCounts code inst) := by
  have hwrite : s.barWrite fn (page * 4096 + hCtl) false 0x80000000 = (s.accessed fn code inst).clearCounts code inst := by
    rw [State.barWrite_hits h rfl, State.writeAccess_head (by decide)]
    rfl
  show Host.Outcome.next (reachHost.take s (s.barWrite fn (page * 4096 + hCtl) false 0x80000000)) = _
  rw [hwrite, (State.clearCounts_kept.mono rfl).take_eq]

theorem exec_intForce_hits {page : Nat} (v : Word) (h : Hits s fn (page * 4096 + hIntForce) code inst hIntForce) :
    exec (.intForce fn page v) s = .next ((s.accessed fn code inst).intForce code inst v.toNat) := by
  have hwrite : s.barWrite fn (page * 4096 + hIntForce) false v.toNat = (s.accessed fn code inst).intForce code inst v.toNat := by
    rw [State.barWrite_hits h rfl, State.writeAccess_head (by decide), Nat.mod_eq_of_lt v.isLt]
    rfl
  have hkept : Kept reachHost s ((s.accessed fn code inst).intForce code inst v.toNat) :=
    (State.accessed_kept.mono rfl).trans ((State.setIntRegs_kept ..).mono rfl)
  show Host.Outcome.next (reachHost.take s (s.barWrite fn (page * 4096 + hIntForce) false v.toNat)) = _
  rw [hwrite, hkept.take_eq]

/-! #### Writes of PWR_CAP -/

theorem clampNat_eq_min_max {lo hi : Nat} (h : lo ≤ hi) (x : Nat) : clampNat lo hi x = min hi (max lo x) := by
  unfold clampNat
  grind

/-- The state after a 4 B write of PWR_CAP: the value is held to its range, and a value out of it is one clamp (R7, R8). -/
def State.capWritten (s : State) (fn v : Nat) : State :=
  ((s.dropLatch fn pgPwr 0).setFld pgPwr 0 0 rPwrCap 11 0 (clampNat 350 2400 (bits v 11 0))).noteClamps pgPwr 0
    (b2n (clampNat 350 2400 (bits v 11 0) != bits v 11 0))

theorem State.writeAccess_pwrCap (v : Nat) : s.writeAccess fn pgPwr 0 rPwrCap false v = s.capWritten fn v := by
  have hbits : bits (v % 4294967296) 11 0 = bits v 11 0 := bits_mod_two_pow (n := 32) v (by decide) (by decide)
  rw [State.writeAccess_narrow (by decide) regFind_pwrCap rfl, State.accessed_of_ne_sec (by decide), State.writeReg_pwrCap, hbits]
  rfl

theorem State.capWritten_fld (v : Nat) : (s.capWritten fn v).fld pgPwr 0 0 rPwrCap 11 0 = min 2400 (max 350 (bits v 11 0)) := by
  rw [State.capWritten, State.fld, State.reg_noteClamps_other _ (regKey_ne_of_off (by decide)) (regKey_ne_of_off (by decide)),
    ← State.fld, State.fld_setFld_same _ _ _ _ _ _ (by decide) (by decide), clampNat_eq_min_max (by decide)]
  exact Nat.mod_eq_of_lt (by omega)

theorem State.capWritten_clamps (v : Nat) : (s.capWritten fn v).reg pgPwr 0 0 hClamp
    = if 350 ≤ bits v 11 0 ∧ bits v 11 0 ≤ 2400 then s.reg pgPwr 0 0 hClamp
      else BitVec.ofNat 64 (min 0xFFFFFFFF ((s.reg pgPwr 0 0 hClamp).toNat + 1)) := by
  have hset : ∀ x, ((s.dropLatch fn pgPwr 0).setFld pgPwr 0 0 rPwrCap 11 0 x).reg pgPwr 0 0 hClamp = s.reg pgPwr 0 0 hClamp :=
    fun x => State.reg_setReg_other _ _ (regKey_ne_of_off (by decide))
  rw [State.capWritten, State.reg_noteClamps_clamp, hset, clampNat_eq_min_max (by decide)]
  by_cases h : 350 ≤ bits v 11 0 ∧ bits v 11 0 ≤ 2400
  · rw [if_pos h, show min 2400 (max 350 (bits v 11 0)) = bits v 11 0 by omega]
    simp [b2n]
  · have hne : min 2400 (max 350 (bits v 11 0)) ≠ bits v 11 0 := by omega
    rw [if_neg h]
    simp [b2n, hne]

theorem State.capWritten_regs (v : Nat) :
    RegsKept s (s.capWritten fn v) [regKey pgPwr 0 0 rPwrCap, regKey pgPwr 0 0 hClamp, regKey pgPwr 0 0 hSts] :=
  RegsKept.noteClamps (RegsKept.setReg (t := s.dropLatch fn pgPwr 0) (RegsKept.of_regs_eq rfl) _ (by decide)) (by decide) (by decide)

theorem State.capWritten_kept (v : Nat) : Kept { regs := true } s (s.capWritten fn v) :=
  (((Kept.refl _ s).dropLatch rfl ..).setFld rfl ..).noteClamps rfl ..

theorem exec_regWrite_pwrCap (v : DWord) (h : Hits s fn off pgPwr 0 rPwrCap) :
    exec (.regWrite fn off false v) s = .next (s.capWritten fn v.toNat) := by
  show Host.Outcome.next ((writeReach fn off).take s (s.barWrite fn off false v.toNat)) = _
  rw [State.barWrite_hits h rfl, State.writeAccess_pwrCap,
    ((State.capWritten_kept _).mono (writeReach_covers fn off rfl rfl)).take_eq]

/-- WRITE_REG of PWR_CAP inside the sideband's session writes it as PF1 does, and is no refusal (R515). -/
theorem State.mboxWrite_pwrCap (h : Hits s 66 off pgPwr 0 rPwrCap) (hopen : s.sec.sb.opened = true) (v : Nat) :
    s.mboxWrite off false v = ⟨s.capWritten 66 v, stOk, [off, 0, v % 4294967296, v / 4294967296, 0, 0, 0, 0], []⟩ := by
  have hrefuse : (s.capWritten 66 v).reg pgPwr 0 0 hRefuse = s.reg pgPwr 0 0 hRefuse :=
    (State.capWritten_regs v).reg_eq (by decide)
  simp [State.mboxWrite, hopen, State.legal_of_hitAt h.2 (wide := false) rfl, h.2, State.writeAccess_pwrCap, hrefuse, b2n]

theorem exec_writeReg_pwrCap (v : DWord) (h : Hits s 66 off pgPwr 0 rPwrCap) (hrom : s.romOnly = false)
    (hopen : s.sec.sb.opened = true) (hlo : 350 ≤ v.toNat) (hhi : v.toNat ≤ 2400) :
    ∃ t, exec (.writeReg tag off false v) s = .next t ∧ MboxDone s t tag 6 []
      ∧ t.fld pgPwr 0 0 rPwrCap 11 0 = v.toNat ∧ Kept { regs := true, sec := true, sent := true } s t := by
  have hbits : bits v.toNat 11 0 = v.toNat % 4096 := by simp [bits]
  have hkept : Kept { regs := true, sec := true, sent := true } s ((s.mboxWrite off false v.toNat).done 1 tag 6) :=
    MboxRes.done_kept (by rw [State.mboxWrite_pwrCap h hopen]; exact (State.capWritten_kept _).mono rfl)
  refine ⟨_, exec_writeReg_on h.1 hrom hkept, ?_, ?_, hkept⟩ <;> rw [State.mboxWrite_pwrCap h hopen]
  · exact MboxRes.done_sideband rfl ((State.capWritten_kept _).sent rfl) ((State.capWritten_regs _).reg_eq (by decide)) (by decide)
  · rw [State.fld, State.reg_congr (MboxRes.done_regs_eq ..), State.bump, State.reg_setReg_other _ _ (regKey_ne_of_off (by decide)),
      ← State.fld, State.capWritten_fld]
    omega

/-- READ_REG of STW_SERIAL answers both halves (R515). -/
theorem State.mboxRead_serial (h : Hits s 66 off pgIdent 0 rStwSerial) : s.mboxRead off true = ⟨s.dropLatch 66 pgIdent 0, stOk,
    [off, 1, s.serialWord % 18446744073709551616 % 4294967296, s.serialWord % 18446744073709551616 / 4294967296, 0, 0, 0, 0], []⟩ := by
  simp [State.mboxRead, State.legal_of_hitAt h.2 (wide := true) rfl, h.2, State.readWord_serial_wide, b2n]

end Sys2Proof.Machine

namespace Sys2Proof.Proofs

open Sys2Proof Sys2Proof.Machine Sys2Proof.Safety Sys2Proof.Claims

/-- Settles O47, one access at a time. -/
theorem registersAreWrittenAndRead : Obligations.RegistersAreWrittenAndRead := by
  unfold Obligations.RegistersAreWrittenAndRead
  refine ⟨fun s fn off v h => ?writeCap, fun s tag off v h hrom hopen hlo hhi => exec_writeReg_pwrCap v h hrom hopen hlo hhi,
    fun s fn tag off h => ?readLow, fun s fn tag off v h hlatch => ?readHigh, fun s tag off h hrom => ?readReg,
    fun s fn tag hon hup => ?badAccess, fun s fn page code inst => ⟨fun h => ?clear, fun h v => ?force⟩⟩
  case writeCap =>
    exact ⟨_, exec_regWrite_pwrCap v h, State.capWritten_fld _, State.capWritten_clamps _, State.capWritten_regs _,
      State.capWritten_kept _⟩
  case readLow =>
    have hkept := ((Kept.refl { regs := true, sent := true } s).dropLatch rfl fn pgIdent 0).holdLatch rfl (latchKey fn pgIdent 0)
      (rStwSerial + 4) (BitVec.ofNat 64 (s.serialWord % 18446744073709551616 / 4294967296))
    refine ⟨_, exec_regRead_hits h rfl State.readWord_serial_low hkept, ?_, smFind_smPut_same .., rfl, hkept.emit rfl _⟩
    rw [Nat.mod_mod_of_dvd _ (by decide)]
    rfl
  case readHigh =>
    have hkept := (Kept.refl { regs := true, sent := true } s).dropLatch rfl fn pgIdent 0
    refine ⟨_, exec_regRead_hits h rfl (State.readWord_serial_high hlatch) hkept, ?_, smFind_smErase_same .., rfl, hkept.emit rfl _⟩
    rw [BitVec.ofNat_toNat, BitVec.setWidth_eq]
    rfl
  case readReg =>
    have hkept : Kept { regs := true, sec := true, sent := true } s ((s.mboxRead off true).done 1 tag 5) :=
      MboxRes.done_kept (by rw [State.mboxRead_serial h]; exact (Kept.refl _ s).dropLatch rfl ..)
    refine ⟨_, exec_readReg_on h.1 hrom hkept, ?_, ?_, hkept⟩ <;> rw [State.mboxRead_serial h]
    · exact MboxRes.done_sideband rfl rfl rfl (by decide)
    · rw [Nat.mod_mod_of_dvd _ (by decide)]
      rfl
  case badAccess =>
    refine ⟨_, exec_badAccess_read hon hup, rfl, ?_, ?_, ?_, State.badAccess_kept⟩
    · exact State.fld_setFld_same _ _ _ _ _ _ (by decide) (by decide)
    · exact (State.reg_setReg_other _ _ (regKey_ne_of_off (by decide))).trans (s.reg_bump_same ..)
    · exact RegsKept.setReg ((RegsKept.of_regs_eq (t := s) rfl).setReg _ (by decide)) _ (by decide)
  case clear =>
    refine ⟨_, exec_clearCounts_hits h, ?_, State.reg_setReg_same .., ?_, State.clearCounts_kept⟩
    · exact (State.reg_setReg_other _ _ (regKey_off (by decide))).trans (State.reg_setReg_same ..)
    · exact ((RegsKept.of_regs_eq State.accessed_regs).setReg _ (by simp)).setReg _ (by simp)
  case force =>
    refine ⟨_, exec_intForce_hits v h, ?_, ?_⟩
    · rw [State.reg_intForce_sts, State.reg_congr State.accessed_regs]
      rfl
    · rw [State.reg_intForce_en, State.reg_congr State.accessed_regs]

end Sys2Proof.Proofs
end

section
/-! PROOFS. Traffic at the regulators of a partition (R24, R342): what passes where no rate is set, and what a hold leaves. -/

namespace Sys2Proof.Machine

open Sys2Proof.Safety Sys2Proof.Claims

variable {s t : State} {p : Nat} {l : List (Gate × Nat)}

/-! #### Regulators without a rate -/

theorem State.gateOpen_of_rate_zero {g : Gate} (h : s.gateRate g = 0) (n : Nat) : s.gateOpen g n = true := by
  simp [State.gateOpen, h]

theorem State.gateTake_of_rate_zero {g : Gate} (h : s.gateRate g = 0) (n : Nat) : s.gateTake g n = s := by
  simp [State.gateTake, h]

theorem State.gatesTake_of_rate_zero (h : ∀ e ∈ l, s.gateRate e.1 = 0) : s.gatesTake l = s := by
  unfold State.gatesTake
  induction l with
  | nil => rfl
  | cons e r ih =>
    rw [List.foldl_cons, State.gateTake_of_rate_zero (h e List.mem_cons_self)]
    exact ih fun x hx => h x (List.mem_cons_of_mem _ hx)

/-- Traffic that meets no rate goes on at once, and charges nothing (R24). -/
theorem State.gated_of_rate_zero (h : ∀ e ∈ l, s.gateRate e.1 = 0) (go wait : State → State) : s.gated l go wait = go s := by
  have hopen : s.gatesOpen l = true := List.all_eq_true.2 fun e he => State.gateOpen_of_rate_zero (h e he) e.2
  rw [State.gated, hopen, if_pos rfl, State.gatesTake_of_rate_zero h]

/-- Traffic without its tokens waits (R24). -/
theorem State.gated_of_closed (h : s.gatesOpen l = false) (go wait : State → State) : s.gated l go wait = wait (s.gatesHeld l) := by
  rw [State.gated, h, if_neg Bool.false_ne_true]

/-! #### A hold -/

/-- A hold is seen in the hold counters only. -/
theorem State.gatesHeld_kept (l : List (Gate × Nat)) : Kept { regs := true } s (s.gatesHeld l) := by
  unfold State.gatesHeld
  induction l generalizing s with
  | nil => exact Kept.refl ..
  | cons e r ih =>
    refine Kept.trans ?_ ih
    dsimp only
    split
    · exact Kept.refl ..
    · unfold State.gateHeld
      split
      · exact (Kept.refl ..).setReg rfl ..
      · exact (Kept.refl ..).setReg rfl ..
      · exact (Kept.refl ..).setReg rfl ..
      · exact Kept.refl ..

/-! #### Where two states hold traffic alike -/

/-- The registers that set a regulator's rate and capacity stand at few offsets of their pages. -/
theorem Gate.reg_off_mem (g : Gate) : g.reg.2.2.2 ∈ [rMeshReg, rD2dReg, rHostRegOut, rHostRegIn, rFarpRegIn] := by
  cases g with
  | mesh => simp [Gate.reg]
  | d2d => simp [Gate.reg]
  | host p o => cases o <;> simp [Gate.reg]
  | far p f o => cases o <;> simp [Gate.reg]

theorem State.gateRate_congr {g : Gate}
    (hreg : t.reg g.reg.1 g.reg.2.1 g.reg.2.2.1 g.reg.2.2.2 = s.reg g.reg.1 g.reg.2.1 g.reg.2.2.1 g.reg.2.2.2) : t.gateRate g = s.gateRate g := by
  simp only [State.gateRate, State.fld, hreg]

theorem State.gatesOpen_congr
    (hreg : ∀ g : Gate, t.reg g.reg.1 g.reg.2.1 g.reg.2.2.1 g.reg.2.2.2 = s.reg g.reg.1 g.reg.2.1 g.reg.2.2.1 g.reg.2.2.2)
    (hgates : t.gates = s.gates) (htime : t.timeUs = s.timeUs) (l : List (Gate × Nat)) : t.gatesOpen l = s.gatesOpen l := by
  have hrate : ∀ g, t.gateRate g = s.gateRate g := fun g => State.gateRate_congr (hreg g)
  have hcap : ∀ g, t.gateCap g = s.gateCap g := fun g => by simp only [State.gateCap, State.fld, hreg]
  have hdebt : ∀ g, t.gateDebt g = s.gateDebt g := fun g => by simp only [State.gateDebt, hrate, hgates, htime]
  have hopen : ∀ g n, t.gateOpen g n = s.gateOpen g n := fun g n => by
    unfold State.gateOpen
    rw [hrate, hcap, hdebt]
  simp only [State.gatesOpen, hopen]

/-! #### The regulators that traffic meets -/

/-- A property of the regulators of costs that are added up holds of the regulators of the sum. -/
theorem addCost_gates {P : Gate → Prop} {e : Gate × Nat} (hl : ∀ x ∈ l, P x.1) (he : P e.1) : ∀ x ∈ addCost l e, P x.1 := by
  intro x hx
  unfold addCost at hx
  split at hx
  · obtain ⟨y, hy, rfl⟩ := List.mem_map.1 hx
    split
    · exact hl y hy
    · exact hl y hy
  · rcases List.mem_append.1 hx with hx | hx
    · exact hl x hx
    · rw [List.mem_singleton.1 hx]
      exact he

theorem foldl_addCost_gates {P : Gate → Prop} {es : List (Gate × Nat)} (hl : ∀ x ∈ l, P x.1) (hes : ∀ x ∈ es, P x.1) :
    ∀ x ∈ es.foldl addCost l, P x.1 := by
  induction es generalizing l with
  | nil => exact hl
  | cons e r ih =>
    exact ih (addCost_gates hl (hes e List.mem_cons_self)) fun x hx => hes x (List.mem_cons_of_mem _ hx)

theorem nodeHalf_lt_two {a h : Nat} (ha : nodeHalf a = some h) : h < 2 := by
  unfold nodeHalf coreHalf at ha
  repeat' split at ha
  all_goals simp at *
  all_goals omega

/-- No regulator that the way between two nodes meets has a rate, where the partition has none. -/
theorem gateRate_of_mem_hopCost (h : Unregulated s p) {agent : Option Nat} {a b n : Nat} :
    ∀ e ∈ hopCost p agent a b n, s.gateRate e.1 = 0 := by
  obtain ⟨hmesh, hd2d, hhost, hfar⟩ := h
  intro e he
  unfold hopCost at he
  split at he
  · cases he
  simp only [List.mem_append] at he
  rcases he with ((((he | he) | he) | he) | he) | he
  · repeat' split at he
    all_goals simp at he
    all_goals rw [he]; exact hmesh _
  · repeat' split at he
    all_goals simp at he
    next x _ hx _ _ =>
      rw [he]
      exact hd2d _ (nodeHalf_lt_two hx)
  · split at he
    all_goals simp at he
    next ha =>
      rw [he]
      exact hfar _ (by simp at ha; omega) _
  · split at he
    all_goals simp at he
    next hb =>
      rw [he]
      exact hfar _ (by simp at hb; omega) _
  · split at he
    all_goals simp at he
    rw [he]
    exact hhost _
  · split at he
    all_goals simp at he
    rw [he]
    exact hhost _

end Sys2Proof.Machine
end

section
/-! PROOFS. Transfers between stockrooms (R158, R159): the copy of one row, and what starting such an order answers. O8 is settled at
the end. -/

namespace Sys2Proof.Machine

open Sys2Proof.Safety Sys2Proof.Claims

/-! #### Bytes written in a space that wraps -/

/-- A byte outside the bytes written reads as before. -/
theorem memByte_memSetBytesWrap_outside {sz y : Nat} (m : Mem) (a : Nat) (bs : List Byte) (h : ∀ i < bs.length, (a + i) % sz ≠ y) :
    memByte (memSetBytesWrap sz m a bs) y = memByte m y := by
  induction bs generalizing m a with
  | nil => rfl
  | cons b r ih =>
    rw [memSetBytesWrap, ih _ _ fun i hi => ?_, memByte_memSetByte_other _ _ fun hy => h 0 (by simp) (by simpa using hy.symm)]
    rw [Nat.add_assoc, Nat.add_comm 1]
    exact h (i + 1) (by simpa using hi)

/-- A byte inside the bytes written reads as written, where they do not wrap round to it. -/
theorem memByte_memSetBytesWrap_inside {sz : Nat} (m : Mem) (a : Nat) (bs : List Byte) (hsz : bs.length ≤ sz) {i : Nat} (hi : i < bs.length) :
    memByte (memSetBytesWrap sz m a bs) ((a + i) % sz) = bs[i] := by
  induction bs generalizing m a i with
  | nil => simp at hi
  | cons b r ih =>
    simp only [List.length_cons] at hsz hi
    cases i with
    | zero =>
      rw [memSetBytesWrap, memByte_memSetBytesWrap_outside]
      · simp
      · intro j hj hmod
        have := (Nat.ModEq.add_left_cancel' a (show a + (1 + j) ≡ a + 0 [MOD sz] by rw [← Nat.add_assoc]; exact hmod))
        have := Nat.ModEq.eq_of_lt_of_lt this (by omega) (by omega)
        omega
    | succ i =>
      have hrest := ih (memSetByte m (a % sz) b) (a + 1) (by omega) (i := i) (by omega)
      rw [show a + 1 + i = a + (i + 1) by omega] at hrest
      exact hrest

theorem memBytesWrap_getElem {sz n : Nat} (m : Mem) (a : Nat) {i : Nat} (hi : i < (memBytesWrap sz m a n).length) :
    (memBytesWrap sz m a n)[i] = memByte m ((a + i) % sz) := by
  simp [memBytesWrap]

@[simp] theorem memBytesWrap_length {sz n : Nat} (m : Mem) (a : Nat) : (memBytesWrap sz m a n).length = n := by
  simp [memBytesWrap]

/-! #### What an update of a core leaves of every core -/

variable (s : State)

theorem State.modCore_proj {α : Type} (π : Core → α) (g : Core → Core) (h : ∀ x, π (g x) = π x) (c z : Nat) :
    π ((s.modCore c g).core z) = π (s.core z) := by
  by_cases hz : z = c
  · rw [hz, State.core_modCore_same, h]
  · rw [State.core_modCore_other s g hz]

theorem State.stock_signalIf (b : Bool) (c k n z : Nat) : ((s.signalIf b c k n).core z).stock = (s.core z).stock := by
  unfold State.signalIf
  split
  · exact s.modCore_proj Core.stock _ (fun _ => by rfl) c z
  · rfl

theorem State.flights_signalIf_any (b : Bool) (c k n z : Nat) : ((s.signalIf b c k n).core z).flights = (s.core z).flights := by
  unfold State.signalIf
  split
  · exact s.modCore_proj Core.flights _ (fun _ => by rfl) c z
  · rfl

theorem State.sreg_signalIf_any (b : Bool) (c j n z k : Nat) : (s.signalIf b c j n).sreg z k = s.sreg z k := by
  unfold State.signalIf
  split
  · exact s.modCore_proj (fun x => smGet 0 x.sregs (k % 64)) _ (fun _ => by rfl) c z
  · rfl

theorem State.queue_signalIf (b : Bool) (c k n z q : Nat) : (s.signalIf b c k n).queue z q = s.queue z q := by
  unfold State.signalIf
  split
  · exact s.modCore_proj (fun x => x.qs.getD q {}) _ (fun _ => by rfl) c z
  · rfl

theorem State.stock_finish (c id st z : Nat) : ((s.finish c id st).core z).stock = (s.core z).stock :=
  s.modCore_proj Core.stock _ (fun _ => by rfl) c z

theorem State.ctr_finish (c id st z k : Nat) : (s.finish c id st).ctr z k = s.ctr z k :=
  s.modCore_proj (fun x => smGet 0 x.ctrs (k % 64)) _ (fun _ => by rfl) c z

theorem State.sreg_finish (c id st z k : Nat) : (s.finish c id st).sreg z k = s.sreg z k :=
  s.modCore_proj (fun x => smGet 0 x.sregs (k % 64)) _ (fun _ => by rfl) c z

theorem State.queue_finish (c id st z q : Nat) : (s.finish c id st).queue z q = s.queue z q :=
  s.modCore_proj (fun x => x.qs.getD q {}) _ (fun _ => by rfl) c z

/-- The order that finishes is done, with its status joined. -/
theorem State.flight_finish {c id : Nat} {f : Flight} (h : (s.core c).flight id = some f) (st : Nat) :
    ((s.finish c id st).core c).flight id = some { f with done := true, status := statusJoin f.status st } := by
  unfold State.finish State.modFlight
  rw [State.core_modCore_same]
  unfold Core.flight at h ⊢
  have hid : f.id = id := by simpa using List.find?_some h
  simp only [List.find?_map, Function.comp_def]
  have hsame : ∀ y : Flight, (if y.id = id then { y with done := true, status := statusJoin y.status st } else y).id = y.id := fun y => by
    split <;> rfl
  simp only [hsame, h, Option.map_some, hid, if_true]

theorem State.ctr_stockWrite (d e : Nat) (bs : List Byte) (z k : Nat) : (s.stockWrite d e bs).ctr z k = s.ctr z k :=
  s.modCore_proj (fun x => smGet 0 x.ctrs (k % 64)) _ (fun _ => by rfl) d z

theorem State.sreg_stockWrite (d e : Nat) (bs : List Byte) (z k : Nat) : (s.stockWrite d e bs).sreg z k = s.sreg z k :=
  s.modCore_proj (fun x => smGet 0 x.sregs (k % 64)) _ (fun _ => by rfl) d z

theorem State.queue_stockWrite (d e : Nat) (bs : List Byte) (z q : Nat) : (s.stockWrite d e bs).queue z q = s.queue z q :=
  s.modCore_proj (fun x => x.qs.getD q {}) _ (fun _ => by rfl) d z

theorem State.flights_stockWrite (d e : Nat) (bs : List Byte) (z : Nat) : ((s.stockWrite d e bs).core z).flights = (s.core z).flights :=
  s.modCore_proj Core.flights _ (fun _ => by rfl) d z

theorem State.stock_stockWrite_same (d e : Nat) (bs : List Byte) :
    ((s.stockWrite d e bs).core d).stock = memSetBytesWrap 2097152 (s.core d).stock (e % 2097152) bs := by
  rw [State.stockWrite, State.core_modCore_same]

theorem State.core_stockWrite_other {d z : Nat} (e : Nat) (bs : List Byte) (h : z ≠ d) : (s.stockWrite d e bs).core z = s.core z :=
  s.core_modCore_other _ h

theorem State.stock_startOrder (c : Nat) (st : Start) (z : Nat) : ((s.startOrder c st).1.core z).stock = (s.core z).stock := by
  by_cases hz : z = c
  · rw [hz, State.startOrder_core]; rfl
  · rw [State.startOrder_core_other s st hz]

theorem State.stockBad_startOrder (c : Nat) (st : Start) (z : Nat) : ((s.startOrder c st).1.core z).stockBad = (s.core z).stockBad := by
  by_cases hz : z = c
  · rw [hz, State.startOrder_core]; rfl
  · rw [State.startOrder_core_other s st hz]

theorem State.ctr_startOrder (c : Nat) (st : Start) (z k : Nat) : (s.startOrder c st).1.ctr z k = s.ctr z k := by
  unfold State.ctr
  by_cases hz : z = c
  · rw [hz, State.startOrder_core]; rfl
  · rw [State.startOrder_core_other s st hz]

theorem State.sreg_startOrder (c : Nat) (st : Start) (z k : Nat) : (s.startOrder c st).1.sreg z k = s.sreg z k := by
  unfold State.sreg
  by_cases hz : z = c
  · rw [hz, State.startOrder_core]; rfl
  · rw [State.startOrder_core_other s st hz]

variable {s}

/-! #### Places in stockrooms -/

/-- An address in a stockroom is neither a GUILD nor a MARKET address, and its offset lies in the stockroom (R147). -/
theorem locOf_stock {c a d o : Nat} (h : locOf c a = .stock d o) : spaceOf a ≠ 7 ∧ spaceOf a ≠ 8 ∧ o < 2097152 := by
  unfold locOf at h
  split at h <;> cases h <;> exact ⟨by omega, by omega, Nat.mod_lt _ (by decide)⟩

/-- A stockroom can be read and written, unless its half is fenced (R160, R465). -/
theorem State.placeReady_stock (h : s.abs.fence = none) (d o n : Nat) (r : Bool) : s.placeReady (.stock d o) n r = true := by
  have hready : s.locReady (.stock d o) n = true := rfl
  have hfenced : s.locFenced (.stock d o) n = false := by simp [State.locFenced, h]
  simp [State.placeReady, hready, hfenced]

theorem State.readOrFree_stock {d : Nat} (h : (s.core d).stockBad = []) (o n : Nat) :
    s.readOrFree (.stock d o) n = (s, s.stockBytes d o n, true) := by
  have hlost : s.stockLost d o n = false := by simp [State.stockLost, h]
  have hread : s.readRestored (.stock d o) n = (s, some (s.stockBytes d o n)) := by
    show s.readLoc (.stock d o) n = _
    simp [State.readLoc, hlost]
  simp [State.readOrFree, hread]

end Sys2Proof.Machine

namespace Sys2Proof.Safety

open Sys2Proof.Machine

variable {s t : State} {f : Reach}

theorem Kept.stockWrite (h : Kept f s t) (hf : f.cores = true) (d e : Nat) (bs : List Byte) : Kept f s (t.stockWrite d e bs) :=
  h.setCore hf ..

theorem Kept.finish (h : Kept f s t) (hf : f.cores = true) (c id st : Nat) : Kept f s (t.finish c id st) :=
  h.setCore hf ..

theorem CoresKept.stockWrite {cs : List Nat} (h : CoresKept s t cs) {d : Nat} (hd : d ∈ cs) (e : Nat) (bs : List Byte) :
    CoresKept s (t.stockWrite d e bs) cs :=
  h.setCore hd _

theorem CoresKept.finish {cs : List Nat} (h : CoresKept s t cs) {c : Nat} (hc : c ∈ cs) (id st : Nat) :
    CoresKept s (t.finish c id st) cs :=
  h.setCore hc _

end Sys2Proof.Safety

namespace Sys2Proof.Machine

open Sys2Proof.Safety Sys2Proof.Claims

variable {s t : State}

/-! #### The copy of one row between stockrooms -/

/-- The state after x.len bytes have gone from offset b of stockroom a to offset e of stockroom d, for order `id` of core c. -/
def State.copied (s : State) (c id : Nat) (x : Xfer) (a b d e : Nat) : State :=
  ((s.stockWrite d e (s.stockBytes a b x.len)).signalIf x.ctrEn (x.ctrCore c) x.ctr x.inc).finish c id stOk

section Copied

variable {c id a b d e : Nat} {x : Xfer}

theorem State.copied_stock :
    ((s.copied c id x a b d e).core d).stock = memSetBytesWrap 2097152 (s.core d).stock (e % 2097152) (s.stockBytes a b x.len) := by
  rw [State.copied, State.stock_finish, State.stock_signalIf, State.stock_stockWrite_same]

theorem State.copied_stock_inside (hlen : x.len ≤ 2097152) {i : Nat} (hi : i < x.len) :
    memByte ((s.copied c id x a b d e).core d).stock ((e + i) % 2097152) = memByte (s.core a).stock ((b + i) % 2097152) := by
  have hin := memByte_memSetBytesWrap_inside (s.core d).stock (e % 2097152) (s.stockBytes a b x.len)
    (by simpa [State.stockBytes] using hlen) (i := i) (by simpa [State.stockBytes] using hi)
  rw [Nat.mod_add_mod] at hin
  rw [State.copied_stock, hin]
  simp only [State.stockBytes, memBytesWrap_getElem, Nat.mod_add_mod]

theorem State.copied_stock_outside {y : Nat} (hy : ∀ i < x.len, (e + i) % 2097152 ≠ y) :
    memByte ((s.copied c id x a b d e).core d).stock y = memByte (s.core d).stock y := by
  rw [State.copied_stock, memByte_memSetBytesWrap_outside]
  simpa [State.stockBytes] using hy

theorem State.copied_stock_other {z : Nat} (hz : z ≠ d) : ((s.copied c id x a b d e).core z).stock = (s.core z).stock := by
  rw [State.copied, State.stock_finish, State.stock_signalIf, State.core_stockWrite_other _ _ _ hz]

theorem State.copied_flight {f : Flight} (h : (s.core c).flight id = some f) :
    ((s.copied c id x a b d e).core c).flight id = some { f with done := true, status := statusJoin f.status stOk } := by
  refine State.flight_finish _ ?_ _
  rw [Core.flight, State.flights_signalIf_any, State.flights_stockWrite]
  exact h

theorem State.copied_ctr (h : x.ctrEn = true) :
    (s.copied c id x a b d e).ctr (x.ctrCore c) x.ctr = s.ctr (x.ctrCore c) x.ctr + BitVec.ofNat 32 x.inc := by
  rw [State.copied, State.ctr_finish, State.ctr_signalIf, State.ctr_stockWrite, h]
  simp

theorem State.copied_ctr_of_disabled (h : x.ctrEn = false) (z k : Nat) : (s.copied c id x a b d e).ctr z k = s.ctr z k := by
  rw [State.copied, State.ctr_finish, h]
  exact State.ctr_stockWrite ..

theorem State.copied_sreg (z k : Nat) : (s.copied c id x a b d e).sreg z k = s.sreg z k := by
  rw [State.copied, State.sreg_finish, State.sreg_signalIf_any, State.sreg_stockWrite]

theorem State.copied_queue (z q : Nat) : (s.copied c id x a b d e).queue z q = s.queue z q := by
  rw [State.copied, State.queue_finish, State.queue_signalIf, State.queue_stockWrite]

theorem State.copied_kept : Kept { cores := true } s (s.copied c id x a b d e) :=
  (((Kept.refl ..).stockWrite rfl ..).signalIf rfl ..).finish rfl ..

theorem State.copied_cores : CoresKept s (s.copied c id x a b d e) [c, d, x.ctrCore c] :=
  ((CoresKept.refl.stockWrite (by simp) _ _).signalIf (by simp) _ _ _).finish (by simp) _ _

end Copied

/-! #### A transfer of one row between stockrooms -/

section OneRow

variable {x : Xfer} {c a b d e : Nat} (hsrc : locOf c x.src = .stock a b) (hdst : locOf c x.dst = .stock d e)

include hsrc in
theorem Xfer.srcAt_zero : x.srcAt c 0 = .stock a b := by
  obtain ⟨-, -, hoff⟩ := locOf_stock hsrc
  simp [Xfer.srcAt, hsrc, Loc.plus, Nat.mod_eq_of_lt hoff]

include hdst in
theorem Xfer.dstAt_zero : x.dstAt c 0 = .stock d e := by
  obtain ⟨-, -, hoff⟩ := locOf_stock hdst
  simp [Xfer.dstAt, hdst, Loc.plus, Nat.mod_eq_of_lt hoff]

include hdst in
theorem Xfer.ctrCore_stock : x.ctrCore c = d := by
  simp [Xfer.ctrCore, hdst]

include hsrc hdst in
theorem Xfer.not_isFabric : x.isFabric = false := by
  obtain ⟨hs7, -, -⟩ := locOf_stock hsrc
  obtain ⟨hd7, hd8, -⟩ := locOf_stock hdst
  simp [Xfer.isFabric, hs7, hd7, hd8]

/-- What bytes cost from one stockroom to another: the way between their tiles. -/
theorem State.flowCost_stock (p : Nat) (agent : Option Nat) (n : Nat) :
    s.flowCost p agent (.stock a b) (.stock d e) n = (hopCost p agent a d n).foldl addCost [] := rfl

variable (hrows : x.rows = 1)

include hsrc hdst hrows

theorem State.xferReady_stock (hfence : s.abs.fence = none) : s.xferReady c x = true := by
  simp [State.xferReady, hrows, Xfer.srcAt_zero hsrc, Xfer.dstAt_zero hdst, State.placeReady_stock hfence]

theorem State.xferCost_stock {p : Nat} (hp : s.partOfCore c = some p) :
    s.xferCost c x = ((hopCost p none a d x.len).foldl addCost []).foldl addCost [] := by
  simp [State.xferCost, hp, hrows, Xfer.srcAt_zero hsrc, Xfer.dstAt_zero hdst, State.flowCost_stock]

/-- The cost is a matter of the partition alone. -/
theorem State.xferCost_stock_congr (hparts : t.parts = s.parts) : t.xferCost c x = s.xferCost c x := by
  have hpart : t.partOfCore c = s.partOfCore c := by simp only [State.partOfCore, hparts]
  cases hp : s.partOfCore c with
  | none => simp [State.xferCost, hpart, hp]
  | some p => rw [State.xferCost_stock hsrc hdst hrows hp, State.xferCost_stock hsrc hdst hrows (hpart.trans hp)]

theorem State.xferCost_stock_rates (h : CoreUnregulated s c) : ∀ g ∈ s.xferCost c x, s.gateRate g.1 = 0 := by
  cases hp : s.partOfCore c with
  | none => simp [State.xferCost, hp]
  | some p =>
    rw [State.xferCost_stock hsrc hdst hrows hp]
    have hway := foldl_addCost_gates (l := []) (P := fun g => s.gateRate g = 0) (by simp)
      (gateRate_of_mem_hopCost (h p hp) (agent := none) (a := a) (b := d) (n := x.len))
    exact foldl_addCost_gates (P := fun g => s.gateRate g = 0) (by simp) hway

/-- The copy: the bytes go from stockroom to stockroom, the destination's counter hears of it, and the order is done (R159). -/
theorem State.xferCopy_stock (hbad : (s.core a).stockBad = []) (id : Nat) : s.xferCopy c id x = s.copied c id x a b d e := by
  simp only [State.xferCopy, hrows, List.range_one, List.foldl_cons, List.foldl_nil, Xfer.srcAt_zero hsrc, Xfer.dstAt_zero hdst,
    State.readOrFree_stock hbad]
  rfl

end OneRow

/-! #### The start of such an order -/

/-- No earlier transfer of a core holds one back whose core's earlier transfers are done (R21). -/
theorem State.xferBehind_started {c : Nat} (h : TransfersDone s c) (st : Start) (x : Xfer) :
    (s.startOrder c st).1.xferBehind c (s.core c).freshId x = false := by
  unfold State.xferBehind
  rw [State.startOrder_core]
  simp only [List.any_eq_false]
  intro f hf
  rcases List.mem_append.1 hf with hf | hf
  · by_cases hu : opUnit f.op = .transfer
    · simp [h f hf hu]
    · simp [hu]
  · simp [List.mem_singleton.1 hf, Start.flight]

theorem exec_transferCmd {c op : Nat} {st : Start} (hop : op ∈ [1, 2, 3]) (hpick : s.pick c = some st) (hst : st.op = op) :
    exec (transferCmd c op) s = .next (reachOrder.take s (s.xferStart c st)) := by
  simp only [List.mem_cons, List.not_mem_nil, or_false] at hop
  rcases hop with rfl | rfl | rfl
  · exact congrArg (fun w => Host.Outcome.next (reachOrder.take s w)) (State.runOrder_pick hpick (by simpa using hst) _)
  · exact congrArg (fun w => Host.Outcome.next (reachOrder.take s w)) (State.runOrder_pick hpick (by simpa using hst) _)
  · exact congrArg (fun w => Host.Outcome.next (reachOrder.take s w)) (State.runOrder_pick hpick (by simpa using hst) _)

/-- The order of a transfer as it starts, its clamps counted. -/
def Start.clamped (st : Start) (x : Xfer) : Start := { st with clamps := st.clamps + x.clamps }

/-- A transfer of one row between stockrooms, its turn come, is a matter of the regulators (R24, R158). -/
theorem State.xferStart_stock {c a b d e : Nat} {st : Start} {x : Xfer} (hx : xferOf c st.op st.ord = x)
    (hsrc : locOf c x.src = .stock a b) (hdst : locOf c x.dst = .stock d e) (hrows : x.rows = 1) (hrefuse : s.xferRefusal c x = none)
    (hfence : s.abs.fence = none) (hdone : TransfersDone s c) :
    s.xferStart c st = (s.startOrder c (st.clamped x)).1.gated (s.xferCost c x) (fun w => w.xferCopy c (s.core c).freshId x) id := by
  have hkept := (State.startOrder_kept s c (st.clamped x)).1
  have hready : (s.startOrder c (st.clamped x)).1.xferReady c x = true :=
    State.xferReady_stock hsrc hdst hrows (by rw [hkept.abs rfl]; exact hfence)
  have hcost := State.xferCost_stock_congr hsrc hdst hrows (hkept.parts rfl)
  have hrun : (s.startOrder c (st.clamped x)).1.xferRun c (s.core c).freshId x
      = (s.startOrder c (st.clamped x)).1.gated (s.xferCost c x) (fun w => w.xferCopy c (s.core c).freshId x) id := by
    simp only [State.xferRun, Xfer.not_isFabric hsrc hdst, hready, State.xferBehind_started hdone, hcost]
    rfl
  unfold State.xferStart
  simp only [hx, hrefuse, Xfer.not_isFabric hsrc hdst]
  show (if _ then _ else _) = _
  exact (if_pos hready).trans hrun

/-- Starting an order leaves the regulators as they are. -/
theorem State.reg_gate_startOrder (c : Nat) (st : Start) (g : Gate) :
    (s.startOrder c st).1.reg g.reg.1 g.reg.2.1 g.reg.2.2.1 g.reg.2.2.2 = s.reg g.reg.1 g.reg.2.1 g.reg.2.2.1 g.reg.2.2.2 := by
  have hoff : ∀ o ∈ [rClerkOrders, hClamp, hSts], g.reg.2.2.2 % 4096 ≠ o % 4096 := by
    have := g.reg_off_mem
    revert this
    generalize g.reg.2.2.2 = o
    revert o
    decide
  rw [State.reg_congr (State.startOrder_regs s c st),
    State.reg_noteClamps_other _ (regKey_ne_of_off (hoff _ (by simp))) (regKey_ne_of_off (hoff _ (by simp)))]
  exact State.reg_setReg_other _ _ (regKey_ne_of_off (hoff _ (by simp)))

end Sys2Proof.Machine

namespace Sys2Proof.Proofs

open Sys2Proof Sys2Proof.Machine Sys2Proof.Safety Sys2Proof.Claims

/-- Settles O8: the started order copies or waits, as the regulators let it. -/
theorem stockroomTransferCopiesItsBytes : Obligations.StockroomTransferCopiesItsBytes := by
  unfold Obligations.StockroomTransferCopiesItsBytes
  intro s c op a b d e st hop hpick hst x hsrc hdst hrows hlen hrefuse hbad hfence hdone
  have hx : xferOf c st.op st.ord = x := by rw [hst]
  have hexec := exec_transferCmd hop hpick hst
  rw [State.xferStart_stock hx hsrc hdst hrows hrefuse hfence hdone] at hexec
  have hheld : HeldAtStart s (s.startOrder c (st.clamped x)).1 c st x.clamps := State.holds hpick
  have hflight : ((s.startOrder c (st.clamped x)).1.core c).flight (s.core c).freshId = some ((st.clamped x).flight (s.core c).freshId) := by
    rw [State.startOrder_core]
    exact Core.started_flight ..
  have hreg := State.reg_gate_startOrder (s := s) c (st.clamped x)
  have hstock := State.stock_startOrder s c (st.clamped x)
  have hstockBad := State.stockBad_startOrder s c (st.clamped x)
  have hctr := State.ctr_startOrder s c (st.clamped x)
  have hsreg := State.sreg_startOrder s c (st.clamped x)
  generalize (s.startOrder c (st.clamped x)).1 = w at hexec hheld hflight hreg hstock hstockBad hctr hsreg
  refine ⟨fun hfree => ?copied, fun hclosed => ?waits⟩
  case copied =>
    have hrates : ∀ g ∈ s.xferCost c x, w.gateRate g.1 = 0 := fun g hg =>
      (State.gateRate_congr (hreg g.1)).trans (State.xferCost_stock_rates hsrc hdst hrows hfree g hg)
    have hkept : Kept { regs := true, cores := true } s (w.copied c (s.core c).freshId x a b d e) :=
      hheld.rest.trans (State.copied_kept.mono rfl)
    rw [State.gated_of_rate_zero hrates, State.xferCopy_stock hsrc hdst hrows ((hstockBad a).trans hbad),
      (hkept.mono (g := reachOrder) rfl).take_eq] at hexec
    refine ⟨_, hexec, fun i hi => ?_, fun y _ hy => ?_, fun z hz => ?_, ⟨_, State.copied_flight hflight, rfl, hst, rfl⟩,
      fun hen => ?_, fun hen z k => ?_, ?_, fun z k => ?_, ?_, hkept⟩
    · rw [State.copied_stock_inside hlen hi, hstock]
    · rw [State.copied_stock_outside hy, hstock]
    · rw [State.copied_stock_other hz, hstock]
    · rw [State.copied_ctr hen, hctr]
    · rw [State.copied_ctr_of_disabled hen, hctr]
    · rw [State.copied_queue]
      exact hheld.queue
    · rw [State.copied_sreg, hsreg]
    · have hstart : CoresKept s w [c, d, x.ctrCore c] := fun z hz => hheld.cores z fun hzc => hz (by simp_all)
      exact hstart.trans State.copied_cores
  case waits =>
    obtain ⟨-, -, hbuckets⟩ := hheld.rest.mesh rfl
    have hwait : w.gatesOpen (s.xferCost c x) = false := (State.gatesOpen_congr hreg hbuckets (hheld.rest.time rfl) _).trans hclosed
    have hgates := State.gatesHeld_kept (s := w) (s.xferCost c x)
    have hcores := State.core_congr (hgates.cores rfl)
    have hkept : Kept { regs := true, cores := true } s (w.gatesHeld (s.xferCost c x)) := hheld.rest.trans (hgates.mono rfl)
    rw [State.gated_of_closed hwait, id, (hkept.mono (g := reachOrder) rfl).take_eq] at hexec
    refine ⟨_, (st.clamped x).flight (s.core c).freshId, hexec, ?_, rfl, hst, fun z => ?_, fun z k => ?_, ?_, fun z hz => ?_, hkept⟩
    · rw [hcores]
      exact hflight
    · rw [hcores, hstock]
    · rw [State.ctr_congr (hgates.cores rfl), hctr]
    · rw [State.queue, hcores]
      exact hheld.queue
    · rw [hcores]
      exact hheld.cores z hz

end Sys2Proof.Proofs
end

section
/-! PROOFS. The mesh (R337 to R342, R348): its halves, buffers and links, what a flit that is injected, picked or bad leaves, and where
a packet goes. -/

namespace Sys2Proof.Safety

open Sys2Proof.Machine

variable {s t : State} {f : Reach}

theorem Kept.setMesh (h : Kept f s t) (hf : f.mesh = true) (half : Nat) (m : MeshHalf) : Kept f s (t.setMesh half m) :=
  h.trans (by constructor <;> simp [hf])

end Sys2Proof.Safety

namespace Sys2Proof.Machine

open Sys2Proof.Safety Sys2Proof.Claims

variable {s : State}

/-! #### The two halves -/

@[simp] theorem State.mesh_setMesh_same (half : Nat) (m : MeshHalf) : (s.setMesh half m).mesh half = m := by
  by_cases h : half = 0 <;> simp [State.mesh, State.setMesh, h]

theorem State.mesh_setMesh_other {half : Nat} (h : half < 2) (m : MeshHalf) : (s.setMesh half m).mesh (1 - half) = s.mesh (1 - half) := by
  have hcase : half = 0 ∨ half = 1 := by omega
  rcases hcase with rfl | rfl <;> simp [State.mesh, State.setMesh]

theorem State.mesh_congr {t : State} (ha : t.meshA = s.meshA) (hb : t.meshB = s.meshB) (half : Nat) : t.mesh half = s.mesh half := by
  simp only [State.mesh, ha, hb]

theorem LinkGood.kept {t : State} {half a b : Nat} (h : LinkGood s t half a b) : Kept { mesh := true, regs := true } s t := by
  obtain ⟨-, -, -, hkept⟩ := h
  exact hkept

theorem LinkBad.kept {t : State} {half a b : Nat} (h : LinkBad s t half a b) : Kept { mesh := true, regs := true } s t := by
  obtain ⟨-, -, -, -, -, hkept⟩ := h
  exact hkept

/-! #### Class buffers -/

/-- Class buffers of different routers are different. -/
theorem bufKey_ne_of_router {r r' port port' cls cls' : Nat} (hr : r ≠ r') (hp : port < 8) (hp' : port' < 8) :
    bufKey r port cls ≠ bufKey r' port' cls' := by
  unfold bufKey
  omega

theorem inputOf_lt (src dst : Nat) : inputOf src dst < 8 := by
  unfold inputOf
  split_ifs <;> omega

/-- The flit that an output serves comes from one of five inputs, in one of four classes. -/
theorem MeshHalf.pick_lt {x : MeshHalf} {half r d k : Nat} (h : x.pick half r d = some k) : k < 20 := by
  have hmem : ∀ j ∈ ((List.range 20).map (fun k => (smGet 0 x.turn (r * 8 + inputOf r d) + k) % 20)).filter
      (fun k => (x.ready half r d).contains k), j < 20 := by
    intro j hj
    obtain ⟨i, -, rfl⟩ := List.mem_map.1 (List.mem_of_mem_filter hj)
    exact Nat.mod_lt _ (by decide)
  unfold MeshHalf.pick at h
  dsimp only at h
  split at h
  · next hfind =>
    cases h
    exact hmem _ (List.mem_of_find?_eq_some hfind)
  · exact hmem _ (List.mem_of_head? h)

/-- A class CTL flit that is ready is picked first (R339). -/
theorem MeshHalf.pick_ctl {x : MeshHalf} {half r d : Nat} (h : ∃ j ∈ x.ready half r d, j % 4 = 2) :
    ∃ k, x.pick half r d = some k ∧ k % 4 = 2 := by
  obtain ⟨j, hj, hcls⟩ := h
  have hj20 : j < 20 := List.mem_range.1 (List.mem_of_mem_filter hj)
  have hturn : ∃ i < 20, (smGet 0 x.turn (r * 8 + inputOf r d) + i) % 20 = j :=
    ⟨(j + 20 - smGet 0 x.turn (r * 8 + inputOf r d) % 20) % 20, Nat.mod_lt _ (by decide), by omega⟩
  obtain ⟨i, hi, hij⟩ := hturn
  have hlist : j ∈ ((List.range 20).map (fun k => (smGet 0 x.turn (r * 8 + inputOf r d) + k) % 20)).filter
      (fun k => (x.ready half r d).contains k) :=
    List.mem_filter.2 ⟨List.mem_map.2 ⟨i, List.mem_range.2 hi, hij⟩, by simpa using hj⟩
  obtain ⟨k, hk⟩ := Option.isSome_iff_exists.1 (List.find?_isSome.2 ⟨j, hlist, by simpa using hcls⟩ :
    (List.find? (fun k => decide (k % 4 = 2)) _).isSome)
  refine ⟨k, ?_, by simpa using List.find?_some hk⟩
  unfold MeshHalf.pick
  dsimp only
  rw [hk]

/-! #### A flit moves -/

theorem MeshHalf.buf_putBuf (x : MeshHalf) (key : Nat) (l : List MFlit) (r port cls : Nat) :
    ({ x with bufs := smSet [] x.bufs key l } : MeshHalf).buf r port cls = if bufKey r port cls = key then l else x.buf r port cls := by
  unfold MeshHalf.buf
  split
  · next h => rw [h, smGet_smSet_same]
  · next h => exact smGet_smSet_other _ _ _ _ h

section Move

variable {x : MeshHalf} {r d k : Nat} {f : MFlit} {rest : List MFlit}

/-- The buffers without the oldest flit of input and class k at a router. -/
def MeshHalf.taken (x : MeshHalf) (r k : Nat) : SMap (List MFlit) :=
  smSet [] x.bufs (bufKey r (k / 4) (k % 4)) ((x.buf r (k / 4) (k % 4)).drop 1)

theorem MeshHalf.bufs_move_eject : (x.move r r k f).bufs = x.taken r k := by
  simp [MeshHalf.move, MeshHalf.taken]

theorem MeshHalf.bufs_move_cross (hne : r ≠ d) : (x.move r d k f).bufs
    = smSet [] (x.taken r k) (bufKey d (inputOf r d) (k % 4)) (smGet [] (x.taken r k) (bufKey d (inputOf r d) (k % 4)) ++ [f]) := by
  simp [MeshHalf.move, MeshHalf.taken, Ne.symm hne]

theorem MeshHalf.taken_same (hbuf : x.buf r (k / 4) (k % 4) = f :: rest) : smGet [] (x.taken r k) (bufKey r (k / 4) (k % 4)) = rest := by
  rw [MeshHalf.taken, smGet_smSet_same, hbuf]
  rfl

theorem MeshHalf.taken_other {r' port cls : Nat} (h : bufKey r' port cls ≠ bufKey r (k / 4) (k % 4)) :
    smGet [] (x.taken r k) (bufKey r' port cls) = x.buf r' port cls :=
  smGet_smSet_other _ _ _ _ h

/-- A flit that moves leaves its buffer. -/
theorem MeshHalf.buf_move_src (hk : k < 20) (hbuf : x.buf r (k / 4) (k % 4) = f :: rest) : (x.move r d k f).buf r (k / 4) (k % 4) = rest := by
  unfold MeshHalf.buf
  by_cases hne : r = d
  · rw [← hne, MeshHalf.bufs_move_eject, MeshHalf.taken_same hbuf]
  · rw [MeshHalf.bufs_move_cross hne, smGet_smSet_other _ _ _ _ (bufKey_ne_of_router hne (by omega) (inputOf_lt ..)),
      MeshHalf.taken_same hbuf]

/-- A flit that moves to the next router enters the buffer of its class there. -/
theorem MeshHalf.buf_move_dst (hk : k < 20) (hne : r ≠ d) :
    (x.move r d k f).buf d (inputOf r d) (k % 4) = x.buf d (inputOf r d) (k % 4) ++ [f] := by
  rw [MeshHalf.buf, MeshHalf.bufs_move_cross hne, smGet_smSet_same,
    MeshHalf.taken_other (bufKey_ne_of_router (Ne.symm hne) (inputOf_lt ..) (by omega))]

theorem MeshHalf.buf_move_other {r' port cls : Nat} (hsrc : bufKey r' port cls ≠ bufKey r (k / 4) (k % 4))
    (hdst : r ≠ d → bufKey r' port cls ≠ bufKey d (inputOf r d) (k % 4)) : (x.move r d k f).buf r' port cls = x.buf r' port cls := by
  rw [MeshHalf.buf]
  by_cases hne : r = d
  · rw [← hne, MeshHalf.bufs_move_eject, MeshHalf.taken_other hsrc]
  · rw [MeshHalf.bufs_move_cross hne, smGet_smSet_other _ _ _ _ (hdst hne), MeshHalf.taken_other hsrc]

end Move

/-! #### A link carries a flit, or not -/

theorem State.flitGood_mesh (half a b : Nat) : (s.flitGood half a b).mesh half
    = { s.mesh half with replays := smSet 0 (s.mesh half).replays (a * 144 + b) 0 } :=
  State.mesh_setMesh_same ..

theorem State.flitGood_buf (half a b r port cls : Nat) : ((s.flitGood half a b).mesh half).buf r port cls = (s.mesh half).buf r port cls := by
  rw [State.flitGood_mesh]
  rfl

theorem State.flitGood_kept (half a b : Nat) : Kept { mesh := true, regs := true } s (s.flitGood half a b) :=
  ((Kept.refl ..).setMesh rfl ..).bump rfl ..

/-- A flit that crosses a link counts there, whatever it changes in its half's routers (R340). -/
theorem State.flitGood_linkGood {half : Nat} (h : half < 2) (m : MeshHalf) (a b : Nat) :
    LinkGood s ((s.setMesh half m).flitGood half a b) half a b := by
  refine ⟨?_, ?_, ?_, ((Kept.refl ..).setMesh rfl ..).trans (State.flitGood_kept ..)⟩
  · rw [State.flitGood_mesh, smGet_smSet_same]
  · rw [State.flitGood, State.reg_bump_same, State.reg_congr (State.setMesh_regs ..), State.reg_congr (State.setMesh_regs ..)]
    rfl
  · exact (State.mesh_setMesh_other h _).trans (State.mesh_setMesh_other h _)

theorem State.flitBad_of_ne {half a b : Nat} (h : smGet 0 (s.mesh half).replays (a * 144 + b) ≠ 15) : s.flitBad half a b =
    ((s.setMesh half { s.mesh half with
      replays := smSet 0 (s.mesh half).replays (a * 144 + b) (smGet 0 (s.mesh half).replays (a * 144 + b) + 1) }).bump pgMesh half 0
        rMeshReplays 1).setErr pgMesh half 0 := by
  unfold State.flitBad
  dsimp only
  rw [if_neg (by omega)]

/-- A flit that fails its CRC stays with its sender, and counts below the sixteenth time running (R340). -/
theorem State.flitBad_linkBad {half a b : Nat} (hhalf : half < 2) (h : smGet 0 (s.mesh half).replays (a * 144 + b) ≠ 15) :
    LinkBad s (s.flitBad half a b) half a b := by
  rw [State.flitBad_of_ne h]
  generalize hm : ({ s.mesh half with
    replays := smSet 0 (s.mesh half).replays (a * 144 + b) (smGet 0 (s.mesh half).replays (a * 144 + b) + 1) } : MeshHalf) = m
  have hmesh : (((s.setMesh half m).bump pgMesh half 0 rMeshReplays 1).setErr pgMesh half 0).mesh half = m := State.mesh_setMesh_same ..
  refine ⟨?_, fun r port cls _ => ?_, ?_, ?_, State.mesh_setMesh_other hhalf m, (((Kept.refl ..).setMesh rfl ..).bump rfl ..).setFld rfl ..⟩
  · rw [hmesh, ← hm, smGet_smSet_same]
  · rw [hmesh, ← hm]
    rfl
  · rw [State.setErr, State.setFld, State.reg_setReg_other _ _ (regKey_off (by decide)), State.reg_bump_same,
      State.reg_congr (State.setMesh_regs ..)]
    rfl
  · exact State.fld_setFld_same _ _ _ _ _ _ (by decide) (by decide)

/-! #### MESH_FLIT -/

/-- A flit of a router's tile joins the buffer of its class (R337, R339). -/
def State.injected (s : State) (half src : Nat) (f : MFlit) : State :=
  (s.setMesh half { s.mesh half with
    bufs := smSet [] (s.mesh half).bufs (bufKey src 0 f.cls) ((s.mesh half).buf src 0 f.cls ++ [f.sent src]) }).flitGood half src src

/-- The picked flit moves over the output of a router (R338, R339). -/
def State.moved (s : State) (half src dst k : Nat) (f : MFlit) : State :=
  (s.setMesh half ((s.mesh half).move src dst k f)).flitGood half src dst

section Flit

variable {half src dst : Nat}

theorem State.injected_buf (f : MFlit) (r port cls : Nat) : ((s.injected half src f).mesh half).buf r port cls
    = if bufKey r port cls = bufKey src 0 f.cls then (s.mesh half).buf src 0 f.cls ++ [f.sent src] else (s.mesh half).buf r port cls := by
  rw [State.injected, State.flitGood_buf, State.mesh_setMesh_same, MeshHalf.buf_putBuf]

theorem State.moved_buf (k : Nat) (f : MFlit) (r port cls : Nat) :
    ((s.moved half src dst k f).mesh half).buf r port cls = ((s.mesh half).move src dst k f).buf r port cls := by
  rw [State.moved, State.flitGood_buf, State.mesh_setMesh_same]

theorem State.moved_kept (k : Nat) (f : MFlit) : Kept { mesh := true, regs := true } s (s.moved half src dst k f) :=
  ((Kept.refl ..).setMesh rfl ..).trans (State.flitGood_kept ..)

/-- No regulator of an injection has a rate, where the partition of the tile has none. -/
theorem State.injectCost_rates (hhalf : half < 2) (h : TileUnregulated s (144 * half + src)) (f : MFlit) :
    ∀ g ∈ s.injectCost half src f, s.gateRate g.1 = 0 := by
  intro g hg
  rcases List.mem_append.1 hg with hg | hg
  · unfold State.flitCost at hg
    split at hg
    · next p _ hp _ =>
      obtain ⟨hmesh, -⟩ := h p hp
      rw [List.mem_singleton.1 hg]
      exact hmesh _
    · cases hg
  · split at hg
    · next p hp =>
      split at hg
      · cases hg
      · obtain ⟨-, hd2d, -⟩ := h p hp
        rw [List.mem_singleton.1 hg]
        exact hd2d _ hhalf
    · cases hg

variable (hruns : s.meshRuns half = true)

include hruns

/-- A flit without room waits at its tile (R339). -/
theorem exec_meshFlit_full {f : MFlit} (h : 4 ≤ ((s.mesh half).buf src 0 f.cls).length) (ok : Bool) :
    exec (.meshFlit half src dst (some f) ok) s = .next s := by
  show Host.Outcome.next (reachLink.take s _) = _
  simp only [hruns, h]
  exact congrArg _ (Kept.refl _ s).take_eq

theorem exec_meshFlit_inject {f : MFlit} (h : ((s.mesh half).buf src 0 f.cls).length < 4) :
    exec (.meshFlit half src dst (some f) true) s
      = .next (reachLink.take s (s.gated (s.injectCost half src f) (fun w => (w.setMesh half { w.mesh half with
          bufs := smSet [] (s.mesh half).bufs (bufKey src 0 f.cls) ((s.mesh half).buf src 0 f.cls ++ [f.sent src]) }).flitGood half src src) id)) := by
  show Host.Outcome.next (reachLink.take s _) = _
  simp only [hruns, Nat.not_le.2 h]
  rfl

theorem exec_meshFlit_injectBad {f : MFlit} (h : ((s.mesh half).buf src 0 f.cls).length < 4) :
    exec (.meshFlit half src dst (some f) false) s = .next (reachLink.take s (s.flitBad half src src)) := by
  show Host.Outcome.next (reachLink.take s _) = _
  simp only [hruns, Nat.not_le.2 h]
  rfl

variable {k : Nat} {f : MFlit} {rest : List MFlit} (hpick : (s.mesh half).pick half src dst = some k)
  (hbuf : (s.mesh half).buf src (k / 4) (k % 4) = f :: rest)

include hpick hbuf

theorem exec_meshFlit_picked : exec (.meshFlit half src dst none true) s = .next (reachLink.take s
    (if src != dst then s.moved half src dst k f
     else if siteHalf f.dst != half then (s.moved half src dst k f).flitCross half f
     else (s.moved half src dst k f).flitOut half src f)) := by
  show Host.Outcome.next (reachLink.take s _) = _
  simp only [hruns, hpick, hbuf]
  rfl

theorem exec_meshFlit_pickedBad :
    exec (.meshFlit half src dst none false) s = .next (reachLink.take s (s.flitBad half src dst)) := by
  show Host.Outcome.next (reachLink.take s _) = _
  simp only [hruns, hpick, hbuf]
  rfl

end Flit

end Sys2Proof.Machine
end

section
/-! PROOFS. The die-to-die link (R343 to R348): its modules, what leaves their training as it is, and what a flit, a silence and a
training answer. O33 is settled at the end. -/

namespace Sys2Proof.Machine

/-- What one step does in a relation that composes, any number of steps does. -/
theorem foldl_rel {α : Type} {R : State → State → Prop} (hrefl : ∀ s, R s s) (htrans : ∀ {a b c}, R a b → R b c → R a c)
    {step : State → α → State} (hstep : ∀ s x, R s (step s x)) (l : List α) (s : State) : R s (l.foldl step s) := by
  induction l generalizing s with
  | nil => exact hrefl s
  | cons x r ih => exact htrans (hstep s x) (ih _)

end Sys2Proof.Machine

namespace Sys2Proof.Safety

open Sys2Proof.Machine

variable {s t : State} {f : Reach}

theorem Kept.modMod (h : Kept f s t) (hf : f.d2d = true) (m : Nat) (g : D2dMod → D2dMod) : Kept f s (t.modMod m g) :=
  { h with d2d := fun e => by simp [hf] at e }

theorem Kept.setFlow (h : Kept f s t) (hf : f.mesh = true) (half e m : Nat) : Kept f s (t.setFlow half e m) :=
  h.setMesh hf ..

theorem Kept.enter (h : Kept f s t) (hf : f.boot = true) (d : DevState) : Kept f s (t.enter d) := by
  unfold State.enter
  split
  · exact h
  · exact { h with boot := fun e => by simp [hf] at e }

theorem Kept.checkState (h : Kept f s t) (hf : f.boot = true) : Kept f s t.checkState := by
  have hshown : Kept f s { t with boot := { t.boot with reason := t.reasonBits } } := { h with boot := fun e => by simp [hf] at e }
  unfold State.checkState
  dsimp only
  split
  · exact hshown.enter hf _
  · exact hshown

end Sys2Proof.Safety

namespace Sys2Proof.Machine

open Sys2Proof.Safety Sys2Proof.Claims

variable {s t : State} {half m : Nat}

/-! #### Modules -/

theorem State.mod_modMod_same (h : m < 16) (g : D2dMod → D2dMod) : (s.modMod m g).mod m = g (s.mod m) :=
  fixSet_getD_same _ _ _ h

theorem State.mod_modMod_other {n : Nat} (h : n ≠ m) (g : D2dMod → D2dMod) : (s.modMod m g).mod n = s.mod n :=
  fixSet_getD_other _ _ _ h

theorem State.mod_congr (h : t.d2d = s.d2d) (n : Nat) : t.mod n = s.mod n := by
  unfold State.mod
  rw [h]

/-- A place of a list of fixed length takes its value or, out of the list, stands. -/
theorem fixSet_getD_same_or {α : Type} {n : Nat} (d : α) (l : List α) (i : Nat) (v : α) :
    (fixSet n d l i v).getD i d = v ∨ (fixSet n d l i v).getD i d = l.getD i d := by
  by_cases hi : i < (l ++ List.replicate (n - l.length) d).length
  · refine .inl ?_
    unfold fixSet
    rw [List.getD_eq_getElem _ _ (by simpa using hi), List.getElem_set_self]
  · refine .inr ?_
    simp only [List.length_append, List.length_replicate, not_lt] at hi
    unfold fixSet
    rw [List.getD_eq_default _ _ (by simp; omega), List.getD_eq_default _ _ (by omega)]

theorem State.modMod_proj {α : Type} (π : D2dMod → α) {g : D2dMod → D2dMod} (m : Nat) (h : π (g (s.mod m)) = π (s.mod m)) (n : Nat) :
    π ((s.modMod m g).mod n) = π (s.mod n) := by
  by_cases hn : n = m
  · subst hn
    rcases fixSet_getD_same_or (n := 16) {} s.d2d n (g (s.mod n)) with hv | hv
    · exact (congrArg π hv).trans h
    · exact congrArg π hv
  · rw [State.mod_modMod_other hn]

/-! #### What flows do to modules -/

/-- Flows move between modules: flow tables, replay buffers and what is sent, and no module's training or receiving state. -/
structure FlowsMoved (s t : State) : Prop where
  kept : Kept { d2d := true, mesh := true, sent := true } s t
  st : ∀ n, (t.mod n).st = (s.mod n).st
  rx : ∀ n, (t.mod n).rx = (s.mod n).rx
  fails : ∀ n, (t.mod n).fails = (s.mod n).fails
  since : ∀ n, (t.mod n).since = (s.mod n).since

theorem FlowsMoved.refl (s : State) : FlowsMoved s s := ⟨Kept.refl .., fun _ => rfl, fun _ => rfl, fun _ => rfl, fun _ => rfl⟩

theorem FlowsMoved.trans {u : State} (h : FlowsMoved s t) (h' : FlowsMoved t u) : FlowsMoved s u :=
  ⟨h.kept.trans h'.kept, fun n => (h'.st n).trans (h.st n), fun n => (h'.rx n).trans (h.rx n), fun n => (h'.fails n).trans (h.fails n),
    fun n => (h'.since n).trans (h.since n)⟩

theorem FlowsMoved.foldl {α : Type} {step : State → α → State} (hstep : ∀ s x, FlowsMoved s (step s x)) (l : List α) (s : State) :
    FlowsMoved s (l.foldl step s) :=
  foldl_rel FlowsMoved.refl FlowsMoved.trans hstep l s

theorem FlowsMoved.of_d2d_eq (hkept : Kept { d2d := true, mesh := true, sent := true } s t) (h : t.d2d = s.d2d) : FlowsMoved s t :=
  ⟨hkept, fun n => by rw [State.mod_congr h], fun n => by rw [State.mod_congr h], fun n => by rw [State.mod_congr h],
    fun n => by rw [State.mod_congr h]⟩

theorem FlowsMoved.setReplay (s : State) (m : Nat) (tx : D2dMod → List Nat) (replay : D2dMod → List (List (Nat × Nat × List (List Byte)))) :
    FlowsMoved s (s.modMod m (fun x => { x with tx := tx x, replay := replay x })) :=
  ⟨(Kept.refl ..).modMod rfl .., State.modMod_proj D2dMod.st m rfl, State.modMod_proj D2dMod.rx m rfl,
    State.modMod_proj D2dMod.fails m rfl, State.modMod_proj D2dMod.since m rfl⟩

theorem FlowsMoved.setFlow (s : State) (half e m : Nat) : FlowsMoved s (s.setFlow half e m) :=
  .of_d2d_eq ((Kept.refl ..).setFlow rfl ..) (State.setMesh_d2d ..)

theorem FlowsMoved.d2dPut (s : State) (half e m : Nat) (slots : List (List Byte)) : FlowsMoved s (s.d2dPut half e m slots) := by
  unfold State.d2dPut
  dsimp only
  split
  · exact (FlowsMoved.setReplay s m _ _).trans (.of_d2d_eq ((Kept.refl ..).emit rfl _) rfl)
  · exact FlowsMoved.setReplay s m _ _

theorem FlowsMoved.reassign (s : State) (half m : Nat) : FlowsMoved s (s.reassign half m) := by
  unfold State.reassign
  split
  · exact FlowsMoved.refl s
  · exact ((FlowsMoved.foldl (fun s _ => .setFlow s ..) _ _).trans (.setReplay _ m _ _)).trans
      (FlowsMoved.foldl (fun s _ => .d2dPut s ..) _ _)

theorem FlowsMoved.modBack (s : State) (half m : Nat) : FlowsMoved s (s.modBack half m) := by
  have hdrop : ∀ (es : List Nat) (s : State) (n : Nat), FlowsMoved s (if n = m then s else
      s.modMod n (fun x => { x with replay := x.replay.set half ((x.replay.getD half []).filter (fun f => !es.contains f.2.1)) })) := by
    intro es s n
    split
    · exact FlowsMoved.refl s
    · exact .setReplay s n _ _
  exact ((FlowsMoved.foldl (fun s _ => .setFlow s ..) _ _).trans (FlowsMoved.foldl (hdrop _) _ _)).trans
    (FlowsMoved.foldl (fun s _ => .d2dPut s ..) _ _)

/-- A module that a flit goes onto (R344). -/
def D2dMod.put (x : D2dMod) (half e : Nat) (slots : List (List Byte)) : D2dMod :=
  { x with
    tx := x.tx.set half ((x.tx.getD half 0 + 1) % 1024)
    replay := x.replay.set half (x.replay.getD half [] ++ [(x.tx.getD half 0, e, slots)]) }

theorem State.d2dPut_d2d (e : Nat) (slots : List (List Byte)) :
    (s.d2dPut half e m slots).d2d = (s.modMod m fun _ => (s.mod m).put half e slots).d2d := by
  unfold State.d2dPut
  dsimp only
  split <;> rfl

/-- A flit that goes onto a module joins its replay buffer, and no other module's (R344). -/
theorem State.d2dPut_replay (hm : m < 16) (hhalf : half < 2) (h : (s.mod m).replay.length = 2) (e : Nat) (slots : List (List Byte)) :
    ((s.d2dPut half e m slots).mod m).replay.getD half [] = (s.mod m).replay.getD half [] ++ [((s.mod m).tx.getD half 0, e, slots)] := by
  rw [State.mod_congr (State.d2dPut_d2d e slots), State.mod_modMod_same hm, D2dMod.put,
    List.getD_eq_getElem _ _ (by simp [h]; omega), List.getElem_set_self]

theorem State.d2dPut_mod_other {n : Nat} (hn : n ≠ m) (e : Nat) (slots : List (List Byte)) : (s.d2dPut half e m slots).mod n = s.mod n := by
  rw [State.mod_congr (State.d2dPut_d2d e slots), State.mod_modMod_other hn]

/-! #### Modules go out -/

/-- A module that is out since a time (R346). -/
def D2dMod.out (x : D2dMod) (now : Nat) : D2dMod := { x with st := .disabled, since := now, retries := 0 }

/-- A module is out, from now on (R346). -/
def State.modOut (s : State) (recv m : Nat) : State :=
  ((s.modMod m (fun x => x.out s.timeUs)).bump pgD2d recv 0 rD2dDisables 1).setErr pgD2d recv 1

theorem State.modOut_kept (recv m : Nat) : Kept { d2d := true, regs := true } s (s.modOut recv m) :=
  (((Kept.refl ..).modMod rfl ..).bump rfl ..).setFld rfl ..

theorem State.modOut_d2d (recv : Nat) : (s.modOut recv m).d2d = (s.modMod m (fun x => x.out s.timeUs)).d2d := rfl

theorem State.modOut_mod_same (recv : Nat) (hm : m < 16) : (s.modOut recv m).mod m = (s.mod m).out s.timeUs := by
  rw [State.mod_congr (State.modOut_d2d recv), State.mod_modMod_same hm]

theorem State.modOut_mod_other (recv : Nat) {n : Nat} (hn : n ≠ m) : (s.modOut recv m).mod n = s.mod n := by
  rw [State.mod_congr (State.modOut_d2d recv), State.mod_modMod_other hn]

/-- The modules of a list are out, from now on, and no other. -/
theorem State.modsOut (recv : Nat) (ms : List Nat) (hms : ∀ m ∈ ms, m < 16) (s : State) :
    Kept { d2d := true, regs := true } s (ms.foldl (fun s m => s.modOut recv m) s)
      ∧ (∀ m ∈ ms, ((ms.foldl (fun s m => s.modOut recv m) s).mod m).st = .disabled
        ∧ ((ms.foldl (fun s m => s.modOut recv m) s).mod m).since = s.timeUs)
      ∧ ∀ n ∉ ms, (ms.foldl (fun s m => s.modOut recv m) s).mod n = s.mod n := by
  induction ms generalizing s with
  | nil => exact ⟨Kept.refl .., by simp, by simp⟩
  | cons m r ih =>
    obtain ⟨hkept, hin, hout⟩ := ih (fun x hx => hms x (List.mem_cons_of_mem _ hx)) (s.modOut recv m)
    have htime : (s.modOut recv m).timeUs = s.timeUs := (State.modOut_kept recv m).time rfl
    refine ⟨(State.modOut_kept recv m).trans hkept, fun n hn => ?_, fun n hn => ?_⟩
    · by_cases hr : n ∈ r
      · exact htime ▸ hin n hr
      · obtain rfl : n = m := by simpa [hr] using hn
        rw [List.foldl_cons, hout n hr, State.modOut_mod_same recv (hms n hn)]
        exact ⟨rfl, rfl⟩
    · simp only [List.mem_cons, not_or] at hn
      rw [List.foldl_cons, hout n hn.2, State.modOut_mod_other recv hn.1]

theorem State.modsOff_eq (recv : Nat) (ms : List Nat) : s.modsOff recv ms
    = ms.foldl (fun s m => (s.reassign 0 m).reassign 1 m) (ms.foldl (fun s m => s.modOut recv m) s) := rfl

theorem State.modsOff_moved (recv : Nat) (ms : List Nat) : FlowsMoved (ms.foldl (fun s m => s.modOut recv m) s) (s.modsOff recv ms) := by
  rw [State.modsOff_eq]
  exact FlowsMoved.foldl (fun s _ => (FlowsMoved.reassign s ..).trans (FlowsMoved.reassign ..)) _ _

/-! #### What a flit says -/

theorem leNat_take_two_leBytes (n v : Nat) : leNat ((leBytes (n + 2) v).take 2) = v % 65536 := by
  show (BitVec.ofNat 8 v).toNat + 256 * ((BitVec.ofNat 8 (v / 256)).toNat + 256 * 0) = _
  simp only [BitVec.toNat_ofNat]
  omega

/-- The sequence number of a flit stands in its first ten bits (R343). -/
theorem bits_flit_sequence (v : Nat) : bits (leNat ((leBytes 256 v).take 2)) 9 0 = bits v 9 0 := by
  rw [leNat_take_two_leBytes 254 v]
  exact bits_mod_two_pow (n := 16) v (by decide) (by decide)

end Sys2Proof.Machine

namespace Sys2Proof.Machine

open Sys2Proof.Safety Sys2Proof.Claims

variable {s : State} {half src dst : Nat}

/-! #### What MESH_FLIT answers -/

section Flit

variable (hhalf : half < 2) (hruns : s.meshRuns half = true)

include hhalf hruns

theorem meshFlit_injects {f : MFlit} (hroom : ((s.mesh half).buf src 0 f.cls).length < 4) (hfree : TileUnregulated s (144 * half + src)) :
    exec (.meshFlit half src dst (some f) true) s = .next (s.injected half src f) := by
  rw [exec_meshFlit_inject hruns hroom, State.gated_of_rate_zero (State.injectCost_rates hhalf hfree f)]
  exact congrArg _ (((LinkGood.kept (State.flitGood_linkGood hhalf _ src src)).mono rfl).take_eq)

omit hhalf in
theorem meshFlit_waits {f : MFlit} (hroom : ((s.mesh half).buf src 0 f.cls).length < 4)
    (hclosed : s.gatesOpen (s.injectCost half src f) = false) :
    exec (.meshFlit half src dst (some f) true) s = .next (s.gatesHeld (s.injectCost half src f)) := by
  rw [exec_meshFlit_inject hruns hroom, State.gated_of_closed hclosed, id,
    ((State.gatesHeld_kept (s := s) _).mono (g := reachLink) rfl).take_eq]

theorem meshFlit_injectBad {f : MFlit} (hroom : ((s.mesh half).buf src 0 f.cls).length < 4)
    (hreplays : smGet 0 (s.mesh half).replays (src * 144 + src) ≠ 15) :
    ∃ t, exec (.meshFlit half src dst (some f) false) s = .next t ∧ LinkBad s t half src src := by
  have hbad := State.flitBad_linkBad hhalf hreplays
  refine ⟨_, ?_, hbad⟩
  rw [exec_meshFlit_injectBad hruns hroom, ((LinkBad.kept hbad).mono (g := reachLink) rfl).take_eq]

variable {k : Nat} {f : MFlit} {rest : List MFlit} (hpick : (s.mesh half).pick half src dst = some k)
  (hbuf : (s.mesh half).buf src (k / 4) (k % 4) = f :: rest)

include hpick hbuf

theorem meshFlit_pickedBad (hreplays : smGet 0 (s.mesh half).replays (src * 144 + dst) ≠ 15) :
    ∃ t, exec (.meshFlit half src dst none false) s = .next t ∧ LinkBad s t half src dst := by
  have hbad := State.flitBad_linkBad hhalf hreplays
  refine ⟨_, ?_, hbad⟩
  rw [exec_meshFlit_pickedBad hruns hpick hbuf, ((LinkBad.kept hbad).mono (g := reachLink) rfl).take_eq]

omit hhalf hruns hpick in
theorem State.moved_buf_src (hk : k < 20) : ((s.moved half src dst k f).mesh half).buf src (k / 4) (k % 4) = rest := by
  rw [State.moved_buf, MeshHalf.buf_move_src hk hbuf]

omit hhalf in
/-- A picked flit goes on to the next router (R338, R339). -/
theorem meshFlit_crosses (hne : src ≠ dst) :
    exec (.meshFlit half src dst none true) s = .next (s.moved half src dst k f) := by
  rw [exec_meshFlit_picked hruns hpick hbuf, if_pos (by simpa using hne), ((State.moved_kept k f).mono (g := reachLink) rfl).take_eq]

omit hhalf in
/-- A picked flit is ejected at its destination (R338). -/
theorem meshFlit_ejects (heq : src = dst) (hhome : siteHalf f.dst = half) (hpart : s.sitePart (144 * half + src) = none) :
    exec (.meshFlit half src dst none true) s = .next ((s.moved half src dst k f).emit (.eject half src f.data)) := by
  have hkept := State.moved_kept (s := s) (half := half) (src := src) (dst := dst) k f
  have hsite : (s.moved half src dst k f).sitePart (144 * half + src) = none := by
    rw [← hpart]
    unfold State.sitePart State.vaultOf State.partOfCore
    rw [hkept.boot rfl, hkept.vaults rfl, hkept.parts rfl]
  have hout : (s.moved half src dst k f).flitOut half src f = (s.moved half src dst k f).emit (.eject half src f.data) := by
    simp [State.flitOut, hsite]
  rw [exec_meshFlit_picked hruns hpick hbuf, if_neg (by simpa using heq), if_neg (by simpa using hhome), hout,
    ((hkept.mono (g := reachLink) rfl).emit rfl _).take_eq]

omit hhalf in
/-- A picked flit for the other half goes onto the module of its flow, at its attach router (R338, R345). -/
theorem meshFlit_leaves (heq : src = dst) (haway : siteHalf f.dst ≠ half) (hfence : s.abs.fence = none) :
    exec (.meshFlit half src dst none true) s = .next ((s.moved half src dst k f).d2dPut half f.flow (s.flowMod half f.flow) [f.data]) := by
  have hkept := State.moved_kept (s := s) (half := half) (src := src) (dst := dst) k f
  have hflow : (s.moved half src dst k f).flowMod half f.flow = s.flowMod half f.flow := by
    rw [State.flowMod, State.moved, State.flitGood_mesh, State.mesh_setMesh_same]
    rfl
  have hcross : (s.moved half src dst k f).flitCross half f
      = (s.moved half src dst k f).d2dPut half f.flow (s.flowMod half f.flow) [f.data] := by
    simp [State.flitCross, hflow, hkept.abs rfl, hfence]
  rw [exec_meshFlit_picked hruns hpick hbuf, if_neg (by simpa using heq), if_pos (by simpa using haway), hcross,
    ((hkept.mono (g := reachLink) rfl).trans ((FlowsMoved.d2dPut ..).kept.mono rfl)).take_eq]

end Flit

/-! #### What MESH_PACKET answers -/

/-- A packet for its own half is ejected at its router (R338). -/
theorem meshPacket_ejects (hruns : s.meshRuns half = true) (hfree : TileUnregulated s (144 * half + src % 144)) (hhome : siteHalf dst = half)
    (hpart : s.sitePart dst = none) (bs : List Byte) :
    exec (.meshPacket half src dst bs) s = .next (s.emit (.eject half (dst % 144) bs)) := by
  have hrates : ∀ g ∈ s.packetCost half src bs, s.gateRate g.1 = 0 := by
    intro g hg
    obtain ⟨e, he, rfl⟩ := List.mem_map.1 hg
    unfold State.flitCost at he
    split at he
    · next p _ hp _ =>
      obtain ⟨hmesh, -⟩ := hfree p hp
      rw [List.mem_singleton.1 he]
      exact hmesh _
    · cases he
  have hout : s.packetOut dst bs = s.emit (.eject half (dst % 144) bs) := by simp [State.packetOut, hpart, hhome]
  show Host.Outcome.next (reachLink.take s _) = _
  simp only [hruns, hhome, State.gated_of_rate_zero hrates, hout]
  exact congrArg _ (((Kept.refl ..).emit rfl _).take_eq)

/-- A packet for the fenced half is held (R348). -/
theorem meshPacket_held (hhalf : half < 2) (hruns : s.meshRuns half = true) {f : Fence} (hfence : s.abs.fence = some f)
    (hf : f.half = 1 - half) (hesc : f.escalated = false) (hdst : siteHalf dst = 1 - half) (bs : List Byte) :
    exec (.meshPacket half src dst bs) s
      = .next (s.setMesh half { s.mesh half with packets := (s.mesh half).packets ++ [(src, dst, bs)] }) := by
  have haway : siteHalf dst ≠ half := by omega
  have hfenced : s.fencedHalf = some (siteHalf dst) := by simp [State.fencedHalf, hfence, hf, hdst]
  show Host.Outcome.next (reachLink.take s _) = _
  simp only [hruns, haway, hfenced, hfence, hesc]
  exact congrArg _ (((Kept.refl ..).setMesh rfl ..).take_eq)

/-! #### What the die-to-die commands answer -/

variable {m : Nat}

/-- A flit in sequence is taken and acknowledged (R344). -/
def State.flitTaken (s : State) (m half q : Nat) : State :=
  ((s.modMod m (fun x => { x with rx := x.rx.set half ((q + 1) % 1024), nak := x.nak.set half false })).bump pgD2d half 0 rD2dFlits 1).emit
    (.d2dAck m half q false)

theorem State.flitTaken_kept (m half q : Nat) : Kept { d2d := true, regs := true, sent := true } s (s.flitTaken m half q) :=
  (((Kept.refl ..).modMod rfl ..).bump rfl ..).emit rfl _

theorem State.flitTaken_mod_same (hm : m < 16) (q : Nat) : (s.flitTaken m half q).mod m
    = { s.mod m with rx := (s.mod m).rx.set half ((q + 1) % 1024), nak := (s.mod m).nak.set half false } := by
  have hd2d : (s.flitTaken m half q).d2d
      = (s.modMod m (fun x => { x with rx := x.rx.set half ((q + 1) % 1024), nak := x.nak.set half false })).d2d := rfl
  rw [State.mod_congr hd2d, State.mod_modMod_same hm]

theorem State.flitTaken_mod_other {n : Nat} (hn : n ≠ m) (q : Nat) : (s.flitTaken m half q).mod n = s.mod n := by
  have hd2d : (s.flitTaken m half q).d2d
      = (s.modMod m (fun x => { x with rx := x.rx.set half ((q + 1) % 1024), nak := x.nak.set half false })).d2d := rfl
  rw [State.mod_congr hd2d, State.mod_modMod_other hn]

/-- A flit that brings neither an acknowledgement nor a reset notice only advances its sequence (R344). -/
theorem State.d2dAccept_plain {bs : List Byte} (hack : bit (leNat ((bs.drop 2).take 2)) 10 = false)
    (hnak : bit (leNat ((bs.drop 2).take 2)) 11 = false) (hreset : bit (leNat ((bs.drop 2).take 2)) 12 = false) :
    s.d2dAccept m half bs = s.flitTaken m half (bits (leNat (bs.take 2)) 9 0) := by
  unfold State.d2dAccept
  simp only [hack, hnak, hreset]
  rfl

/-- A flit in sequence is accepted (R343, R344). -/
theorem exec_d2dFlit_inSequence {flit : BitVec 2048} (h : FlitInSequence s m half flit)
    (hbits : let a := leNat (((leBytes 256 flit.toNat).drop 2).take 2); bit a 10 = false ∧ bit a 11 = false ∧ bit a 12 = false) :
    exec (.d2dFlit m half flit) s = .next (s.flitTaken m half ((s.mod m).rx.getD half 0)) := by
  obtain ⟨hup, hfence, hcrc, hseq⟩ := h
  obtain ⟨hack, hnak, hreset⟩ := hbits
  have hword : bits (leNat ((leBytes 256 flit.toNat).take 2)) 9 0 = (s.mod m).rx.getD half 0 := (bits_flit_sequence _).trans hseq
  have haccept := State.d2dAccept_plain (s := s) (m := m) (half := half) hack hnak hreset
  rw [hword] at haccept
  have hrunning : ((s.mod m).st != ModSt.up || decide (s.fencedHalf = some half)) = false := by simp [hup, hfence]
  show execD2dFlit m half flit s = _
  unfold execD2dFlit
  dsimp only
  rw [hrunning, if_neg Bool.false_ne_true, if_pos (by simp [hcrc, hseq]), haccept, ((State.flitTaken_kept ..).mono (g := reachLink) rfl).take_eq]

/-- Silent modules go out, while another still runs (R346). -/
theorem exec_d2dClockSilence {mods : BitVec 16} (hfence : s.fencedHalf ≠ some half) (hgone : s.upMods.filter (fun m => mods.getLsbD m) ≠ [])
    (hrest : s.upMods.filter (fun m => mods.getLsbD m) ≠ s.upMods) :
    exec (.d2dClockSilence mods half) s
      = .next (reachLink.take s (s.modsOff half (s.upMods.filter (fun m => mods.getLsbD m))).checkState) := by
  show Host.Outcome.next (reachLink.take s _) = _
  simp [hfence, hgone, hrest]

section Retrain

variable (hout : (s.mod m).st = .disabled) (hdelay : s.timeUs ≥ (s.mod m).since + 100000 * s.fld pgD2d 0 0 rD2dCfg 15 8)
  (hfence : s.abs.fence = none) (hfused : s.boot.d2dFused.testBit m = false) (htest : s.boot.d2dTest.testBit m = false)

include hout hdelay hfence hfused htest

theorem d2dRetrain_starts : ((s.mod m).st != ModSt.disabled || decide (s.timeUs < (s.mod m).since + 100000 * s.fld pgD2d 0 0 rD2dCfg 15 8)
    || s.abs.fence.isSome || s.boot.d2dFused.testBit m || s.boot.d2dTest.testBit m) = false := by
  simp [hout, hdelay, hfence, hfused, htest]

theorem exec_d2dRetrain_ok :
    exec (.d2dRetrain m true) s = .next (reachLink.take s (((s.modMod m D2dMod.retrained).modBack 0 m).modBack 1 m).checkState) := by
  show execD2dRetrain m true s = _
  unfold execD2dRetrain
  dsimp only
  rw [d2dRetrain_starts hout hdelay hfence hfused htest, if_neg Bool.false_ne_true, if_pos rfl]

theorem exec_d2dRetrain_fails :
    exec (.d2dRetrain m false) s = .next (reachLink.take s
      (if (s.mod m).fails + 1 = 3 then (s.modMod m (fun x => { x with st := .failed, fails := 3 })).checkState
       else s.modMod m (fun x => { x with fails := x.fails + 1 }))) := by
  show execD2dRetrain m false s = _
  unfold execD2dRetrain
  dsimp only
  rw [d2dRetrain_starts hout hdelay hfence hfused htest, if_neg Bool.false_ne_true, if_neg Bool.false_ne_true]

end Retrain

end Sys2Proof.Machine

namespace Sys2Proof.Machine

open Sys2Proof.Safety Sys2Proof.Claims

variable {s : State} {half src dst m : Nat}

/-! #### What the answers leave -/

theorem State.injected_bufsKept (f : MFlit) : BufsKept s (s.injected half src f) half [bufKey src 0 f.cls] := fun r port cls hkey => by
  rw [State.injected_buf, if_neg (by simpa using hkey)]

theorem State.moved_bufsKept (k : Nat) (f : MFlit) :
    BufsKept s (s.moved half src dst k f) half [bufKey src (k / 4) (k % 4), bufKey dst (inputOf src dst) (k % 4)] := fun r port cls hkey => by
  simp only [List.mem_cons, List.not_mem_nil, or_false, not_or] at hkey
  rw [State.moved_buf, MeshHalf.buf_move_other hkey.1 fun _ => hkey.2]

/-- A flit that leaves the mesh at its router changes the buffer that it leaves. -/
theorem State.moved_bufsKept_out (heq : src = dst) (k : Nat) (f : MFlit) :
    BufsKept s (s.moved half src dst k f) half [bufKey src (k / 4) (k % 4)] := fun r port cls hkey => by
  rw [State.moved_buf, MeshHalf.buf_move_other (by simpa using hkey) fun hne => absurd heq hne]

theorem State.d2dPut_mesh (half m e : Nat) (slots : List (List Byte)) (h : Nat) : (s.d2dPut half e m slots).mesh h = s.mesh h := by
  unfold State.d2dPut
  dsimp only
  split <;> rfl

/-- Modules go out, and the device state follows; nothing else of the modules' training changes. -/
theorem d2dClockSilence_answers {mods : BitVec 16} (hfence : s.fencedHalf ≠ some half)
    (hgone : s.upMods.filter (fun m => mods.getLsbD m) ≠ []) (hrest : s.upMods.filter (fun m => mods.getLsbD m) ≠ s.upMods) :
    ∃ t, exec (.d2dClockSilence mods half) s = .next t
      ∧ (∀ m < 16, (t.mod m).st = if m ∈ s.upMods.filter (fun m => mods.getLsbD m) then .disabled else (s.mod m).st)
      ∧ (∀ m ∈ s.upMods.filter (fun m => mods.getLsbD m), (t.mod m).since = s.timeUs) ∧ t.abs = s.abs
      ∧ Kept { d2d := true, mesh := true, regs := true, boot := true, sent := true } s t := by
  have hexec := exec_d2dClockSilence hfence hgone hrest
  have hlt : ∀ m ∈ s.upMods.filter (fun m => mods.getLsbD m), m < 16 := fun m hm =>
    List.mem_range.1 (List.mem_of_mem_filter (List.mem_of_mem_filter hm))
  generalize s.upMods.filter (fun m => mods.getLsbD m) = gone at hexec hlt
  obtain ⟨hout, hin, hothers⟩ := State.modsOut half gone hlt s
  have hmoved := State.modsOff_moved (s := s) half gone
  have hkept : Kept { d2d := true, mesh := true, regs := true, boot := true, sent := true } s (s.modsOff half gone).checkState :=
    ((hout.mono rfl).trans (hmoved.kept.mono rfl)).checkState rfl
  have hmods : ∀ n, (s.modsOff half gone).checkState.mod n = (s.modsOff half gone).mod n := State.mod_congr
    (((Kept.refl { boot := true } _).checkState rfl).d2d rfl)
  rw [(hkept.mono (g := reachLink) rfl).take_eq] at hexec
  refine ⟨_, hexec, fun n _ => ?_, fun n hn => ?_, hkept.abs rfl, hkept⟩
  · rw [hmods, hmoved.st]
    split
    · next hn => exact (hin n hn).1
    · next hn => rw [hothers n hn]
  · rw [hmods, hmoved.since]
    exact (hin n hn).2

section Retrain

variable (hm : m < 16) (hout : (s.mod m).st = .disabled) (hdelay : s.timeUs ≥ (s.mod m).since + 100000 * s.fld pgD2d 0 0 rD2dCfg 15 8)
  (hfence : s.abs.fence = none) (hfused : s.boot.d2dFused.testBit m = false) (htest : s.boot.d2dTest.testBit m = false)

include hm hout hdelay hfence hfused htest

/-- A module that trains is UP, with its sequences from 0 (R346). -/
theorem d2dRetrain_trains : ∃ t, exec (.d2dRetrain m true) s = .next t ∧ (t.mod m).st = .up ∧ (t.mod m).rx = [0, 0] ∧ (t.mod m).fails = 0
    ∧ (∀ k < 16, k ≠ m → (t.mod k).st = (s.mod k).st) ∧ Kept { d2d := true, mesh := true, boot := true, sent := true } s t := by
  have hexec := exec_d2dRetrain_ok hout hdelay hfence hfused htest
  have hback := (FlowsMoved.modBack (s.modMod m D2dMod.retrained) 0 m).trans (FlowsMoved.modBack _ 1 m)
  generalize ((s.modMod m D2dMod.retrained).modBack 0 m).modBack 1 m = w at hexec hback
  have hkept : Kept { d2d := true, mesh := true, boot := true, sent := true } s w.checkState :=
    (((Kept.refl ..).modMod rfl ..).trans (hback.kept.mono rfl)).checkState rfl
  have hmods : ∀ n, w.checkState.mod n = w.mod n := State.mod_congr (((Kept.refl { boot := true } _).checkState rfl).d2d rfl)
  rw [(hkept.mono (g := reachLink) rfl).take_eq] at hexec
  refine ⟨_, hexec, ?_, ?_, ?_, fun k _ hk => ?_, hkept⟩
  · rw [hmods, hback.st, State.mod_modMod_same hm]
    rfl
  · rw [hmods, hback.rx, State.mod_modMod_same hm]
    rfl
  · rw [hmods, hback.fails, State.mod_modMod_same hm]
    rfl
  · rw [hmods, hback.st, State.mod_modMod_other hk]

/-- A training that fails counts, and the third one running is for good (R346). -/
theorem d2dRetrain_fails : ∃ t, exec (.d2dRetrain m false) s = .next t
    ∧ (t.mod m).fails = (if (s.mod m).fails + 1 = 3 then 3 else (s.mod m).fails + 1)
    ∧ (t.mod m).st = (if (s.mod m).fails + 1 = 3 then .failed else .disabled) ∧ (∀ k < 16, k ≠ m → t.mod k = s.mod k)
    ∧ Kept { d2d := true, boot := true } s t := by
  have hexec := exec_d2dRetrain_fails hout hdelay hfence hfused htest
  by_cases hthird : (s.mod m).fails + 1 = 3
  · simp only [if_pos hthird] at hexec ⊢
    have hkept : Kept { d2d := true, boot := true } s (s.modMod m (fun x => { x with st := .failed, fails := 3 })).checkState :=
      ((Kept.refl ..).modMod rfl ..).checkState rfl
    have hmods : ∀ n, (s.modMod m (fun x => { x with st := .failed, fails := 3 })).checkState.mod n
        = (s.modMod m (fun x => { x with st := .failed, fails := 3 })).mod n :=
      State.mod_congr (((Kept.refl { boot := true } _).checkState rfl).d2d rfl)
    rw [(hkept.mono (g := reachLink) rfl).take_eq] at hexec
    refine ⟨_, hexec, ?_, ?_, fun k _ hk => ?_, hkept⟩
    · rw [hmods, State.mod_modMod_same hm]
    · rw [hmods, State.mod_modMod_same hm]
    · rw [hmods, State.mod_modMod_other hk]
  · simp only [if_neg hthird] at hexec ⊢
    have hkept : Kept { d2d := true, boot := true } s (s.modMod m (fun x => { x with fails := x.fails + 1 })) := (Kept.refl ..).modMod rfl ..
    rw [(hkept.mono (g := reachLink) rfl).take_eq] at hexec
    refine ⟨_, hexec, ?_, ?_, fun k _ hk => State.mod_modMod_other hk _, hkept⟩
    · rw [State.mod_modMod_same hm]
    · rw [State.mod_modMod_same hm]
      exact hout

end Retrain

end Sys2Proof.Machine

namespace Sys2Proof.Proofs

open Sys2Proof Sys2Proof.Machine Sys2Proof.Safety Sys2Proof.Claims

/-- Settles O33, one command at a time. -/
theorem meshAndDieToDieLinks : Obligations.MeshAndDieToDieLinks := by
  unfold Obligations.MeshAndDieToDieLinks
  refine ⟨fun s half src dst hhalf hruns => ⟨fun f hroom => ⟨fun hfree => ?inject, fun hclosed => ?hold, meshFlit_injectBad hhalf hruns hroom⟩,
      fun f ok hfull => exec_meshFlit_full hruns hfull ok, fun k f rest hpick hbuf => ⟨fun hne => ?cross, fun heq hhome hpart => ?eject,
        fun heq haway hfence hmods => ?leave, meshFlit_pickedBad hhalf hruns hpick hbuf⟩,
      fun f => rfl, MeshHalf.pick_ctl, fun bs hfree hhome hpart => ?packet, fun bs f hfence hf hesc hdst => ?packetHeld⟩,
    fun s m half flit hm hhalf hrx hflit hbits => ?flit, fun s mods half hfence => ?silence,
    fun s m hm hout hdelay hfence hfused htest => ⟨d2dRetrain_trains hm hout hdelay hfence hfused htest,
      d2dRetrain_fails hm hout hdelay hfence hfused htest⟩⟩
  case inject =>
    refine ⟨_, meshFlit_injects hhalf hruns hroom hfree, ?_, State.injected_bufsKept f, State.flitGood_linkGood hhalf _ src src⟩
    rw [State.injected_buf, if_pos rfl]
    rfl
  case hold =>
    have hkept := State.gatesHeld_kept (s := s) (s.injectCost half src f)
    obtain ⟨ha, hb, -⟩ := hkept.mesh rfl
    exact ⟨_, meshFlit_waits hruns hroom hclosed, State.mesh_congr ha hb _, State.mesh_congr ha hb _, hkept⟩
  case cross =>
    have hk := MeshHalf.pick_lt hpick
    refine ⟨_, meshFlit_crosses hruns hpick hbuf hne, State.moved_buf_src hbuf hk, ?_, State.moved_bufsKept k f,
      State.flitGood_linkGood hhalf _ src dst⟩
    rw [State.moved_buf, MeshHalf.buf_move_dst hk hne]
  case eject =>
    exact ⟨_, meshFlit_ejects hruns hpick hbuf heq hhome hpart, State.moved_buf_src hbuf (MeshHalf.pick_lt hpick),
      State.moved_bufsKept_out heq k f, congrArg _ ((State.moved_kept k f).sent rfl)⟩
  case leave =>
    intro m hm hreplay
    have hd2d : (s.moved half src dst k f).d2d = s.d2d := (State.moved_kept k f).d2d rfl
    refine ⟨_, meshFlit_leaves hruns hpick hbuf heq haway hfence, ?_, fun r port cls hkey => ?_, ?_, fun n hn => ?_⟩
    · rw [State.d2dPut_mesh]
      exact State.moved_buf_src hbuf (MeshHalf.pick_lt hpick)
    · rw [State.d2dPut_mesh]
      exact State.moved_bufsKept_out heq k f r port cls hkey
    · rw [State.d2dPut_replay hm hhalf (by rw [State.mod_congr hd2d]; exact hreplay), State.mod_congr hd2d]
    · rw [State.d2dPut_mod_other hn, State.mod_congr hd2d]
  case packet =>
    exact ⟨_, meshPacket_ejects hruns hfree hhome hpart bs, rfl, (Kept.refl ..).emit rfl _⟩
  case packetHeld =>
    refine ⟨_, meshPacket_held hhalf hruns hfence hf hesc hdst bs, ?_, State.mesh_setMesh_other hhalf _, (Kept.refl ..).setMesh rfl ..⟩
    rw [State.mesh_setMesh_same]
  case flit =>
    refine ⟨_, exec_d2dFlit_inSequence hflit hbits, ?_, (s.modMod m _).reg_bump_same .., rfl, fun k _ hk => State.flitTaken_mod_other hk _,
      State.flitTaken_kept ..⟩
    rw [State.flitTaken_mod_same hm, List.getD_eq_getElem _ _ (by simp [hrx]; omega), List.getElem_set_self]
  case silence => exact fun hgone hrest => d2dClockSilence_answers hfence hgone hrest

end Sys2Proof.Proofs
end

section
/-! PROOFS. Requests of the host (R23, R177, R381, R383, R384, R387, R424): configuration requests, reads and writes of one line of the near
aperture, what an ADJOURNED device answers, and reads that are held or stay without an answer. -/

namespace Sys2Proof.Safety

open Sys2Proof.Machine

variable {s t : State} {f : Reach}

/-- An update of the host link's part of the state. -/
theorem Kept.setHost (h : Kept f s t) (hf : f.host = true) (x : HostLink) : Kept f s { t with host := x } :=
  { h with host := fun e => by simp [hf] at e }

end Sys2Proof.Safety

namespace Sys2Proof.Machine

open Sys2Proof.Safety Sys2Proof.Claims

variable {s : State} {fn tag : Nat}

/-! #### Configuration requests -/

theorem State.mem_setBme (fn : Nat) (on : Bool) (g : Nat) :
    g ∈ (s.setBme fn on).host.bme ↔ if g = fn then on = true else g ∈ s.host.bme := by
  have hrest : g ∈ s.host.bme.filter (· != fn) ↔ g ∈ s.host.bme ∧ g ≠ fn := by simp
  show g ∈ (if on then s.host.bme.filter (· != fn) ++ [fn] else s.host.bme.filter (· != fn)) ↔ _
  cases on with
  | true =>
    rw [if_pos rfl, List.mem_append, List.mem_singleton, hrest]
    by_cases hg : g = fn <;> simp [hg]
  | false =>
    rw [if_neg Bool.false_ne_true, hrest]
    by_cases hg : g = fn <;> simp [hg]

/-- What a configuration request writes to Bus Master Enable (R381). -/
def State.bmeWritten (s : State) (fn : Nat) (bme : Option Bool) : State :=
  match bme with
  | some on => if isHostFn fn then s.setBme fn on else s
  | none => s

theorem State.bmeWritten_kept (fn : Nat) (bme : Option Bool) : Kept { host := true } s (s.bmeWritten fn bme) := by
  unfold State.bmeWritten State.setBme
  split
  · split
    · exact (Kept.refl ..).setHost rfl _
    · exact Kept.refl ..
  · exact Kept.refl ..

theorem State.bmeWritten_host (fn : Nat) (bme : Option Bool) :
    (s.bmeWritten fn bme).host = { s.host with bme := (s.bmeWritten fn bme).host.bme } := by
  unfold State.bmeWritten State.setBme
  split
  · split <;> rfl
  · rfl

theorem State.mem_bmeWritten (fn : Nat) (bme : Option Bool) (g : Nat) : g ∈ (s.bmeWritten fn bme).host.bme
    ↔ if g = fn ∧ fn ≤ 65 ∧ bme ≠ none then bme = some true else g ∈ s.host.bme := by
  cases bme with
  | none => simp [State.bmeWritten]
  | some on =>
    by_cases hfn : fn ≤ 65
    · simp [State.bmeWritten, isHostFn, hfn, State.mem_setBme]
    · simp [State.bmeWritten, isHostFn, hfn]

theorem exec_hostConfigRequest (hup : s.hostUp = true) (bme : Option Bool) : exec (.hostConfigRequest fn tag bme) s
    = .next (if s.boot.idLoaded then (s.bmeWritten fn bme).emit (.cpl fn tag 0) else s.emit (.cpl fn tag 3)) := by
  show Host.Outcome.next (reachLink.take s _) = _
  cases hid : s.boot.idLoaded with
  | true =>
    simp only [hup]
    exact congrArg _ ((((State.bmeWritten_kept fn bme).mono (g := reachLink) rfl).emit rfl _).take_eq)
  | false =>
    simp only [hup]
    exact congrArg _ (((Kept.refl reachLink s).emit rfl _).take_eq)

/-! #### While ADJOURNED -/

theorem exec_hostNearRead_adjourned (h : s.boot.state = .adjourned) (addr len : Nat) :
    exec (.hostNearRead fn tag addr len) s = .next (s.emit (.cpl fn tag 2)) := by
  have hasleep : s.bar2Asleep = true := by simp [State.bar2Asleep, h]
  show Host.Outcome.next (reachLink.take s _) = _
  simp only [hasleep]
  exact congrArg _ (((Kept.refl reachLink s).emit rfl _).take_eq)

theorem exec_hostNearWrite_adjourned (h : s.boot.state = .adjourned) (addr : Nat) (bs : List Byte) :
    exec (.hostNearWrite fn addr bs) s = .next (s.bump pgPwr 0 0 rPwrHostDrop 1) := by
  have hasleep : s.bar2Asleep = true := by simp [State.bar2Asleep, h]
  show Host.Outcome.next (reachLink.take s _) = _
  simp only [hasleep]
  exact congrArg _ (((Kept.refl reachLink s).bump rfl ..).take_eq)

/-! #### Held and unanswered reads -/

/-- The held reads of a tag end (R387). -/
def State.readsEnded (s : State) (fn tag : Nat) : State :=
  { s with host := { s.host with reads := s.host.reads.filter (fun r => !(r.1 = fn && r.2.1 = tag)) } }

theorem exec_fenceHoldExpired (h : s.host.reads.any (fun r => r.1 = fn && r.2.1 = tag) = true) : exec (.fenceHoldExpired fn tag) s
    = .next ((((s.readsEnded fn tag).bump pgHost 0 0 rHostFenceCa 1).setErr pgHost 0 2).emit (.cpl fn tag 2)) := by
  show Host.Outcome.next (reachLink.take s _) = _
  rw [if_pos h]
  exact congrArg _ ((((((Kept.refl reachLink s).setHost rfl _).bump rfl ..).setFld rfl ..).emit rfl _).take_eq)

/-- The number under which an outbound read of a work order waits for its second try. -/
def readKey (part id : Nat) : Nat := 4 * (part % 64) + 256 * id

/-- A read without a completion is issued once more (R383). -/
theorem exec_hostReadTimeout_first {part id : Nat} (h : s.host.retried.contains (readKey part id) = false) :
    exec (.hostReadTimeout part 0 id 0) s
      = .next { s with host := { s.host with retried := s.host.retried ++ [readKey part id] } } := by
  have hkey : 0 % 4 + 4 * (part % 64) + 256 * id = readKey part id := by simp [readKey]
  show execHostReadTimeout part 0 id 0 s = _
  unfold execHostReadTimeout
  dsimp only
  rw [hkey, h, if_pos (by decide), ((Kept.refl reachHost s).setHost rfl _).take_eq]

theorem State.readFailed_kept (key how : Nat) : Kept { host := true, regs := true } s (s.readFailed key how) := by
  unfold State.readFailed
  dsimp only
  split
  · exact (((Kept.refl ..).setHost rfl _).bump rfl ..).setFld rfl ..
  · exact ((Kept.refl ..).setHost rfl _).bump rfl ..

theorem State.readFailed_host (key how : Nat) :
    (s.readFailed key how).host = { s.host with retried := s.host.retried.filter (· != key) } := by
  unfold State.readFailed
  dsimp only
  split <;> rfl

/-- A read that had no completion counts in HOST_CPL_TIMEOUT, with its error bit (R383). -/
theorem State.readFailed_timeout (key : Nat) :
    (s.readFailed key 0).reg pgHost 0 0 rHostCplTimeout = s.reg pgHost 0 0 rHostCplTimeout + 1 ∧ (s.readFailed key 0).fld pgHost 0 0 hErr 1 1 = 1 :=
  ⟨(State.reg_setReg_other _ _ (regKey_off (by decide))).trans (State.reg_bump_same ..),
    State.fld_setFld_same _ _ _ _ _ _ (by decide) (by decide)⟩

/-- A read that returned UR or CA counts in HOST_UR (R383). -/
theorem State.readFailed_returned (key : Nat) {how : Nat} (h : how ≠ 0) :
    (s.readFailed key how).reg pgHost 0 0 rHostUr = s.reg pgHost 0 0 rHostUr + 1 := by
  unfold State.readFailed
  dsimp only
  rw [if_neg h]
  exact State.reg_bump_same ..

/-- A read that failed for good, of an order that is done, is counted, and no more (R383). -/
theorem exec_hostReadTimeout_failed {part id how : Nat} {f : Flight} (hhow : how ≠ 0 ∨ s.host.retried.contains (readKey part id) = true)
    (hflight : (s.core (id % 256)).flight (id / 256) = some f) (hdone : f.done = true) :
    exec (.hostReadTimeout part 0 id how) s = .next (s.readFailed (readKey part id) how) := by
  have hkey : 0 % 4 + 4 * (part % 64) + 256 * id = readKey part id := by simp [readKey]
  have hkept := s.readFailed_kept (readKey part id) how
  have hopen : (((s.readFailed (readKey part id) how).core (id % 256)).flight (id / 256)).any (fun f => !f.done) = false := by
    rw [State.core_congr (hkept.cores rfl), hflight]
    simp [hdone]
  have hagain : ¬ (decide (how = 0) && !s.host.retried.contains (readKey part id)) = true := by
    rcases hhow with h | h
    · simp [h]
    · simp only [h]
      simp
  show execHostReadTimeout part 0 id how s = _
  unfold execHostReadTimeout
  dsimp only
  rw [hkey, if_neg hagain]
  show Host.Outcome.next (reachHost.take s (if _ then _ else _)) = _
  rw [hopen, if_neg Bool.false_ne_true, (hkept.mono rfl).take_eq]

end Sys2Proof.Machine

namespace Sys2Proof.Safety

open Sys2Proof.Machine

variable {s t : State} {f : Reach}

theorem Kept.modVault (h : Kept f s t) (hf : f.vaults = true) (p : Nat) (g : Vault → Vault) : Kept f s (t.modVault p g) :=
  { h with vaults := fun e => by simp [hf] at e }

theorem VaultsKept.of_vaults_eq {ps : List Nat} (h : t.vaults = s.vaults) : VaultsKept s t ps := fun p _ => by
  unfold State.vault
  rw [h]

theorem VaultsKept.trans_of_vaults_eq {u : State} {ps : List Nat} (h : VaultsKept s t ps) (hu : u.vaults = t.vaults) : VaultsKept s u ps :=
  fun p hp => by
    rw [← h p hp]
    unfold State.vault
    rw [hu]

theorem VaultsKept.modVault {ps : List Nat} (h : VaultsKept s t ps) {p : Nat} (hp : p ∈ ps) (g : Vault → Vault) :
    VaultsKept s (t.modVault p g) ps := fun q hq =>
  (t.vault_modVault_other g (ne_of_mem_of_not_mem hp hq).symm).trans (h q hq)

end Sys2Proof.Safety

namespace Sys2Proof.Machine

open Sys2Proof.Safety Sys2Proof.Claims

variable {s : State}

/-! #### One line of a vault -/

theorem State.vault_congr {t : State} (h : t.vaults = s.vaults) (p : Nat) : t.vault p = s.vault p := by
  unfold State.vault
  rw [h]

/-- Where nothing migrates, the vault that serves a logical vault holds all of it (R460). -/
theorem State.holder_of_no_migs (h : s.abs.migs = []) (l g : Nat) : s.holder l g = s.vaultOf l := by
  simp [State.holder, h]

/-- A read of one whole line is a read of that line. -/
theorem State.vaultBytes_line {t : State} {l v ln : Nat} {d : List Byte} (hmigs : s.abs.migs = []) (hv : s.vaultOf l = some v)
    (hln : ln < 16777216) (hread : s.readLine v ln 0 = (t, some d)) (hd : d.length = 64) : s.vaultBytes l (ln * 64) 64 = (t, some d) := by
  have hcnt : (ln * 64 + 64 - 1) / 64 - ln * 64 / 64 + 1 = 1 := by omega
  have hline : (ln * 64 / 64 + 0) % 16777216 = ln := by omega
  have hoff : ln * 64 % 64 = 0 := by omega
  unfold State.vaultBytes
  rw [if_neg (by decide)]
  dsimp only
  rw [hcnt]
  simp only [List.range_one, List.foldl_cons, List.foldl_nil, hline, State.holder_of_no_migs hmigs, hv, hread, hoff]
  simp [hd]

/-- A write of one whole line is a write of that line. -/
theorem State.vaultPut_line {l v ln : Nat} {d : List Byte} (hmigs : s.abs.migs = []) (hv : s.vaultOf l = some v) (hln : ln < 16777216)
    (hd : d.length = 64) (hvalid : (s.vault v).isValid (ln / 64) = true) : s.vaultPut l (ln * 64) d = s.acceptLine v ln d := by
  have hcnt : (ln * 64 + d.length - 1) / 64 - ln * 64 / 64 + 1 = 1 := by omega
  have hline : (ln * 64 / 64 + 0) % 16777216 = ln := by omega
  have hoff : ln * 64 % 64 = 0 := by omega
  have hfrom : (ln * 64 / 64 + 0) * 64 + 0 - ln * 64 = 0 := by omega
  have hseg : (d.drop 0).take (64 - 0) = d := by simp [← hd]
  have hmigrate : s.migrateGranule l (ln / 64) = s := by simp [State.migrateGranule, hmigs]
  have hput : ∀ fresh n, s.putLine v ln 0 d fresh n = s.acceptLine v ln d := fun fresh n => by
    simp [State.putLine, State.materialise, hvalid, hd]
  unfold State.vaultPut
  rw [if_neg (by simp [List.isEmpty_iff, List.ne_nil_of_length_eq_add_one hd])]
  dsimp only
  rw [hcnt]
  simp only [List.range_one, List.foldl_cons, List.foldl_nil, hline, if_true, hoff, hfrom, hseg, hmigrate, State.holder_of_no_migs hmigs, hv, hput]

/-- A rewrite of a line waits no more (R318). -/
def Vault.rewriteDropped (v : Vault) (l : Nat) : Vault := { v with rewrites := v.rewrites.filter (fun e => e.1 != l) }

theorem State.dropRewrite_eq (p l : Nat) : s.dropRewrite p l
    = if (s.vault p).rewrites.any (fun e => e.1 = l) then (s.modVault p (·.rewriteDropped l)).bump pgVlt p 0 rVltRewriteDropped 1 else s := rfl

theorem State.dropRewrite_kept (p l : Nat) : Kept { vaults := true, regs := true } s (s.dropRewrite p l) := by
  rw [State.dropRewrite_eq]
  split
  · exact ((Kept.refl ..).modVault rfl ..).bump rfl ..
  · exact Kept.refl ..

theorem State.dropRewrite_vaults (p l : Nat) : VaultsKept s (s.dropRewrite p l) [p] := by
  rw [State.dropRewrite_eq]
  split
  · have hvault : VaultsKept s (s.modVault p (·.rewriteDropped l)) [p] :=
      VaultsKept.modVault (.of_vaults_eq rfl) (List.mem_singleton.mpr rfl) _
    exact hvault.trans_of_vaults_eq rfl
  · exact .of_vaults_eq rfl

theorem State.dropRewrite_wq (p l : Nat) : ((s.dropRewrite p l).vault p).wq = (s.vault p).wq := by
  rw [State.dropRewrite_eq]
  split
  · rw [State.vault_congr (t := (s.modVault p (·.rewriteDropped l)).bump pgVlt p 0 rVltRewriteDropped 1)
      (show _ = (s.modVault p (·.rewriteDropped l)).vaults from rfl), State.vault_modVault_same, Vault.rewriteDropped]
  · rfl

theorem State.dropRewrite_cfg (p l : Nat) : (s.dropRewrite p l).reg pgVlt p 0 rVltCfg = s.reg pgVlt p 0 rVltCfg := by
  rw [State.dropRewrite_eq]
  split
  · exact State.reg_setReg_other _ _ (regKey_off (by decide))
  · rfl

/-- A line joins a vault's write queue in place of any older write of it (R186). -/
def Vault.queued (v : Vault) (l : Nat) (d : List Byte) : Vault := { v with
  mb := v.mb.filter (fun e => e.line != l)
  flags := v.flags.filter (· != l)
  lostLines := v.lostLines.filter (fun e => e.1 != l || e.2 = 2)
  wq := v.wq.filter (fun e => e.1 != l) ++ [(l, d)] }

/-- Below wr_high an accepted line stays in the write queue (R183). -/
theorem State.acceptLine_below {p l : Nat} {d : List Byte} (h : (s.vault p).wq.length + 1 < s.fld pgVlt p 0 rVltCfg 6 0) :
    s.acceptLine p l d = (s.dropRewrite p l).modVault p (fun v => v.queued l d) := by
  have hlen : (((s.dropRewrite p l).modVault p (fun v => v.queued l d)).vault p).wq.length ≤ (s.vault p).wq.length + 1 := by
    rw [State.vault_modVault_same, Vault.queued, List.length_append, State.dropRewrite_wq]
    exact Nat.add_le_add_right (List.length_filter_le ..) 1
  have hcfg : ((s.dropRewrite p l).modVault p (fun v => v.queued l d)).fld pgVlt p 0 rVltCfg 6 0 = s.fld pgVlt p 0 rVltCfg 6 0 := by
    show bits ((s.dropRewrite p l).reg pgVlt p 0 rVltCfg).toNat 6 0 = _
    rw [State.dropRewrite_cfg]
    rfl
  generalize hw : (s.dropRewrite p l).modVault p (fun v => v.queued l d) = w at hlen hcfg
  have haccept : s.acceptLine p l d = if (w.vault p).wq.length ≥ w.fld pgVlt p 0 rVltCfg 6 0 then w.drainWq p else w := by
    rw [← hw]
    rfl
  rw [haccept, if_neg (by omega)]

/-! #### One line of the near aperture -/

section Near

variable {o l v ln : Nat}

/-- A line of the aperture is one piece of one logical vault (R173, R177). -/
theorem bar2Parts_line (ho : o % 64 = 0) (hlt : o < 274877906944) (hsplit : nearSplit o = (l, ln * 64)) :
    bar2Parts o 64 = [(l, ln * 64, 64, 0)] := by
  have hcnt : (o + 64 - 1) / 4096 - o / 4096 + 1 = 1 := by omega
  have hend : min (o + 64) ((o / 4096 + 0 + 1) * 4096) - o = 64 := by omega
  have hmod : o % 274877906944 = o := Nat.mod_eq_of_lt hlt
  have hapert : o / 274877906944 % 2 = 0 := by omega
  unfold bar2Parts pieces
  rw [if_neg (by decide), hcnt]
  simp only [List.range_one, List.map_cons, List.map_nil, if_true, hend, hmod, hapert, hsplit, Nat.sub_self]

theorem nearSplit_line_lt (hsplit : nearSplit o = (l, ln * 64)) : ln < 16777216 := by
  have haddr : bits o 37 20 * 4096 + bits o 11 0 = ln * 64 := congrArg Prod.snd hsplit
  have hhigh : bits o 37 20 < 262144 := Nat.mod_lt _ (by decide)
  have hlow : bits o 11 0 < 4096 := Nat.mod_lt _ (by decide)
  omega

/-- PF0 reaches every line of the aperture of a device that answers (R176, R424). -/
theorem State.bar2Ok_line (hawake : Awake s) (hlt : o < 274877906944) (ps : List (Nat × Nat × Nat × Nat)) : s.bar2Ok 0 o 64 ps = true := by
  obtain ⟨hstate, -, -, -⟩ := hawake
  have hboot : s.boot.state ≠ .boot := by rcases hstate with h | h <;> simp [h]
  simp [State.bar2Ok, hboot]
  omega

theorem State.bar2Asleep_of_awake (hawake : Awake s) : s.bar2Asleep = false := by
  obtain ⟨hstate, -, -, -⟩ := hawake
  rcases hstate with h | h <;> simp [State.bar2Asleep, h]

theorem State.vaultFenced_of_awake (hawake : Awake s) (l : Nat) : s.vaultFenced l = false := by
  obtain ⟨-, hfence, -, hspur⟩ := hawake
  simp [State.vaultFenced, State.locFenced, hfence, hspur]

/-- A line that is not busy is under no discard, restore or reload. -/
theorem Vault.not_busy {x : Vault} {g : Nat} (h : x.busyAt g = false) :
    x.discarding g = false ∧ x.filling.contains g = false ∧ x.reloading g = false := by
  simpa [Vault.busyAt, and_assoc] using h

/-- A granule that is not busy is a range that is not busy. -/
theorem Vault.busyIn_one {x : Vault} {g : Nat} (h : x.busyAt g = false) : x.busyIn g 1 = false := by
  obtain ⟨hdiscard, hfill, hreload⟩ := Vault.not_busy h
  have hfilling : x.filling.any (fun k => decide (g ≤ k) && decide (k < g + 1)) = false := by
    rw [List.any_eq_false]
    intro k hk
    have hne : k ≠ g := fun e => by simp [← e, hk] at hfill
    simp
    omega
  have hone : min 1 64 = 1 := rfl
  unfold Vault.busyIn
  rw [hfilling, hone]
  unfold Vault.discarding at hdiscard
  cases hd : x.discard with
  | none => simp [hreload]
  | some range =>
    rw [hd] at hdiscard
    simpa [hreload, Nat.lt_succ_iff] using hdiscard

end Near

end Sys2Proof.Machine

namespace Sys2Proof.Machine

open Sys2Proof.Safety Sys2Proof.Claims

variable {s : State} {o l v ln : Nat} {d : List Byte}

/-- A line of the write queue is read from there (R186). -/
theorem State.readLine_queued (hmb : ∀ e ∈ (s.vault v).mb, e.line ≠ ln) (hwq : (s.vault v).wq.find? (fun e => e.1 = ln) = some (ln, d)) :
    s.readLine v ln 0 = (s, some d) := by
  have hmerge : (s.vault v).mb.any (fun e => e.line = ln) = false := by simpa using hmb
  unfold State.readLine
  rw [hmerge, if_neg Bool.false_ne_true, hwq]

/-- The read of one whole line that the vault has in its write queue (R177, R186). -/
theorem State.hostReadTry_line {fn tag : Nat} (hnear : NearLine s o l v ln) (hseen : s.writesSeen fn = true)
    (hmb : ∀ e ∈ (s.vault v).mb, e.line ≠ ln) (hwq : (s.vault v).wq.find? (fun e => e.1 = ln) = some (ln, d)) (hd : d.length = 64) :
    s.hostReadTry fn tag l (ln * 64) 64 = (s.bump pgVlt v 0 rVltGuestLines 1).emit (.bytes fn tag d) := by
  obtain ⟨-, -, hsplit, hv, hmode, hbusy, hmigs, -⟩ := hnear
  obtain ⟨hdiscard, -, hreload⟩ := Vault.not_busy hbusy
  have hgran : ln * 64 / 4096 = ln / 64 := by omega
  obtain ⟨hposted, hwrites⟩ : s.postedWaits fn = false ∧ s.writeWaits fn = none := by simpa [State.writesSeen] using hseen
  have hbytes : s.vaultBytes l (ln * 64) 64 = (s, some d) :=
    State.vaultBytes_line hmigs hv (nearSplit_line_lt hsplit) (State.readLine_queued hmb hwq) hd
  have hone : ceilDiv (ln * 64 % 64 + 64) 64 = 1 := by simp [ceilDiv]
  unfold State.hostReadTry
  rw [hposted, if_neg Bool.false_ne_true, hwrites, hv, hgran]
  dsimp only
  rw [hmode, hdiscard, hreload, if_pos (by decide)]
  unfold State.hostServe
  rw [hbytes, hv, hone]

theorem exec_hostNearRead_line {tag : Nat} (hawake : Awake s) (hnear : NearLine s o l v ln) (hseen : s.writesSeen 0 = true)
    (hmb : ∀ e ∈ (s.vault v).mb, e.line ≠ ln) (hwq : (s.vault v).wq.find? (fun e => e.1 = ln) = some (ln, d)) (hd : d.length = 64) :
    exec (.hostNearRead 0 tag o 64) s = .next ((s.bump pgVlt v 0 rVltGuestLines 1).emit (.bytes 0 tag d)) := by
  obtain ⟨halign, hlt, hsplit, -⟩ := id hnear
  show execHostNearRead 0 tag o 64 s = _
  unfold execHostNearRead
  dsimp only
  rw [State.bar2Asleep_of_awake hawake, if_neg Bool.false_ne_true, State.bar2Ok_line hawake hlt, Bool.not_true, if_neg Bool.false_ne_true,
    bar2Parts_line halign hlt hsplit]
  simp only [List.foldl_cons, List.foldl_nil]
  rw [State.vaultFenced_of_awake hawake, if_neg Bool.false_ne_true, State.hostReadTry_line hnear hseen hmb hwq hd,
    (((Kept.refl reachLink s).bump rfl ..).emit rfl _).take_eq]

/-- A line that the host wrote joins the write queue of its vault, and counts. -/
def State.lineWritten (s : State) (v ln : Nat) (d : List Byte) : State :=
  ((s.dropRewrite v ln).modVault v (fun x => x.queued ln d)).bump pgVlt v 0 rVltGuestLines 1

theorem State.lineWritten_kept : Kept { vaults := true, regs := true } s (s.lineWritten v ln d) :=
  ((State.dropRewrite_kept v ln).modVault rfl ..).bump rfl ..

theorem State.lineWritten_vaults : VaultsKept s (s.lineWritten v ln d) [v] := by
  have hqueued : VaultsKept s ((s.dropRewrite v ln).modVault v (fun x => x.queued ln d)) [v] :=
    (State.dropRewrite_vaults v ln).modVault (List.mem_singleton.mpr rfl) _
  exact hqueued.trans_of_vaults_eq rfl

theorem State.lineWritten_wq : ((s.lineWritten v ln d).vault v).wq = (s.vault v).wq.filter (fun e => e.1 != ln) ++ [(ln, d)] := by
  rw [State.vault_congr (t := s.lineWritten v ln d) (show _ = ((s.dropRewrite v ln).modVault v (fun x => x.queued ln d)).vaults from rfl),
    State.vault_modVault_same, Vault.queued, State.dropRewrite_wq]

/-- The write of one whole line of a granule with data, which joins the vault's write queue (R177, R183). -/
theorem State.hostPut_line {fn : Nat} (hnear : NearLine s o l v ln) (hd : d.length = 64) (hsnap : s.snap = none)
    (hrole : (s.vault v).role = .logical) (hlogical : (s.vault v).logical = l) (hvalid : (s.vault v).isValid (ln / 64) = true)
    (hroom : (s.vault v).wq.length + 1 < s.fld pgVlt v 0 rVltCfg 6 0) : s.hostPut fn l (ln * 64) d = s.lineWritten v ln d := by
  obtain ⟨-, -, hsplit, hv, hmode, hbusy, hmigs, -⟩ := hnear
  have hgran : ln * 64 / 4096 = ln / 64 := by omega
  have hgrans : granulesOf (ln * 64) d.length = 1 := by
    unfold granulesOf
    rw [hd, if_neg (by decide)]
    omega
  have hfree : GuestReq.busy (.write (some fn) (ln * 64) d) (s.vault v) = false := by
    show (s.vault v).busyIn (ln * 64 / 4096) (granulesOf (ln * 64) d.length) = false
    rw [hgran, hgrans]
    exact Vault.busyIn_one hbusy
  have hwrite : s.vaultWrite l (ln * 64) d = (s.dropRewrite v ln).modVault v (fun x => x.queued ln d) := by
    unfold State.vaultWrite State.snapRange
    rw [hsnap]
    exact (State.vaultPut_line hmigs hv (nearSplit_line_lt hsplit) hd hvalid).trans (State.acceptLine_below hroom)
  have hone : ceilDiv (ln * 64 % 64 + d.length) 64 = 1 := by simp [ceilDiv, hd]
  unfold State.hostPut
  rw [hv]
  dsimp only
  unfold State.guestArrive
  rw [hmode, hfree, if_pos (by decide)]
  unfold State.serveGuest
  dsimp only
  rw [hrole, hlogical, hone, if_pos (by decide), hwrite, State.lineWritten]

theorem exec_hostNearWrite_line (hawake : Awake s) (hnear : NearLine s o l v ln) (hd : d.length = 64) (hsnap : s.snap = none)
    (hrole : (s.vault v).role = .logical) (hlogical : (s.vault v).logical = l) (hvalid : (s.vault v).isValid (ln / 64) = true)
    (hroom : (s.vault v).wq.length + 1 < s.fld pgVlt v 0 rVltCfg 6 0) : exec (.hostNearWrite 0 o d) s = .next (s.lineWritten v ln d) := by
  obtain ⟨halign, hlt, hsplit, -⟩ := id hnear
  have hwhole : (d.drop 0).take 64 = d := by simp [← hd]
  show execHostNearWrite 0 o d s = _
  unfold execHostNearWrite
  dsimp only
  rw [hd, State.bar2Asleep_of_awake hawake, if_neg Bool.false_ne_true, State.bar2Ok_line hawake hlt, Bool.not_true,
    if_neg Bool.false_ne_true, bar2Parts_line halign hlt hsplit]
  simp only [List.foldl_cons, List.foldl_nil]
  rw [State.vaultFenced_of_awake hawake, if_neg Bool.false_ne_true, hwhole,
    State.hostPut_line hnear hd hsnap hrole hlogical hvalid hroom, (State.lineWritten_kept.mono rfl).take_eq]

end Sys2Proof.Machine
end

section
/-! PROOFS. The host link (R16, R383 to R386, R445): its training, its loss, which touches each partition by a step of its own, the
function-level reset of PF1, and the loss of the spur. -/

namespace Sys2Proof.Safety

open Sys2Proof.Machine

variable {s t : State} {f : Reach}

theorem Kept.quiesce (h : Kept f s t) (hf : f.parts = true) (p : Nat) (tag : Option Nat) : Kept f s (t.quiesce p tag).1 := by
  unfold State.quiesce
  dsimp only
  split
  · exact h
  · split
    · exact h.modPart hf p fun x => { x with after := x.after ++ [.quiesce tag] }
    · exact h.modPart hf p fun x => { x with st := .quiesced }

theorem Kept.closeRings (h : Kept f s t) (hf : f.regs = true) (p : Nat) : Kept f s (t.closeRings p) := (h.setFld hf ..).setFld hf ..

theorem Kept.closePf1 (h : Kept f s t) (hf : f.regs = true) (hsec : f.sec = true) : Kept f s t.closePf1 :=
  { (h.setFld hf pgFore 0 0 rForeAdmCfg 31 31 0).setFld hf pgStw 0 0 rStwElogCfg 31 31 0 with sec := fun e => by simp [hsec] at e }

end Sys2Proof.Safety

namespace Sys2Proof.Machine

open Sys2Proof.Safety Sys2Proof.Claims

variable {s : State}

/-- A fold whose steps at other keys leave a view of the state as it was shows, in that view, its one step at the key. -/
theorem foldl_at {α β : Type} [DecidableEq α] {Inv : State → Prop} {view : State → β} {step : State → α → State} {p : α}
    (hinv : ∀ s q, Inv s → Inv (step s q)) (hother : ∀ s q, Inv s → q ≠ p → view (step s q) = view s) {l : List α} (hl : l.Nodup)
    (hp : p ∈ l) (hs : Inv s) : ∃ w, Inv w ∧ view w = view s ∧ view (l.foldl step s) = view (step w p) := by
  have hrest : ∀ (r : List α) (u : State), p ∉ r → Inv u → Inv (r.foldl step u) ∧ view (r.foldl step u) = view u := by
    intro r
    induction r with
    | nil => exact fun u _ hu => ⟨hu, rfl⟩
    | cons q r ih =>
      intro u hq hu
      obtain ⟨hne, hr⟩ := not_or.mp (mt List.mem_cons.mpr hq)
      obtain ⟨hkept, hview⟩ := ih (step u q) hr (hinv u q hu)
      exact ⟨hkept, hview.trans (hother u q hu (Ne.symm hne))⟩
  obtain ⟨before, after, rfl⟩ := List.append_of_mem hp
  obtain ⟨-, hafter, hdisj⟩ := List.nodup_append.mp hl
  obtain ⟨hw, hviewBefore⟩ := hrest before s (fun h => hdisj p h p List.mem_cons_self rfl) hs
  refine ⟨before.foldl step s, hw, hviewBefore, ?_⟩
  rw [List.foldl_append, List.foldl_cons]
  exact (hrest after _ (List.nodup_cons.mp hafter).1 (hinv _ p hw)).2

/-! #### Training and loss of the link -/

theorem exec_perstDeassert {w r : Nat} {flit : Bool} (hoff : s.boot.state ≠ .off) (haon : s.boot.state ≠ .aon) (hw : w ≤ 16) (hr : r ≤ 5) :
    exec (.perstDeassert w r flit) s = .next { s with host := { s.host with perst := false, width := w, rate := r, flit := flit } } := by
  have hwake : ¬ (s.boot.state = .off || s.boot.state = .aon) = true := by simp [hoff, haon]
  show execPerstDeassert w r flit s = _
  unfold execPerstDeassert
  rw [if_neg hwake, Nat.min_eq_right hw, Nat.min_eq_right hr, ((Kept.refl reachHost s).setHost rfl _).take_eq]

theorem State.quiesce_part_other {p q : Nat} (tag : Option Nat) (h : q ≠ p) : (s.quiesce p tag).1.part q = s.part q := by
  unfold State.quiesce
  dsimp only
  split
  · rfl
  · split
    · exact s.part_modPart_other _ h
    · exact s.part_modPart_other _ h

theorem State.quiesce_serving {p : Nat} (tag : Option Nat) (hst : (s.part p).st = .serving) : (s.quiesce p tag).1
    = s.modPart p (fun x => if x.running then { x with after := x.after ++ [.quiesce tag] } else { x with st := .quiesced }) := by
  have hnot : ¬ ((s.part p).st != .serving) = true := by simp [hst]
  unfold State.quiesce
  dsimp only
  rw [if_neg hnot]
  cases hrun : (s.part p).running with
  | true => simp [State.modPart, hrun]
  | false => simp [State.modPart, hrun]

theorem State.quiesce_regs (p : Nat) (tag : Option Nat) : (s.quiesce p tag).1.regs = s.regs :=
  (((Kept.refl { parts := true } s).quiesce rfl p tag).regs rfl).1

/-- The loss of the link at one partition: it is quiesced, and its rings are closed (R385). -/
def State.linkLostAt (s : State) (p : Nat) : State := ((s.quiesce p none).1).closeRings p

/-- What the loss of the link shows of a partition: the partition and its two ring enables. -/
def State.linkView (s : State) (p : Nat) : Part × Nat × Nat :=
  (s.part p, s.fld pgFore 0 p rForeReqCfg 31 31, s.fld pgFore 0 p rForeTokCfg 31 31)

theorem regKey_bank {code inst off p q off' : Nat} (ho : off < 4096) (ho' : off' < 4096) (h : p ≠ q) :
    regKey code inst p off ≠ regKey code inst q off' := by
  unfold regKey
  omega

theorem State.fld_setFld_zero (code inst bank off : Nat) : (s.setFld code inst bank off 31 31 0).fld code inst bank off 31 31 = 0 :=
  (s.fld_setFld_same _ _ _ _ _ (by decide) (by decide)).trans (Nat.zero_mod _)

theorem State.closeRings_fld_other {p q off : Nat} (ho : off < 4096) (h : q ≠ p) :
    (s.closeRings p).fld pgFore 0 q off 31 31 = s.fld pgFore 0 q off 31 31 := by
  have hreg : (s.closeRings p).reg pgFore 0 q off = s.reg pgFore 0 q off :=
    (State.reg_setReg_other _ _ (regKey_bank ho (by decide) h)).trans (State.reg_setReg_other _ _ (regKey_bank ho (by decide) h))
  unfold State.fld
  rw [hreg]

theorem State.closeRings_closed (p : Nat) :
    (s.closeRings p).fld pgFore 0 p rForeReqCfg 31 31 = 0 ∧ (s.closeRings p).fld pgFore 0 p rForeTokCfg 31 31 = 0 := by
  refine ⟨?_, State.fld_setFld_zero ..⟩
  have hreg : (s.closeRings p).reg pgFore 0 p rForeReqCfg = (s.setFld pgFore 0 p rForeReqCfg 31 31 0).reg pgFore 0 p rForeReqCfg :=
    State.reg_setReg_other _ _ (regKey_off (by decide))
  unfold State.fld
  rw [hreg]
  exact State.fld_setFld_zero ..

theorem State.linkLostAt_view_other {p q : Nat} (h : p ≠ q) : (s.linkLostAt q).linkView p = s.linkView p := by
  have hpart : (s.linkLostAt q).part p = s.part p := State.quiesce_part_other none h
  have hfld : ∀ off < 4096, (s.linkLostAt q).fld pgFore 0 p off 31 31 = s.fld pgFore 0 p off 31 31 := fun off ho => by
    have hreg : (s.quiesce q none).1.reg pgFore 0 p off = s.reg pgFore 0 p off := State.reg_congr (State.quiesce_regs ..) ..
    have hclose := State.closeRings_fld_other (s := (s.quiesce q none).1) ho h
    unfold State.linkLostAt
    rw [hclose]
    unfold State.fld
    rw [hreg]
  unfold State.linkView
  rw [hpart, hfld _ (by decide), hfld _ (by decide)]

/-- The loss of the link at every partition. -/
def State.linkLost (s : State) : State := (List.range 64).foldl State.linkLostAt s

theorem State.linkLost_kept : Kept { regs := true, parts := true } s s.linkLost :=
  foldl_rel (fun _ => Kept.refl ..) Kept.trans (fun _ p => ((Kept.refl ..).quiesce rfl p none).closeRings rfl p) _ s

theorem State.linkLost_reg_other {code inst bank off : Nat} (hreq : off % 4096 ≠ rForeReqCfg) (htok : off % 4096 ≠ rForeTokCfg) :
    s.linkLost.reg code inst bank off = s.reg code inst bank off :=
  foldl_rel (R := fun a b => b.reg code inst bank off = a.reg code inst bank off) (fun _ => rfl) (fun h h' => h'.trans h)
    (fun _ _ => (State.reg_setReg_other _ _ (regKey_ne_of_off htok)).trans
      ((State.reg_setReg_other _ _ (regKey_ne_of_off hreq)).trans (State.reg_congr (State.quiesce_regs ..) ..))) _ s

/-- What the loss of the link leaves of each partition (R385). -/
theorem State.linkLost_at {p : Nat} (hp : p < 64) :
    s.linkLost.fld pgFore 0 p rForeReqCfg 31 31 = 0 ∧ s.linkLost.fld pgFore 0 p rForeTokCfg 31 31 = 0
      ∧ ((s.part p).st = .serving → s.linkLost.part p
        = if (s.part p).running then { s.part p with after := (s.part p).after ++ [.quiesce none] } else { s.part p with st := .quiesced }) := by
  have hmem : p ∈ List.range 64 := List.mem_range.mpr hp
  have hfold : ∃ w : State, True ∧ w.linkView p = s.linkView p ∧ s.linkLost.linkView p = (w.linkLostAt p).linkView p :=
    foldl_at (view := fun u => u.linkView p) (fun _ _ _ => trivial) (fun _ _ _ hq => State.linkLostAt_view_other (Ne.symm hq))
      List.nodup_range hmem trivial
  obtain ⟨w, -, hw, hend⟩ := hfold
  simp only [State.linkView, Prod.mk.injEq] at hw hend
  obtain ⟨hwpart, -⟩ := hw
  obtain ⟨hpart, hreq, htok⟩ := hend
  obtain ⟨hreqClosed, htokClosed⟩ := State.closeRings_closed (s := (w.quiesce p none).1) p
  have hquiesced : (w.linkLostAt p).part p = (w.quiesce p none).1.part p := rfl
  refine ⟨hreq.trans hreqClosed, htok.trans htokClosed, fun hst => ?_⟩
  rw [hpart, hquiesced, State.quiesce_serving none (hwpart ▸ hst), State.part_modPart_same, hwpart]

/-- The functions' state after the loss of the link. -/
def State.linkReset (s : State) : State :=
  { s with host := { s.host with width := 0, rate := 0, flit := false, bme := [], reads := [], retried := [] }, latch := [], staged := [] }

theorem State.linkReset_kept : Kept { host := true, regs := true } s s.linkReset :=
  { Kept.refl { host := true, regs := true } s with regs := fun e => by simp at e, host := fun e => by simp at e }

/-- The loss of the link as the steward shows it. -/
def State.linkShown (s : State) : State :=
  ((s.linkReset.setFld pgHost 0 0 rHostState 18 18 1).bump pgHost 0 0 rHostLinkDowns 1).setErr pgHost 0 0

theorem State.linkShown_kept : Kept { host := true, regs := true } s s.linkShown :=
  ((State.linkReset_kept.setFld rfl ..).bump rfl ..).setFld rfl ..

theorem State.linkShown_downs : s.linkShown.reg pgHost 0 0 rHostLinkDowns = s.reg pgHost 0 0 rHostLinkDowns + 1 := by
  have hset : (s.linkReset.setFld pgHost 0 0 rHostState 18 18 1).reg pgHost 0 0 rHostLinkDowns = s.reg pgHost 0 0 rHostLinkDowns :=
    State.reg_setReg_other _ _ (regKey_off (by decide))
  have herr : s.linkShown.reg pgHost 0 0 rHostLinkDowns = ((s.linkReset.setFld pgHost 0 0 rHostState 18 18 1).bump pgHost 0 0
      rHostLinkDowns 1).reg pgHost 0 0 rHostLinkDowns := State.reg_setReg_other _ _ (regKey_off (by decide))
  rw [herr, State.reg_bump_same, hset]
  rfl

theorem State.linkLossDone_kept : Kept { host := true, regs := true, parts := true, sec := true } s s.linkShown.linkLost.closePf1 :=
  have hshown : Kept { host := true, regs := true, parts := true, sec := true } s s.linkShown := State.linkShown_kept.mono rfl
  have hlost : Kept { host := true, regs := true, parts := true, sec := true } s.linkShown s.linkShown.linkLost := State.linkLost_kept.mono rfl
  (hshown.trans hlost).closePf1 rfl rfl

theorem exec_hostLinkLoss : exec .hostLinkLoss s = .next s.linkShown.linkLost.closePf1 := by
  show Host.Outcome.next (reachHost.take s s.linkShown.linkLost.closePf1) = _
  exact congrArg _ ((State.linkLossDone_kept.mono rfl).take_eq)

theorem State.closePf1_host : s.closePf1.host = s.host := rfl

theorem State.closePf1_part (p : Nat) : s.closePf1.part p = s.part p := rfl

theorem State.closePf1_reg_other {code inst bank off : Nat} (hadm : off % 4096 ≠ rForeAdmCfg) (helog : off % 4096 ≠ rStwElogCfg) :
    s.closePf1.reg code inst bank off = s.reg code inst bank off :=
  (State.reg_setReg_other _ _ (regKey_ne_of_off helog)).trans (State.reg_setReg_other _ _ (regKey_ne_of_off hadm))

theorem State.closePf1_fld_other {code inst bank off hi lo : Nat} (hadm : off % 4096 ≠ rForeAdmCfg) (helog : off % 4096 ≠ rStwElogCfg) :
    s.closePf1.fld code inst bank off hi lo = s.fld code inst bank off hi lo := by
  unfold State.fld
  rw [State.closePf1_reg_other hadm helog]

/-- The admin ring and the error log ring are closed. -/
theorem State.closePf1_closed : s.closePf1.fld pgFore 0 0 rForeAdmCfg 31 31 = 0 ∧ s.closePf1.fld pgStw 0 0 rStwElogCfg 31 31 = 0 := by
  refine ⟨?_, State.fld_setFld_zero ..⟩
  have hreg : s.closePf1.reg pgFore 0 0 rForeAdmCfg = (s.setFld pgFore 0 0 rForeAdmCfg 31 31 0).reg pgFore 0 0 rForeAdmCfg :=
    State.reg_setReg_other _ _ (regKey_ne_of_off (by decide))
  unfold State.fld
  rw [hreg]
  exact State.fld_setFld_zero ..

/-! #### The function-level reset of PF1, and the spur -/

/-- A function loses its Bus Master Enable. -/
def State.bmeCleared (s : State) (fn : Nat) : State := { s with host := { s.host with bme := s.host.bme.filter (· != fn) } }

theorem State.bmeCleared_part (fn p : Nat) : (s.bmeCleared fn).part p = s.part p := rfl

theorem exec_flrPf1 : exec .flrPf1 s = .next (s.bmeCleared 1).closePf1 := by
  show Host.Outcome.next (reachHost.take s (s.bmeCleared 1).closePf1) = _
  exact congrArg _ ((((Kept.refl reachHost s).setHost rfl _).closePf1 rfl rfl).take_eq)

/-- The host spur's loss of its training. -/
def State.spurLost (s : State) : State :=
  { s with host := { s.host with spur := false }, boot := { s.boot with trained := smSet 0 s.boot.trained 288 0 } }

theorem State.spurLost_kept : Kept { host := true, boot := true } s s.spurLost :=
  { Kept.refl { host := true, boot := true } s with boot := fun e => by simp at e, host := fun e => by simp at e }

theorem State.spurLost_checkState_host : s.spurLost.checkState.host = { s.host with spur := false } :=
  ((Kept.refl { boot := true } s.spurLost).checkState rfl).host rfl

theorem exec_hostSpurDown : exec .hostSpurDown s = .next s.spurLost.checkState := by
  show Host.Outcome.next (reachHost.take s s.spurLost.checkState) = _
  exact congrArg _ (((State.spurLost_kept.checkState rfl).mono rfl).take_eq)

theorem State.enter_state (d : DevState) : (s.enter d).boot.state = d := by
  unfold State.enter
  split
  · assumption
  · rfl

/-- The device state that the reasons give (R445). -/
theorem State.checkState_state : s.checkState.boot.state = stateOf s := by
  unfold State.checkState stateOf
  dsimp only
  by_cases h : s.boot.state = .ready ∨ s.boot.state = .degraded
  · rw [if_pos h, if_pos (by simpa using h), State.enter_state]
  · rw [if_neg h, if_neg (by simpa using h)]

theorem State.spurLost_stateOf : stateOf s.spurLost = stateOf { s with host := { s.host with spur := false } } := rfl

end Sys2Proof.Machine
end

section
/-! PROOFS. The reset of a partition (R266): none of its steps changes another partition or who masters the bus, as long as nothing migrates. -/

namespace Sys2Proof.Safety

open Sys2Proof.Machine

variable {s t u : State}

/-! #### What a reset leaves of the partitions -/

/-- Where nothing migrates, the partitions and the masters of the bus are as before, and nothing migrates. -/
structure Stands (s t : State) : Prop where
  parts : s.abs.migs = [] → t.parts = s.parts
  bme : s.abs.migs = [] → t.host.bme = s.host.bme
  migs : s.abs.migs = [] → t.abs.migs = []

namespace Stands

theorem refl (s : State) : Stands s s := ⟨fun _ => rfl, fun _ => rfl, id⟩

theorem of_eq (h : Stands s t) (hparts : u.parts = t.parts) (hbme : u.host.bme = t.host.bme) (hmigs : u.abs.migs = t.abs.migs) : Stands s u :=
  ⟨fun hs => hparts.trans (h.parts hs), fun hs => hbme.trans (h.bme hs), fun hs => hmigs.trans (h.migs hs)⟩

theorem trans (h : Stands s t) (h' : Stands t u) : Stands s u :=
  ⟨fun hs => (h'.parts (h.migs hs)).trans (h.parts hs), fun hs => (h'.bme (h.migs hs)).trans (h.bme hs), fun hs => h'.migs (h.migs hs)⟩

/-- Steps that each let the partitions stand do so together. -/
theorem foldl {α : Type} (h : Stands s t) {step : State → α → State} (hstep : ∀ u x, Stands u (step u x)) (l : List α) :
    Stands s (l.foldl step t) :=
  h.trans (foldl_rel refl trans hstep l t)

theorem foldN (h : Stands s t) {step : Nat → State → State} (hstep : ∀ i u, Stands u (step i u)) (n : Nat) : Stands s (foldN n step t) :=
  h.foldl (fun u i => hstep i u) _

/-- The same for steps that carry a value along. -/
theorem foldl_fst {α β : Type} {step : State × β → α → State × β} (hstep : ∀ u b x, Stands u (step (u, b) x).1) (l : List α)
    (acc : State × β) (h : Stands s acc.1) : Stands s (l.foldl step acc).1 := by
  induction l generalizing acc with
  | nil => exact h
  | cons x r ih => exact ih _ (h.trans (hstep acc.1 acc.2 x))

theorem ite {c : Prop} [Decidable c] (ht : Stands s t) (hu : Stands s u) : Stands s (if c then t else u) := by
  split
  · exact ht
  · exact hu

/-- What only a migration changes. -/
theorem of_no_migs (h : Stands s t) (hu : s.abs.migs = [] → u = t) : Stands s u :=
  ⟨fun hs => hu hs ▸ h.parts hs, fun hs => hu hs ▸ h.bme hs, fun hs => hu hs ▸ h.migs hs⟩

/-- The state of an answer. -/
theorem fst {β : Type} {x : State × β} {b : β} (h : Stands s x.1) (hx : x = (u, b)) : Stands s u := by
  subst hx
  exact h

/-! The operations on registers, interrupts, the host and the log. -/

theorem setReg (h : Stands s t) (code inst bank off : Nat) (v : DWord) : Stands s (t.setReg code inst bank off v) := h.of_eq rfl rfl rfl

theorem bump (h : Stands s t) (code inst bank off n : Nat) : Stands s (t.bump code inst bank off n) := h.of_eq rfl rfl rfl

theorem setErr (h : Stands s t) (code inst b : Nat) : Stands s (t.setErr code inst b) := h.of_eq rfl rfl rfl

theorem setVault (h : Stands s t) (p : Nat) (x : Vault) : Stands s (t.setVault p x) := h.of_eq rfl rfl rfl

theorem modVault (h : Stands s t) (p : Nat) (g : Vault → Vault) : Stands s (t.modVault p g) := h.of_eq rfl rfl rfl

theorem modCore (h : Stands s t) (c : Nat) (g : Core → Core) : Stands s (t.modCore c g) := h.of_eq rfl rfl rfl

theorem emit (h : Stands s t) (o : Out) : Stands s (t.emit o) := h.of_eq rfl rfl rfl

theorem freeUsed (h : Stands s t) : Stands s t.freeUsed := h.of_eq rfl rfl rfl

theorem raiseInt (h : Stands s t) (code inst : Nat) : Stands s (t.raiseInt code inst) := h.of_eq rfl rfl rfl

theorem setInt (h : Stands s t) (code inst m : Nat) : Stands s (t.setInt code inst m) :=
  ite ((h.setReg ..).setReg ..) (((h.setReg ..).setReg ..).raiseInt ..)

theorem hostWrite (h : Stands s t) (a : Nat) (bs : List Byte) : Stands s (t.hostWrite a bs) := ite (h.of_eq rfl rfl rfl) (h.bump ..)

theorem log (h : Stands s t) (ev : Nat) (i : LogInfo) : Stands s (t.log ev i) := by
  unfold State.log
  extract_lets n en tail phase e _ logged head used a written _ moved
  have hlogged : Stands s logged := h.of_eq rfl rfl rfl
  have hmoved : Stands s moved := (hlogged.hostWrite ..).of_eq rfl rfl rfl
  exact ite (ite (hlogged.bump ..) (hmoved.emit _)) (hlogged.bump ..)

theorem castTrigger (h : Stands s t) (r : CastReq) : Stands s (t.castTrigger r) := ite (h.of_eq rfl rfl rfl) (h.of_eq rfl rfl rfl)

theorem setLedg (h : Stands s t) (i : Nat) (e : LEntry) : Stands s (t.setLedg i e) := by
  unfold State.setLedg
  extract_lets e' s1
  have hfirst : Stands s s1 := ite h (h.of_eq rfl rfl rfl)
  exact ite hfirst (hfirst.of_eq rfl rfl rfl)

theorem setStream (h : Stands s t) (n : Nat) (e : Stream) : Stands s (t.setStream n e) := by
  unfold State.setStream
  extract_lets e' s1
  have hfirst : Stands s s1 := ite h (h.of_eq rfl rfl rfl)
  exact ite hfirst (hfirst.of_eq rfl rfl rfl)

/-! What errors of a line do. -/

theorem kvLost (h : Stands s t) (p l : Nat) : Stands s (t.kvLost p l) := h.foldl (fun u _ => (refl u).setLedg ..) _

theorem bucketAdd (h : Stands s t) (p n : Nat) : Stands s (t.bucketAdd p n) :=
  h.foldN (fun _ u => ite ((((((refl u).setErr ..).setInt ..).log ..).bump ..).modVault ..) ((refl u).modVault ..)) n

theorem suspectAdd (h : Stands s t) (p seg : Nat) : Stands s (t.suspectAdd p seg) := ite (h.setVault ..) (h.setVault ..)

theorem lineCorrected (h : Stands s t) (p l k : Nat) (d : List Byte) : Stands s (t.lineCorrected p l k d) :=
  (((((h.modVault ..).setErr ..).bump ..).bump ..).bucketAdd ..).suspectAdd ..

theorem lineUe (h : Stands s t) (p l : Nat) : Stands s (t.lineUe p l) := by
  unfold State.lineUe
  extract_lets c v s1 s2 s3 s4 s5 ts _ s6
  have hnoted : Stands s s2 := ite (h.bump ..) ((h.bump ..).setReg ..)
  have hlogged : Stands s s3 := (hnoted.setInt ..).log ..
  have hclass : Stands s s4 := ite (hlogged.kvLost ..) (ite (hlogged.setErr ..) hlogged)
  have hvault : Stands s s5 := hclass.modVault ..
  have htimes : Stands s s6 := hvault.of_eq rfl rfl rfl
  exact ite (ite (htimes.castTrigger _) htimes) hvault

theorem dropNode (h : Stands s t) (i : Nat) : Stands s (t.dropNode i) := h.of_eq rfl rfl rfl

theorem tableLine (h : Stands s t) (p l : Nat) : Stands s (t.tableLine p l).1 := by
  have hput {u : State} (hu : Stands s u) (d : List Byte) : Stands s (u.modVault p (fun v => v.store l (lineEncode d))) := hu.modVault ..
  unfold State.tableLine
  extract_lets put won lost x nodes
  have hwon {u : State} (hu : Stands s u) (d : List Byte) : Stands s (won u d).1 := hput (hu.log ..) d
  have hlost : Stands s lost.1 := by
    dsimp only [lost]
    exact h.freeUsed.modVault ..
  split
  · exact h
  · split
    · exact hput (h.freeUsed.dropNode _) _
    · split
      · exact hlost
      · split
        · exact hlost
        · split
          · exact hwon h.freeUsed _
          · split
            · exact hwon h.freeUsed _
            · exact hwon (h.freeUsed.lineCorrected ..) _
            · exact hlost

/-! Reads and writes of lines. -/

theorem arrayRead (h : Stands s t) (p l : Nat) (noise : BitVec 576) : Stands s (t.arrayRead p l noise).1 := by
  unfold State.arrayRead
  extract_lets v d v' s1
  have hread : Stands s s1 := h.bump ..
  split
  · exact h.bump ..
  · split
    · exact ((h.setVault ..).setErr ..).bump ..
    · split
      · exact hread
      · exact hread.lineCorrected ..
      · exact (hread.lineUe ..).tableLine ..

theorem drainWq (h : Stands s t) (p : Nat) : Stands s (t.drainWq p) := ite h ((((h.setVault ..).bump ..).bump ..).bump ..)

theorem dropRewrite (h : Stands s t) (p l : Nat) : Stands s (t.dropRewrite p l) := ite ((h.modVault ..).bump ..) h

theorem acceptLine (h : Stands s t) (p l : Nat) (d : List Byte) : Stands s (t.acceptLine p l d) :=
  ite (((h.dropRewrite ..).modVault ..).drainWq p) ((h.dropRewrite ..).modVault ..)

theorem evictLine (h : Stands s t) (p l : Nat) (noise : BitVec 576) : Stands s (t.evictLine p l noise).1 := by
  unfold State.evictLine
  split
  · exact h
  · split
    next base r hbase =>
      have hread : Stands s base := fst (by
        split
        · exact h
        · split
          · exact h
          · exact h.arrayRead ..) hbase
      extract_lets merged
      have hmerged : Stands s merged := hread.bump ..
      split
      · exact hmerged.acceptLine ..
      · split
        · dsimp only
          exact hmerged.modVault ..
        · exact (hmerged.modVault ..).log ..

theorem readLine (h : Stands s t) (p l : Nat) (noise : BitVec 576) : Stands s (t.readLine p l noise).1 := by
  unfold State.readLine
  split
  · exact h.evictLine ..
  · split
    · exact h
    · exact h.arrayRead ..

theorem materialise (h : Stands s t) (p g n : Nat) : Stands s (t.materialise p g n) := ite h (((h.setVault ..).bump ..).bump ..)

theorem acceptNarrow (h : Stands s t) (p l i : Nat) (bs : List Byte) (fresh : Bool) : Stands s (t.acceptNarrow p l i bs fresh) := by
  unfold State.acceptNarrow
  extract_lets new dropped room
  have hdropped : Stands s dropped := h.dropRewrite ..
  have hroom : Stands s room := hdropped.foldl (fun u _ => ite (refl u) ((refl u).evictLine ..)) _
  split
  · exact ite (hdropped.acceptLine ..) (hdropped.modVault ..)
  · exact ite (hroom.modVault ..) (hroom.modVault ..)

theorem putLine (h : Stands s t) (p l i : Nat) (bs : List Byte) (fresh : Bool) (n : Nat) : Stands s (t.putLine p l i bs fresh n) :=
  ite ((h.materialise ..).acceptLine ..) ((h.materialise ..).acceptNarrow ..)

theorem migrateGranule (h : Stands s t) (l g : Nat) : Stands s (t.migrateGranule l g) :=
  h.of_no_migs fun hs => by simp [State.migrateGranule, h.migs hs]

theorem vaultBytes (h : Stands s t) (l a n : Nat) : Stands s (t.vaultBytes l a n).1 := by
  unfold State.vaultBytes
  split
  · exact h
  · extract_lets first cnt
    refine foldl_fst (fun u b i => ?_) (List.range cnt) (t, [], true) h
    dsimp only
    split
    · exact refl u
    · have hread := (refl u).readLine ‹_› ((first + i) % 16777216) 0
      split
      · exact hread
      · exact hread

theorem vaultPut (h : Stands s t) (l a : Nat) (bs : List Byte) : Stands s (t.vaultPut l a bs) := by
  refine ite h (h.foldl (fun u i => ?_) _)
  have hmoved := (refl u).migrateGranule l ((a / 64 + i) % 16777216 / 64)
  dsimp only
  split
  · exact hmoved
  · exact hmoved.putLine ..

/-! The snapshot's copies and the clearing of ranges. -/

theorem imagePut (h : Stands s t) (x : Loc) (bs : List Byte) : Stands s (t.imagePut x bs) := by
  cases x with
  | stock c o => exact h.of_eq rfl rfl rfl
  | vault l o => exact h.vaultPut ..
  | near o => exact h.foldl (fun u _ => (refl u).vaultPut ..) _
  | far p o => exact ite (h.of_eq rfl rfl rfl) h
  | host a => exact h.hostWrite ..
  | guild d o => exact h
  | market g d c o => exact h

theorem gateTake (h : Stands s t) (g : Gate) (n : Nat) : Stands s (t.gateTake g n) := ite h (h.of_eq rfl rfl rfl)

theorem dmaCharge (h : Stands s t) (p : Nat) (x : Loc) (out : Bool) (n : Nat) : Stands s (t.dmaCharge p x out n) := by
  cases x with
  | host a => exact h.gateTake ..
  | far f o => exact h.gateTake ..
  | stock c o => exact h
  | vault l o => exact h
  | near o => exact h
  | guild d o => exact h
  | market g d c o => exact h

theorem snapGranule (h : Stands s t) (l g : Nat) : Stands s (t.snapGranule l g) := by
  unfold State.snapGranule
  split
  · exact h
  · split
    · exact h
    · have hbytes : Stands s (t.vaultBytes l (g * 4096) 4096).1 := h.vaultBytes ..
      have hfree (u : State) : Stands u (u.freeBytes 4096).1 := (refl u).of_eq rfl rfl rfl
      split
      next copied b hb =>
        have hcopied : Stands s copied := hbytes.fst hb
        split
        next ready bs hbs =>
          have hready : Stands s ready := fst (by
            split
            · exact hcopied
            · exact hcopied.trans (hfree _)) hbs
          exact ((hready.dmaCharge ..).imagePut ..).of_eq rfl rfl rfl

theorem snapRange (h : Stands s t) (l first count : Nat) : Stands s (t.snapRange l first count) := by
  unfold State.snapRange
  split
  · exact h
  · exact h.foldl (fun u _ => (refl u).snapGranule ..) _

theorem clearRange (h : Stands s t) (p first count : Nat) : Stands s (t.clearRange p first count) := by
  have hcleared : Stands s ((t.snapRange (t.vault p).logical first count).modVault p (fun v => v.clearValid first count)) :=
    (h.snapRange ..).modVault ..
  refine hcleared.of_no_migs fun hs => ?_
  unfold State.clearRange
  dsimp only
  rw [hcleared.migs hs]
  rfl

theorem clearPage (h : Stands s t) (p first count : Nat) : Stands s (t.clearPage p first count) := ite (h.clearRange ..) (h.modVault ..)

/-! The parts of a partition's reset (R266). -/

theorem freeNear (h : Stands s t) (e : LEntry) : Stands s (t.freeNear e) := by
  unfold State.freeNear
  split
  · split
    · exact h.clearPage ..
    · exact h
  · exact h

theorem dropEntry (h : Stands s t) (i : Nat) : Stands s (t.dropEntry i) := ((h.freeNear _).setLedg ..).bump ..

theorem poolFree (h : Stands s t) (p src : Nat) : Stands s (t.poolFree p src) := h.of_eq rfl rfl rfl

theorem clearCounters (h : Stands s t) (code inst bank : Nat) : Stands s (t.clearCounters code inst bank) :=
  h.foldl (fun u _ => (refl u).setReg ..) _

theorem haltCores (h : Stands s t) (cores : List Nat) : Stands s (t.haltCores cores) := by
  unfold State.haltCores
  extract_lets halted mine dropProg hit dropped
  have hhalted : Stands s halted := h.foldl (fun u _ => (refl u).modCore ..) _
  have hdropped : Stands s dropped := hhalted.foldl (fun u _ => (refl u).modVault ..) _
  exact hdropped.of_eq rfl rfl rfl

theorem resetCores (h : Stands s t) (cores : List Nat) : Stands s (t.resetCores cores) := by
  have hpages : Stands s (cores.foldl (fun s c => s.clearCorePages c) (t.haltCores cores)) :=
    (h.haltCores cores).foldl (fun u _ => (refl u).foldl (fun u' _ => (((refl u').clearCounters ..).setReg ..).setReg ..) _) _
  exact hpages.of_eq rfl rfl rfl

theorem resetStreams (h : Stands s t) (p : Nat) : Stands s (t.resetStreams p) := by
  unfold State.resetStreams
  extract_lets es ss freed dropped idle
  have hfreed : Stands s freed := h.foldl (fun u _ => ite ((refl u).poolFree ..) (refl u)) _
  have hdropped : Stands s dropped := hfreed.foldl (fun u _ => (refl u).dropEntry _) _
  have hidle : Stands s idle := hdropped.foldl (fun u _ => (refl u).setStream ..) _
  exact hidle.of_eq rfl rfl rfl

theorem resetMigrations (h : Stands s t) (cores : List Nat) : Stands s (t.resetMigrations cores) :=
  h.of_no_migs fun hs => by simp [State.resetMigrations, h.migs hs]

end Stands

end Sys2Proof.Safety

namespace Sys2Proof.Machine

open Sys2Proof.Safety Sys2Proof.Claims

variable {s : State}

/-- A partition that is reset (R266). -/
def Part.afterReset (x : Part) : Part := { x with
  st := .resetting, steps := 0, running := false, draftPhase := false, drafts := 0, draftsLeft := 0, rolledBack := false, set := []
  after := [], nonrepro := false, routeDep := false, admitHeld := false, parkFirst := [], selFrom := [], farFull := false, joins := []
  heldAt := none, unpark := [] }

theorem State.resetPartition_idle {p : Nat} (h : ((s.part p).st = .empty || (s.part p).st = .resetting) = true) : (s.resetPartition p).1 = s := by
  unfold State.resetPartition
  rw [if_pos h]

/-- A partition's reset changes that partition alone, but for what the partitions stand on. -/
theorem State.resetPartition_stands {p : Nat} (h : ((s.part p).st = .empty || (s.part p).st = .resetting) = false) :
    Stands (s.modPart p Part.afterReset) (s.resetPartition p).1 := by
  unfold State.resetPartition
  rw [if_neg (by simp [h])]
  exact (((((Stands.refl _).resetCores _).resetStreams _).resetMigrations _).clearCounters ..).clearCounters ..

theorem State.part_congr {t : State} (h : t.parts = s.parts) (p : Nat) : t.part p = s.part p := by
  unfold State.part
  rw [h]

/-- What a reset of a partition leaves: the partition RESETTING unless it is EMPTY or RESETTING, the other ones and the masters of the
bus as they were. -/
theorem State.resetPartition_leaves (p : Nat) (hmigs : s.abs.migs = []) : (s.resetPartition p).1.abs.migs = []
    ∧ (s.resetPartition p).1.host.bme = s.host.bme ∧ (∀ q, q ≠ p → (s.resetPartition p).1.part q = s.part q)
    ∧ (s.resetPartition p).1.part p = if (s.part p).st = .empty || (s.part p).st = .resetting then s.part p else (s.part p).afterReset := by
  cases h : ((s.part p).st = .empty || (s.part p).st = .resetting : Bool) with
  | true =>
    rw [State.resetPartition_idle h, if_pos rfl]
    exact ⟨hmigs, rfl, fun _ _ => rfl, rfl⟩
  | false =>
    have hstands := State.resetPartition_stands h
    have hpart := State.part_congr (hstands.parts hmigs)
    refine ⟨hstands.migs hmigs, hstands.bme hmigs, fun q hq => ?_, ?_⟩
    · rw [hpart, s.part_modPart_other _ hq]
    · rw [hpart, s.part_modPart_same, if_neg Bool.false_ne_true]

end Sys2Proof.Machine
end

section
/-! PROOFS. The function-level resets of the VFs and of PF0 (R381, R386). O36 is settled at the end. -/

namespace Sys2Proof.Machine

open Sys2Proof.Safety Sys2Proof.Claims

variable {s : State}

theorem reachHost_take_host (w : State) : (reachHost.take s w).host = w.host := rfl

theorem reachHost_take_part (w : State) (p : Nat) : (reachHost.take s w).part p = w.part p := rfl

theorem exec_flrVf {vf : Nat} (hpos : 1 ≤ vf) (hle : vf ≤ 64) :
    exec (.flrVf vf) s = .next (reachHost.take s ((s.bmeCleared (vf + 1)).resetPartition (vf - 1)).1) := by
  have hvf : ¬ (vf = 0 || decide (vf > 64)) = true := by simp; omega
  show execFlrVf vf s = _
  unfold execFlrVf
  rw [if_neg hvf]
  rfl

/-- The function-level reset of PF0 at one partition: it is reset unless its VF owns it (R381, R386). -/
def State.flrAt (s : State) (p : Nat) : State := if s.host.bme.contains (p + 2) then s else (s.resetPartition p).1

/-- The function-level reset of PF0 at every partition. -/
def State.flrAll (s : State) : State := (List.range 64).foldl State.flrAt s

theorem exec_flrPf0 : exec .flrPf0 s = .next (reachHost.take s (s.bmeCleared 0).flrAll) := rfl

/-- A state in which nothing migrates, with these masters of the bus. -/
def State.Settled (s : State) (bme : List Nat) : Prop := s.abs.migs = [] ∧ s.host.bme = bme

theorem State.flrAt_settled {bme : List Nat} (p : Nat) (h : s.Settled bme) : (s.flrAt p).Settled bme := by
  obtain ⟨hmigs, hbme⟩ := h
  obtain ⟨hmigs', hbme', -, -⟩ := State.resetPartition_leaves p hmigs
  unfold State.flrAt
  split
  · exact ⟨hmigs, hbme⟩
  · exact ⟨hmigs', hbme'.trans hbme⟩

theorem State.flrAt_part_other {bme : List Nat} {p q : Nat} (h : s.Settled bme) (hq : q ≠ p) : (s.flrAt q).part p = s.part p := by
  obtain ⟨hmigs, -⟩ := h
  obtain ⟨-, -, hother, -⟩ := State.resetPartition_leaves q hmigs
  unfold State.flrAt
  split
  · rfl
  · exact hother p (Ne.symm hq)

theorem State.flrAt_part {bme : List Nat} {p : Nat} (h : s.Settled bme) : (s.flrAt p).part p
    = if bme.contains (p + 2) || (s.part p).st = .empty || (s.part p).st = .resetting then s.part p else (s.part p).afterReset := by
  obtain ⟨hmigs, rfl⟩ := h
  obtain ⟨-, -, -, hpart⟩ := State.resetPartition_leaves p hmigs
  unfold State.flrAt
  cases hown : s.host.bme.contains (p + 2) with
  | true => simp
  | false => simpa using hpart

theorem State.flrAll_settled {bme : List Nat} (h : s.Settled bme) : s.flrAll.Settled bme := by
  unfold State.flrAll
  exact List.foldlRecOn (motive := fun u : State => u.Settled bme) _ _ h fun _ hu p _ => State.flrAt_settled p hu

/-- What the reset of PF0 leaves of each partition (R386). -/
theorem State.flrAll_part {bme : List Nat} (h : s.Settled bme) {p : Nat} (hp : p < 64) : s.flrAll.part p
    = if bme.contains (p + 2) || (s.part p).st = .empty || (s.part p).st = .resetting then s.part p else (s.part p).afterReset := by
  obtain ⟨w, hw, hpart, hend⟩ : ∃ w : State, w.Settled bme ∧ w.part p = s.part p ∧ s.flrAll.part p = (w.flrAt p).part p :=
    foldl_at (view := fun u => u.part p) (fun _ q hu => State.flrAt_settled q hu) (fun _ _ hu hq => State.flrAt_part_other hu hq)
      List.nodup_range (List.mem_range.mpr hp) h
  rw [hend, State.flrAt_part hw, hpart]

end Sys2Proof.Machine

namespace Sys2Proof.Proofs

open Sys2Proof.Machine Sys2Proof.Claims Sys2Proof.Safety

/-- Settles O36: each request's exec equation gives what it answers and what it leaves; the loss of the link and the reset of PF0 are
folds over the partitions, in which each partition is touched by its own step alone. -/
theorem theHostLinkAnswersTrainsAndFails : Obligations.TheHostLinkAnswersTrainsAndFails := by
  unfold Obligations.TheHostLinkAnswersTrainsAndFails
  refine ⟨⟨?config, ?read, ?write, ?readAsleep, ?writeAsleep, ?fenceHold, ?timeout⟩, ?perst, ?loss, ?flrVf, ?flrPf0, ?flrPf1, ?spur⟩
  case config =>
    intro s fn tag bme hup
    refine ⟨_, exec_hostConfigRequest hup bme, ?_⟩
    cases hid : s.boot.idLoaded with
    | true =>
      have hkept := s.bmeWritten_kept fn bme
      refine ⟨congrArg (_ :: ·) (hkept.sent rfl), fun g => ?_, State.bmeWritten_host fn bme, (hkept.mono rfl).emit rfl _⟩
      simpa using State.mem_bmeWritten fn bme g
    | false => exact ⟨rfl, fun g => by simp [State.emit], rfl, (Kept.refl ..).emit rfl _⟩
  case read =>
    intro s tag o l v ln d hawake hnear hseen hmb hwq hd
    exact ⟨_, exec_hostNearRead_line hawake hnear hseen hmb hwq hd, rfl, fun _ => rfl, ((Kept.refl ..).bump rfl ..).emit rfl _⟩
  case write =>
    intro s o l v ln d hawake hnear hd hsnap hrole hlogical hvalid hroom
    exact ⟨_, exec_hostNearWrite_line hawake hnear hd hsnap hrole hlogical hvalid hroom, State.lineWritten_wq, State.lineWritten_vaults,
      State.lineWritten_kept⟩
  case readAsleep =>
    intro s fn tag addr len hstate
    exact ⟨_, exec_hostNearRead_adjourned hstate addr len, rfl, (Kept.refl ..).emit rfl _⟩
  case writeAsleep =>
    intro s fn addr bs hstate
    exact ⟨_, exec_hostNearWrite_adjourned hstate addr bs, State.reg_bump_same .., (RegsKept.of_regs_eq rfl).setReg _ (List.mem_singleton.mpr rfl),
      (Kept.refl ..).bump rfl ..⟩
  case fenceHold =>
    intro s fn tag hheld
    refine ⟨_, exec_fenceHoldExpired hheld, rfl, rfl, ?_, ((((Kept.refl ..).setHost rfl _).bump rfl ..).setFld rfl ..).emit rfl _⟩
    exact (State.reg_setReg_other _ _ (regKey_off (by decide))).trans (State.reg_bump_same ..)
  case timeout =>
    intro s part id f
    refine ⟨fun hfirst => ⟨_, exec_hostReadTimeout_first hfirst, rfl, (Kept.refl ..).setHost rfl _⟩,
      fun hagain hflight hdone => ?_, fun how hhow hflight hdone => ?_⟩
    · obtain ⟨hcount, herr⟩ := s.readFailed_timeout (readKey part id)
      exact ⟨_, exec_hostReadTimeout_failed (.inr hagain) hflight hdone, State.readFailed_host .., hcount, herr, State.readFailed_kept ..⟩
    · have hne : how ≠ 0 := by omega
      exact ⟨_, exec_hostReadTimeout_failed (.inl hne) hflight hdone, State.readFailed_host .., State.readFailed_returned _ hne,
        State.readFailed_kept ..⟩
  case perst =>
    intro s w r f hoff haon hw hr
    exact ⟨_, exec_perstDeassert hoff haon hw hr, rfl, (Kept.refl ..).setHost rfl _⟩
  case loss =>
    intro s
    have hkept := State.linkLossDone_kept (s := s)
    have hhost : s.linkShown.linkLost.closePf1.host = s.linkReset.host := by
      rw [State.closePf1_host, State.linkLost_kept.host rfl]
      rfl
    refine ⟨_, exec_hostLinkLoss, ?_, ?_, ?_, ?_, fun p hp => ?_, rfl, hkept.vaults rfl, hkept.cores rfl, hkept⟩
    · rw [hhost]
      rfl
    · rw [hhost]
      rfl
    · rw [hhost]
      rfl
    · rw [State.closePf1_reg_other (by decide) (by decide), State.linkLost_reg_other (by decide) (by decide), State.linkShown_downs]
    · obtain ⟨hreq, htok, hserving⟩ := s.linkShown.linkLost_at hp
      have hshown : s.linkShown.part p = s.part p := rfl
      rw [hshown] at hserving
      rw [State.closePf1_fld_other (by decide) (by decide), State.closePf1_fld_other (by decide) (by decide), State.closePf1_part]
      refine ⟨hreq, htok, fun hst hrun => ?_, fun hst hrun => ?_⟩
      · rw [hserving hst, hrun]
        rfl
      · rw [hserving hst, hrun]
        exact ⟨hst, by simp⟩
  case flrVf =>
    intro s vf hpos hle hmigs hempty hresetting
    obtain ⟨-, hbme, hother, hpart⟩ := State.resetPartition_leaves (s := s.bmeCleared (vf + 1)) (vf - 1) hmigs
    have hset : ¬ ((s.part (vf - 1)).st = .empty || (s.part (vf - 1)).st = .resetting : Bool) = true := by simp [hempty, hresetting]
    rw [State.bmeCleared_part, if_neg hset] at hpart
    refine ⟨_, exec_flrVf hpos hle, ?_, ?_, fun q hq => ?_⟩
    · rw [reachHost_take_part, hpart]
      rfl
    · rw [reachHost_take_host, hbme]
      rfl
    · rw [reachHost_take_part, hother q (by simpa using hq), State.bmeCleared_part]
  case flrPf0 =>
    intro s hmigs
    have hsettled : (s.bmeCleared 0).Settled (s.host.bme.filter (· != 0)) := ⟨hmigs, rfl⟩
    obtain ⟨-, hbme⟩ := State.flrAll_settled hsettled
    refine ⟨_, exec_flrPf0, ?_, fun p hp => ?_⟩
    · rw [reachHost_take_host, hbme]
    · have hown : (s.host.bme.filter (· != 0)).contains (p + 2) = s.host.bme.contains (p + 2) := by
        rw [Bool.eq_iff_iff]
        simp
      rw [reachHost_take_part, State.flrAll_part hsettled hp, hown, State.bmeCleared_part]
      split
      · rfl
      · rfl
  case flrPf1 =>
    intro s
    obtain ⟨hadm, helog⟩ := State.closePf1_closed (s := s.bmeCleared 1)
    exact ⟨_, exec_flrPf1, rfl, hadm, helog, rfl, rfl, ((Kept.refl ..).setHost rfl _).closePf1 rfl rfl⟩
  case spur =>
    intro s
    exact ⟨_, exec_hostSpurDown, State.spurLost_checkState_host, State.checkState_state.trans State.spurLost_stateOf,
      State.spurLost_kept.checkState rfl⟩

end Sys2Proof.Proofs
end

section
/-! PROOFS. Floating-point codes and values (R37 to R42, R46): a code in normal form t · 2^mb + M, the value it stands for, that a
value rounds the same in each of its forms, and that what a format holds comes back through FP32. O13 is settled at the end. -/

namespace Sys2Proof.Machine

open Sys2Proof.Claims

/-! #### Lengths and shifts -/

theorem bitLen_eq_size (m : Nat) : bitLen m = m.size := by
  unfold bitLen
  by_cases h : m = 0
  · simp [h]
  · rw [if_neg h]
    exact le_antisymm (Nat.lt_size.mpr (Nat.log2_self_le h)) (Nat.size_le.mpr Nat.lt_log2_self)

theorem bitLen_shiftLeft {m : Nat} (h : m ≠ 0) (k : Nat) : bitLen (m <<< k) = bitLen m + k := by
  rw [bitLen_eq_size, bitLen_eq_size, Nat.size_shiftLeft h]

theorem bitLen_le {m n : Nat} : bitLen m ≤ n ↔ m < 2 ^ n := by
  rw [bitLen_eq_size, Nat.size_le]

theorem lt_bitLen {m n : Nat} : n < bitLen m ↔ 2 ^ n ≤ m := by
  rw [bitLen_eq_size, Nat.lt_size]

theorem bitLen_eq_succ {m n : Nat} (hlo : 2 ^ n ≤ m) (hhi : m < 2 ^ (n + 1)) : bitLen m = n + 1 :=
  le_antisymm (bitLen_le.mpr hhi) (lt_bitLen.mpr hlo)

theorem rneShift_zero (m : Nat) : rneShift m 0 = m := if_pos rfl

theorem rneShift_succ (m j : Nat) : rneShift m (j + 1)
    = if 2 ^ j < m % 2 ^ (j + 1) ∨ m % 2 ^ (j + 1) = 2 ^ j ∧ m >>> (j + 1) % 2 = 1 then m >>> (j + 1) + 1 else m >>> (j + 1) := by
  unfold rneShift
  rw [if_neg (Nat.succ_ne_zero j), Nat.one_shiftLeft, Nat.one_shiftLeft, Nat.add_sub_cancel]

theorem rneShift_shiftLeft_self (m k : Nat) : rneShift (m <<< k) k = m := by
  cases k with
  | zero => rw [rneShift_zero, Nat.shiftLeft_zero]
  | succ j =>
    have hrest : m <<< (j + 1) % 2 ^ (j + 1) = 0 := by rw [Nat.shiftLeft_eq, Nat.mul_mod_left]
    have hpos := Nat.two_pow_pos j
    rw [rneShift_succ, hrest, if_neg (by omega), Nat.shiftLeft_shiftRight]

/-- Bits that are 0 do not count: a number shifted up by k and rounded at k bits more is the number rounded. -/
theorem rneShift_shiftLeft (m j k : Nat) : rneShift (m <<< k) (j + k) = rneShift m j := by
  cases j with
  | zero => rw [Nat.zero_add, rneShift_shiftLeft_self, rneShift_zero]
  | succ j =>
    have hpos := Nat.two_pow_pos k
    have hquot : m <<< k >>> (j + k + 1) = m >>> (j + 1) := by
      rw [show j + k + 1 = k + (j + 1) by omega, Nat.shiftRight_add, Nat.shiftLeft_shiftRight]
    have hrest : m <<< k % 2 ^ (j + k + 1) = m % 2 ^ (j + 1) * 2 ^ k := by
      rw [show j + k + 1 = j + 1 + k by omega, Nat.pow_add, Nat.shiftLeft_eq, Nat.mul_mod_mul_right]
    rw [show j + 1 + k = j + k + 1 by omega, rneShift_succ, rneShift_succ, hquot, hrest, Nat.pow_add 2 j k]
    simp only [Nat.mul_lt_mul_right hpos, Nat.mul_left_inj hpos.ne']

/-! #### A code's value -/

/-- The value of a sign and a magnitude (R38): `ffDecode` after the sign is taken off. -/
def ffMagVal (f : FloatFmt) (neg : Bool) (mag : Nat) : FpVal :=
  if f.sp = .ieee ∧ mag / 2 ^ f.mb = 2 ^ f.eb - 1 then (if mag % 2 ^ f.mb = 0 then .inf neg else .nan)
  else if f.sp = .allOnes ∧ mag = 2 ^ (f.eb + f.mb) - 1 then .nan
  else if mag / 2 ^ f.mb = 0 then .fin neg (mag % 2 ^ f.mb) (1 - (f.bias : Int) - f.mb)
  else .fin neg (2 ^ f.mb + mag % 2 ^ f.mb) (((mag / 2 ^ f.mb : Nat) : Int) - f.bias - f.mb)

theorem ffDecode_eq_ffMagVal (f : FloatFmt) (x : Nat) :
    ffDecode f x = ffMagVal f (x.testBit (f.eb + f.mb)) (x % 2 ^ (f.eb + f.mb)) := rfl

theorem fpNeg_ffMagVal (f : FloatFmt) (neg : Bool) (mag : Nat) : fpNeg (ffMagVal f neg mag) = ffMagVal f (!neg) mag := by
  unfold ffMagVal
  split_ifs <;> rfl

theorem fpAbs_ffMagVal (f : FloatFmt) (neg : Bool) (mag : Nat) : fpAbs (ffMagVal f neg mag) = ffMagVal f false mag := by
  unfold ffMagVal
  split_ifs <;> rfl

/-- Every code is its magnitude with its sign. -/
theorem ffSign_testBit_mod (f : FloatFmt) {x : Nat} (hx : x < 2 ^ ffWidth f) :
    ffSign f (x.testBit (f.eb + f.mb)) (x % 2 ^ (f.eb + f.mb)) = x := by
  have hx2 : x < 2 ^ (f.eb + f.mb) * 2 := by
    rwa [ffWidth, show 1 + f.eb + f.mb = f.eb + f.mb + 1 by omega, Nat.pow_succ] at hx
  have hdiv : x / 2 ^ (f.eb + f.mb) < 2 := Nat.div_lt_of_lt_mul hx2
  have hsplit := Nat.mod_add_div x (2 ^ (f.eb + f.mb))
  rw [ffSign, Nat.testBit_eq_decide_div_mod_eq, Nat.mod_eq_of_lt hdiv]
  obtain h | h := Nat.le_one_iff_eq_zero_or_eq_one.mp (Nat.lt_succ_iff.mp hdiv)
  · simpa [h] using hsplit
  · simpa [h] using hsplit

theorem ffDecode_ffSign (f : FloatFmt) (neg : Bool) {mag : Nat} (h : mag < 2 ^ (f.eb + f.mb)) :
    ffDecode f (ffSign f neg mag) = ffMagVal f neg mag := by
  rw [ffDecode_eq_ffMagVal, ffSign, Nat.testBit_eq_decide_div_mod_eq]
  cases neg with
  | false => simp [Nat.mod_eq_of_lt h, Nat.div_eq_of_lt h]
  | true => simp [Nat.mod_eq_of_lt h, Nat.div_eq_of_lt h]

theorem ffSign_lt (f : FloatFmt) (neg : Bool) {mag : Nat} (h : mag < 2 ^ (f.eb + f.mb)) : ffSign f neg mag < 2 ^ ffWidth f := by
  rw [ffWidth, show 1 + f.eb + f.mb = f.eb + f.mb + 1 by omega, Nat.pow_succ, ffSign]
  split <;> omega

/-! #### Normal forms -/

/-- The normal form of a finite magnitude t · 2^mb + M: the significand M has its leading bit unless the magnitude is subnormal. -/
structure FloatFmt.Canon (f : FloatFmt) (t M : Nat) : Prop where
  lt : M < 2 ^ (f.mb + 1)
  lead : t = 0 ∨ 2 ^ f.mb ≤ M

/-- The exponent that the significand M of t · 2^mb + M has. -/
def FloatFmt.expOf (f : FloatFmt) (t : Nat) : Int := t + 1 - f.bias - f.mb

/-- A normal form is subnormal (the exponent field is 0) or has its leading bit. -/
theorem FloatFmt.Canon.subnormal_or_lead {f : FloatFmt} {t M : Nat} (hc : f.Canon t M) :
    (t = 0 ∧ M < 2 ^ f.mb) ∨ ∃ r < 2 ^ f.mb, M = 2 ^ f.mb + r := by
  obtain ⟨hlt, hlead⟩ := hc
  by_cases h : M < 2 ^ f.mb
  · exact .inl ⟨by omega, h⟩
  · exact .inr ⟨M - 2 ^ f.mb, by omega, by omega⟩

/-- Every magnitude has a normal form. -/
theorem FloatFmt.exists_canon (f : FloatFmt) (mag : Nat) : ∃ t M, f.Canon t M ∧ mag = t * 2 ^ f.mb + M := by
  have hsplit := Nat.div_add_mod' mag (2 ^ f.mb)
  have hlt := Nat.mod_lt mag (Nat.two_pow_pos f.mb)
  cases hex : mag / 2 ^ f.mb with
  | zero =>
    rw [hex] at hsplit
    exact ⟨0, mag, ⟨by omega, .inl rfl⟩, by omega⟩
  | succ t =>
    rw [hex, Nat.succ_mul] at hsplit
    exact ⟨t, 2 ^ f.mb + mag % 2 ^ f.mb, ⟨by omega, .inr (by omega)⟩, by omega⟩

/-- A magnitude that stands for no finite value (R38). -/
def FloatFmt.Special (f : FloatFmt) (mag : Nat) : Prop :=
  (f.sp = .ieee ∧ mag / 2 ^ f.mb = 2 ^ f.eb - 1) ∨ (f.sp = .allOnes ∧ mag = 2 ^ (f.eb + f.mb) - 1)

theorem ffMagVal_canon {f : FloatFmt} {t M : Nat} (hc : f.Canon t M) (hs : ¬ f.Special (t * 2 ^ f.mb + M)) (neg : Bool) :
    ffMagVal f neg (t * 2 ^ f.mb + M) = .fin neg M (f.expOf t) := by
  unfold ffMagVal FloatFmt.expOf
  rw [if_neg fun h => hs (.inl h), if_neg fun h => hs (.inr h)]
  have hpos := Nat.two_pow_pos f.mb
  obtain ⟨rfl, hlt⟩ | ⟨r, hr, rfl⟩ := hc.subnormal_or_lead
  · simp [Nat.div_eq_of_lt hlt, Nat.mod_eq_of_lt hlt]
  · have hsplit : t * 2 ^ f.mb + (2 ^ f.mb + r) = r + (t + 1) * 2 ^ f.mb := by rw [Nat.succ_mul]; omega
    rw [hsplit, Nat.add_mul_div_right _ _ hpos, Nat.add_mul_mod_self_right, Nat.div_eq_of_lt hr, Nat.mod_eq_of_lt hr, Nat.zero_add,
      if_neg (Nat.succ_ne_zero t), Nat.cast_succ]

theorem le_ffMax_of_not_special {f : FloatFmt} {mag : Nat} (h : mag < 2 ^ (f.eb + f.mb)) (hs : ¬ f.Special mag) : mag ≤ ffMax f := by
  obtain ⟨hieee, hones⟩ := not_or.mp hs
  unfold ffMax
  split
  case h_1 hsp =>
    have hne : mag / 2 ^ f.mb ≠ 2 ^ f.eb - 1 := fun he => hieee ⟨hsp, he⟩
    have hlt : mag / 2 ^ f.mb < 2 ^ f.eb := Nat.div_lt_of_lt_mul (by rwa [← Nat.pow_add, Nat.add_comm])
    have := (Nat.div_lt_iff_lt_mul (Nat.two_pow_pos f.mb)).mp (show mag / 2 ^ f.mb < 2 ^ f.eb - 1 by omega)
    omega
  case h_2 hsp =>
    have hne : mag ≠ 2 ^ (f.eb + f.mb) - 1 := fun he => hones ⟨hsp, he⟩
    omega
  case h_3 => omega

/-- A code stands for NaN, for an infinity, or for a finite value in normal form. -/
theorem ffMagVal_cases (f : FloatFmt) (neg : Bool) {mag : Nat} (h : mag < 2 ^ (f.eb + f.mb)) :
    ffMagVal f neg mag = .nan
    ∨ (f.sp = .ieee ∧ mag = (2 ^ f.eb - 1) * 2 ^ f.mb ∧ ffMagVal f neg mag = .inf neg)
    ∨ (mag ≤ ffMax f ∧ ∃ t M, f.Canon t M ∧ mag = t * 2 ^ f.mb + M ∧ ffMagVal f neg mag = .fin neg M (f.expOf t)) := by
  by_cases hs : f.Special mag
  case neg =>
    obtain ⟨t, M, hc, rfl⟩ := f.exists_canon mag
    exact .inr (.inr ⟨le_ffMax_of_not_special h hs, t, M, hc, rfl, ffMagVal_canon hc hs neg⟩)
  case pos =>
    unfold ffMagVal
    obtain hieee | ⟨hsp, hmag⟩ := hs
    · rw [if_pos hieee]
      obtain ⟨hsp, hex⟩ := hieee
      by_cases hman : mag % 2 ^ f.mb = 0
      · have hsplit := Nat.div_add_mod' mag (2 ^ f.mb)
        rw [hex, hman] at hsplit
        exact .inr (.inl ⟨hsp, hsplit.symm, if_pos hman⟩)
      · exact .inl (if_neg hman)
    · rw [if_neg (by simp [hsp]), if_pos ⟨hsp, hmag⟩]
      exact .inl rfl

/-! #### Rounding -/

theorem roundMag_zero (rm : Rounding) (f : FloatFmt) (e : Int) : roundMag rm f 0 e = 0 := if_pos rfl

/-- What a format holds is not rounded. -/
theorem roundMag_canon (rm : Rounding) {f : FloatFmt} {t M : Nat} (hc : f.Canon t M) :
    roundMag rm f M (f.expOf t) = t * 2 ^ f.mb + M := by
  have hpos := Nat.two_pow_pos f.mb
  by_cases hM : M = 0
  · obtain rfl : t = 0 := hc.lead.resolve_right (by omega)
    rw [hM, roundMag_zero, Nat.zero_mul]
  · have hec : max (f.expOf t + (bitLen M : Int) - 1) (1 - (f.bias : Int)) = f.expOf t + f.mb := by
      unfold FloatFmt.expOf
      obtain ⟨rfl, hlt⟩ | ⟨r, hr, hMr⟩ := hc.subnormal_or_lead
      · have := bitLen_le.mpr hlt
        omega
      · have := bitLen_eq_succ (m := M) (n := f.mb) (by omega) hc.lt
        omega
    have ht : (f.expOf t + f.mb - (1 - (f.bias : Int))).toNat = t := by
      unfold FloatFmt.expOf
      omega
    simp only [roundMag, if_neg hM, hec, ht, add_sub_cancel_right, le_refl, if_true, sub_self, Int.toNat_zero, Nat.shiftLeft_zero]

/-- Rounding to nearest goes by the value alone: m × 2^e and (m × 2^k) × 2^(e - k) round to the same magnitude. -/
theorem roundMag_shiftLeft (f : FloatFmt) (m k : Nat) (e : Int) : roundMag .rne f (m <<< k) (e - k) = roundMag .rne f m e := by
  by_cases hm : m = 0
  · rw [hm, Nat.zero_shiftLeft, roundMag_zero, roundMag_zero]
  · unfold roundMag
    have htop : e - k + ((bitLen m + k : Nat) : Int) - 1 = e + (bitLen m : Int) - 1 := by omega
    rw [if_neg (by simpa [Nat.shiftLeft_eq] using hm), if_neg hm, bitLen_shiftLeft hm, htop]
    simp only [roundShift]
    congr 1
    generalize max (e + (bitLen m : Int) - 1) (1 - (f.bias : Int)) - (f.mb : Int) = q
    by_cases hlow : q ≤ e - k
    · rw [if_pos hlow, if_pos (by omega), ← Nat.shiftLeft_add]
      congr 1
      omega
    · rw [if_neg hlow]
      by_cases hq : q ≤ e
      · have hk : k = (e - q).toNat + (q - (e - k)).toNat := by omega
        rw [if_pos hq]
        conv_lhs => rw [hk, Nat.shiftLeft_add, ← hk, rneShift_shiftLeft_self]
      · rw [if_neg hq, show (q - (e - k)).toNat = (q - e).toNat + k by omega, rneShift_shiftLeft]

theorem ffEncode_shiftLeft (f : FloatFmt) (nonsat neg : Bool) (m k : Nat) (e : Int) :
    ffEncode .rne f nonsat (.fin neg (m <<< k) (e - k)) = ffEncode .rne f nonsat (.fin neg m e) := by
  simp only [ffEncode, roundMag_shiftLeft]

/-- A code that is no NaN stands for a value that its format encodes as the same code, however it rounds and saturates. -/
theorem ffEncode_ffDecode (rm : Rounding) (f : FloatFmt) (nonsat : Bool) {x : Nat} (hx : x < 2 ^ ffWidth f)
    (h : ffDecode f x ≠ .nan) : ffEncode rm f nonsat (ffDecode f x) = x := by
  rw [ffDecode_eq_ffMagVal] at h ⊢
  conv_rhs => rw [← ffSign_testBit_mod f hx]
  obtain hnan | ⟨hsp, hmag, hval⟩ | ⟨hle, t, M, hc, hmag, hval⟩ :=
    ffMagVal_cases f (x.testBit (f.eb + f.mb)) (Nat.mod_lt x (Nat.two_pow_pos (f.eb + f.mb)))
  · exact absurd hnan h
  · rw [hval, hmag]
    simp only [ffEncode, hsp]
  · rw [hval, hmag]
    rw [hmag] at hle
    simp only [ffEncode, roundMag_canon rm hc, if_pos hle]

/-! #### FP32 words -/

theorem toNat_and_magnitude (w : Word) : (w &&& 0x7FFFFFFF#32).toNat = w.toNat % 2 ^ 31 :=
  Nat.and_two_pow_sub_one_eq_mod w.toNat 31

/-- An FP32 word's value goes by its top bit and its other 31 bits. -/
theorem f32Val_eq (w : Word) : f32Val w = ffMagVal fmtFp32 w.msb (w &&& 0x7FFFFFFF#32).toNat := by
  have hmsb : w.msb = w.toNat.testBit 31 := BitVec.msb_eq_getLsbD_last w
  rw [toNat_and_magnitude, hmsb]
  exact ffDecode_eq_ffMagVal fmtFp32 w.toNat

theorem negBits_msb (w : Word) : (negBits w).msb = !w.msb := by
  rw [negBits, BitVec.msb_xor, show (0x80000000#32).msb = true by decide, Bool.xor_true]

theorem negBits_and_magnitude (w : Word) : negBits w &&& 0x7FFFFFFF#32 = w &&& 0x7FFFFFFF#32 := by
  ext i hi
  have hbits : (0x80000000#32)[i] = true → (0x7FFFFFFF#32)[i] = false := by
    revert i
    decide
  simp only [negBits, BitVec.getElem_and, BitVec.getElem_xor]
  cases hsign : (0x80000000#32)[i] with
  | true => simp only [hbits hsign, Bool.and_false]
  | false => rw [Bool.xor_false]

theorem f32Val_negBits (w : Word) : f32Val (negBits w) = fpNeg (f32Val w) := by
  rw [f32Val_eq, f32Val_eq w, fpNeg_ffMagVal, negBits_msb, negBits_and_magnitude]

theorem f32Val_and_magnitude (w : Word) : f32Val (w &&& 0x7FFFFFFF#32) = fpAbs (f32Val w) := by
  have hmag : w &&& 0x7FFFFFFF#32 &&& 0x7FFFFFFF#32 = w &&& 0x7FFFFFFF#32 := by rw [BitVec.and_assoc, BitVec.and_self]
  have hmsb : (w &&& 0x7FFFFFFF#32).msb = false := by
    rw [BitVec.msb_and, show (0x7FFFFFFF#32).msb = false by decide, Bool.and_false]
  rw [f32Val_eq, f32Val_eq w, fpAbs_ffMagVal, hmag, hmsb]

theorem fmtFp32_not_special {mag : Nat} (h : mag ≤ ffMax fmtFp32) : ¬ fmtFp32.Special mag := by
  have hmax : mag ≤ 0x7F7FFFFF := h
  rintro (⟨-, hex⟩ | ⟨hones, -⟩)
  · have hex' : mag / 2 ^ 23 = 255 := hex
    omega
  · cases hones

theorem f32Val_of_nanBits {w : Word} (h : nanBits w) : f32Val w = .nan := by
  have hlt : (w &&& 0x7FFFFFFF#32).toNat < 2 ^ 31 := by
    rw [toNat_and_magnitude]
    exact Nat.mod_lt _ (by decide)
  have hbig : (w &&& 0x7FFFFFFF#32).toNat > 0x7F800000 := h
  have hex : (w &&& 0x7FFFFFFF#32).toNat / 2 ^ 23 = 255 := by omega
  have hman : (w &&& 0x7FFFFFFF#32).toNat % 2 ^ 23 ≠ 0 := by omega
  rw [f32Val_eq, ffMagVal]
  exact (if_pos ⟨rfl, hex⟩).trans (if_neg hman)

theorem f32Val_of_infBits {w : Word} (h : infBits w) : f32Val w = .inf w.msb := by
  rw [f32Val_eq, h]
  rfl

theorem f32Val_of_zeroBits {w : Word} (h : zeroBits w) : f32Val w = .fin w.msb 0 (-149) := by
  rw [f32Val_eq, h]
  rfl

/-- An FP32 word that is no NaN and no infinity is finite, and only the zeros have a significand of 0. -/
theorem f32Val_finite {w : Word} (hnan : ¬ nanBits w) (hinf : ¬ infBits w) :
    ∃ m e, f32Val w = .fin w.msb m e ∧ (m = 0 → zeroBits w) := by
  have hne : (w &&& 0x7FFFFFFF#32).toNat ≠ 0x7F800000 := fun h => hinf (BitVec.eq_of_toNat_eq h)
  have hle : (w &&& 0x7FFFFFFF#32).toNat ≤ ffMax fmtFp32 := by
    show _ ≤ 0x7F7FFFFF
    unfold nanBits at hnan
    omega
  obtain ⟨t, M, hc, hmag⟩ := fmtFp32.exists_canon (w &&& 0x7FFFFFFF#32).toNat
  rw [hmag] at hle
  refine ⟨M, fmtFp32.expOf t, ?_, fun hM => BitVec.eq_of_toNat_eq ?_⟩
  · rw [f32Val_eq, hmag, ffMagVal_canon hc (fmtFp32_not_special hle)]
  · obtain rfl : t = 0 := hc.lead.resolve_right (by simp [hM])
    rw [hmag, hM]
    rfl

theorem f32Val_eq_nan_iff (w : Word) : f32Val w = .nan ↔ nanBits w := by
  refine ⟨fun hval => ?_, f32Val_of_nanBits⟩
  by_contra hnan
  by_cases hinf : infBits w
  · rw [f32Val_of_infBits hinf] at hval
    cases hval
  · obtain ⟨m, e, hfin, -⟩ := f32Val_finite hnan hinf
    rw [hfin] at hval
    cases hval

theorem nanBits_negBits (w : Word) : nanBits (negBits w) ↔ nanBits w := by
  unfold nanBits
  rw [negBits_and_magnitude]

theorem f32Of_nan : f32Of .nan = 0x7FC00000#32 := rfl

theorem f32Val_f32Of_inf (neg : Bool) : f32Val (f32Of (.inf neg)) = .inf neg := by
  cases neg with
  | false => rfl
  | true => rfl

/-- A word that is no NaN is the FP32 encoding of its value. -/
theorem f32Of_f32Val {w : Word} (h : ¬ nanBits w) : f32Of (f32Val w) = w := by
  have hval : ffDecode fmtFp32 w.toNat ≠ .nan := fun hv => h ((f32Val_eq_nan_iff w).mp hv)
  rw [f32Of, f32Val, ffEncode_ffDecode .rne fmtFp32 false w.isLt hval, BitVec.ofNat_toNat, BitVec.setWidth_eq]

theorem f32Neg_eq_negBits {w : Word} (h : ¬ nanBits w) : f32Neg w = negBits w := by
  rw [f32Neg, ← f32Val_negBits, f32Of_f32Val ((nanBits_negBits w).not.mpr h)]

theorem f32Abs_eq_and {w : Word} (h : ¬ nanBits w) : f32Abs w = w &&& 0x7FFFFFFF#32 := by
  rw [f32Abs, ← f32Val_and_magnitude]
  refine f32Of_f32Val ?_
  rwa [nanBits, BitVec.and_assoc, BitVec.and_self]

/-! #### Values that FP32 holds -/

/-- A finite value m × 2^e that FP32 holds: 24 significant bits from 2^-149 up, below 2^128 (R38). -/
structure InFp32 (m : Nat) (e : Int) : Prop where
  lt : m < 2 ^ 24
  low : -149 ≤ e
  high : e + bitLen m ≤ 128

/-- What FP32 holds has a normal form of FP32, with its significand shifted up. -/
theorem InFp32.exists_canon {m : Nat} {e : Int} (h : InFp32 m e) :
    ∃ t k : Nat, fmtFp32.Canon t (m <<< k) ∧ fmtFp32.expOf t = e - k ∧ t * 2 ^ 23 + m <<< k ≤ ffMax fmtFp32 := by
  obtain ⟨hlt, hlow, hhigh⟩ := h
  by_cases hm : m = 0
  · subst hm
    refine ⟨0, (e + 149).toNat, ⟨by simp, .inl rfl⟩, ?_, by simp⟩
    simp only [FloatFmt.expOf, fmtFp32]
    omega
  · have hlen : bitLen m ≤ 24 := bitLen_le.mpr hlt
    obtain ⟨q, hq⟩ : ∃ q : Int, q = max (e + bitLen m - 24) (-149) := ⟨_, rfl⟩
    have hshift := bitLen_shiftLeft hm (e - q).toNat
    have hsig : m <<< (e - q).toNat < 2 ^ 24 := bitLen_le.mp (by omega)
    have hlead : (q + 149).toNat = 0 ∨ 2 ^ 23 ≤ m <<< (e - q).toNat := by
      by_cases hsub : q = -149
      · exact .inl (by omega)
      · exact .inr (lt_bitLen.mp (by omega))
    refine ⟨(q + 149).toNat, (e - q).toNat, ⟨hsig, hlead⟩, ?_, ?_⟩
    · simp only [FloatFmt.expOf, fmtFp32]
      omega
    · simp only [ffMax, fmtFp32]
      omega

theorem f32Val_f32Of_fin {m : Nat} {e : Int} (h : InFp32 m e) (neg : Bool) :
    ∃ k : Nat, f32Val (f32Of (.fin neg m e)) = .fin neg (m <<< k) (e - k) := by
  obtain ⟨t, k, hc, hexp, hle⟩ := h.exists_canon
  have hmag : t * 2 ^ 23 + m <<< k < 2 ^ 31 := lt_of_le_of_lt hle (by decide)
  have hcode : ffEncode .rne fmtFp32 false (.fin neg m e) = ffSign fmtFp32 neg (t * 2 ^ 23 + m <<< k) := by
    rw [← ffEncode_shiftLeft fmtFp32 false neg m k e, ← hexp, ffEncode]
    simp only [roundMag_canon .rne hc]
    exact if_pos hle
  refine ⟨k, ?_⟩
  have hlt : ffSign fmtFp32 neg (t * 2 ^ 23 + m <<< k) < 2 ^ 32 := ffSign_lt fmtFp32 neg hmag
  rw [f32Val, f32Of, hcode, BitVec.toNat_ofNat, Nat.mod_eq_of_lt hlt, ffDecode_ffSign fmtFp32 neg hmag, ← hexp]
  exact ffMagVal_canon hc (fmtFp32_not_special hle) neg

/-- The formats each of whose values FP32 holds. -/
structure FloatFmt.FitsFp32 (f : FloatFmt) : Prop where
  sig : f.mb ≤ 23
  low : f.bias + f.mb ≤ 150
  high : 2 ^ f.eb ≤ f.bias + 128

theorem FloatFmt.FitsFp32.inFp32 {f : FloatFmt} (hf : f.FitsFp32) {t M : Nat} (hc : f.Canon t M)
    (h : t * 2 ^ f.mb + M < 2 ^ (f.eb + f.mb)) : InFp32 M (f.expOf t) := by
  obtain ⟨hsig, hlow, hhigh⟩ := hf
  have hlen : bitLen M ≤ f.mb + 1 := bitLen_le.mpr hc.lt
  have htop : t = 0 ∨ t + 1 < 2 ^ f.eb := hc.lead.imp_right fun hlead => by
    have hmul : (t + 1) * 2 ^ f.mb < 2 ^ f.eb * 2 ^ f.mb := by
      rw [Nat.succ_mul, ← Nat.pow_add]
      omega
    exact Nat.lt_of_mul_lt_mul_right hmul
  refine ⟨lt_of_lt_of_le hc.lt (Nat.pow_le_pow_right (by decide) (by omega)), ?_, ?_⟩
  · unfold FloatFmt.expOf
    omega
  · unfold FloatFmt.expOf
    omega

/-- A value of a format that fits FP32 goes through FP32 to the code that its format gives it. -/
theorem ffEncode_f32Val_f32Of_ffDecode {f : FloatFmt} (hf : f.FitsFp32) (nonsat : Bool) (x : Nat) (hnan : ffDecode f x ≠ .nan) :
    ffEncode .rne f nonsat (f32Val (f32Of (ffDecode f x))) = ffEncode .rne f nonsat (ffDecode f x) := by
  have hlt := Nat.mod_lt x (Nat.two_pow_pos (f.eb + f.mb))
  rw [ffDecode_eq_ffMagVal] at hnan ⊢
  obtain hv | ⟨-, -, hv⟩ | ⟨-, t, M, hc, hmag, hv⟩ := ffMagVal_cases f (x.testBit (f.eb + f.mb)) hlt
  · exact absurd hv hnan
  · rw [hv, f32Val_f32Of_inf]
  · rw [hmag] at hlt
    obtain ⟨k, hk⟩ := f32Val_f32Of_fin (hf.inFp32 hc hlt) (x.testBit (f.eb + f.mb))
    rw [hv, hk, ffEncode_shiftLeft]

/-- A code of a format that fits FP32, no NaN, converts from the FP32 word of its value back to itself. -/
theorem convScalar_rawDecode32_float {c : Nat} {f : FloatFmt} (hfmt : fmtFloat c = some f) (hint : fmtIsInt c = false)
    (hblock : fmtIsBlock c = false) (hfits : f.FitsFp32) (nonsat : Bool) {x : Nat} (hx : x < 2 ^ ffWidth f)
    (h : ¬ nanBits (rawDecode32 c ⟨x, 127, 0⟩)) : convScalar .rne c nonsat (rawDecode32 c ⟨x, 127, 0⟩) = x := by
  have hraw : rawDecode32 c ⟨x, 127, 0⟩ = f32Of (ffDecode f x) := by
    simp [rawDecode32, rawVal, elemVal, hint, hblock, hfmt, Nat.mod_eq_of_lt hx]
  have hconv (w : Word) : convScalar .rne c nonsat w = ffEncode .rne f nonsat (f32Val w) := by
    simp [convScalar, hint, hfmt]
  rw [hraw] at h
  have hnan : ffDecode f x ≠ .nan := by
    intro hv
    rw [hv, f32Of_nan] at h
    exact h (by unfold nanBits; decide)
  rw [hraw, hconv, ffEncode_f32Val_f32Of_ffDecode hfits nonsat x hnan, ffEncode_ffDecode .rne f nonsat hx hnan]

/-! #### Integers -/

theorem signedOf_bounds {w : Nat} (hw : 0 < w) (x : Nat) : -2 ^ (w - 1) ≤ signedOf w x ∧ signedOf w x < 2 ^ (w - 1) := by
  obtain ⟨n, rfl⟩ := Nat.exists_eq_add_one.mpr hw
  have hlt := Nat.mod_lt x (Nat.two_pow_pos (n + 1))
  have hcast : (2 : Int) ^ n = ((2 ^ n : Nat) : Int) := by norm_cast
  rw [Nat.pow_succ] at hlt
  simp only [signedOf, Nat.add_sub_cancel, Nat.pow_succ, hcast]
  split <;> omega

theorem unsignedOf_signedOf {w x : Nat} (hx : x < 2 ^ w) : unsignedOf w (signedOf w x) = x := by
  have hmod : signedOf w x % ((2 ^ w : Nat) : Int) = (x : Int) % ((2 ^ w : Nat) : Int) := by
    simp only [signedOf, Nat.mod_eq_of_lt hx]
    split
    · rfl
    · exact Int.sub_emod_right ..
  rw [unsignedOf, hmod, ← Int.natCast_mod, Int.toNat_natCast, Nat.mod_eq_of_lt hx]

/-- A code of an integer format is the integer of its 32-bit word, in range, and converts back to itself. -/
theorem convScalar_rawDecode32_int {c : Nat} (hint : fmtIsInt c = true) (hpos : 0 < fmtWidth c) (hle : fmtWidth c ≤ 32) (nonsat : Bool)
    {x : Nat} (hx : x < 2 ^ fmtWidth c) : convScalar .rne c nonsat (rawDecode32 c ⟨x, 127, 0⟩) = x := by
  obtain ⟨hlo, hhi⟩ := signedOf_bounds hpos x
  have hword : (rawDecode32 c ⟨x, 127, 0⟩).toInt = signedOf (fmtWidth c) x := by
    have hpow : (2 : Int) ^ (fmtWidth c - 1) ≤ 2 ^ 31 := pow_le_pow_right₀ (by decide) (by omega)
    rw [rawDecode32, if_pos hint]
    exact BitVec.toInt_ofInt_eq_self (by decide) (by show -2 ^ 31 ≤ signedOf _ x; omega) (by show signedOf _ x < 2 ^ 31; omega)
  rw [convScalar, if_pos hint, hword]
  simp only
  rw [if_neg (by push_cast; omega), if_neg (by push_cast; omega), unsignedOf_signedOf hx]

end Sys2Proof.Machine

namespace Sys2Proof.Proofs

open Sys2Proof Sys2Proof.Machine Sys2Proof.Claims

/-- Settles O13: a code decodes to a value in normal form, which its own format does not round, and FP32 holds every value of
E4M3, E5M2 and E2M1, so that rounding from there goes by the same value; the integers are within the range they saturate to. -/
theorem conversionsOfExactValues : Obligations.ConversionsOfExactValues := by
  unfold Obligations.ConversionsOfExactValues
  refine ⟨fun w hw => ⟨f32Of_f32Val hw, f32Neg_eq_negBits hw, f32Abs_eq_and hw⟩, ?float, ?int⟩
  case float =>
    intro fmt hfmt x hx h
    simp only [List.mem_cons, List.not_mem_nil, or_false] at hfmt
    obtain rfl | rfl | rfl := hfmt
    · exact convScalar_rawDecode32_float (f := fmtE4M3) rfl rfl rfl ⟨by decide, by decide, by decide⟩ true hx h
    · exact convScalar_rawDecode32_float (f := fmtE5M2) rfl rfl rfl ⟨by decide, by decide, by decide⟩ true hx h
    · exact convScalar_rawDecode32_float (f := fmtE2M1) rfl rfl rfl ⟨by decide, by decide, by decide⟩ true hx h
  case int =>
    intro fmt hfmt x hx
    simp only [List.mem_cons, List.not_mem_nil, or_false] at hfmt
    obtain rfl | rfl := hfmt
    · exact convScalar_rawDecode32_int (c := 13) rfl (by decide) (by decide) false hx
    · exact convScalar_rawDecode32_int (c := 14) rfl (by decide) (by decide) false hx

end Sys2Proof.Proofs
end

section
/-! PROOFS. NaNs, infinities and zeros in FP32 sums and products (R41). O12 is settled at the end. -/

namespace Sys2Proof.Machine

open Sys2Proof.Claims

/-! #### A NaN operand -/

@[simp] theorem fpAdd_nan_left (v : FpVal) : fpAdd .nan v = .nan := by cases v <;> rfl
@[simp] theorem fpAdd_nan_right (v : FpVal) : fpAdd v .nan = .nan := by cases v <;> rfl
@[simp] theorem fpMul_nan_left (v : FpVal) : fpMul .nan v = .nan := by cases v <;> rfl
@[simp] theorem fpMul_nan_right (v : FpVal) : fpMul v .nan = .nan := by cases v <;> rfl
@[simp] theorem fpNeg_nan : fpNeg .nan = .nan := rfl

/-- A NaN operand a or b makes every sum and product of a and b the canonical NaN, and every fused operation that multiplies a by b
or adds b to a product by a (R40, R41). -/
theorem f32_ops_of_nan {a b : Word} (c : Word) (h : f32Val a = .nan ∨ f32Val b = .nan) :
    f32Add a b = 0x7FC00000#32 ∧ f32Sub a b = 0x7FC00000#32 ∧ f32Mul a b = 0x7FC00000#32
    ∧ f32Fma a b c = 0x7FC00000#32 ∧ f32Fma c a b = 0x7FC00000#32
    ∧ f32Fms a b c = 0x7FC00000#32 ∧ f32Fms c a b = 0x7FC00000#32 := by
  unfold f32Add f32Sub f32Mul f32Fma f32Fms
  obtain h | h := h
  · simp [h, f32Of_nan]
  · simp [h, f32Of_nan]

/-! #### Infinities -/

/-- An infinity times a zero is NaN. -/
theorem fpMul_inf_zero (n k : Bool) (e : Int) : fpMul (.inf n) (.fin k 0 e) = .nan := rfl
theorem fpMul_zero_inf (n k : Bool) (e : Int) : fpMul (.fin k 0 e) (.inf n) = .nan := rfl

/-- An infinity and its opposite have no sum. -/
theorem fpAdd_inf_fpNeg (n : Bool) : fpAdd (.inf n) (fpNeg (.inf n)) = .nan := by
  cases n <;> rfl

/-! #### Zeros -/

theorem zeroBits_cases {w : Word} (h : zeroBits w) : w = 0 ∨ w = 0x80000000#32 := by
  have hmod : w.toNat % 2 ^ 31 = 0 := by rw [← toNat_and_magnitude, h]; rfl
  have hlt := w.isLt
  obtain hw | hw : w.toNat = 0 ∨ w.toNat = 0x80000000 := by omega
  · exact .inl (BitVec.eq_of_toNat_eq hw)
  · exact .inr (BitVec.eq_of_toNat_eq hw)

theorem zeroBits_negBits {w : Word} (h : zeroBits w) : zeroBits (negBits w) := by
  rwa [zeroBits, negBits_and_magnitude]

theorem eq_zero_iff_of_zeroBits {w : Word} (h : zeroBits w) : w = 0 ↔ w.msb = false := by
  obtain rfl | rfl := zeroBits_cases h
  · decide
  · decide

theorem eq_negZero_iff_of_zeroBits {w : Word} (h : zeroBits w) : w = 0x80000000#32 ↔ w.msb = true := by
  obtain rfl | rfl := zeroBits_cases h
  · decide
  · decide

/-- A significand of 0 is the zero of its sign, whatever its exponent. -/
theorem f32Of_zero (neg : Bool) (e : Int) : f32Of (.fin neg 0 e) = if neg then 0x80000000#32 else 0 := by
  simp only [f32Of, ffEncode, roundMag_zero]
  cases neg with
  | false => rfl
  | true => rfl

/-- A finite value and its opposite sum to +0 unless both are zeros. -/
theorem fpAdd_fin_fpNeg (n : Bool) {m : Nat} (hm : m ≠ 0) (e : Int) : fpAdd (.fin n m e) (fpNeg (.fin n m e)) = .fin false 0 e := by
  have hsum : fpAlign n m e e + fpAlign (!n) m e e = 0 := by
    cases n with
    | false => simp [fpAlign]
    | true => simp [fpAlign]
  simp [fpAdd, fpNeg, hm, hsum]

theorem f32Sub_eq_f32Add_negBits (a b : Word) : f32Sub a b = f32Add a (negBits b) := by
  rw [f32Sub, f32Add, f32Val_negBits]

/-- The sum of two zeros is the zero whose sign is that of both. -/
theorem f32Add_zeros {a b : Word} (ha : zeroBits a) (hb : zeroBits b) :
    f32Add a b = if a.msb && b.msb then 0x80000000#32 else 0 := by
  rw [f32Add, f32Val_of_zeroBits ha, f32Val_of_zeroBits hb]
  exact f32Of_zero (a.msb && b.msb) 0

end Sys2Proof.Machine

namespace Sys2Proof.Proofs

open Sys2Proof Sys2Proof.Machine Sys2Proof.Claims

/-- Settles O12: what the operands' bits say gives their values, and the exact sum and product of those values say the rest; a
difference is the sum with the sign of its second operand inverted. -/
theorem fp32SpecialValues : Obligations.Fp32SpecialValues := by
  unfold Obligations.Fp32SpecialValues
  refine ⟨?nan, ?infZero, ?infInf, ?zeros, ?cancel⟩
  case nan =>
    intro a b c h
    exact f32_ops_of_nan c (h.imp f32Val_of_nanBits f32Val_of_nanBits)
  case infZero =>
    intro a b ha hb
    have hval := f32Val_of_infBits ha
    have hzero := f32Val_of_zeroBits hb
    refine ⟨?_, ?_, fun c => ⟨?_, ?_⟩⟩
    · rw [f32Mul, hval, hzero, fpMul_inf_zero, f32Of_nan]
    · rw [f32Mul, hval, hzero, fpMul_zero_inf, f32Of_nan]
    · rw [f32Fma, hval, hzero, fpMul_inf_zero, fpAdd_nan_left, f32Of_nan]
    · rw [f32Fms, hval, hzero, fpMul_zero_inf, fpAdd_nan_left, f32Of_nan]
  case infInf =>
    intro a ha
    rw [f32Sub_eq_f32Add_negBits, and_self, f32Add, f32Val_negBits, f32Val_of_infBits ha, fpAdd_inf_fpNeg, f32Of_nan]
  case zeros =>
    intro a b ha hb
    rw [f32Sub_eq_f32Add_negBits, f32Add_zeros ha hb, f32Add_zeros ha (zeroBits_negBits hb), negBits_msb]
    simp only [eq_negZero_iff_of_zeroBits ha, eq_negZero_iff_of_zeroBits hb, eq_zero_iff_of_zeroBits hb, Bool.and_eq_true,
      Bool.not_eq_true', and_self]
  case cancel =>
    intro a hnan hinf hzero
    obtain ⟨m, e, hval, hm⟩ := f32Val_finite hnan hinf
    rw [f32Sub_eq_f32Add_negBits, and_self, f32Add, f32Val_negBits, hval, fpAdd_fin_fpNeg _ fun h => hzero (hm h)]
    exact f32Of_zero false e

end Sys2Proof.Proofs
end

section
/-! PROOFS. Looms and their shelf queues (R62 to R82): how a core's looms and slots read after each update, and what an update leaves. -/

namespace Sys2Proof.Safety

open Sys2Proof.Machine

variable {s t : State} {f : Reach} {cs : List Nat}

theorem Kept.modCore (h : Kept f s t) (hf : f.cores = true) (c : Nat) (g : Core → Core) : Kept f s (t.modCore c g) := h.setCore hf ..

theorem CoresKept.modCore (h : CoresKept s t cs) {c : Nat} (hc : c ∈ cs) (g : Core → Core) : CoresKept s (t.modCore c g) cs :=
  h.setCore hc _

theorem Kept.modFlight (h : Kept f s t) (hf : f.cores = true) (c id : Nat) (g : Flight → Flight) : Kept f s (t.modFlight c id g) :=
  h.modCore hf ..

theorem Kept.modLoom (h : Kept f s t) (hf : f.cores = true) (c l : Nat) (g : Loom → Loom) : Kept f s (t.modLoom c l g) := h.modCore hf ..

theorem Kept.modLoomOrd (h : Kept f s t) (hf : f.cores = true) (c l id : Nat) (g : LoomOrd → LoomOrd) :
    Kept f s (t.modLoomOrd c l id g) :=
  h.modLoom hf ..

theorem Kept.modShelf (h : Kept f s t) (hf : f.cores = true) (c l : Nat) (g : List Slot → List Slot) : Kept f s (t.modShelf c l g) :=
  h.modCore hf ..

theorem Kept.setSreg (h : Kept f s t) (hf : f.cores = true) (c k : Nat) (v : DWord) : Kept f s (t.setSreg c k v) := h.modCore hf ..

theorem CoresKept.setSreg (h : CoresKept s t cs) {c : Nat} (hc : c ∈ cs) (k : Nat) (v : DWord) : CoresKept s (t.setSreg c k v) cs :=
  h.modCore hc _

theorem CoresKept.modFlight (h : CoresKept s t cs) {c : Nat} (hc : c ∈ cs) (id : Nat) (g : Flight → Flight) :
    CoresKept s (t.modFlight c id g) cs :=
  h.modCore hc _

theorem CoresKept.modLoom (h : CoresKept s t cs) {c : Nat} (hc : c ∈ cs) (l : Nat) (g : Loom → Loom) : CoresKept s (t.modLoom c l g) cs :=
  h.modCore hc _

theorem CoresKept.modLoomOrd (h : CoresKept s t cs) {c : Nat} (hc : c ∈ cs) (l id : Nat) (g : LoomOrd → LoomOrd) :
    CoresKept s (t.modLoomOrd c l id g) cs :=
  h.modLoom hc _ _

theorem CoresKept.modShelf (h : CoresKept s t cs) {c : Nat} (hc : c ∈ cs) (l : Nat) (g : List Slot → List Slot) :
    CoresKept s (t.modShelf c l g) cs :=
  h.modCore hc _

theorem CoresKept.trans_of_cores_eq {u : State} (h : CoresKept s t cs) (hu : u.cores = t.cores) : CoresKept s u cs :=
  h.trans (CoresKept.of_cores_eq hu)

theorem Kept.setErr (h : Kept f s t) (hf : f.regs = true) (code inst b : Nat) : Kept f s (t.setErr code inst b) := h.setFld hf ..

theorem Kept.noteRefuse (h : Kept f s t) (hf : f.regs = true) (code inst : Nat) : Kept f s (t.noteRefuse code inst) :=
  (h.setReg hf ..).setFld hf ..

theorem Kept.freeUsed (h : Kept f s t) (hf : f.free = true) : Kept f s t.freeUsed :=
  { h with free := fun e => by simp [hf] at e }

theorem Kept.orderClamps (h : Kept f s t) (hregs : f.regs = true) (hcores : f.cores = true) (c id code inst n : Nat) :
    Kept f s (t.orderClamps c id code inst n) := by
  unfold State.orderClamps
  split
  · exact h
  · exact (h.noteClamps hregs ..).modCore hcores ..

theorem CoresKept.orderClamps (h : CoresKept s t cs) {c : Nat} (hc : c ∈ cs) (id code inst n : Nat) :
    CoresKept s (t.orderClamps c id code inst n) cs := by
  unfold State.orderClamps
  split
  · exact h
  · exact (h.trans_of_cores_eq (State.noteClamps_cores ..)).modCore hc _

end Sys2Proof.Safety

namespace Sys2Proof.Machine

variable {s : State} {c l k : Nat}

/-! #### One loom of a core -/

theorem State.loom_congr {t : State} (h : t.cores = s.cores) (c l : Nat) : t.loom c l = s.loom c l := by
  unfold State.loom
  rw [State.core_congr h]

theorem State.loom_modLoom_same (hl : l < 4) (f : Loom → Loom) : (s.modLoom c l f).loom c l = f (s.loom c l) := by
  unfold State.loom State.modLoom
  rw [State.core_modCore_same]
  exact fixSet_getD_same _ _ _ hl

theorem State.loom_modLoom_other (hk : k ≠ l) (f : Loom → Loom) : (s.modLoom c l f).loom c k = s.loom c k := by
  unfold State.loom State.modLoom
  rw [State.core_modCore_same]
  exact fixSet_getD_other _ _ _ hk

/-- What does not depend on a core's looms is as before an update of one. -/
theorem State.modLoom_proj {α : Type} (π : Core → α) (h : ∀ x ls, π { x with looms := ls } = π x) (c l : Nat) (f : Loom → Loom) (z : Nat) :
    π ((s.modLoom c l f).core z) = π (s.core z) :=
  s.modCore_proj π _ (fun x => h x _) c z

theorem State.modLoom_regs (f : Loom → Loom) : (s.modLoom c l f).regs = s.regs := rfl

/-! #### One loom's queue of the shelf -/

theorem State.shelf_modShelf_same (hl : l < 4) (f : List Slot → List Slot) :
    ((s.modShelf c l f).core c).shelf.getD l [] = f ((s.core c).shelf.getD l []) := by
  unfold State.modShelf
  rw [State.core_modCore_same]
  exact fixSet_getD_same _ _ _ hl

theorem State.shelf_modShelf_other (hk : k ≠ l) (f : List Slot → List Slot) :
    ((s.modShelf c l f).core c).shelf.getD k [] = (s.core c).shelf.getD k [] := by
  unfold State.modShelf
  rw [State.core_modCore_same]
  exact fixSet_getD_other _ _ _ hk

/-- What does not depend on a core's shelf is as before an update of it. -/
theorem State.modShelf_proj {α : Type} (π : Core → α) (h : ∀ x sh, π { x with shelf := sh } = π x) (c l : Nat)
    (f : List Slot → List Slot) (z : Nat) : π ((s.modShelf c l f).core z) = π (s.core z) :=
  s.modCore_proj π _ (fun x => h x _) c z

theorem State.loom_modShelf (f : List Slot → List Slot) : (s.modShelf c l f).loom c k = s.loom c k :=
  s.modShelf_proj (fun x => x.looms.getD k {}) (fun _ _ => by rfl) c l f c

/-! #### What an order's marks leave of its core -/

theorem State.modFlight_proj {α : Type} (π : Core → α) (h : ∀ x fs, π { x with flights := fs } = π x) (c id : Nat) (g : Flight → Flight) (z : Nat) :
    π ((s.modFlight c id g).core z) = π (s.core z) :=
  s.modCore_proj π _ (fun x => h x _) c z

theorem State.orderClamps_proj {α : Type} (π : Core → α) (h : ∀ x fs, π { x with flights := fs } = π x) (c id code inst n z : Nat) :
    π ((s.orderClamps c id code inst n).core z) = π (s.core z) := by
  unfold State.orderClamps
  split
  · rfl
  · rw [State.modFlight_proj π h, State.core_congr (State.noteClamps_cores ..)]

theorem Core.flight_modFlight (x : Core) {id : Nat} {g : Flight → Flight} (hid : ∀ y, (g y).id = y.id) (k : Nat) :
    Core.flight { x with flights := x.flights.map (fun y => if y.id = id then g y else y) } k
      = (x.flight k).map (fun y => if y.id = id then g y else y) := by
  unfold Core.flight
  have hsame : ((fun f => decide (Flight.id f = k)) ∘ fun y => if y.id = id then g y else y) = fun f => decide (Flight.id f = k) := by
    funext y
    dsimp only [Function.comp]
    split
    · rw [hid]
    · rfl
  rw [List.find?_map, hsame]

theorem State.flight_modFlight {id : Nat} {g : Flight → Flight} (hid : ∀ y, (g y).id = y.id) (k : Nat) :
    ((s.modFlight c id g).core c).flight k = ((s.core c).flight k).map (fun y => if y.id = id then g y else y) := by
  unfold State.modFlight
  rw [State.core_modCore_same]
  exact Core.flight_modFlight _ hid k

/-- An order whose clamps are counted stays held. -/
theorem State.isSome_flight_orderClamps (id code inst n k : Nat) :
    (((s.orderClamps c id code inst n).core c).flight k).isSome = ((s.core c).flight k).isSome := by
  unfold State.orderClamps
  split
  · rfl
  · rw [State.flight_modFlight (g := fun y => { y with clamped := true }) (fun _ => rfl), Option.isSome_map,
      State.core_congr (State.noteClamps_cores ..)]

/-- No order that a core holds has the number of the next started one. -/
theorem Core.map_fresh (x : Core) (g : Flight → Flight) : x.flights.map (fun y => if y.id = x.freshId then g y else y) = x.flights :=
  (List.map_congr_left fun _ hy => if_neg (x.freshId_ne hy)).trans (List.map_id' _)

end Sys2Proof.Machine

namespace Sys2Proof.Machine

open Sys2Proof.Safety Sys2Proof.Claims

variable {s : State} {c l : Nat} {st : Start}

/-! #### A loom order issues (R72, R148) -/

theorem orderLoom_lt (o : Nat) : orderLoom s c o < 4 := by
  unfold orderLoom
  dsimp only
  split
  · assumption
  · exact Nat.mod_lt _ (by decide)

theorem exec_loomCmd {op : Nat} (hop : op ∈ [0x10, 0x11]) (hpick : s.pick c = some st) (hst : st.op = op) :
    exec (loomCmd c op) s = .next (reachCore.take s (s.loomIssue c st)) := by
  simp only [List.mem_cons, List.not_mem_nil, or_false] at hop
  rcases hop with rfl | rfl
  · exact congrArg (fun w => Host.Outcome.next (reachCore.take s w)) (State.runOrder_pick hpick (by simpa using hst) _)
  · exact congrArg (fun w => Host.Outcome.next (reachCore.take s w)) (State.runOrder_pick hpick (by simpa using hst) _)

/-- A loom order as it is issued: rows count from here, and nothing is fetched or started (R72). -/
def LoomOrd.issued (id : Nat) (base : Word) : LoomOrd :=
  { flight := id, base := base, expired := false, rows := none, tile := 0, kt := 0, fTile := 0, fKt := 0, begun := false,
    pause := false, acts := none, zmap := [], accs := [], bad := false }

/-- The state after a loom order has been issued to loom l. -/
def State.loomIssued (s : State) (c l : Nat) (st : Start) (f : LoomF) : State :=
  (((s.startOrder c st).1.modFlight c (s.core c).freshId (fun x => { x with aux := [l] })).orderClamps c (s.core c).freshId pgLoom c
    f.clamps).modLoom c l (fun m => { m with ords := m.ords ++ [LoomOrd.issued (s.core c).freshId (s.ctr c f.rowCtr)] })

theorem State.loomIssue_inside {p : Nat} (hp : s.partOfCore c = some p)
    (h : let f := loomFields (st.op = 0x11) st.ord
         s.inWindows p (locOf c f.wAddr) (f.nTiles * f.kTiles * (loomGeom f).bytes) = true) :
    s.loomIssue c st = s.loomIssued c (orderLoom s c st.ord) st (loomFields (st.op = 0x11) st.ord) := by
  dsimp only at h
  simp only [State.loomIssue, hp, h]
  rfl

theorem State.loomIssue_outside {p : Nat} (hp : s.partOfCore c = some p)
    (h : let f := loomFields (st.op = 0x11) st.ord
         s.inWindows p (locOf c f.wAddr) (f.nTiles * f.kTiles * (loomGeom f).bytes) = false) :
    s.loomIssue c st = s.refuseOrder c st stQuota := by
  dsimp only at h
  simp only [State.loomIssue, hp, h]
  rfl

theorem State.startOrder_coresKept (c : Nat) (st : Start) : CoresKept s (s.startOrder c st).1 [c] := fun d hd =>
  State.startOrder_core_other s st (by simpa using hd)

section Issued

variable {f : LoomF}

/-- What a started order does not change of its core, a loom order's issue changes in its looms and flights alone. -/
theorem State.loomIssued_proj {α : Type} (π : Core → α) (hl : ∀ x ls, π { x with looms := ls } = π x)
    (hf : ∀ x fs, π { x with flights := fs } = π x) (z : Nat) : π ((s.loomIssued c l st f).core z) = π ((s.startOrder c st).1.core z) := by
  unfold State.loomIssued
  rw [State.modLoom_proj π hl, State.orderClamps_proj π hf, State.modFlight_proj π hf]

theorem State.loomIssued_cores : CoresKept s (s.loomIssued c l st f) [c] := by
  have hc : c ∈ [c] := List.mem_singleton_self c
  exact ((CoresKept.modFlight (State.startOrder_coresKept c st) hc _ _).orderClamps hc _ _ _ _).modLoom hc _ _

theorem State.loomIssued_kept : Kept { regs := true, cores := true } s (s.loomIssued c l st f) :=
  (((State.startOrder_kept s c st).1.modFlight rfl ..).orderClamps rfl rfl ..).modLoom rfl ..

/-- The looms as they are before the order joins its own. -/
theorem State.loom_clamped_startOrder (id n k : Nat) (g : Flight → Flight) :
    (((s.startOrder c st).1.modFlight c id g).orderClamps c id pgLoom c n).loom c k = s.loom c k := by
  refine (State.orderClamps_proj (fun x => x.looms.getD k {}) (fun _ _ => by rfl) ..).trans
    ((State.modFlight_proj (fun x => x.looms.getD k {}) (fun _ _ => by rfl) ..).trans ?_)
  rw [State.startOrder_core]
  rfl

theorem State.loomIssued_loom_same (hl : l < 4) : (s.loomIssued c l st f).loom c l
    = { s.loom c l with ords := (s.loom c l).ords ++ [LoomOrd.issued (s.core c).freshId (s.ctr c f.rowCtr)] } := by
  unfold State.loomIssued
  rw [State.loom_modLoom_same hl, State.loom_clamped_startOrder]

theorem State.loomIssued_loom_other {k : Nat} (hk : k ≠ l) : (s.loomIssued c l st f).loom c k = s.loom c k := by
  unfold State.loomIssued
  rw [State.loom_modLoom_other hk, State.loom_clamped_startOrder]

theorem State.loomIssued_flight : (((s.loomIssued c l st f).core c).flight (s.core c).freshId).isSome := by
  unfold State.loomIssued
  rw [State.modLoom_proj (fun x => (x.flight (s.core c).freshId).isSome) (fun _ _ => by rfl), State.isSome_flight_orderClamps,
    State.flight_modFlight (g := fun x => { x with aux := [l] }) (fun _ => rfl), Option.isSome_map, State.startOrder_core, Core.started_flight]
  rfl

theorem State.loomIssued_queue (hpick : s.pick c = some st) : ((s.loomIssued c l st f).queue c st.q).index = st.idx + 1 := by
  rw [← (State.holds (k := 0) hpick).queue]
  exact State.loomIssued_proj (fun x => (x.qs.getD st.q {}).index) (fun _ _ => by rfl) (fun _ _ => by rfl) c

end Issued

/-! #### An order is refused at its start (R10, R143) -/

/-- A refused order as it starts: no clamp is counted, and the ANY pointer stays (R10). -/
def State.refusedStart (s : State) (c : Nat) (st : Start) : State :=
  (s.startOrder c { st with clamps := 0 }).1.modCore c (fun x => { x with rot := (s.core c).rot })

theorem State.refuseOrder_eq (status : Nat) : s.refuseOrder c st status
    = ((s.refusedStart c st).noteRefuse (refusePage st.op) (s.refuseInst c st.op)).finish c (s.core c).freshId status := rfl

theorem State.refusedStart_core : (s.refusedStart c st).core c
    = { (s.core c).started { st with clamps := 0 } (s.queueLen c st.q) with rot := (s.core c).rot } := by
  unfold State.refusedStart
  rw [State.core_modCore_same, State.startOrder_core]

theorem State.refuseOrder_kept (status : Nat) : Kept { regs := true, cores := true } s (s.refuseOrder c st status) :=
  (((State.startOrder_kept s c { st with clamps := 0 }).1.modCore rfl ..).noteRefuse rfl ..).finish rfl ..

theorem State.refuseOrder_cores (status : Nat) : CoresKept s (s.refuseOrder c st status) [c] := by
  have hc : c ∈ [c] := List.mem_singleton_self c
  have hstart : CoresKept s (s.refusedStart c st) [c] := CoresKept.modCore (State.startOrder_coresKept c _) hc _
  rw [State.refuseOrder_eq]
  exact (hstart.trans_of_cores_eq (State.noteRefuse_cores ..)).finish hc _ _

/-- The refused order is held last, done, with its refusal. -/
theorem State.refuseOrder_flights (status : Nat) : ((s.refuseOrder c st status).core c).flights = (s.core c).flights
    ++ [{ Start.flight { st with clamps := 0 } (s.core c).freshId with done := true, status := statusJoin stOk status }] := by
  rw [State.refuseOrder_eq]
  unfold State.finish State.modFlight
  rw [State.core_modCore_same, State.core_congr (State.noteRefuse_cores ..), State.refusedStart_core]
  simp only [Core.started, List.map_append, Core.map_fresh, List.map_cons, List.map_nil]
  exact congrArg (fun g => (s.core c).flights ++ [g]) (if_pos rfl)

theorem State.refuseOrder_looms (status : Nat) : ((s.refuseOrder c st status).core c).looms = (s.core c).looms := by
  rw [State.refuseOrder_eq]
  refine (State.modFlight_proj Core.looms (fun _ _ => by rfl) ..).trans ?_
  rw [State.core_congr (State.noteRefuse_cores ..), State.refusedStart_core]
  rfl

end Sys2Proof.Machine
end

section
/-! PROOFS. Loom orders (R70 to R72): where they issue, and how one starts and takes its rows. O9 is settled at the end. -/

namespace Sys2Proof.Machine

open Sys2Proof.Safety Sys2Proof.Claims

variable {s : State} {c l : Nat} {o : LoomOrd}

/-! #### A loom order starts (R70, R72, R162) -/

theorem State.regs_orderClamps (id code inst n : Nat) : (s.orderClamps c id code inst n).regs = (s.noteClamps code inst n).regs := by
  unfold State.orderClamps State.noteClamps
  split
  · rfl
  · rfl

/-- Whether a quota of one slot leaves rows of an order to wait (R82). -/
def State.rowsHeld (s : State) (c l : Nat) (o : LoomOrd) : Bool := s.loomQuota c l = 1 && decide (rowsPresent s c o > 32)

/-- The rows that a starting order takes (R72, R82). -/
def State.rowsTaken (s : State) (c l : Nat) (o : LoomOrd) : Nat := if s.rowsHeld c l o then 32 else rowsPresent s c o

/-- A start below the row target is counted (R72). -/
def State.fillCounted (s : State) (c : Nat) (o : LoomOrd) : State :=
  if rowsPresent s c o < rowTarget s c o then s.bump pgLoom c 0 rLoomFillExpired 1 else s

/-- The state in which an order's rows have been taken and told, its activations still to be read. -/
def State.rowsTold (s : State) (c l : Nat) (o : LoomOrd) : State :=
  ((s.fillCounted c o).orderClamps c o.flight pgLoom c (b2n (s.rowsHeld c l o))).setSreg c (s.loomF c o.flight).rowOut
    (BitVec.ofNat 64 (s.rowsTaken c l o + l <<< 32))

/-- The state after a loom order has taken its rows; `acts` is its copy of the stockroom, where its K range fits. -/
def State.loomTaken (s : State) (c l : Nat) (o : LoomOrd) (acts : Option Mem) : State :=
  (s.rowsTold c l o).modLoomOrd c l o.flight (fun x => { x with rows := some (s.rowsTaken c l o), acts := acts })

theorem State.fillCounted_cores : (s.fillCounted c o).cores = s.cores := by
  unfold State.fillCounted
  split
  · rfl
  · rfl

/-- Telling the rows leaves of every core what depends on neither its flights nor its s-registers. -/
theorem State.rowsTold_proj {α : Type} (π : Core → α) (hf : ∀ x fs, π { x with flights := fs } = π x)
    (hr : ∀ x rs, π { x with sregs := rs } = π x) (z : Nat) : π ((s.rowsTold c l o).core z) = π (s.core z) := by
  unfold State.rowsTold State.setSreg
  rw [State.modCore_proj _ π _ (fun x => hr x _), State.orderClamps_proj π hf, State.core_congr State.fillCounted_cores]

theorem State.loom_rowsTold (k : Nat) : (s.rowsTold c l o).loom c k = s.loom c k :=
  State.rowsTold_proj (fun x => x.looms.getD k {}) (fun _ _ => by rfl) (fun _ _ => by rfl) c

theorem State.rowsTold_kept : Kept { regs := true, cores := true } s (s.rowsTold c l o) := by
  have hcount : Kept { regs := true, cores := true } s (s.fillCounted c o) := by
    unfold State.fillCounted
    split
    · exact (Kept.refl ..).bump rfl ..
    · exact Kept.refl ..
  exact (hcount.orderClamps rfl rfl ..).setSreg rfl ..

theorem State.rowsTold_cores : CoresKept s (s.rowsTold c l o) [c] := by
  have hc : c ∈ [c] := List.mem_singleton_self c
  have hcount : CoresKept s (s.fillCounted c o) [c] := CoresKept.of_cores_eq State.fillCounted_cores
  exact (hcount.orderClamps hc _ _ _ _).setSreg hc _ _

/-- Without a double-bit error in the stockroom the whole range is read as it stands. -/
theorem State.loomStock_intact (h : (s.core c).stockBad = []) (f : LoomF) (n lo hi : Nat) :
    s.loomStock c f n lo hi = (s, (s.core c).stock, false) := by
  simp [State.loomStock, h]

/-- An order whose rows reach its target, or whose fill window has expired with a row present, takes its rows (R70, R72). -/
theorem State.loomStart_taken (hcur : s.loomCur c l = some o) (hrows : o.rows = none) (hbad : (s.core c).stockBad = [])
    (h : rowsPresent s c o ≥ rowTarget s c o ∨ (o.expired = true ∧ rowsPresent s c o ≥ 1)) :
    ∃ acts, s.loomStart c l = s.loomTaken c l o acts := by
  have hstock : ((s.rowsTold c l o).core c).stockBad = [] :=
    (State.rowsTold_proj Core.stockBad (fun _ _ => by rfl) (fun _ _ => by rfl) c).trans hbad
  have hstart : s.loomStart c l = (
      let f := s.loomF c o.flight
      let r : State × Option Mem := if f.actBytes (s.rowsTaken c l o) ≤ 98304 then
          (let (s', m, bad) := (s.rowsTold c l o).loomStock c f (s.rowsTaken c l o) 0 f.kLen
           (if bad then s'.flightLost c o.flight else s', some m))
        else (s.rowsTold c l o, none)
      r.1.modLoomOrd c l o.flight (fun x => { x with rows := some (s.rowsTaken c l o), acts := r.2 })) := by
    unfold State.loomStart
    simp only [hcur, hrows, Option.isSome_none, Bool.false_eq_true, if_false]
    exact if_pos h
  rw [hstart]
  dsimp only
  split
  · rw [State.loomStock_intact hstock]
    exact ⟨_, rfl⟩
  · exact ⟨_, rfl⟩

theorem State.loomStart_waits (hcur : s.loomCur c l = some o) (hrows : o.rows = none) (hfew : rowsPresent s c o < rowTarget s c o)
    (h : o.expired = false ∨ rowsPresent s c o = 0) : s.loomStart c l = s := by
  have hno : ¬ (rowsPresent s c o ≥ rowTarget s c o ∨ (o.expired = true ∧ rowsPresent s c o ≥ 1)) := by
    rintro (hge | ⟨hexp, hone⟩)
    · omega
    · rcases h with h | h
      · simp [h] at hexp
      · omega
  unfold State.loomStart
  simp only [hcur, hrows, Option.isSome_none, Bool.false_eq_true, if_false]
  exact if_neg hno

section Taken

variable {acts : Option Mem}

theorem State.loomTaken_proj {α : Type} (π : Core → α) (hl : ∀ x ls, π { x with looms := ls } = π x)
    (hf : ∀ x fs, π { x with flights := fs } = π x) (hr : ∀ x rs, π { x with sregs := rs } = π x) (z : Nat) :
    π ((s.loomTaken c l o acts).core z) = π (s.core z) :=
  (State.modLoom_proj π hl ..).trans (State.rowsTold_proj π hf hr z)

theorem State.loomTaken_ords (hl : l < 4) : ((s.loomTaken c l o acts).loom c l).ords = (s.loom c l).ords.map
    (fun x => if x.flight = o.flight then { x with rows := some (s.rowsTaken c l o), acts := acts } else x) := by
  unfold State.loomTaken State.modLoomOrd
  rw [State.loom_modLoom_same hl, State.loom_rowsTold]

/-- The order, wherever it stands in its loom, has its row group. -/
theorem State.loomTaken_rows (hl : l < 4) : ∀ x ∈ ((s.loomTaken c l o acts).loom c l).ords, x.flight = o.flight →
    x.rows = some (s.rowsTaken c l o) := by
  rw [State.loomTaken_ords hl]
  simp only [List.mem_map]
  rintro x ⟨y, _, rfl⟩ hx
  split at hx
  next h => simp [h]
  next h => exact absurd hx h

theorem State.loomTaken_flights (hl : l < 4) :
    ((s.loomTaken c l o acts).loom c l).ords.map (·.flight) = (s.loom c l).ords.map (·.flight) := by
  rw [State.loomTaken_ords hl, List.map_map]
  refine List.map_congr_left fun x _ => ?_
  dsimp only [Function.comp]
  split
  · rfl
  · rfl

theorem State.loomTaken_sreg (k : Nat) : (s.loomTaken c l o acts).sreg c k
    = if (s.loomF c o.flight).rowOut % 64 = k % 64 then BitVec.ofNat 64 (s.rowsTaken c l o + l <<< 32) else s.sreg c k := by
  have hset := State.sreg_setSregIf ((s.fillCounted c o).orderClamps c o.flight pgLoom c (b2n (s.rowsHeld c l o))) c true
    (s.loomF c o.flight).rowOut (BitVec.ofNat 64 (s.rowsTaken c l o + l <<< 32)) k
  have hclamps : ((s.fillCounted c o).orderClamps c o.flight pgLoom c (b2n (s.rowsHeld c l o))).sreg c k = s.sreg c k :=
    (State.orderClamps_proj (fun x => smGet 0 x.sregs (k % 64)) (fun _ _ => by rfl) ..).trans
      (State.sreg_congr State.fillCounted_cores c k)
  rw [hclamps] at hset
  simp only [Bool.true_and, decide_eq_true_eq] at hset
  exact (State.modLoom_proj (fun x => smGet 0 x.sregs (k % 64)) (fun _ _ => by rfl) ..).trans hset

theorem State.loomTaken_fillExpired : (s.loomTaken c l o acts).reg pgLoom c 0 rLoomFillExpired
    = s.reg pgLoom c 0 rLoomFillExpired + if rowsPresent s c o < rowTarget s c o then 1 else 0 := by
  have hregs : (s.loomTaken c l o acts).regs = ((s.fillCounted c o).noteClamps pgLoom c (b2n (s.rowsHeld c l o))).regs :=
    State.regs_orderClamps ..
  rw [State.reg_congr hregs, State.reg_noteClamps_other _ (regKey_off (by decide)) (regKey_off (by decide))]
  unfold State.fillCounted
  split
  · exact s.reg_bump_same ..
  · simp

theorem State.loomTaken_kept : Kept { regs := true, cores := true } s (s.loomTaken c l o acts) :=
  State.rowsTold_kept.modLoomOrd rfl ..

theorem State.loomTaken_cores : CoresKept s (s.loomTaken c l o acts) [c] :=
  CoresKept.modLoomOrd State.rowsTold_cores (List.mem_singleton_self c) _ _ _

end Taken

end Sys2Proof.Machine

namespace Sys2Proof.Proofs

open Sys2Proof Sys2Proof.Machine Sys2Proof.Safety Sys2Proof.Claims

/-- Settles O9: the issue is one of two, and so is the start. -/
theorem loomOrdersIssueAndTakeRows : Obligations.LoomOrdersIssueAndTakeRows := by
  unfold Obligations.LoomOrdersIssueAndTakeRows
  refine ⟨fun s c op st hop hpick hst => ⟨fun p hp hin => ?issued, fun p hp hout => ?refused⟩,
    fun s c l o hl hcur hrows hbad => ⟨fun hready => ?taken, fun hfew hno => ?waits⟩⟩
  case issued =>
    have hlt := orderLoom_lt (s := s) (c := c) st.ord
    subst hst
    have hexec := exec_loomCmd hop hpick rfl
    rw [State.loomIssue_inside hp hin, (State.loomIssued_kept.mono (g := reachCore) rfl).take_eq] at hexec
    refine ⟨_, _, hexec, congrArg Loom.ords (State.loomIssued_loom_same hlt), rfl, rfl, rfl, rfl, rfl, rfl,
      fun k hk => State.loomIssued_loom_other hk, State.loomIssued_flight, State.loomIssued_queue hpick, ?_, ?_, ?_, ?_,
      State.loomIssued_cores, State.loomIssued_kept⟩
    · rw [State.loomIssued_proj Core.sregs (fun _ _ => by rfl) (fun _ _ => by rfl), State.startOrder_core]
      rfl
    · rw [State.loomIssued_proj Core.ctrs (fun _ _ => by rfl) (fun _ _ => by rfl), State.startOrder_core]
      rfl
    · rw [State.loomIssued_proj Core.shelf (fun _ _ => by rfl) (fun _ _ => by rfl), State.startOrder_core]
      rfl
    · rw [State.loomIssued_proj Core.stock (fun _ _ => by rfl) (fun _ _ => by rfl), State.startOrder_core]
      rfl
  case refused =>
    subst hst
    have hexec := exec_loomCmd hop hpick rfl
    rw [State.loomIssue_outside hp hout, ((State.refuseOrder_kept _).mono (g := reachCore) rfl).take_eq] at hexec
    exact ⟨_, _, hexec, State.refuseOrder_flights _, rfl, rfl, State.refuseOrder_looms _, State.refuseOrder_cores _, State.refuseOrder_kept _⟩
  case taken =>
    obtain ⟨acts, hstart⟩ := State.loomStart_taken hcur hrows hbad hready
    have hn : (if s.loomQuota c l = 1 ∧ rowsPresent s c o > 32 then 32 else rowsPresent s c o) = s.rowsTaken c l o := by
      simp [State.rowsTaken, State.rowsHeld]
    have hexec : exec (.loomOrderStart c l) s = .next (s.loomTaken c l o acts) := by
      show Host.Outcome.next (reachOrder.take s (s.loomStart c l)) = _
      rw [hstart, (State.loomTaken_kept.mono rfl).take_eq]
    simp only [hn]
    refine ⟨_, hexec, State.loomTaken_rows hl, State.loomTaken_flights hl, ?_, fun k hk => ?_, State.loomTaken_fillExpired,
      ?_, ?_, ?_, State.loomTaken_cores, State.loomTaken_kept⟩
    · rw [State.loomTaken_sreg, if_pos rfl, Nat.shiftLeft_eq]
    · rw [State.loomTaken_sreg, if_neg (Ne.symm hk)]
    · exact State.loomTaken_proj Core.ctrs (fun _ _ => by rfl) (fun _ _ => by rfl) (fun _ _ => by rfl) c
    · exact State.loomTaken_proj Core.stock (fun _ _ => by rfl) (fun _ _ => by rfl) (fun _ _ => by rfl) c
    · exact State.loomTaken_proj Core.shelf (fun _ _ => by rfl) (fun _ _ => by rfl) (fun _ _ => by rfl) c
  case waits =>
    show Host.Outcome.next (reachOrder.take s (s.loomStart c l)) = _
    rw [State.loomStart_waits hcur hrows hfew hno, (Kept.refl _ s).take_eq]

end Sys2Proof.Proofs
end

section
/-! PROOFS. Weight tiles and output tiles (R67, R68, R74, R79 to R81): what a loom's advance leaves of its weight sets, and when it stays
where it is. O10 is settled at the end. -/

namespace Sys2Proof.Machine

open Sys2Proof.Safety Sys2Proof.Claims

variable {s t : State} {c l : Nat} {o : LoomOrd}

/-! #### Reads of the stockroom leave the cores -/

theorem State.castTrigger_cores (r : CastReq) : (s.castTrigger r).cores = s.cores := by
  unfold State.castTrigger
  split
  · rfl
  · rfl

theorem State.sramUe_cores (c a : Nat) : (s.sramUe c a).cores = s.cores := by
  unfold State.sramUe
  rw [State.castTrigger_cores, State.log_cores, State.bump_cores]

/-- A fold over states and what goes with them leaves the cores where each of its steps does. -/
theorem foldl_fst_cores {α β : Type} {step : State × β → α → State × β} (hstep : ∀ acc x, (step acc x).1.cores = acc.1.cores) (xs : List α)
    (acc : State × β) : (xs.foldl step acc).1.cores = acc.1.cores :=
  List.foldlRecOn (motive := fun r => r.1.cores = acc.1.cores) xs step rfl fun r hr x _ => (hstep r x).trans hr

theorem State.stockView_cores (c a n : Nat) : (s.stockView c a n).1.cores = s.cores := by
  unfold State.stockView
  exact foldl_fst_cores (fun acc w => State.sramUe_cores (s := (acc.1.freeBytes 8).1) c (8 * w)) _ _

theorem State.loomStock_cores (c : Nat) (f : LoomF) (n lo hi : Nat) : (s.loomStock c f n lo hi).1.cores = s.cores := by
  unfold State.loomStock
  split
  · rfl
  · refine foldl_fst_cores (fun acc r => ?_) _ _
    dsimp only
    split
    · exact State.stockView_cores c r.1 r.2
    · exact State.stockView_cores c r.1 r.2

/-! #### What a loom's advance leaves of its weights -/

/-- The weights that a loom holds: its weight stage, its shadow set and its active set (R66, R68). -/
def Loom.weights (m : Loom) : List (List Byte) × Option (List Byte) × Option (List Byte) := (m.stage, m.shadow, m.active)

theorem State.ords_modLoomOrd (hl : l < 4) (id : Nat) (g : LoomOrd → LoomOrd) : ((s.modLoomOrd c l id g).loom c l).ords
    = (s.loom c l).ords.map (fun x => if x.flight = id then g x else x) := by
  unfold State.modLoomOrd
  rw [State.loom_modLoom_same hl]

theorem State.weights_modLoomOrd (hl : l < 4) (id : Nat) (g : LoomOrd → LoomOrd) :
    ((s.modLoomOrd c l id g).loom c l).weights = (s.loom c l).weights := by
  unfold State.modLoomOrd
  rw [State.loom_modLoom_same hl]
  rfl

theorem State.loom_flightLost (id k : Nat) : (s.flightLost c id).loom c k = s.loom c k :=
  State.modFlight_proj (fun x => x.looms.getD k {}) (fun _ _ => by rfl) ..

theorem State.loomActs_weights (hl : l < 4) : ((s.loomActs c l o).1.loom c l).weights = (s.loom c l).weights := by
  have hread : ∀ w, let r := s.loomStock c (s.loomF c o.flight) (o.rows.getD 0) (256 * w) (min (s.loomF c o.flight).kLen (256 * (w + 1)))
      (((if r.2.2 then (if o.bad then r.1.setErr pgLoom c 3 else r.1).flightLost c o.flight else r.1).modLoomOrd c l o.flight
        (fun x => { x with acts := some r.2.1, win := some (o.tile * 65536 + w) })).loom c l).weights = (s.loom c l).weights := by
    intro w r
    have hr : r.1.loom c l = s.loom c l := State.loom_congr (State.loomStock_cores ..) c l
    rw [State.weights_modLoomOrd hl]
    split
    · rw [State.loom_flightLost]
      split
      · rw [State.loom_congr (State.setErr_cores ..), hr]
      · rw [hr]
    · rw [hr]
  unfold State.loomActs
  dsimp only
  split
  · rfl
  · split
    · rfl
    · exact hread _
  · exact hread _

/-- A K tile is taken in without a change to the loom's weights. -/
theorem State.loomTile_weights (hl : l < 4) (bs : List Byte) (flagged : Bool) :
    ((s.loomTile c l o bs flagged).loom c l).weights = (s.loom c l).weights := by
  have hacts := State.loomActs_weights (s := s) (c := c) (o := o) hl
  unfold State.loomTile
  generalize s.loomActs c l o = r at hacts
  have hcount : ∀ n m k, ((if flagged then r.1 else ((r.1.bump pgLoom c 0 rLoomSkippedRows n).bump pgLoom c 0 rLoomRows m).bump pgLoom c 0
      rLoomBusy k).loom c l).weights = (s.loom c l).weights := by
    intro n m k
    rw [← hacts]
    split
    · rfl
    · rfl
  dsimp only
  split
  · rw [State.weights_modLoomOrd hl, hcount]
  · split
    · rw [State.weights_modLoomOrd hl, hcount]
    · rw [State.weights_modLoomOrd hl, State.loom_modShelf, hcount]

/-- A loom with an empty shadow set advances over flagged tiles alone: its weights stay. -/
theorem State.loomAdvance_weights (hl : l < 4) (hshadow : (s.loom c l).shadow = none) (k : Nat) :
    ((s.loomAdvance c l k).loom c l).weights = (s.loom c l).weights := by
  induction k generalizing s with
  | zero => rfl
  | succ k ih =>
    unfold State.loomAdvance
    split
    · rfl
    next o _ =>
      split
      · rfl
      · dsimp only
        split
        · rfl
        · split
          · have htile := State.loomTile_weights (s := s) (c := c) (o := o) hl [] true
            have hnone : ((s.loomTile c l o [] true).loom c l).shadow = none := (congrArg (fun w => w.2.1) htile).trans hshadow
            rw [ih hnone, htile]
          · rw [hshadow]

/-! #### Which order a loom is at -/

theorem State.loomF_congr (h : (t.core c).flights = (s.core c).flights) (fl : Nat) : t.loomF c fl = s.loomF c fl := by
  unfold State.loomF Core.flight
  rw [h]

theorem State.loomCur_congr (hflights : (t.core c).flights = (s.core c).flights) (hords : (t.loom c l).ords = (s.loom c l).ords) :
    t.loomCur c l = s.loomCur c l := by
  unfold State.loomCur
  rw [hords]
  simp only [State.loomF_congr hflights]

theorem State.flights_modLoom (g : Loom → Loom) : ((s.modLoom c l g).core c).flights = (s.core c).flights :=
  State.modLoom_proj Core.flights (fun _ _ => by rfl) ..

theorem State.flights_modLoomOrd (id : Nat) (g : LoomOrd → LoomOrd) :
    ((s.modLoomOrd c l id g).core c).flights = (s.core c).flights :=
  State.flights_modLoom _

theorem State.flights_modShelf (g : List Slot → List Slot) : ((s.modShelf c l g).core c).flights = (s.core c).flights :=
  State.modShelf_proj Core.flights (fun _ _ => by rfl) ..

/-- An update of orders that keeps their number and their place keeps which order issues next. -/
theorem State.loomCur_modLoomOrd (hl : l < 4) {id : Nat} {g : LoomOrd → LoomOrd} (hflight : ∀ x, (g x).flight = x.flight)
    (htile : ∀ x, (g x).tile = x.tile) :
    (s.modLoomOrd c l id g).loomCur c l = (s.loomCur c l).map (fun x => if x.flight = id then g x else x) := by
  unfold State.loomCur
  rw [State.ords_modLoomOrd hl, List.find?_map]
  congr 2
  funext x
  dsimp only [Function.comp]
  rw [State.loomF_congr (State.flights_modLoomOrd ..)]
  split
  · rw [hflight, htile]
  · rfl

theorem State.mem_of_loomCur (h : s.loomCur c l = some o) : o ∈ (s.loom c l).ords := List.mem_of_find?_eq_some h

/-! #### When a loom advances -/

/-- A loom none of whose output tiles has begun stays where it is. -/
theorem State.loomAdvance_idle (h : ∀ x ∈ (s.loom c l).ords, x.begun = false) (k : Nat) : s.loomAdvance c l k = s := by
  cases k with
  | zero => rfl
  | succ k =>
    unfold State.loomAdvance
    split
    · rfl
    next o ho => simp [h o (State.mem_of_loomCur ho)]

theorem LoomF.skipped_of_no_map {f : LoomF} (h : f.zmapEn = false) (zmap : List Byte) (t kt : Nat) : f.skipped zmap t kt = false := by
  simp [LoomF.skipped, h]

/-- Without a zero map a loom waits for a tile in its shadow set. -/
theorem State.loomAdvance_waits (hcur : s.loomCur c l = some o) (hz : (s.loomF c o.flight).zmapEn = false)
    (hshadow : (s.loom c l).shadow = none) (k : Nat) : s.loomAdvance c l k = s := by
  cases k with
  | zero => rfl
  | succ k =>
    unfold State.loomAdvance
    simp only [hcur, hz, LoomF.skipped_of_no_map hz, hshadow, Bool.false_and, Bool.false_eq_true, if_false, ite_self]

/-- A tile in the shadow set swaps in where a started order waits for it and no boundary pause stands (R68, R74). -/
theorem State.loomAdvance_swaps (hcur : s.loomCur c l = some o) (hbegun : o.begun = true) (hrows : o.rows.isSome = true)
    (hz : (s.loomF c o.flight).zmapEn = false) (hpause : ∀ x ∈ (s.loom c l).ords, x.pause = false) {b : List Byte}
    (hshadow : (s.loom c l).shadow = some b) (k : Nat) : s.loomAdvance c l (k + 1)
      = ((s.modLoom c l (fun m => { m with active := some b, shadow := none })).loomTile c l o b false).loomAdvance c l k := by
  have hany : (s.loom c l).ords.any (·.pause) = false := by simpa using hpause
  have hnone : o.rows.isNone = false := by simpa [Option.isSome_iff_ne_none] using hrows
  rw [State.loomAdvance]
  simp only [hcur, hbegun, hnone, hany, hz, LoomF.skipped_of_no_map hz, hshadow, Bool.false_and, Bool.not_true, Bool.or_self,
    Bool.false_eq_true, if_false]

/-- The tile that swaps in is the active set; what was behind it stays in the stage. -/
theorem State.loomAdvance_swapped (hl : l < 4) (hcur : s.loomCur c l = some o) (hbegun : o.begun = true) (hrows : o.rows.isSome = true)
    (hz : (s.loomF c o.flight).zmapEn = false) (hpause : ∀ x ∈ (s.loom c l).ords, x.pause = false) {b : List Byte}
    (hshadow : (s.loom c l).shadow = some b) (k : Nat) :
    ((s.loomAdvance c l (k + 1)).loom c l).weights = ((s.loom c l).stage, none, some b) := by
  have htile := State.loomTile_weights (s := s.modLoom c l (fun m => { m with active := some b, shadow := none })) (c := c) (o := o) hl b false
  rw [State.loom_modLoom_same hl] at htile
  rw [State.loomAdvance_swaps hcur hbegun hrows hz hpause hshadow, State.loomAdvance_weights hl (congrArg (fun w => w.2.1) htile), htile]
  rfl

/-! #### A weight tile arrives (R67) -/

section Arrive

variable {loc : Loc} {n : Nat}

/-- No regulator of a list of costs has a rate (R24). -/
def State.RatesZero (s : State) (x : List (Gate × Nat)) : Prop := ∀ g ∈ x, s.gateRate g.1 = 0

/-- No regulator that a flow of bytes meets has a rate, where the partition has none (R24, R36). -/
theorem State.flowCost_rates {p : Nat} (h : Unregulated s p) (agent : Option Nat) (src dst : Loc) (n : Nat) :
    s.RatesZero (s.flowCost p agent src dst n) := by
  have hadd : ∀ x, s.RatesZero x → ∀ q r : Nat × Nat × Nat, s.RatesZero ((hopCost p agent q.1 r.1 r.2.2).foldl addCost x) := fun x hx q r =>
    foldl_addCost_gates (P := fun g => s.gateRate g = 0) hx (gateRate_of_mem_hopCost h)
  unfold State.flowCost
  refine List.foldlRecOn _ _ (fun g hg => absurd hg List.not_mem_nil) fun x hx q _ => ?_
  exact List.foldlRecOn _ _ hx fun x hx r _ => hadd x hx q r

theorem State.weightCost_rates (h : CoreUnregulated s c) : s.RatesZero (s.weightCost c loc n) := by
  unfold State.weightCost
  split
  next p hp => exact State.flowCost_rates (h p hp) _ _ _ _
  next => exact fun g hg => absurd hg List.not_mem_nil

variable (hfetch : s.loomFetch c l = some o) (hz : (s.loomF c o.flight).zmapEn = false)
  (hloc : (s.loomF c o.flight).tileLoc c o.fTile o.fKt = loc) (hn : (loomGeom (s.loomF c o.flight)).bytes = n)
  (hroom : (s.loom c l).staged + n ≤ 24576) (hready : s.placeReady loc n true = true)

include hfetch hz hloc hn hroom hready

/-- A tile that a regulator holds back has not arrived (R24). -/
theorem State.tileArrive_held (hclosed : s.gatesOpen (s.weightCost c loc n) = false) :
    s.tileArrive c l = s.gatesHeld (s.weightCost c loc n) := by
  subst hloc hn
  unfold State.tileArrive
  simp only [hfetch, hz, Bool.false_and, Bool.false_eq_true, if_false, hroom, hready, decide_true, Bool.and_self, Bool.not_true]
  exact State.gated_of_closed hclosed _ _

/-- A tile that nothing holds back joins the weight stage. -/
theorem State.tileArrive_staged {s1 : State} {bs : List Byte} (hfree : CoreUnregulated s c)
    (hread : (s.guestLines (some c) loc n).readRestored loc n = (s1, some bs)) :
    ∃ g : List LoomOrd → List LoomOrd,
      s.tileArrive c l = s1.modLoom c l (fun m => { m with stage := m.stage ++ [bs], ords := g m.ords }) := by
  have hrates := State.weightCost_rates (loc := loc) (n := n) hfree
  subst hloc hn
  unfold State.tileArrive
  simp only [hfetch, hz, Bool.false_and, Bool.false_eq_true, if_false, hroom, hready, decide_true, Bool.and_self, Bool.not_true]
  rw [State.gated_of_rate_zero hrates]
  simp only [State.readOrFree, hread]
  exact ⟨_, rfl⟩

end Arrive

/-! #### A tile reaches the shadow set (R68) -/

/-- The state in which the oldest staged tile stands in the shadow set. -/
def State.shadowed (s : State) (c l : Nat) (b : List Byte) (rest : List (List Byte)) : State :=
  s.modLoom c l (fun m => { m with stage := rest, shadow := some b })

theorem State.loom_shadowed (hl : l < 4) (b : List Byte) (rest : List (List Byte)) :
    (s.shadowed c l b rest).loom c l = { s.loom c l with stage := rest, shadow := some b } :=
  State.loom_modLoom_same hl _

theorem exec_shadowLoadDone {b : List Byte} {rest : List (List Byte)} (hshadow : (s.loom c l).shadow = none)
    (hstage : (s.loom c l).stage = b :: rest) : exec (.shadowLoadDone c l) s
      = .next (reachOrder.take s ((s.shadowed c l b rest).loomAdvance c l ((s.shadowed c l b rest).loomFuel c l))) := by
  show execShadowLoadDone c l s = _
  unfold execShadowLoadDone
  simp only [hshadow, hstage]
  rfl

theorem State.loomCur_shadowed (hl : l < 4) (b : List Byte) (rest : List (List Byte)) :
    (s.shadowed c l b rest).loomCur c l = s.loomCur c l :=
  State.loomCur_congr (State.flights_modLoom _) (by rw [State.loom_shadowed hl])

/-! #### An output tile starts (R74, R79, R80) -/

/-- The slots that an output tile of n rows reserves: one, or two above 32 rows. -/
def tileSlots (o : LoomOrd) (n : Nat) : List Slot :=
  ⟨false, false, o.flight, o.tile, 0, min 32 n, []⟩ :: (if n > 32 then [⟨false, false, o.flight, o.tile, 32, min 32 (n - 32), []⟩] else [])

/-- The state in which an order's output tile has begun, its slots reserved. -/
def State.tileBegun (s : State) (c l : Nat) (o : LoomOrd) (n : Nat) : State :=
  (s.modShelf c l (fun q => q ++ tileSlots o n)).modLoomOrd c l o.flight (fun x => { x with begun := true })

section Begun

variable {n : Nat}

theorem exec_loomTileStart (hcur : s.loomCur c l = some o) (hrows : o.rows = some n) (hbegun : o.begun = false)
    (hpause : ∀ x ∈ (s.loom c l).ords, x.pause = false)
    (hquota : ((s.core c).shelf.getD l []).length + (if n > 32 then 2 else 1) ≤ s.loomQuota c l)
    (hroom : shelfUsed s c + (if n > 32 then 2 else 1) ≤ 16) : exec (.loomTileStart c l) s
      = .next (reachOrder.take s ((s.tileBegun c l o n).loomAdvance c l ((s.tileBegun c l o n).loomFuel c l))) := by
  have hany : (s.loom c l).ords.any (·.pause) = false := by simpa using hpause
  have hslots : (List.range (if n > 32 then 2 else 1)).map
      (fun b => (⟨false, false, o.flight, o.tile, 32 * b, min 32 (n - 32 * b), []⟩ : Slot)) = tileSlots o n := by
    unfold tileSlots
    split
    · rfl
    · rfl
  unfold shelfUsed at hroom
  show execLoomTileStart c l s = _
  unfold execLoomTileStart
  simp only [hcur, hrows, hbegun, hany, hslots, Option.getD_some, Option.isNone_some, Bool.or_self, Nat.not_lt.2 hquota, Nat.not_lt.2 hroom,
    decide_false, gt_iff_lt, Bool.false_eq_true, if_false]
  rfl

theorem State.tileBegun_proj {α : Type} (π : Core → α) (hl : ∀ x ls, π { x with looms := ls } = π x)
    (hs : ∀ x sh, π { x with shelf := sh } = π x) (z : Nat) : π ((s.tileBegun c l o n).core z) = π (s.core z) :=
  (State.modLoom_proj π hl ..).trans (State.modShelf_proj π hs ..)

theorem State.tileBegun_shelf_same (hl : l < 4) :
    ((s.tileBegun c l o n).core c).shelf.getD l [] = (s.core c).shelf.getD l [] ++ tileSlots o n :=
  (congrArg (fun x => x.getD l []) (State.modLoom_proj Core.shelf (fun _ _ => by rfl) ..)).trans (State.shelf_modShelf_same hl _)

theorem State.tileBegun_shelf_other {k : Nat} (hk : k ≠ l) :
    ((s.tileBegun c l o n).core c).shelf.getD k [] = (s.core c).shelf.getD k [] :=
  (congrArg (fun x => x.getD k []) (State.modLoom_proj Core.shelf (fun _ _ => by rfl) ..)).trans (State.shelf_modShelf_other hk _)

theorem State.tileBegun_begun (hl : l < 4) : ∀ x ∈ ((s.tileBegun c l o n).loom c l).ords, x.flight = o.flight → x.begun = true := by
  unfold State.tileBegun
  rw [State.ords_modLoomOrd hl]
  simp only [List.mem_map]
  rintro x ⟨y, _, rfl⟩ hx
  split at hx
  next h => simp [h]
  next h => exact absurd hx h

theorem State.tileBegun_kept : Kept { cores := true } s (s.tileBegun c l o n) := ((Kept.refl ..).modShelf rfl ..).modLoomOrd rfl ..

theorem State.tileBegun_cores : CoresKept s (s.tileBegun c l o n) [c] := by
  have hc : c ∈ [c] := List.mem_singleton_self c
  exact (CoresKept.modShelf CoresKept.refl hc _ _).modLoomOrd hc _ _ _

/-- With an empty shadow set and no zero map the tile that has begun waits for its weights. -/
theorem State.tileBegun_waits (hl : l < 4) (hcur : s.loomCur c l = some o) (hshadow : (s.loom c l).shadow = none)
    (hz : (s.loomF c o.flight).zmapEn = false) (k : Nat) : (s.tileBegun c l o n).loomAdvance c l k = s.tileBegun c l o n := by
  have hcur' : (s.tileBegun c l o n).loomCur c l = some { o with begun := true } := by
    unfold State.tileBegun
    rw [State.loomCur_modLoomOrd (g := fun x => { x with begun := true }) hl (fun _ => rfl) (fun _ => rfl),
      State.loomCur_congr (State.flights_modShelf _) (congrArg Loom.ords (State.loom_modShelf _)), hcur]
    simp
  refine State.loomAdvance_waits hcur' ?_ ?_ k
  · rw [State.loomF_congr (State.tileBegun_proj Core.flights (fun _ _ => by rfl) (fun _ _ => by rfl) c)]
    exact hz
  · have hweights := State.weights_modLoomOrd (s := s.modShelf c l (fun q => q ++ tileSlots o n)) (c := c) hl o.flight
      (fun x => { x with begun := true })
    rw [State.loom_modShelf] at hweights
    exact (congrArg (fun w => w.2.1) hweights).trans hshadow

end Begun

/-! #### The oldest filling slot becomes full (R81, R145) -/

theorem mapIdx_eq_set {α : Type} {q : List α} {i : Nat} {x : α} (h : q[i]? = some x) (g : α → α) :
    q.mapIdx (fun j y => if j = i then g y else y) = q.set i (g x) := by
  apply List.ext_getElem?
  intro j
  rw [List.getElem?_mapIdx, List.getElem?_set]
  by_cases hj : j = i
  · obtain ⟨hi, rfl⟩ := List.getElem?_eq_some_iff.1 h
    simp [hj, hi]
  · simp [hj, Ne.symm hj]

/-- The state in which a loom's slot i is full. -/
def State.slotFull (s : State) (c l i : Nat) (x : Slot) : State := s.modShelf c l (fun q => q.set i { x with full := true })

/-- The state in which an order has left its loom with every effect done. -/
def State.loomLeft (s : State) (c l fl : Nat) : State :=
  (s.modLoom c l (fun m => { m with ords := m.ords.filter (fun o => o.flight != fl) })).finish c fl stOk

section Full

variable {i : Nat} {x : Slot}

/-- The slot is full; where it was its order's last, the order has left the loom. -/
theorem exec_shelfSlotFull (hfind : ((s.core c).shelf.getD l []).findIdx? (fun y => y.issued && !y.full) = some i)
    (hx : ((s.core c).shelf.getD l [])[i]? = some x) :
    exec (.shelfSlotFull c l) s = .next (reachCore.take s ((s.slotFull c l i x).loomLeft c l x.flight))
    ∨ exec (.shelfSlotFull c l) s = .next (reachCore.take s (s.slotFull c l i x)) := by
  have hget : ((s.core c).shelf.getD l []).getD i ⟨false, false, 0, 0, 0, 0, []⟩ = x := by
    rw [List.getD_eq_getElem?_getD, hx]
    rfl
  have hset : s.modShelf c l (fun q => q.mapIdx (fun j y => if j = i then { y with full := true } else y)) = s.slotFull c l i x := by
    unfold State.slotFull State.modShelf State.modCore
    simp only [mapIdx_eq_set hx (fun y => { y with full := true })]
  show execShelfSlotFull c l s = _ ∨ execShelfSlotFull c l s = _
  unfold execShelfSlotFull
  simp only [hfind, hget, hset]
  split
  · exact .inl rfl
  · exact .inr rfl

theorem State.loomLeft_proj {α : Type} (π : Core → α) (hl : ∀ x ls, π { x with looms := ls } = π x)
    (hf : ∀ x fs, π { x with flights := fs } = π x) (fl z : Nat) : π ((s.loomLeft c l fl).core z) = π (s.core z) :=
  (State.modFlight_proj π hf ..).trans (State.modLoom_proj π hl ..)

theorem State.loomLeft_ords (hl : l < 4) (fl : Nat) :
    ((s.loomLeft c l fl).loom c l).ords = (s.loom c l).ords.filter (fun o => o.flight != fl) :=
  (congrArg Loom.ords (State.modFlight_proj (fun x => x.looms.getD l {}) (fun _ _ => by rfl) ..)).trans
    (congrArg Loom.ords (State.loom_modLoom_same hl _))

theorem State.loomLeft_kept (fl : Nat) : Kept { cores := true } s (s.loomLeft c l fl) := ((Kept.refl ..).modLoom rfl ..).finish rfl ..

theorem State.loomLeft_cores (fl : Nat) : CoresKept s (s.loomLeft c l fl) [c] := by
  have hc : c ∈ [c] := List.mem_singleton_self c
  exact (CoresKept.modLoom CoresKept.refl hc _ _).finish hc _ _

/-- What the command leaves: the slot full, every other order in its loom, and of the core whatever depends on neither looms nor
flights as it is with that slot full. -/
theorem shelfSlotFull_answers (hl : l < 4) (hfind : ((s.core c).shelf.getD l []).findIdx? (fun y => y.issued && !y.full) = some i)
    (hx : ((s.core c).shelf.getD l [])[i]? = some x) : ∃ t, exec (.shelfSlotFull c l) s = .next t
      ∧ (∀ {α : Type} (π : Core → α), (∀ y ls, π { y with looms := ls } = π y) → (∀ y fs, π { y with flights := fs } = π y) →
          π (t.core c) = π ((s.slotFull c l i x).core c))
      ∧ (∀ o ∈ (s.loom c l).ords, o.flight ≠ x.flight → o ∈ (t.loom c l).ords) ∧ CoresKept s t [c] ∧ Kept { cores := true } s t := by
  have hkept : Kept { cores := true } s (s.slotFull c l i x) := (Kept.refl ..).modShelf rfl ..
  have hcores : CoresKept s (s.slotFull c l i x) [c] := CoresKept.modShelf CoresKept.refl (List.mem_singleton_self c) _ _
  have hords : ((s.slotFull c l i x).loom c l).ords = (s.loom c l).ords := congrArg Loom.ords (State.loom_modShelf _)
  rcases exec_shelfSlotFull hfind hx with hexec | hexec
  · have hall := hkept.trans (State.loomLeft_kept (c := c) (l := l) x.flight)
    rw [(hall.mono (g := reachCore) rfl).take_eq] at hexec
    refine ⟨_, hexec, fun π hlooms hflights => State.loomLeft_proj π hlooms hflights .., fun o ho hne => ?_,
      hcores.trans (State.loomLeft_cores _), hall⟩
    rw [State.loomLeft_ords hl, hords]
    exact List.mem_filter.2 ⟨ho, by simpa using hne⟩
  · rw [(hkept.mono (g := reachCore) rfl).take_eq] at hexec
    exact ⟨_, hexec, fun _ _ _ => rfl, fun o ho _ => by rw [hords]; exact ho, hcores, hkept⟩

end Full

end Sys2Proof.Machine

namespace Sys2Proof.Proofs

open Sys2Proof Sys2Proof.Machine Sys2Proof.Safety Sys2Proof.Claims

/-- Settles O10, one stage after the other. -/
theorem loomTilesMoveThroughTheirStages : Obligations.LoomTilesMoveThroughTheirStages := by
  unfold Obligations.LoomTilesMoveThroughTheirStages
  refine ⟨⟨?arrival, ?load⟩, ?start, ?fill⟩
  case arrival =>
    intro s c l o hl hfetch hz loc n hroom hready r
    refine ⟨fun hclosed => ?held, fun bs s1 hfree hread hs1 => ?arrives⟩
    case held =>
      have hkept := State.gatesHeld_kept (s := s) (s.weightCost c loc n)
      have hexec : exec (.weightTileArrive c l) s = .next (s.gatesHeld (s.weightCost c loc n)) := by
        show Host.Outcome.next (reachOrder.take s (s.tileArrive c l)) = _
        rw [State.tileArrive_held hfetch hz rfl rfl hroom hready hclosed, (hkept.mono rfl).take_eq]
      exact ⟨_, hexec, hkept.cores rfl, hkept⟩
    case arrives =>
      obtain ⟨g, hgo⟩ := State.tileArrive_staged hfetch hz rfl rfl hroom hready hfree (Prod.ext hs1.symm hread)
      have hcores : (reachOrder.take s (s.tileArrive c l)).cores
          = (s1.modLoom c l (fun m => { m with stage := m.stage ++ [bs], ords := g m.ords })).cores := by
        show (s.tileArrive c l).cores = _
        rw [hgo]
      have hsame := (State.loom_congr hcores c l).trans (State.loom_modLoom_same hl _)
      refine ⟨_, rfl, by rw [hsame], by rw [hsame], by rw [hsame], fun k hk => ?_, ?_⟩
      · rw [State.loom_congr hcores, State.loom_modLoom_other hk]
      · exact (CoresKept.modLoom CoresKept.refl (List.mem_singleton_self c) _ _).trans_of_cores_eq hcores
  case load =>
    intro s c l b rest hl hshadow hstage
    have hloom := State.loom_shadowed (s := s) (c := c) hl b rest
    refine ⟨fun hidle => ?loaded, fun o hcur hbegun hrows hz hpause => ?swapped⟩
    case loaded =>
      have hkept : Kept { cores := true } s (s.shadowed c l b rest) := (Kept.refl ..).modLoom rfl ..
      have hexec := exec_shadowLoadDone hshadow hstage
      rw [State.loomAdvance_idle (by rw [hloom]; exact hidle), (hkept.mono (g := reachOrder) rfl).take_eq] at hexec
      exact ⟨_, hexec, by rw [hloom], by rw [hloom], by rw [hloom], by rw [hloom],
        fun k hk => State.loom_modLoom_other hk _, CoresKept.modLoom CoresKept.refl (List.mem_singleton_self c) _ _, hkept⟩
    case swapped =>
      have hcur' := (State.loomCur_shadowed hl b rest).trans hcur
      have hflights : ((s.shadowed c l b rest).core c).flights = (s.core c).flights := State.flights_modLoom _
      have hfuel : (s.shadowed c l b rest).loomFuel c l = (s.loomF c o.flight).kTiles + 1 := by
        simp only [State.loomFuel, hcur', State.loomF_congr hflights]
      have hweights := State.loomAdvance_swapped hl hcur' hbegun hrows (by rw [State.loomF_congr hflights]; exact hz)
        (by rw [hloom]; exact hpause) (congrArg Loom.shadow hloom) (s.loomF c o.flight).kTiles
      have hexec := exec_shadowLoadDone hshadow hstage
      rw [hfuel] at hexec
      rw [hloom] at hweights
      exact ⟨_, hexec, congrArg (fun w => w.2.2) hweights, congrArg (fun w => w.2.1) hweights, congrArg (fun w => w.1) hweights⟩
  case start =>
    intro s c l o n hl hcur hrows hbegun hpause k hquota hroom hshadow hz
    have hexec := exec_loomTileStart hcur hrows hbegun hpause hquota hroom
    rw [State.tileBegun_waits hl hcur hshadow hz, (State.tileBegun_kept.mono (g := reachOrder) rfl).take_eq] at hexec
    exact ⟨_, hexec, State.tileBegun_shelf_same hl, State.tileBegun_begun hl, fun j hj => State.tileBegun_shelf_other hj,
      State.tileBegun_proj Core.stock (fun _ _ => by rfl) (fun _ _ => by rfl) c,
      State.tileBegun_proj Core.sregs (fun _ _ => by rfl) (fun _ _ => by rfl) c,
      State.tileBegun_proj Core.ctrs (fun _ _ => by rfl) (fun _ _ => by rfl) c, State.tileBegun_cores, State.tileBegun_kept⟩
  case fill =>
    intro s c l i x hl hfind hx
    obtain ⟨t, hexec, hcore, hords, hcores, hkept⟩ := shelfSlotFull_answers hl hfind hx
    have hshelf : (t.core c).shelf = ((s.slotFull c l i x).core c).shelf := hcore Core.shelf (fun _ _ => by rfl) (fun _ _ => by rfl)
    refine ⟨t, hexec, ?_, fun j hj => ?_, hords, ?_, ?_, ?_, hcores, hkept⟩
    · rw [hshelf]
      exact State.shelf_modShelf_same hl _
    · rw [hshelf]
      exact State.shelf_modShelf_other hj _
    · exact (hcore Core.stock (fun _ _ => by rfl) (fun _ _ => by rfl)).trans (State.modShelf_proj Core.stock (fun _ _ => by rfl) ..)
    · exact (hcore Core.sregs (fun _ _ => by rfl) (fun _ _ => by rfl)).trans (State.modShelf_proj Core.sregs (fun _ _ => by rfl) ..)
    · exact (hcore Core.ctrs (fun _ _ => by rfl) (fun _ _ => by rfl)).trans (State.modShelf_proj Core.ctrs (fun _ _ => by rfl) ..)

end Sys2Proof.Proofs
end

section
/-! PROOFS. A loom's timers, its recomputes and its treadle (R72, R74, R83 to R87). O11 is settled at the end. -/

namespace Sys2Proof.Safety

open Sys2Proof.Machine

variable {s t : State} {f : Reach}

theorem Kept.setAbs (h : Kept f s t) (hf : f.abs = true) (x : Absorb) : Kept f s { t with abs := x } :=
  { h with abs := fun e => by simp [hf] at e }

end Sys2Proof.Safety

namespace Sys2Proof.Machine

open Sys2Proof.Safety Sys2Proof.Claims

variable {s : State} {c l : Nat}

/-! #### Error bits and correction events -/

/-- A sticky error bit is set (R505). -/
theorem State.bit_setErr_same (code inst : Nat) {b : Nat} (hb : b < 64) :
    bit ((s.setErr code inst b).reg code inst 0 hErr).toNat b = true := by
  have hfld : (s.setErr code inst b).fld code inst 0 hErr b b = 1 := by
    have := s.fld_setFld_same code inst 0 hErr 1 hb (Nat.le_refl b)
    rwa [Nat.add_sub_cancel_left] at this
  simpa [State.fld, bits, bit, Nat.testBit_eq_decide_div_mod_eq, Nat.shiftRight_eq_div_pow] using hfld

theorem State.castTrigger_kept (r : CastReq) : Kept { abs := true } s (s.castTrigger r) := by
  unfold State.castTrigger
  split
  · exact (Kept.refl ..).setAbs rfl _
  · exact (Kept.refl ..).setAbs rfl _

theorem State.tileError_kept (c : Nat) : Kept { abs := true } s (s.tileError c) := by
  unfold State.tileError
  dsimp only
  generalize (if s.abs.tileCeAt = s.timeUs / 1000000 then s.abs.tileCe else []) = old
  split
  · exact ((Kept.refl ..).setAbs rfl _).trans (State.castTrigger_kept _)
  · exact (Kept.refl ..).setAbs rfl _

theorem State.reg_tileError (code inst bank off : Nat) : (s.tileError c).reg code inst bank off = s.reg code inst bank off :=
  State.reg_congr ((State.tileError_kept c).regs rfl).1 ..

/-! #### Recompute (R87) -/

/-- A recompute is counted, and its cause's error bit set (R87). -/
def State.recomputeSeen (s : State) (c cause : Nat) : State := (s.bump pgLoom c 0 rLoomRecompute 1).setErr pgLoom c cause

theorem State.recomputeSeen_count (cause : Nat) :
    (s.recomputeSeen c cause).reg pgLoom c 0 rLoomRecompute = s.reg pgLoom c 0 rLoomRecompute + 1 :=
  (State.reg_setReg_other _ _ (regKey_off (by decide))).trans (s.reg_bump_same ..)

theorem State.recomputeSeen_kept (cause : Nat) : Kept { regs := true } s (s.recomputeSeen c cause) :=
  ((Kept.refl ..).bump rfl ..).setErr rfl ..

/-- The state after a loom's weights are dropped for a recompute, its orders set back by g. -/
def State.recomputed (s : State) (c l cause : Nat) (g : LoomOrd → LoomOrd) : State :=
  ((s.recomputeSeen c cause).tileError c).modLoom c l (fun m => { m with stage := [], shadow := none, active := none, ords := m.ords.map g })

/-- A recompute sets the order that issues back to the start of its output tile, its accumulators empty. -/
def SetsBack (s : State) (c : Nat) (o : LoomOrd) (g : LoomOrd → LoomOrd) : Prop :=
  ∀ x, ((g x).flight = x.flight) ∧ (x.flight = o.flight → (g x).accs = [] ∧ ((s.loomF c o.flight).segOut = false → (g x).kt = 0))

/-- What a recompute of order o makes of an order x of its loom: o begins its tile, or its K-segment, again with a new copy of the
stockroom; behind it, every order's tiles are fetched again (R87). -/
def State.setBack (s : State) (c : Nat) (o : LoomOrd) (acts : Option Mem) (x : LoomOrd) : LoomOrd :=
  let f := s.loomF c o.flight
  let kt0 := if f.segOut then o.kt * (loomGeom f).kd / 1024 * 1024 / (loomGeom f).kd else 0
  if x.flight = o.flight then
    let n := f.skipTo o.zmap (f.nTiles * f.kTiles) o.tile kt0
    { x with kt := kt0, fTile := n.1, fKt := n.2, accs := [], acts := acts, win := none, bad := true }
  else if decide (x.tile ≥ (s.loomF c x.flight).nTiles) then x
  else { x with fTile := 0, fKt := 0, zmap := [] }

theorem State.setBack_setsBack (o : LoomOrd) (acts : Option Mem) : SetsBack s c o (s.setBack c o acts) := by
  intro x
  unfold State.setBack
  dsimp only
  split
  · exact ⟨rfl, fun _ => ⟨rfl, fun hseg => by simp [hseg]⟩⟩
  next hne =>
    split
    · exact ⟨rfl, fun h => absurd h hne⟩
    · exact ⟨rfl, fun h => absurd h hne⟩

theorem exec_loomRecompute_order {o : LoomOrd} {cause : Nat} (hcause : cause < 3) (hcur : s.loomCur c l = some o)
    (hbad : (s.core c).stockBad = []) : ∃ acts,
      exec (.loomRecompute c l cause) s = .next (reachOrder.take s (s.recomputed c l cause (s.setBack c o acts))) := by
  have hmin : min cause 2 = cause := by omega
  have hcores : ((s.recomputeSeen c cause).tileError c).cores = s.cores :=
    ((State.tileError_kept c).cores rfl).trans ((State.recomputeSeen_kept cause).cores rfl)
  have hstock : (((s.recomputeSeen c cause).tileError c).core c).stockBad = [] := by rw [State.core_congr hcores, hbad]
  have hfields : ∀ fl, ((s.recomputeSeen c cause).tileError c).loomF c fl = s.loomF c fl :=
    State.loomF_congr (congrArg Core.flights (State.core_congr hcores c))
  show ∃ acts, execLoomRecompute c l cause s = _
  unfold execLoomRecompute
  rw [hcur]
  dsimp only
  rw [hmin, show (s.bump pgLoom c 0 rLoomRecompute 1).setErr pgLoom c cause = s.recomputeSeen c cause from rfl]
  simp only [State.loomStock_intact hstock, Bool.false_eq_true, if_false]
  split
  · simp only [hfields]
    exact ⟨_, rfl⟩
  · simp only [hfields]
    exact ⟨_, rfl⟩

theorem exec_loomRecompute_attend {cause : Nat} (hcause : cause < 3) (hcur : s.loomCur c l = none) (hattends : (s.core c).attends l = true) :
    exec (.loomRecompute c l cause) s = .next (reachOrder.take s (((s.recomputeSeen c cause).setErr pgAtt c 0).tileError c)) := by
  have hmin : min cause 2 = cause := by omega
  show execLoomRecompute c l cause s = _
  unfold execLoomRecompute
  simp only [hcur, hattends, hmin, if_true]
  rfl

/-- The pages LOOM_ and ATT_ of a core hold different registers. -/
theorem regKey_loom_ne_att (off off' : Nat) (h : off < 4096) (h' : off' < 4096) :
    regKey pgLoom (regInst pgLoom c) 0 off ≠ regKey pgAtt (regInst pgAtt c) 0 off' := by
  unfold regKey regInst pgLoom pgAtt
  simp
  omega

section Recompute

variable {cause : Nat} {g : LoomOrd → LoomOrd}

theorem State.recomputed_reg (off : Nat) :
    (s.recomputed c l cause g).reg pgLoom c 0 off = (s.recomputeSeen c cause).reg pgLoom c 0 off :=
  State.reg_tileError ..

theorem State.recomputed_loom (hl : l < 4) : (s.recomputed c l cause g).loom c l
    = { s.loom c l with stage := [], shadow := none, active := none, ords := (s.loom c l).ords.map g } := by
  have hcores : ((s.recomputeSeen c cause).tileError c).cores = s.cores :=
    ((State.tileError_kept c).cores rfl).trans ((State.recomputeSeen_kept cause).cores rfl)
  unfold State.recomputed
  rw [State.loom_modLoom_same hl, State.loom_congr hcores]

/-- What does not depend on a core's looms, a recompute leaves. -/
theorem State.recomputed_proj {α : Type} (π : Core → α) (h : ∀ x ls, π { x with looms := ls } = π x) (z : Nat) :
    π ((s.recomputed c l cause g).core z) = π (s.core z) :=
  (State.modLoom_proj π h ..).trans (congrArg π (State.core_congr ((State.tileError_kept c).cores rfl) z))

theorem State.recomputed_cores : CoresKept s (s.recomputed c l cause g) [c] :=
  CoresKept.modLoom (CoresKept.of_cores_eq ((State.tileError_kept c).cores rfl)) (List.mem_singleton_self c) _ _

theorem State.recomputed_kept : Kept { regs := true, cores := true, abs := true } s (s.recomputed c l cause g) :=
  (((State.recomputeSeen_kept cause).mono rfl).trans ((State.tileError_kept c).mono rfl)).modLoom rfl ..

/-- The order set back has empty accumulators, and begins its K range again unless it ends by segments. -/
theorem State.recomputed_ords (hl : l < 4) {o : LoomOrd} (hg : SetsBack s c o g) : ∀ x ∈ ((s.recomputed c l cause g).loom c l).ords,
    x.flight = o.flight → x.accs = [] ∧ ((s.loomF c o.flight).segOut = false → x.kt = 0) := by
  rw [State.recomputed_loom hl]
  simp only [List.mem_map]
  rintro x ⟨y, _, rfl⟩ hx
  obtain ⟨hflight, hback⟩ := hg y
  exact hback (hflight.symm.trans hx)

end Recompute

/-! #### The treadle (R83 to R86) -/

/-- The activity that a window ends with, treadle cycles among it: up to the band, within the governor's level (R83, R85). -/
def State.treadleTop (s : State) (c l act : Nat) : Nat :=
  let m := s.loom c l
  let floor_ := m.avg * (100 - s.fld pgLoom c 0 rLoomTreadle 20 16) / 100
  let band := match m.fixedBy with
    | some (_, lvl) => lvl * 10000
    | none => if ¬ s.fld pgLoom c 0 rLoomTreadle 31 31 = 1 then 0
        else if m.gap && act = 0 then min floor_ (m.level * 10000) else floor_
  let goal := if act = 0 then max band (s.pwr.tf * 10000) else band
  if s.thm.phase != 0 then min act 1000000 else max (min act 1000000) (min goal (s.pwr.tc * 10000))

/-- The running average after a window of this activity (R83). -/
def State.treadleAvg (s : State) (c l top : Nat) : Nat :=
  let m := s.loom c l
  let st := avgStep (max 1 (s.fld pgLoom c 0 rLoomTreadle 6 0)) (max m.avg top - min m.avg top)
  if m.avg ≤ top then min top (m.avg + s.freeIn st.1 st.2) else max top (m.avg - s.freeIn st.1 st.2)

/-- The treadle cycles of a window. -/
def treadleCycles (act top : Nat) : Nat := ceilDiv ((top - min act 1000000) * 256) 1000000

/-- The state after a window's average and level are noted. -/
def State.windowNoted (s : State) (c l act top : Nat) : State :=
  s.freeUsed.modLoom c l (fun m =>
    { m with avg := s.treadleAvg c l top, level := (top - min act 1000000) / 10000, gap := m.gap && act = 0 })

/-- The state after a window's treadle cycles and their energy are counted (R86). -/
def State.treadleCounted (s : State) (c cyc : Nat) : State :=
  let s' := s.bump pgLoom c 0 rLoomTreadleCyc cyc
  (s'.setReg pgLoom c 0 rLoomTreadleUj (s'.reg pgLoom c 0 rLoomTreadleUj + s'.freeVal)).freeUsed

theorem exec_treadleWindow (act : Nat) : exec (.treadleWindow c l act) s = .next (reachCore.take s (
    if treadleCycles act (s.treadleTop c l act) = 0 then s.windowNoted c l act (s.treadleTop c l act)
    else (s.windowNoted c l act (s.treadleTop c l act)).treadleCounted c (treadleCycles act (s.treadleTop c l act)))) := by
  show execTreadleWindow c l act s = _
  unfold execTreadleWindow State.treadleCounted State.windowNoted treadleCycles State.treadleAvg State.treadleTop
  simp only [Bool.not_eq_true', decide_eq_false_iff_not] <;> rfl

/-- While an adjournment runs, or where no treadle is in force and a row issues, no treadle cycle is added (R83, R421). -/
theorem State.treadleTop_idle {act : Nat} (h : s.thm.phase ≠ 0 ∨ ((s.loom c l).fixedBy = none ∧ s.fld pgLoom c 0 rLoomTreadle 31 31 = 0 ∧ act ≠ 0)) :
    s.treadleTop c l act = min act 1000000 := by
  unfold State.treadleTop
  rcases h with h | ⟨hfixed, hoff, hact⟩
  · simp [h]
  · simp [hfixed, hoff, hact]

/-- A fixed level, within the governor's, brings the activity up to it (R85, R157). -/
theorem State.treadleTop_fixed {act f lvl : Nat} (hphase : s.thm.phase = 0) (hfixed : (s.loom c l).fixedBy = some (f, lvl)) (hact : act ≠ 0)
    (hlow : act < min lvl s.pwr.tc * 10000) : s.treadleTop c l act = min lvl s.pwr.tc * 10000 := by
  have hmin : min (lvl * 10000) (s.pwr.tc * 10000) = min lvl s.pwr.tc * 10000 := by omega
  simp only [State.treadleTop, hfixed, hact, hphase, if_false, hmin]
  simp only [bne_self_eq_false, Bool.false_eq_true, if_false]
  omega

/-- The average moves toward the activity, and not past it (R83). -/
theorem State.treadleAvg_between (top : Nat) :
    min (s.loom c l).avg top ≤ s.treadleAvg c l top ∧ s.treadleAvg c l top ≤ max (s.loom c l).avg top := by
  unfold State.treadleAvg
  dsimp only
  split
  · omega
  · omega

theorem treadleCycles_self (act : Nat) : treadleCycles act (min act 1000000) = 0 := by simp [treadleCycles, ceilDiv]

theorem treadleCycles_of_lt {act top : Nat} (hlt : act < top) (htop : top ≤ 1000000) :
    treadleCycles act top = ((top - act) * 256 + 999999) / 1000000 ∧ treadleCycles act top ≠ 0 := by
  unfold treadleCycles ceilDiv
  rw [Nat.min_eq_left (by omega)]
  omega

section Window

variable {act top : Nat}

theorem State.windowNoted_loom (hl : l < 4) : (s.windowNoted c l act top).loom c l = { s.loom c l with
    avg := s.treadleAvg c l top, level := (top - min act 1000000) / 10000, gap := (s.loom c l).gap && decide (act = 0) } :=
  State.loom_modLoom_same hl _

theorem State.windowNoted_loom_other {k : Nat} (hk : k ≠ l) : (s.windowNoted c l act top).loom c k = s.loom c k :=
  State.loom_modLoom_other hk _

theorem State.windowNoted_kept : Kept { cores := true, free := true } s (s.windowNoted c l act top) :=
  ((Kept.refl ..).freeUsed rfl).modLoom rfl ..

theorem State.windowNoted_cores : CoresKept s (s.windowNoted c l act top) [c] :=
  CoresKept.modLoom (CoresKept.of_cores_eq rfl) (List.mem_singleton_self c) _ _

theorem State.treadleCounted_kept (cyc : Nat) : Kept { regs := true, free := true } s (s.treadleCounted c cyc) :=
  (((Kept.refl ..).bump rfl ..).setReg rfl ..).freeUsed rfl

theorem State.treadleCounted_cyc (cyc : Nat) : (s.treadleCounted c cyc).reg pgLoom c 0 rLoomTreadleCyc
    = s.reg pgLoom c 0 rLoomTreadleCyc + BitVec.ofNat 64 cyc :=
  (State.reg_setReg_other _ _ (regKey_off (by decide))).trans (s.reg_bump_same ..)

theorem State.treadleCounted_uj (cyc : Nat) : (s.treadleCounted c cyc).reg pgLoom c 0 rLoomTreadleUj
    = s.reg pgLoom c 0 rLoomTreadleUj + Config.free s.freeCtr := by
  have hother : (s.bump pgLoom c 0 rLoomTreadleCyc cyc).reg pgLoom c 0 rLoomTreadleUj = s.reg pgLoom c 0 rLoomTreadleUj :=
    State.reg_setReg_other _ _ (regKey_off (by decide))
  refine (State.reg_setReg_same ..).trans ?_
  rw [hother]
  rfl

end Window

/-- A window that falls short of its treadle's activity counts the missing activity, with its energy (R83, R86). -/
theorem treadleWindow_counts (hl : l < 4) {act top : Nat} (htop : s.treadleTop c l act = top) (hlt : act < top) (hfull : top ≤ 1000000) :
    ∃ t, exec (.treadleWindow c l act) s = .next t
      ∧ t.reg pgLoom c 0 rLoomTreadleCyc = s.reg pgLoom c 0 rLoomTreadleCyc + BitVec.ofNat 64 (((top - act) * 256 + 999999) / 1000000)
      ∧ (t.loom c l).level = (top - act) / 10000
      ∧ t.reg pgLoom c 0 rLoomTreadleUj = s.reg pgLoom c 0 rLoomTreadleUj + Config.free (s.freeCtr + 1)
      ∧ (∀ k, k ≠ l → t.loom c k = s.loom c k) ∧ CoresKept s t [c] ∧ Kept { regs := true, cores := true, free := true } s t := by
  obtain ⟨hcyc, hne⟩ := treadleCycles_of_lt hlt hfull
  have hcores : ∀ cyc, ((s.windowNoted c l act top).treadleCounted c cyc).cores = (s.windowNoted c l act top).cores := fun _ => rfl
  have hkept : ∀ cyc, Kept { regs := true, cores := true, free := true } s ((s.windowNoted c l act top).treadleCounted c cyc) := fun cyc =>
    (State.windowNoted_kept.mono rfl).trans ((State.treadleCounted_kept cyc).mono rfl)
  have hexec := exec_treadleWindow (s := s) (c := c) (l := l) act
  rw [htop, if_neg hne, hcyc, ((hkept _).mono (g := reachCore) rfl).take_eq] at hexec
  refine ⟨_, hexec, State.treadleCounted_cyc _, ?_, State.treadleCounted_uj _, fun k hk => ?_,
    CoresKept.trans_of_cores_eq State.windowNoted_cores (hcores _), hkept _⟩
  · rw [State.loom_congr (hcores _), State.windowNoted_loom hl, Nat.min_eq_left (by omega)]
  · rw [State.loom_congr (hcores _), State.windowNoted_loom_other hk]

/-- A gap's expiry lowers the level of a loom that has one by a free step (R83). -/
def State.gapNoted (s : State) (c l : Nat) : State :=
  s.freeUsed.modLoom c l (fun m => { m with level := s.freeIn 0 ((s.loom c l).level - 1), gap := true })

theorem exec_treadleGapExpired (h : (s.loom c l).level ≠ 0) : exec (.treadleGapExpired c l) s = .next (s.gapNoted c l) := by
  have hkept : Kept { cores := true, free := true } s (s.gapNoted c l) := ((Kept.refl ..).freeUsed rfl).modLoom rfl ..
  show execTreadleGapExpired c l s = _
  unfold execTreadleGapExpired
  simp only [h, if_false]
  exact congrArg _ (hkept.mono rfl).take_eq

theorem State.freeIn_lt {n : Nat} (h : n ≠ 0) : s.freeIn 0 (n - 1) < n := by
  unfold State.freeIn
  have := Nat.mod_lt (Config.free s.freeCtr).toNat (show 0 < n - 1 + 1 - 0 by omega)
  omega

/-! #### Timers (R72, R74) -/

theorem exec_fillWindowExpired (place : Nat) : exec (.fillWindowExpired c l place) s = .next (s.modLoom c l (fun m => { m with
    ords := m.ords.mapIdx (fun i o => if i = place ∧ o.rows = none then { o with expired := true } else o) })) := by
  show execFillWindowExpired c l place s = _
  unfold execFillWindowExpired
  simp only [Bool.and_eq_true, decide_eq_true_eq, Option.isNone_iff_eq_none]
  exact congrArg _ (((Kept.refl (f := { cores := true }) (s := s)).modLoom rfl ..).mono rfl).take_eq

/-- The state in which none of a loom's orders pauses. -/
def State.unpaused (s : State) (c l : Nat) : State := s.modLoom c l (fun m => { m with ords := m.ords.map (fun o => { o with pause := false }) })

theorem exec_boundaryPauseEnd_waits (h : ∃ x ∈ (s.core c).shelf.getD l [], x.issued = true ∧ x.full = false) :
    exec (.boundaryPauseEnd c l) s = .next s := by
  have hany : ((s.core c).shelf.getD l []).any (fun x => x.issued && !x.full) = true := by simpa using h
  show execBoundaryPauseEnd c l s = _
  unfold execBoundaryPauseEnd
  rw [if_pos hany, (Kept.refl _ s).take_eq]

theorem exec_boundaryPauseEnd_ends (h : ∀ x ∈ (s.core c).shelf.getD l [], x.issued = true → x.full = true) :
    exec (.boundaryPauseEnd c l) s = .next (s.unpaused c l) := by
  have hany : ¬ ((s.core c).shelf.getD l []).any (fun x => x.issued && !x.full) = true := by simpa using h
  have hkept : Kept { cores := true } s (s.unpaused c l) := (Kept.refl ..).modLoom rfl ..
  show execBoundaryPauseEnd c l s = _
  unfold execBoundaryPauseEnd
  rw [if_neg hany]
  exact congrArg _ (hkept.mono rfl).take_eq

end Sys2Proof.Machine

namespace Sys2Proof.Proofs

open Sys2Proof Sys2Proof.Machine Sys2Proof.Safety Sys2Proof.Claims

/-- Settles O11, one event at a time. -/
theorem loomTimersTreadlesAndRecompute : Obligations.LoomTimersTreadlesAndRecompute := by
  unfold Obligations.LoomTimersTreadlesAndRecompute
  refine ⟨⟨fun s c l hl => ⟨fun place => ?expires, exec_boundaryPauseEnd_waits, fun hfull => ?ends⟩,
      fun s c l cause o hl hcause hcur hbad => ?order, fun s c l cause hl hcause hcur hattends => ?attend⟩,
    ⟨fun s c l act hl => ⟨fun hidle => ?idle, fun f lvl hphase hfixed hact hlow hmax => ?fixed⟩, fun s c l hl hlevel => ?gap⟩⟩
  case expires =>
    exact ⟨_, exec_fillWindowExpired place, by rw [State.loom_modLoom_same hl], fun k hk => State.loom_modLoom_other hk _,
      CoresKept.modLoom CoresKept.refl (List.mem_singleton_self c) _ _, (Kept.refl ..).modLoom rfl ..⟩
  case ends =>
    have hords : ((s.unpaused c l).loom c l).ords = (s.loom c l).ords.map (fun o => { o with pause := false }) := by
      rw [State.unpaused, State.loom_modLoom_same hl]
    refine ⟨_, exec_boundaryPauseEnd_ends hfull, fun o ho => ?_, by rw [hords, List.length_map], fun k hk => State.loom_modLoom_other hk _,
      CoresKept.modLoom CoresKept.refl (List.mem_singleton_self c) _ _, (Kept.refl ..).modLoom rfl ..⟩
    rw [hords] at ho
    obtain ⟨x, _, rfl⟩ := List.mem_map.1 ho
    rfl
  case order =>
    obtain ⟨acts, hexec⟩ := exec_loomRecompute_order hcause hcur hbad
    have hloom := State.recomputed_loom (s := s) (c := c) (cause := cause) (g := s.setBack c o acts) hl
    rw [(State.recomputed_kept.mono (g := reachOrder) rfl).take_eq] at hexec
    refine ⟨_, hexec, ?_, ?_, by rw [hloom], by rw [hloom], by rw [hloom], State.recomputed_ords hl (State.setBack_setsBack o acts),
      State.recomputed_proj Core.shelf (fun _ _ => by rfl) c, State.recomputed_proj Core.stock (fun _ _ => by rfl) c,
      State.recomputed_cores, State.recomputed_kept⟩
    · rw [State.recomputed_reg, State.recomputeSeen_count]
    · rw [State.recomputed_reg]
      exact State.bit_setErr_same _ _ (by omega)
  case attend =>
    have hkept : Kept { regs := true, abs := true } s (((s.recomputeSeen c cause).setErr pgAtt c 0).tileError c) :=
      (((State.recomputeSeen_kept cause).mono rfl).setErr rfl ..).trans ((State.tileError_kept c).mono rfl)
    have hother : ∀ off < 4096, (((s.recomputeSeen c cause).setErr pgAtt c 0).tileError c).reg pgLoom c 0 off
        = (s.recomputeSeen c cause).reg pgLoom c 0 off := fun off hoff =>
      (State.reg_tileError ..).trans (State.reg_setReg_other _ _ (regKey_loom_ne_att off hErr hoff (by decide)))
    have hexec := exec_loomRecompute_attend hcause hcur hattends
    rw [(hkept.mono (g := reachOrder) rfl).take_eq] at hexec
    refine ⟨_, hexec, ?_, ?_, ?_, hkept⟩
    · rw [hother _ (by decide), State.recomputeSeen_count]
    · rw [hother _ (by decide)]
      exact State.bit_setErr_same _ _ (by omega)
    · rw [State.reg_tileError]
      exact State.bit_setErr_same _ _ (by decide)
  case idle =>
    have hexec := exec_treadleWindow (s := s) (c := c) (l := l) act
    have hloom := State.windowNoted_loom (s := s) (c := c) (act := act) (top := min act 1000000) hl
    have havg := State.treadleAvg_between (s := s) (c := c) (l := l) (min act 1000000)
    rw [State.treadleTop_idle hidle, if_pos (treadleCycles_self act), (State.windowNoted_kept.mono (g := reachCore) rfl).take_eq] at hexec
    refine ⟨_, hexec, ?_, rfl, ?_, ?_, rfl, State.windowNoted_cores, State.windowNoted_kept⟩
    · rw [hloom]
      simp
    · rw [hloom]
      exact havg.1
    · rw [hloom]
      exact havg.2
  case fixed =>
    exact treadleWindow_counts hl (State.treadleTop_fixed hphase hfixed hact hlow) hlow (by omega)
  case gap =>
    have hloom : (s.gapNoted c l).loom c l = { s.loom c l with level := s.freeIn 0 ((s.loom c l).level - 1), gap := true } :=
      State.loom_modLoom_same hl _
    refine ⟨_, exec_treadleGapExpired hlevel, ?_, rfl, rfl, fun k hk => State.loom_modLoom_other hk _,
      CoresKept.modLoom (CoresKept.of_cores_eq rfl) (List.mem_singleton_self c) _ _, ((Kept.refl ..).freeUsed rfl).modLoom rfl ..⟩
    rw [hloom]
    exact State.freeIn_lt hlevel

end Sys2Proof.Proofs
end

section
/-! PROOFS. Registers whose write starts something (R88, R192, R202, R312, R374, R405, R455, R481). O48 is settled at the end. -/

namespace Sys2Proof.Machine

open Sys2Proof.Safety Sys2Proof.Claims

variable {s t : State} {fn code inst o : Nat} {wide : Bool}

/-! #### A write that meets its register -/

theorem State.regAccess_meets (h : Meets s fn code inst o) (v : Nat) :
    s.regAccess fn code inst o wide v = s.writeAccess fn code inst o wide v := by
  obtain ⟨hon, hhit⟩ := h
  simp [State.regAccess, hhit, hon, State.writeHit]

/-- An 8 B write of a 64-bit register is one write (R502). -/
theorem State.writeAccess_wide {d : RegDef} (hd : regFind code o = some d) (hw : d.wide = true) (v : Nat) :
    s.writeAccess fn code inst o true v = State.writeReg fn (s.accessed fn code inst) code inst o v := by
  unfold State.writeAccess State.writePage
  simp only [hd, hw, Bool.not_true, Bool.false_eq_true, if_false, if_true]
  rfl

/-- A 4 B write of a 32-bit register that meets it, of a page without sessions. -/
theorem State.regAccess_narrow {d : RegDef} (h : Meets s fn code inst o) (hsec : code ≠ pgSec) (ho : 0x40 ≤ o)
    (hd : regFind code o = some d) (hw : d.wide = false) (v : Word) :
    s.regAccess fn code inst o false v.toNat = State.writeReg fn (s.dropLatch fn code inst) code inst o v.toNat := by
  rw [State.regAccess_meets h, State.writeAccess_narrow ho hd hw, State.accessed_of_ne_sec hsec, Nat.mod_eq_of_lt v.isLt]

/-- An 8 B write of a 64-bit register that meets it, of a page without sessions. -/
theorem State.regAccess_wide {d : RegDef} (h : Meets s fn code inst o) (hsec : code ≠ pgSec)
    (hd : regFind code o = some d) (hw : d.wide = true) (v : Nat) :
    s.regAccess fn code inst o true v = State.writeReg fn (s.dropLatch fn code inst) code inst o v := by
  rw [State.regAccess_meets h, State.writeAccess_wide hd hw, State.accessed_of_ne_sec hsec]

theorem State.writeReg_half {half w : Nat} (hpf1 : pf1Only code o = false) (hhalf : pageHalf code inst = some half) :
    State.writeReg fn s code inst o w = s.writeHalf code inst o w := by
  simp [State.writeReg, hpf1, hhalf]

theorem State.dropLatch_kept : Kept { regs := true } s (s.dropLatch fn code inst) := (Kept.refl ..).dropLatch rfl ..

theorem State.refused_kept : Kept { regs := true } s ((s.dropLatch fn code inst).noteRefuse code inst) :=
  State.dropLatch_kept.noteRefuse rfl ..

/-- A refused write has no effect but its count and its sticky bit (R10). -/
theorem refusedAt_noteRefuse (hinst : regInst code inst = inst) :
    RefusedAt s ((s.dropLatch fn code inst).noteRefuse code inst) code inst := by
  refine ⟨?_, State.fld_setFld_same _ _ _ _ _ _ (by decide) (by decide), ?_, State.refused_kept.mono rfl⟩
  · exact (State.reg_setReg_other _ _ (regKey_off (by decide))).trans (State.reg_setReg_same ..)
  · exact ((RegsKept.of_regs_eq (t := s.dropLatch fn code inst) rfl).setReg _ (by simp [hinst])).setReg _ (by simp [hinst])

/-! #### LOOM_SHELF -/

theorem regFind_loomShelf : regFind pgLoom rLoomShelf = some ⟨0x048, 4, 1, false, false,
    [⟨15, 12, .rw, 4, 0, 15⟩, ⟨11, 8, .rw, 4, 0, 15⟩, ⟨7, 4, .rw, 4, 0, 15⟩, ⟨3, 0, .rw, 4, 0, 15⟩]⟩ := by decide

/-- The register's word with the four quotas of the word written. -/
def quotasOver (old w : Nat) : Nat :=
  setBits (setBits (setBits (setBits old 15 12 (bits w 15 12)) 11 8 (bits w 11 8)) 7 4 (bits w 7 4)) 3 0 (bits w 3 0)

theorem bits_quotasOver (old w : Nat) : bits (quotasOver old w) 15 0 = bits w 15 0 := by
  simp only [quotasOver, setBits, bits, Nat.shiftRight_eq_div_pow, Nat.shiftLeft_eq, Nat.reducePow, Nat.reduceAdd, Nat.reduceSub,
    Nat.div_one, Nat.mul_one]
  omega

theorem clampNat_nibble (v : Nat) {hi lo : Nat} (h : hi + 1 - lo = 4) : clampNat 0 15 (bits v hi lo) = bits v hi lo := by
  have hlt : bits v hi lo < 2 ^ (hi + 1 - lo) := Nat.mod_lt _ (Nat.two_pow_pos _)
  rw [h] at hlt
  simp [clampNat]
  omega

/-- No quota is out of its field's range. -/
theorem takes_loomShelf (old w : Nat) : RegDef.takes ⟨0x048, 4, 1, false, false,
    [⟨15, 12, .rw, 4, 0, 15⟩, ⟨11, 8, .rw, 4, 0, 15⟩, ⟨7, 4, .rw, 4, 0, 15⟩, ⟨3, 0, .rw, 4, 0, 15⟩]⟩ old w = (quotasOver old w, 0) := by
  simp [RegDef.takes, clampNat_nibble, quotasOver, b2n]

/-- The hub's test of R88 on a word of quotas. -/
def quotasFit (w : Nat) : Bool :=
  (List.range 4).all (fun i => 1 ≤ bits w (4 * i + 3) (4 * i) && bits w (4 * i + 3) (4 * i) ≤ 13)
    && bits w 3 0 + bits w 7 4 + bits w 11 8 + bits w 15 12 = 16

theorem quotasFit_iff (w : Nat) : quotasFit w = true ↔ QuotasAllowed w := by
  simp only [quotasFit, QuotasAllowed, Bool.and_eq_true, List.all_eq_true, List.mem_range, decide_eq_true_eq]

/-- Quotas that fit stand as written; any others become 4 each, which is one clamp (R8, R88). -/
theorem halfTies_loomShelf (w v : Nat) : halfTies pgLoom rLoomShelf w v = if quotasFit w then (v, 0) else (0x4444, 1) := rfl

/-- The state after a LOOM_SHELF write that stores a word with n clamps. -/
def State.shelfWritten (s : State) (fn core word n : Nat) : State :=
  ((s.dropLatch fn pgLoom core).setReg pgLoom core 0 rLoomShelf (BitVec.ofNat 64 word)).noteClamps pgLoom core n

theorem State.shelfWritten_kept (core word n : Nat) : Kept { regs := true } s (s.shelfWritten fn core word n) :=
  (State.dropLatch_kept.setReg rfl ..).noteClamps rfl ..

theorem State.shelfWritten_fld (core word n : Nat) : (s.shelfWritten fn core word n).fld pgLoom core 0 rLoomShelf 15 0 = bits word 15 0 := by
  rw [State.shelfWritten, State.fld, State.reg_noteClamps_other _ (regKey_ne_of_off (by decide)) (regKey_ne_of_off (by decide)),
    ← State.fld, State.fld_setReg_same _ _ _ _ _ _ _ _ (by decide) (by decide)]

theorem exec_loomShelfWrite {core word n : Nat} {v : Word} (h : Meets s fn pgLoom core rLoomShelf)
    (hties : halfTies pgLoom rLoomShelf v.toNat (quotasOver (s.reg pgLoom core 0 rLoomShelf).toNat v.toNat) = (word, n)) :
    exec (.loomShelfWrite fn core v) s = .next (s.shelfWritten fn core word n) := by
  have hwrite : s.regAccess fn pgLoom core rLoomShelf false v.toNat = s.shelfWritten fn core word n := by
    rw [State.regAccess_narrow h (by decide) (by decide) regFind_loomShelf rfl,
      State.writeReg_half (half := coreHalf core) rfl rfl]
    have hrefuses : (s.dropLatch fn pgLoom core).halfRefuses pgLoom core 0 rLoomShelf = false := rfl
    have hreg : (s.dropLatch fn pgLoom core).reg pgLoom core 0 rLoomShelf = s.reg pgLoom core 0 rLoomShelf := rfl
    simp [State.writeHalf, regFind_loomShelf, takes_loomShelf, hrefuses, hreg, hties, State.shelfWritten]
  show Host.Outcome.next (reachLink.take s (s.regAccess fn pgLoom core rLoomShelf false v.toNat)) = _
  rw [hwrite, ((State.shelfWritten_kept ..).mono rfl).take_eq]

/-- LOOM_SHELF takes allowed quotas, without a clamp (R88). -/
theorem exec_loomShelfWrite_allowed {core : Nat} {v : Word} (h : Meets s fn pgLoom core rLoomShelf) (hq : QuotasAllowed v.toNat) :
    ∃ t, exec (.loomShelfWrite fn core v) s = .next t ∧ t.fld pgLoom core 0 rLoomShelf 15 0 = bits v.toNat 15 0
      ∧ t.reg pgLoom core 0 hClamp = s.reg pgLoom core 0 hClamp ∧ Kept { regs := true } s t := by
  refine ⟨_, exec_loomShelfWrite h ((halfTies_loomShelf ..).trans (if_pos ((quotasFit_iff _).2 hq))), ?_, ?_, State.shelfWritten_kept ..⟩
  · rw [State.shelfWritten_fld, bits_quotasOver]
  · exact State.reg_setReg_other _ _ (regKey_ne_of_off (by decide))

/-- LOOM_SHELF sets 4 each for any other quotas (R88). -/
theorem exec_loomShelfWrite_refused {core : Nat} {v : Word} (h : Meets s fn pgLoom core rLoomShelf) (hq : ¬ QuotasAllowed v.toNat) :
    ∃ t, exec (.loomShelfWrite fn core v) s = .next t ∧ t.fld pgLoom core 0 rLoomShelf 15 0 = 0x4444 ∧ Kept { regs := true } s t :=
  ⟨_, exec_loomShelfWrite h ((halfTies_loomShelf ..).trans (if_neg (mt (quotasFit_iff _).1 hq))), State.shelfWritten_fld .., State.shelfWritten_kept ..⟩

end Sys2Proof.Machine

namespace Sys2Proof.Machine

open Sys2Proof.Safety Sys2Proof.Claims

variable {s t : State} {fn v : Nat}

/-! #### VLT_DISCARD -/

theorem regFind_vltDiscard :
    regFind pgVlt rVltDiscard = some ⟨0x050, 4, 1, true, false, [⟨50, 32, .wo, 0, 1, 262144⟩, ⟨17, 0, .wo, 0, 0, 262143⟩]⟩ := by decide

/-- The word of a discard of n granules from the granule `first`. -/
def discardWord (first n : Nat) : DWord := BitVec.ofNat 64 (n <<< 32 + first)

theorem discardWord_toNat {first n : Nat} (hfirst : first < 262144) (hn : n ≤ 262144) :
    (discardWord first n).toNat = n * 4294967296 + first := by
  rw [discardWord, BitVec.toNat_ofNat, Nat.shiftLeft_eq]
  omega

theorem discardWord_first {first n : Nat} (hfirst : first < 262144) (hn : n ≤ 262144) : bits (discardWord first n).toNat 17 0 = first := by
  rw [discardWord_toNat hfirst hn]
  simp only [bits, Nat.shiftRight_eq_div_pow]
  omega

theorem discardWord_count {first n : Nat} (hfirst : first < 262144) (hn : n ≤ 262144) : bits (discardWord first n).toNat 50 32 = n := by
  rw [discardWord_toNat hfirst hn]
  simp only [bits, Nat.shiftRight_eq_div_pow]
  omega

/-- A write of VLT_DISCARD goes to its half. -/
theorem exec_vltDiscard {w : State} (h : Meets s fn pgVlt v rVltDiscard) (x : DWord)
    (hw : (s.dropLatch fn pgVlt v).writeHalf pgVlt v rVltDiscard x.toNat = w) (hkept : Kept reachLink s w) :
    exec (.vltDiscard fn v x) s = .next w := by
  show Host.Outcome.next (reachLink.take s (s.regAccess fn pgVlt v rVltDiscard true x.toNat)) = _
  rw [State.regAccess_wide h (by decide) regFind_vltDiscard rfl, State.writeReg_half (half := siteHalf v) rfl rfl, hw, hkept.take_eq]

/-- The state after a discard of n granules from the granule `first` has begun (R191, R192). -/
def State.discardBegun (s : State) (fn v first n : Nat) : State :=
  ((s.dropLatch fn pgVlt v).modVault v (fun x => x.clearValid first n)).modVault v (fun x => { x with discard := some (first, n) })

theorem State.discardBegun_vault (first n : Nat) :
    (s.discardBegun fn v first n).vault v = { (s.vault v).clearValid first n with discard := some (first, n) } := by
  rw [State.discardBegun, State.vault_modVault_same, State.vault_modVault_same]
  rfl

theorem State.discardBegun_kept (first n : Nat) : Kept { regs := true, vaults := true } s (s.discardBegun fn v first n) :=
  ((State.dropLatch_kept.mono rfl).modVault rfl ..).modVault rfl ..

theorem State.discardBegun_vaults (first n : Nat) : VaultsKept s (s.discardBegun fn v first n) [v] :=
  ((VaultsKept.of_vaults_eq (t := s.dropLatch fn pgVlt v) rfl).modVault (List.mem_singleton_self v) _).modVault (List.mem_singleton_self v) _

/-- Cleared granules are no longer valid, and the others are as they were (R191). -/
theorem Vault.isValid_clearValid (x : Vault) (first n g : Nat) :
    (x.clearValid first n).isValid g = (x.isValid g && !(decide (first ≤ g) && decide (g < first + n))) := by
  unfold Vault.clearValid Vault.isValid
  rw [Bool.eq_iff_iff]
  simp

/-- While no snapshot and no migration needs its granules, a range is only cleared (R191). -/
theorem State.clearRange_alone (hsnap : s.snap = none) (hmigs : s.abs.migs = []) (first n : Nat) :
    s.clearRange v first n = s.modVault v (fun x => x.clearValid first n) := by
  simp [State.clearRange, State.snapRange, hsnap, hmigs]

theorem State.writeHalf_discard {first n : Nat} (hrange : first + n ≤ 262144) (hn : 1 ≤ n) (hfirst : first < 262144)
    (hserves : s.servingPart (s.vault v).part = false) (hfree : (s.vault v).discard = none) (hmode : (s.vault v).mode = .memory)
    (hsnap : s.snap = none) (hmigs : s.abs.migs = []) :
    (s.dropLatch fn pgVlt v).writeHalf pgVlt v rVltDiscard (discardWord first n).toNat = s.discardBegun fn v first n := by
  have hcount : min (clampNat 1 262144 n) (262144 - first) = n := by
    rw [clampNat_eq_min_max (by decide)]
    omega
  have haccepts : (s.dropLatch fn pgVlt v).halfRefuses pgVlt v 0 rVltDiscard = false := by
    show (decide (rVltDiscard = rVltDiscard) && (s.servingPart (s.vault v).part || (s.vault v).discard.isSome || (s.vault v).mode != .memory)) = false
    simp [hserves, hfree, hmode]
  have hstart : (s.dropLatch fn pgVlt v).discardStart v (discardWord first n).toNat = s.discardBegun fn v first n := by
    unfold State.discardStart
    rw [discardWord_first hfirst (by omega), discardWord_count hfirst (by omega)]
    simp only [hcount, State.clearRange_alone (s := s.dropLatch fn pgVlt v) hsnap hmigs]
    simp [b2n, State.noteClamps, State.discardBegun]
  simp [State.writeHalf, regFind_vltDiscard, haccepts, hstart]

theorem State.writeHalf_discard_refused (hserves : s.servingPart (s.vault v).part = true) (w : Nat) :
    (s.dropLatch fn pgVlt v).writeHalf pgVlt v rVltDiscard w = (s.dropLatch fn pgVlt v).noteRefuse pgVlt v := by
  have hrefuses : (s.dropLatch fn pgVlt v).halfRefuses pgVlt v 0 rVltDiscard = true := by
    show (decide (rVltDiscard = rVltDiscard) && (s.servingPart (s.vault v).part || (s.vault v).discard.isSome || (s.vault v).mode != .memory)) = true
    simp [hserves]
  simp [State.writeHalf, regFind_vltDiscard, hrefuses]

/-- Outside serving, a discard clears its range and runs (R191, R192). -/
theorem exec_vltDiscard_starts {first n : Nat} (h : Meets s fn pgVlt v rVltDiscard) (hrange : first + n ≤ 262144) (hn : 1 ≤ n)
    (hfirst : first < 262144) (hserves : s.servingPart (s.vault v).part = false) (hfree : (s.vault v).discard = none)
    (hmode : (s.vault v).mode = .memory) (hsnap : s.snap = none) (hmigs : s.abs.migs = []) :
    exec (.vltDiscard fn v (discardWord first n)) s = .next (s.discardBegun fn v first n) :=
  exec_vltDiscard h _ (State.writeHalf_discard hrange hn hfirst hserves hfree hmode hsnap hmigs) ((State.discardBegun_kept ..).mono rfl)

/-- While the vault's partition serves, a discard is refused (R192). -/
theorem exec_vltDiscard_refused (h : Meets s fn pgVlt v rVltDiscard) (hserves : s.servingPart (s.vault v).part = true) (x : DWord) :
    exec (.vltDiscard fn v x) s = .next ((s.dropLatch fn pgVlt v).noteRefuse pgVlt v) :=
  exec_vltDiscard h x (State.writeHalf_discard_refused hserves _) (State.refused_kept.mono rfl)

/-- A discard that nothing waits for ends, and no more (R192). -/
theorem exec_discardDone {d : Nat × Nat} (hruns : (s.vault v).discard = some d) (hheld : (s.vault v).held = []) :
    ∃ t, exec (.discardDone v) s = .next t ∧ t.vault v = { s.vault v with discard := none } ∧ VaultsKept s t [v]
      ∧ Kept { vaults := true } s t := by
  have hnone : ((s.modVault v (fun x => { x with discard := none })).vault v).held = [] := by rw [State.vault_modVault_same]; exact hheld
  have hrelease : (s.modVault v (fun x => { x with discard := none })).releaseHeld v
      = (s.modVault v (fun x => { x with discard := none })).modVault v (fun x => { x with held := [] }) := by
    rw [State.releaseHeld, hnone, List.foldl_nil]
  have hkept : Kept { vaults := true } s
      ((s.modVault v (fun x => { x with discard := none })).modVault v (fun x => { x with held := [] })) :=
    ((Kept.refl ..).modVault rfl ..).modVault rfl ..
  refine ⟨(s.modVault v (fun x => { x with discard := none })).modVault v (fun x => { x with held := [] }), ?_, ?_, ?_, hkept⟩
  · show Host.Outcome.next (reachLink.take s (if (s.vault v).discard.isNone then s else _)) = _
    rw [hruns, if_neg (by simp), hrelease, (hkept.mono rfl).take_eq]
  · rw [State.vault_modVault_same, State.vault_modVault_same, ← hheld]
  · exact ((VaultsKept.of_vaults_eq (t := s) rfl).modVault (List.mem_singleton_self v) _).modVault (List.mem_singleton_self v) _

end Sys2Proof.Machine
end


section
/-! PROOFS. The hub's registers whose write starts something (R312, R374, R405, R455, R481). -/

namespace Sys2Proof.Safety

open Sys2Proof.Machine

variable {s t : State} {f : Reach}

theorem Kept.setAlm (h : Kept f s t) (hf : f.alm = true) (m : SMap Word) : Kept f s { t with alm := m } :=
  { h with alm := fun e => by simp [hf] at e }

theorem Kept.setPwr (h : Kept f s t) (hf : f.pwr = true) (x : Power) : Kept f s { t with pwr := x } :=
  { h with pwr := fun e => by simp [hf] at e }

theorem Kept.setFab (h : Kept f s t) (hf : f.fab = true) (x : Fabric) : Kept f s { t with fab := x } :=
  { h with fab := fun e => by simp [hf] at e }

end Sys2Proof.Safety

namespace Sys2Proof.Machine

open Sys2Proof.Safety Sys2Proof.Claims

variable {s t : State} {fn : Nat}

/-! #### RNG_ALM_DATA -/

theorem regFind_rngAlmData : regFind pgRng rRngAlmData = some ⟨0x04C, 4, 1, false, false, [⟨31, 0, .rw, 0, 0, 4294967295⟩]⟩ := by decide

theorem State.writeReg_rngAlmData (w : Nat) : State.writeReg fn s pgRng 0 rRngAlmData w = s.almWrite (BitVec.ofNat 32 w) := by
  have hpf1 : pf1Only pgRng rRngAlmData = false := rfl
  have hhub : pageHalf pgRng 0 = none := rfl
  have htaken : s.devRefuses pgRng 0 rRngAlmData = false := rfl
  simp [State.writeReg, regFind_rngAlmData, hpf1, hhub, htaken]

theorem servesAny_eq_false_iff : s.parts.any (fun e => decide (e.2.st = .serving)) = false ↔ NothingServes s := by
  simp [NothingServes]

theorem exec_rngAlmDataWrite {w : State} {v : Word} (h : Meets s fn pgRng 0 rRngAlmData)
    (hw : (s.dropLatch fn pgRng 0).almWrite v = w) (hkept : Kept reachLink s w) : exec (.rngAlmDataWrite fn v) s = .next w := by
  show Host.Outcome.next (reachLink.take s (s.regAccess fn pgRng 0 rRngAlmData false v.toNat)) = _
  rw [State.regAccess_narrow h (by decide) (by decide) regFind_rngAlmData rfl, State.writeReg_rngAlmData, BitVec.ofNat_toNat,
    BitVec.setWidth_eq, hw, hkept.take_eq]

/-- The almanac takes a word at its address register's word, which advances (R312). -/
def State.almPut (s : State) (v : Word) : State :=
  State.setFld { s with alm := smPut s.alm (s.fld pgRng 0 0 rRngAlmAddr 13 0) v } pgRng 0 0 rRngAlmAddr 13 0
    ((s.fld pgRng 0 0 rRngAlmAddr 13 0 + 1) % 16384)

theorem State.almPut_kept (v : Word) : Kept { regs := true, alm := true } s (s.almPut v) :=
  ((Kept.refl ..).setAlm rfl _).setFld rfl ..

theorem State.fld_almPut (v : Word) : (s.almPut v).fld pgRng 0 0 rRngAlmAddr 13 0 = (s.fld pgRng 0 0 rRngAlmAddr 13 0 + 1) % 16384 :=
  (State.fld_setFld_same _ _ _ _ _ _ (by decide) (by decide)).trans (Nat.mod_mod ..)

/-- While nothing serves, the almanac takes the word and its address advances (R310, R312). -/
theorem exec_rngAlmDataWrite_stores {v : Word} (h : Meets s fn pgRng 0 rRngAlmData) (hidle : NothingServes s) :
    exec (.rngAlmDataWrite fn v) s = .next ((s.dropLatch fn pgRng 0).almPut v) :=
  exec_rngAlmDataWrite h (if_neg (by rw [Bool.not_eq_true]; exact servesAny_eq_false_iff.2 hidle))
    ((State.dropLatch_kept.mono rfl).trans ((State.almPut_kept v).mono rfl))

/-- While a partition serves, the write is refused (R312). -/
theorem exec_rngAlmDataWrite_refused {v : Word} (h : Meets s fn pgRng 0 rRngAlmData) (hserves : ¬ NothingServes s) :
    exec (.rngAlmDataWrite fn v) s = .next ((s.dropLatch fn pgRng 0).noteRefuse pgRng 0) :=
  exec_rngAlmDataWrite h (if_pos (Bool.eq_true_of_not_eq_false (mt servesAny_eq_false_iff.1 hserves)))
    (State.refused_kept.mono rfl)

/-! #### STW_CAST_REQ -/

theorem regFind_stwCastReq : regFind pgStw rStwCastReq = some ⟨784, 4, 1, false, false, [⟨8, 8, .wo, 0, 0, 1⟩, ⟨7, 0, .wo, 0, 0, 255⟩]⟩ := by
  decide

theorem State.writeReg_stwCastReq (w : Nat) : State.writeReg fn s pgStw 0 rStwCastReq w = s.castWrite w := by
  have hpf1 : pf1Only pgStw rStwCastReq = false := rfl
  have hhub : pageHalf pgStw 0 = none := rfl
  have htaken : s.devRefuses pgStw 0 rStwCastReq = false := rfl
  simp [State.writeReg, regFind_stwCastReq, hpf1, hhub, htaken]

/-- The castling that a word asks for. -/
def castAsked (w : Nat) : CastReq := ⟨bits w 7 0, 0, false, bit w 8⟩

theorem exec_stwCastReq {w : State} {v : Word} (h : Meets s fn pgStw 0 rStwCastReq)
    (hw : (s.dropLatch fn pgStw 0).castWrite v.toNat = w) (hkept : Kept reachDev s w) : exec (.stwCastReq fn v) s = .next w := by
  show Host.Outcome.next (reachDev.take s (s.regAccess fn pgStw 0 rStwCastReq false v.toNat)) = _
  rw [State.regAccess_narrow h (by decide) (by decide) regFind_stwCastReq rfl, State.writeReg_stwCastReq, hw, hkept.take_eq]

/-- A castling of an active core that has a destination, and of no half that castles, waits (R455). -/
theorem State.castWrite_queues {w : Nat} (hfree : s.castOf (coreHalf (castAsked w).logical) = none)
    (hactive : s.coreActive (castAsked w).logical = true) (hdest : (s.castDest (castAsked w)).1 ≠ 3)
    (hnew : s.abs.castWait.any (fun q => q.logical = (castAsked w).logical && q.vault = (castAsked w).vault) = false) :
    s.castWrite w = { s with abs := { s.abs with castWait := s.abs.castWait ++ [castAsked w] } } := by
  have hrequest : s.castRequest w = (s.castTrigger (castAsked w), false) := by
    show (if _ then _ else _) = _
    exact if_neg (by simp [castAsked] at hfree hactive hdest; simp [hfree, hactive, hdest])
  have htrigger : s.castTrigger (castAsked w) = { s with abs := { s.abs with castWait := s.abs.castWait ++ [castAsked w] } } :=
    if_neg (by rw [hnew]; simp)
  simp [State.castWrite, hrequest, htrigger]

/-- A castling of a core that is not active is refused (R455, R481). -/
theorem State.castWrite_refused {w : Nat} (hactive : s.coreActive (castAsked w).logical = false) :
    s.castWrite w = s.noteRefuse pgStw 0 := by
  have hrequest : s.castRequest w = (s, true) := by
    show (if _ then _ else _) = _
    exact if_pos (by simp [castAsked] at hactive; simp [hactive])
  simp [State.castWrite, hrequest]

end Sys2Proof.Machine
end

section
/-! PROOFS. Messages that leave this device, and the registers that flood them (R357, R374, R405). -/

namespace Sys2Proof.Machine

open Sys2Proof.Safety Sys2Proof.Claims

/-- What sending messages does: ports and the messages that wait move, and every message that left stays among those that left. -/
structure Sends (s t : State) : Prop where
  kept : Kept { regs := true, fab := true, sent := true } s t
  fab : t.fab = { s.fab with ports := t.fab.ports, waiting := t.fab.waiting }
  sent : s.sent ⊆ t.sent

namespace Sends

variable {s t u : State}

theorem refl (s : State) : Sends s s := ⟨Kept.refl .., rfl, List.Subset.refl _⟩

theorem trans (h : Sends s t) (h' : Sends t u) : Sends s u where
  kept := h.kept.trans h'.kept
  fab := by rw [h'.fab, h.fab]
  sent := List.Subset.trans h.sent h'.sent

theorem members (h : Sends s t) : t.fab.members = s.fab.members := by rw [h.fab]

theorem asSent_eq (h : Sends s t) (m : FMsg) : asSent t m = asSent s m := by
  unfold asSent
  rw [h.fab]

theorem guild (h : Sends s t) : t.fab.guild = s.fab.guild := by rw [h.fab]

theorem ite {c : Prop} [Decidable c] (h : Sends s t) (h' : Sends s u) : Sends s (if c then t else u) := by
  split
  · exact h
  · exact h'

theorem emit (h : Sends s t) (o : Out) : Sends s (t.emit o) := ⟨h.kept.emit rfl o, h.fab, List.Subset.trans h.sent (List.subset_cons_self ..)⟩

theorem bump (h : Sends s t) (code inst bank off n : Nat) : Sends s (t.bump code inst bank off n) :=
  ⟨h.kept.bump rfl .., h.fab, h.sent⟩

theorem modFport (h : Sends s t) (n : Nat) (g : FPort → FPort) : Sends s (t.modFport n g) :=
  h.trans ⟨(Kept.refl ..).setFab rfl _, rfl, List.Subset.refl _⟩

theorem setWaiting (h : Sends s t) (w : List (FMsg × Nat × Option Nat × Bool)) : Sends s { t with fab := { t.fab with waiting := w } } :=
  h.trans ⟨(Kept.refl ..).setFab rfl _, rfl, List.Subset.refl _⟩

theorem transmit (h : Sends s t) (port vc lane : Nat) (m : FMsg) : Sends s (t.transmit port vc lane m) := ((h.modFport ..).bump ..).emit _

/-- A message on its way leaves on its port, or waits (R355). -/
theorem forwardMsg (h : Sends s t) (m : FMsg) (vc : Nat) (inPort : Option Nat) (inHigh : Bool) : Sends s (t.forwardMsg m vc inPort inHigh) := by
  unfold State.forwardMsg
  cases t.msgPort m with
  | none => exact h.setWaiting _
  | some port => exact ite (h.setWaiting _) (h.transmit ..)

theorem sendMsg (h : Sends s t) (m : FMsg) : Sends s (t.sendMsg m) := (h.emit _).forwardMsg ..

theorem foldl_sendMsg {α : Type} (f : State → α → FMsg) (xs : List α) (h : Sends s t) : Sends s (xs.foldl (fun s x => s.sendMsg (f s x)) t) := by
  induction xs generalizing t with
  | nil => exact h
  | cons x xs ih => exact ih (h.sendMsg _)

theorem flood (h : Sends s t) (ty info : Nat) (data : List Byte) : Sends s (t.flood ty info data) := foldl_sendMsg (fun _ _ => _) _ h

theorem floodScope (h : Sends s t) (market : Bool) (ty info : Nat) (data : List Byte) : Sends s (t.floodScope market ty info data) := by
  unfold State.floodScope
  dsimp only
  split
  · exact foldl_sendMsg (fun _ _ => _) _ (h.flood ..)
  · exact h.flood ..

end Sends

variable {s t : State}

theorem State.mem_sent_sendMsg (m : FMsg) : .fab (asSent s m) ∈ (s.sendMsg m).sent :=
  ((Sends.refl _).forwardMsg (s := s.emit (.fab (asSent s m))) ..).sent (List.mem_cons_self ..)

/-- What each of a list of messages says has left once they have been sent. -/
theorem mem_sent_foldl_sendMsg {α : Type} (f : State → α → FMsg) (hf : ∀ {s t} x, Sends s t → f t x = f s x) {x : α} {xs : List α} (hx : x ∈ xs) :
    .fab (asSent s (f s x)) ∈ (xs.foldl (fun s y => s.sendMsg (f s y)) s).sent := by
  induction xs generalizing s with
  | nil => cases hx
  | cons y ys ih =>
    have hsent : Sends s (s.sendMsg (f s y)) := (Sends.refl s).sendMsg _
    rcases List.mem_cons.1 hx with rfl | hys
    · exact (Sends.foldl_sendMsg f ys (Sends.refl _)).sent (State.mem_sent_sendMsg _)
    · have := ih (s := s.sendMsg (f s y)) hys
      rwa [hsent.asSent_eq, hf x hsent] at this

/-- A flood sends its message to every other member (R405). -/
theorem State.mem_sent_flood {e : Nat × Nat} (he : e ∈ s.fab.members) (hother : e.1 ≠ s.fab.device) (ty info : Nat) (data : List Byte) :
    .fab (asSent s ⟨ty, e.1, 0, s.fab.guild, 0, false, info, data⟩) ∈ (s.flood ty info data).sent := by
  have hmem : e ∈ s.fab.members.filter (fun e => e.1 != s.fab.device) := by simp [he, hother]
  exact mem_sent_foldl_sendMsg (fun s e => ⟨ty, e.1, 0, s.fab.guild, 0, false, info, data⟩) (fun x h => by rw [h.guild]) hmem

/-! #### PWR_SHED_TX -/

variable {fn : Nat}

theorem regFind_pwrShedTx : regFind pgPwr rPwrShedTx = some ⟨0x04C, 4, 1, false, false, [⟨11, 0, .wo, 0, 0, 4095⟩]⟩ := by decide

theorem State.writeReg_pwrShedTx (w : Nat) : State.writeReg fn s pgPwr 0 rPwrShedTx w = s.shedWrite (bits w 11 0) := by
  have hpf1 : pf1Only pgPwr rPwrShedTx = false := rfl
  have hhub : pageHalf pgPwr 0 = none := rfl
  have htaken : s.devRefuses pgPwr 0 rPwrShedTx = false := rfl
  simp [State.writeReg, regFind_pwrShedTx, hpf1, hhub, htaken]

/-- The check for shedding counts an entry and notes whether the device sheds, and no more (R406). -/
theorem State.shedCheck_pwr : s.shedCheck.pwr = { s.pwr with shedding := s.shedLevel.isSome } := by
  unfold State.shedCheck
  dsimp only
  split <;> rfl

theorem State.shedCheck_sent : s.shedCheck.sent = s.sent := by
  unfold State.shedCheck
  dsimp only
  split <;> rfl

theorem State.shedCheck_kept : Kept { pwr := true, regs := true } s s.shedCheck := by
  unfold State.shedCheck
  dsimp only
  split
  · exact ((Kept.refl ..).bump rfl ..).setPwr rfl _
  · exact (Kept.refl ..).setPwr rfl _

theorem State.pwr_noteClamps (code inst n : Nat) : (s.noteClamps code inst n).pwr = s.pwr :=
  (Kept.noteClamps (Kept.refl { regs := true } s) rfl ..).pwr rfl

/-- An accepted level is held to its range, and its sequence is the last accepted (R405). -/
theorem State.shedTake_pwr (level q : Nat) : (s.shedTake level q).pwr.msgShed = (if level = 0 then 0 else min 2400 (max 350 level))
    ∧ (s.shedTake level q).pwr.shedRx = q ∧ (s.shedTake level q).pwr.shedTx = s.pwr.shedTx := by
  rw [State.shedTake, State.shedCheck_pwr, State.pwr_noteClamps, clampNat_eq_min_max (by decide)]
  exact ⟨rfl, rfl, rfl⟩

theorem State.shedTake_kept (level q : Nat) : Kept { pwr := true, regs := true } s (s.shedTake level q) :=
  (((Kept.refl ..).setPwr rfl _).noteClamps rfl ..).trans State.shedCheck_kept

/-- The state that takes the next sequence number for its own SHED messages (R405). -/
def State.shedNumbered (s : State) : State := { s with pwr := { s.pwr with shedTx := s.nextShed } }

theorem State.floodShed_sends (level : Nat) : Sends s.shedNumbered (s.floodShed level) := (Sends.refl s.shedNumbered).flood ..

theorem State.floodShed_pwr (level : Nat) : (s.floodShed level).pwr.shedTx = s.nextShed := by
  rw [(State.floodShed_sends level).kept.pwr rfl]
  rfl

theorem State.shedWrite_kept (level : Nat) : Kept { pwr := true, regs := true, fab := true, sent := true } s (s.shedWrite level) :=
  (((Kept.refl ..).setPwr rfl _).trans ((State.floodShed_sends level).kept.mono rfl)).trans ((State.shedTake_kept ..).mono rfl)

theorem State.mem_sent_shedWrite {level : Nat} (hlevel : level < 4096) {e : Nat × Nat} (he : e ∈ s.fab.members) (hother : e.1 ≠ s.fab.device) :
    .fab (asSent s ⟨0x0B, e.1, 0, s.fab.guild, 0, false, level + s.nextShed <<< 16, []⟩) ∈ (s.shedWrite level).sent := by
  have hsent := State.mem_sent_flood (s := s.shedNumbered) he hother 0x0B (level % 65536 + s.nextShed <<< 16) []
  rw [Nat.mod_eq_of_lt (by omega)] at hsent
  show _ ∈ (State.shedTake _ _ _).sent
  rw [(State.shedTake_kept ..).sent rfl]
  show _ ∈ (State.flood s.shedNumbered _ (level % 65536 + s.nextShed <<< 16) _).sent
  rw [Nat.mod_eq_of_lt (by omega)]
  exact hsent

/-- PWR_SHED_TX sets the level at this device, and floods it with the next sequence number (R405). -/
theorem exec_pwrShedTx {v : Word} (h : Meets s fn pgPwr 0 rPwrShedTx) :
    exec (.pwrShedTx fn v) s = .next ((s.dropLatch fn pgPwr 0).shedWrite (bits v.toNat 11 0)) := by
  have hkept : Kept reachDev s ((s.dropLatch fn pgPwr 0).shedWrite (bits v.toNat 11 0)) :=
    (State.dropLatch_kept.mono rfl).trans ((State.shedWrite_kept _).mono rfl)
  show Host.Outcome.next (reachDev.take s (s.regAccess fn pgPwr 0 rPwrShedTx false v.toNat)) = _
  rw [State.regAccess_narrow h (by decide) (by decide) regFind_pwrShedTx rfl, State.writeReg_pwrShedTx, hkept.take_eq]

/-! #### FAB_CTL -/

theorem regFind_fabCtl : regFind pgFab rFabCtl = some ⟨0x05C, 4, 1, false, false, [⟨1, 0, .wo, 0, 0, 3⟩]⟩ := by decide

theorem State.writeReg_fabCtl (w : Nat) : State.writeReg fn s pgFab 0 rFabCtl w = s.fabCtl w := by
  have hpf1 : pf1Only pgFab rFabCtl = false := rfl
  have hhub : pageHalf pgFab 0 = none := rfl
  have htaken : s.devRefuses pgFab 0 rFabCtl = false := rfl
  simp [State.writeReg, regFind_fabCtl, hpf1, hhub, htaken]

theorem exec_fabResetGuild {w : State} (h : Meets s fn pgFab 0 rFabCtl) (hw : (s.dropLatch fn pgFab 0).fabGuildReset = w)
    (hkept : Kept reachDev s w) : exec (.fabResetGuild fn) s = .next w := by
  show Host.Outcome.next (reachDev.take s (s.regAccess fn pgFab 0 rFabCtl false (1 : Word).toNat)) = _
  rw [State.regAccess_narrow h (by decide) (by decide) regFind_fabCtl rfl, State.writeReg_fabCtl]
  show Host.Outcome.next (reachDev.take s (s.dropLatch fn pgFab 0).fabGuildReset) = _
  rw [hw, hkept.take_eq]

theorem exec_fabResetMarket {w : State} (h : Meets s fn pgFab 0 rFabCtl) (hw : (s.dropLatch fn pgFab 0).fabMarketReset = w)
    (hkept : Kept reachDev s w) : exec (.fabResetMarket fn) s = .next w := by
  show Host.Outcome.next (reachDev.take s (s.regAccess fn pgFab 0 rFabCtl false (2 : Word).toNat)) = _
  rw [State.regAccess_narrow h (by decide) (by decide) regFind_fabCtl rfl, State.writeReg_fabCtl]
  show Host.Outcome.next (reachDev.take s (s.dropLatch fn pgFab 0).fabMarketReset) = _
  rw [hw, hkept.take_eq]

/-- How warm the device reads depends on its sensors and its state alone (R428). -/
theorem State.tooWarm_congr (hthm : t.thm = s.thm) (hboot : t.boot = s.boot) : t.tooWarm = s.tooWarm := by
  have hchan : t.chan t.now = s.chan s.now := by
    funext n
    unfold State.chan State.shows State.broken State.now
    rw [hthm]
  unfold State.tooWarm State.channels State.powered
  rw [hchan, hboot]

/-- Only the fused counters and keys, and what is pending, are out of the reach of device control. -/
theorem kept_reachDev (hsvn : t.sec.svn = s.sec.svn)
    (hfused : t.sec.keys = s.sec.keys ∧ t.sec.revoked0 = s.sec.revoked0 ∧ t.sec.seed = s.sec.seed ∧ t.sec.rom = s.sec.rom)
    (hpending : t.pending = s.pending) : Kept reachDev s t := by
  constructor
  case fuse => exact fun _ => hsvn
  case fused => exact hfused
  case pending => exact hpending
  all_goals exact fun e => absurd e (by decide)

theorem State.guildReset_kept : Kept reachDev s s.guildReset := kept_reachDev rfl ⟨rfl, rfl, rfl, rfl⟩ rfl

/-- A device reset leaves what lies in far memory (R432). -/
theorem State.farPort_guildReset (q : Nat) : (s.guildReset.farPort q).mem = (s.farPort q).mem := by
  show ((s.far.map (fun (p : FarPort) => ({ mem := p.mem, poison := p.poison } : FarPort))).getD q {}).mem = (s.far.getD q {}).mem
  simp only [List.getD_eq_getElem?_getD, List.getElem?_map]
  cases s.far[q]? <;> rfl

/-- A fabric RESET leaves what a device reset leaves (R374, R432). -/
theorem State.guildReset_leaves : ResetLeaves s s.guildReset where
  fuses := ⟨rfl, rfl, rfl, rfl⟩
  nor := ⟨rfl, rfl⟩
  outside := ⟨rfl, fun q _ => State.farPort_guildReset q⟩
  inside := ⟨rfl, rfl, rfl, rfl, rfl, rfl, rfl, rfl⟩
  sessions := ⟨rfl, rfl⟩

/-- What a reset leaves of a device that has only sent messages, it leaves of the device before them. -/
theorem Sends.resetLeaves {u : State} (h : Sends s t) (h' : ResetLeaves t u) : ResetLeaves s u where
  fuses := by rw [← h.kept.boot rfl, ← h.kept.sec rfl]; exact h'.fuses
  nor := by rw [← h.kept.sec rfl]; exact h'.nor
  outside := by
    have hfar : ∀ q, t.farPort q = s.farPort q := fun q => by unfold State.farPort; rw [h.kept.far rfl]
    exact ⟨h'.outside.1.trans (congrArg HostLink.mem (h.kept.host rfl)), fun q hq => (h'.outside.2 q hq).trans (by rw [hfar])⟩
  inside := h'.inside
  sessions := h'.sessions

/-- A device after a fabric RESET: in BOOT, a member of the guild that re-forms in term 0, with what any reset leaves (R374, R432). -/
structure FabricReset (s t : State) : Prop where
  boot : t.boot.state = .boot
  members : t.fab.members = s.fab.members
  term : t.fab.term = 0
  leaves : ResetLeaves s t

/-- Messages go out, and then a device that is cool enough resets (R374, R428). -/
theorem Sends.resetOrHold (h : Sends s t) (hcool : s.tooWarm = false) :
    FabricReset s (t.resetOrHold .fabric) ∧ Kept reachDev s (t.resetOrHold .fabric) := by
  have hreset : t.resetOrHold .fabric = t.guildReset :=
    if_neg (by rw [State.tooWarm_congr (h.kept.thm rfl) (h.kept.boot rfl), hcool]; exact Bool.false_ne_true)
  rw [hreset]
  exact ⟨⟨rfl, h.members, rfl, h.resetLeaves State.guildReset_leaves⟩, (h.kept.mono rfl).trans State.guildReset_kept⟩

theorem Sends.dropLatch (s : State) (fn code inst : Nat) : Sends s (s.dropLatch fn code inst) :=
  ⟨State.dropLatch_kept.mono rfl, rfl, List.Subset.refl _⟩

/-- FAB_RESET_GUILD on the guildmaster (R374). -/
theorem exec_fabResetGuild_master (h : Meets s fn pgFab 0 rFabCtl) (hmaster : s.isMaster = true) (hcool : s.tooWarm = false) :
    ∃ t, exec (.fabResetGuild fn) s = .next t ∧ FabricReset s t :=
  have hreset := ((Sends.dropLatch s fn pgFab 0).floodScope false 0x0C 1 []).resetOrHold hcool
  ⟨_, exec_fabResetGuild h (if_pos hmaster) hreset.2, hreset.1⟩

/-- FAB_RESET_MARKET on the market master (R374). -/
theorem exec_fabResetMarket_master (h : Meets s fn pgFab 0 rFabCtl) (hmaster : s.isMarketMaster = true) (hcool : s.tooWarm = false) :
    ∃ t, exec (.fabResetMarket fn) s = .next t ∧ FabricReset s t :=
  have hreset := ((Sends.dropLatch s fn pgFab 0).floodScope true 0x0C 2 []).resetOrHold hcool
  ⟨_, exec_fabResetMarket h (if_pos hmaster) hreset.2, hreset.1⟩

end Sys2Proof.Machine

namespace Sys2Proof.Proofs

open Sys2Proof Sys2Proof.Machine Sys2Proof.Safety Sys2Proof.Claims

/-- Settles O48: a write that meets its register is the register's own effect on the state whose read latch is dropped, and that
effect, or the refusal, is what each clause names. -/
theorem registersThatCommand : Obligations.RegistersThatCommand := by
  unfold Obligations.RegistersThatCommand
  refine ⟨fun s fn core v h => ⟨exec_loomShelfWrite_allowed h, exec_loomShelfWrite_refused h⟩, ?_,
    fun s v d hruns hheld => exec_discardDone hruns hheld, ?_, ?_, ?_, ?_⟩
  case refine_1 =>
    intro s fn v first n h hrange hn hfirst
    refine ⟨fun hserves hfree hmode hsnap hmigs => ?_, fun hserves => ?_⟩
    · refine ⟨_, exec_vltDiscard_starts h hrange hn hfirst hserves hfree hmode hsnap hmigs, ?_, ?_, ?_,
        State.discardBegun_vaults _ _, State.discardBegun_kept ..⟩ <;> rw [State.discardBegun_vault]
      · exact Vault.isValid_clearValid _ first n
      · rfl
    · exact ⟨_, exec_vltDiscard_refused h hserves _, refusedAt_noteRefuse rfl, rfl⟩
  case refine_2 =>
    intro s fn v h
    exact ⟨fun hidle => ⟨_, exec_rngAlmDataWrite_stores h hidle, rfl, State.fld_almPut v,
        (State.dropLatch_kept.mono rfl).trans (State.almPut_kept v)⟩,
      fun hserves => ⟨_, exec_rngAlmDataWrite_refused h hserves, refusedAt_noteRefuse rfl⟩⟩
  case refine_3 =>
    intro s fn v h level
    obtain ⟨hmsg, hrx, htx⟩ := State.shedTake_pwr (s := (s.dropLatch fn pgPwr 0).floodShed level) level s.nextShed
    have hlevel : level < 4096 := Nat.mod_lt _ (by decide)
    exact ⟨_, exec_pwrShedTx h, hmsg, htx.trans (State.floodShed_pwr level), hrx,
      fun e he hother => State.mem_sent_shedWrite (s := s.dropLatch fn pgPwr 0) hlevel he hother,
      (State.dropLatch_kept.mono rfl).trans (State.shedWrite_kept level)⟩
  case refine_4 =>
    intro s fn v h r
    refine ⟨fun hfree hactive hdest hnew => ?_, fun hactive => ?_⟩
    · have hkept : Kept { abs := true, regs := true } s { s.dropLatch fn pgStw 0 with abs := { s.abs with castWait := s.abs.castWait ++ [r] } } :=
        (State.dropLatch_kept.mono rfl).setAbs rfl _
      exact ⟨_, exec_stwCastReq h (State.castWrite_queues (s := s.dropLatch fn pgStw 0) hfree hactive hdest hnew) (hkept.mono rfl), rfl, rfl, hkept⟩
    · exact ⟨_, exec_stwCastReq h (State.castWrite_refused (s := s.dropLatch fn pgStw 0) hactive)
        (State.refused_kept.mono rfl), refusedAt_noteRefuse rfl⟩
  case refine_5 =>
    intro s fn h
    refine ⟨fun hmaster hcool => ?_, fun hother => ?_, fun hmaster hcool => ?_, fun hother => ?_⟩
    · obtain ⟨t, hexec, hreset⟩ := exec_fabResetGuild_master h hmaster hcool
      exact ⟨t, hexec, hreset.boot, hreset.members, hreset.term, hreset.leaves⟩
    · exact ⟨_, exec_fabResetGuild h (if_neg (ne_true_of_eq_false hother)) (State.refused_kept.mono rfl), refusedAt_noteRefuse rfl⟩
    · obtain ⟨t, hexec, hreset⟩ := exec_fabResetMarket_master h hmaster hcool
      exact ⟨t, hexec, hreset.boot, hreset.members, hreset.term, hreset.leaves⟩
    · exact ⟨_, exec_fabResetMarket h (if_neg (ne_true_of_eq_false hother)) (State.refused_kept.mono rfl), refusedAt_noteRefuse rfl⟩

end Sys2Proof.Proofs
end

section
/-! PROOFS. The element engine (R94 to R105, R125): the recipe that runs, when nothing follows of itself after a micro-op, and what the
elementwise micro-ops of stations 1 to 7 make of the elements. O14 is settled at the end. -/

namespace Sys2Proof.Machine

open Sys2Proof.Safety Sys2Proof.Claims

variable {s s1 : State} {c u op o : Nat} {sts : List Nat} {r : RecipeRun}

/-! #### The recipe that a core's engine runs -/

theorem State.run_congr {t : State} (h : (t.core c).eng.runs = (s.core c).eng.runs) : t.run c = s.run c := by
  unfold State.run
  rw [h]

theorem State.ordOf_congr {t : State} (h : (t.core c).flights = (s.core c).flights) (id : Nat) : t.ordOf c id = s.ordOf c id := by
  unfold State.ordOf Core.flight
  rw [h]

theorem State.runs_of_run (h : s.run c = some r) : (s.core c).eng.runs = r :: (s.core c).eng.runs.drop 1 := by
  unfold State.run at h
  cases hruns : (s.core c).eng.runs with
  | nil => simp [hruns] at h
  | cons a l => simpa [hruns] using h

theorem State.core_modRun (h : s.run c = some r) (f : RecipeRun → RecipeRun) : (s.modRun c f).core c
    = { (s.core c) with eng := { (s.core c).eng with runs := f r :: (s.core c).eng.runs.drop 1 } } := by
  unfold State.modRun
  rw [State.core_modCore_same, State.runs_of_run h]
  rfl

theorem State.run_modRun (h : s.run c = some r) (f : RecipeRun → RecipeRun) : (s.modRun c f).run c = some (f r) := by
  unfold State.run
  rw [State.core_modRun h]
  rfl

/-- What does not depend on a core's element engine is as before an update of the recipe that runs. -/
theorem State.modRun_proj {α : Type} (π : Core → α) (h : ∀ x e, π { x with eng := e } = π x) (c : Nat) (f : RecipeRun → RecipeRun)
    (z : Nat) : π ((s.modRun c f).core z) = π (s.core z) :=
  s.modCore_proj π _ (fun x => h x _) c z

theorem State.ordOf_modRun (f : RecipeRun → RecipeRun) (id : Nat) : (s.modRun c f).ordOf c id = s.ordOf c id :=
  State.ordOf_congr (State.modRun_proj Core.flights (fun _ _ => by rfl) ..) id

/-- Only the running recipe differs after an update of it. -/
theorem State.modRun_onlyRecipe (h : s.run c = some r) (f : RecipeRun → RecipeRun) : OnlyRecipe s (s.modRun c f) c (f r) :=
  ⟨State.core_modRun h f, CoresKept.modCore CoresKept.refl (List.mem_singleton_self c) _, rfl, rfl, rfl, rfl, rfl, rfl⟩

/-! #### What follows of itself -/

/-- A recipe has another micro-op next, and neither its tap nor the wait before station 9 stands before it. -/
structure RecipeRun.Stays (r : RecipeRun) (o : Nat) : Prop where
  more : r.pc < r.uops.length
  tap : r.tapped = true ∨ r.tapAt ≠ some r.pc
  park : r.parkAt o ≠ some r.pc

/-- Nothing follows of itself where a micro-op comes next. -/
theorem State.elemSettle_stays (h : s.run c = some r) (hstays : r.Stays (s.ordOf c r.flight)) : s.elemSettle c = s := by
  obtain ⟨hmore, htap, hpark⟩ := hstays
  have hnotap : (r.ready && !r.tapped && decide (r.tapAt = some r.pc) && s.tapHeld c r) = false := by
    rcases htap with htap | htap
    · simp [htap]
    · simp [htap]
  have hnopark : (r.ready && decide (r.parkAt (s.ordOf c r.flight) = some r.pc)) = false := by simp [hpark]
  have hnoleave : (r.ready && (r.tapAt.isNone || r.tapped) && decide (r.pc ≥ r.uops.length)
      && (!r.allIssued || s.outsReady c (s.ordOf c r.flight) r)) = false := by
    rw [decide_eq_false (Nat.not_le.2 hmore), Bool.and_false, Bool.false_and]
  unfold State.elemSettle
  simp only [h, hnotap, hnopark, hnoleave, Bool.false_eq_true, if_false]

theorem State.elemSettle_modRun {f : RecipeRun → RecipeRun} (h : s.run c = some r) (hid : (f r).flight = r.flight)
    (hstays : (f r).Stays (s.ordOf c r.flight)) : (s.modRun c f).elemSettle c = s.modRun c f := by
  refine State.elemSettle_stays (State.run_modRun h f) ?_
  rw [State.ordOf_modRun, hid]
  exact hstays

/-- A recipe that goes on stays at its next micro-op, whatever became of its elements. -/
theorem RecipeRun.stays_of_goesOn (h : GoesOn r o) (ls : List ElemLane) (k : Nat) :
    ({ r with lanes := ls, kept := k, pc := r.pc + 1 } : RecipeRun).Stays o := by
  obtain ⟨hmore, htap, hpark⟩ := h
  exact ⟨hmore, htap, hpark⟩

/-! #### A micro-op that may pass -/

/-- The micro-op that may pass is the next one of the recipe that then runs. -/
theorem State.uopReady_run (h : s.uopReady c sts op = some (s1, r, u)) : s1.run c = some r := by
  unfold State.uopReady at h
  split at h
  · cases h
  next r0 _ =>
    dsimp only at h
    split at h
    · cases h
    next r1 hrun =>
      split at h
      · split at h
        · cases h
          exact hrun
        · cases h
      · cases h

theorem predOk_eq_predTrue (u : Nat) (x : ElemLane) : predOk u x = predTrue u x := by
  unfold predOk predTrue
  split
  · next h => rw [if_pos h]
  · next h => rw [if_neg (by omega), if_pos h]
  · next h => rw [if_neg (by omega), if_neg (by omega), if_pos h]
  · next h1 h2 h3 => rw [if_neg h1, if_neg h2, if_neg h3]

/-- A micro-op that acts on each element alone, of a recipe that goes on after it (R104). -/
theorem State.uopLanes_goesOn (hready : s.uopReady c sts op = some (s1, r, u)) (hgo : GoesOn r (s1.ordOf c r.flight))
    (f : RecipeRun → Nat → ElemLane → ElemLane) : s.uopLanes c sts op f
      = s1.modRun c (fun x => { x with lanes := x.lanes.map (fun l => if predTrue u l then f r u l else l), pc := x.pc + 1 }) := by
  unfold State.uopLanes
  simp only [hready, predOk_eq_predTrue]
  exact State.elemSettle_modRun (State.uopReady_run hready) rfl (RecipeRun.stays_of_goesOn hgo _ r.kept)

/-! #### The results of stations 1 to 7 -/

/-- Operand a of a Box–Muller function: the top 24 bits of its random word (R304). -/
theorem bmArg_eq_angle : bmArg = angle := by
  funext r u x rad
  unfold bmArg angle
  rw [Nat.shiftRight_eq_div_pow, Nat.shiftRight_eq_div_pow]
  rfl

/-- The distribution of RAND_U: imm[3:2] (R303). -/
theorem bits_uImm_distribution (u : Nat) : bits (uImm u) 3 2 = bits u 63 32 / 4 % 4 :=
  congrArg (· % 4) (Nat.shiftRight_eq_div_pow (uImm u) 2)

/-- Each elementwise micro-op makes of an element what its table row says (R95, R96, R105, R302 to R304). -/
theorem exec_laneRow : ∀ row ∈ laneRows c (s.runRow c), exec row.1 s
    = .next (reachOrder.take s (s.uopLanes c row.2.1 row.2.2.1 (fun r u x => afterUop u x (row.2.2.2 r u x)))) := by
  simp only [laneRows, List.forall_mem_cons, ← bmArg_eq_angle, ← bits_uImm_distribution, List.not_mem_nil, false_implies, implies_true,
    and_true]
  and_intros <;> rfl

end Sys2Proof.Machine

namespace Sys2Proof.Proofs

open Sys2Proof Sys2Proof.Machine Sys2Proof.Safety Sys2Proof.Claims

/-- Settles O14: every row's command is its result on each element alone, and a recipe that goes on is not settled further. -/
theorem laneMicroOpsGiveTheirResults : Obligations.LaneMicroOpsGiveTheirResults := by
  unfold Obligations.LaneMicroOpsGiveTheirResults
  intro s s1 c u r row hrow hready hgo
  have hexec := exec_laneRow row hrow
  rw [State.uopLanes_goesOn hready hgo] at hexec
  obtain ⟨hcore, hothers, hrest⟩ := State.modRun_onlyRecipe (State.uopReady_run hready)
    (fun x => { x with lanes := x.lanes.map (fun l => if predTrue u l then afterUop u l (row.2.2.2 r u l) else l), pc := x.pc + 1 })
  exact ⟨_, hexec, hcore, hothers, hrest⟩

end Sys2Proof.Proofs
end

section
/-! PROOFS. RECIPE orders (R91, R97, R105 to R110, R126): how one joins its engine, how a group and a shelf unit of the running recipe
begin, and a reload of its stores. O15 is settled at the end. -/

namespace Sys2Proof.Machine

open Sys2Proof.Safety Sys2Proof.Claims

variable {s : State} {c : Nat} {st : Start} {r : RecipeRun}

/-! #### A RECIPE joins its engine (R97, R105, R109) -/

/-- Without a double-bit error in the stockroom the ranges are read as they stand. -/
theorem State.stockRanges_intact (h : (s.core c).stockBad = []) (id : Nat) (rs : List (Nat × Nat)) :
    s.stockRanges c id rs = (s, (s.core c).stock) := by
  simp [State.stockRanges, h]

/-- The micro-ops taken are the first of those that stand there (R105). -/
theorem cutRecipe_prefix (us : List Nat) (last used : Nat) : (cutRecipe us last used).1 <+: us := by
  induction us generalizing last used with
  | nil => exact List.nil_prefix
  | cons u us ih =>
    rw [cutRecipe]
    dsimp only
    generalize (if uStation u = last then used + 1 else 1) = n
    split
    · exact List.nil_prefix
    · exact (List.prefix_cons_inj u).2 (ih ..)

theorem outDests_le_four (o : Nat) (kinds : List Nat) {n : Nat} (hn : n < 2) : (outDests o kinds).1.getD n 0 ≤ 4 := by
  have hget : (outDests o kinds).1.getD n 0
      = if outDest0 o n > 4 || (outDest0 o n = 4 && kinds.getD 0 0 != 2) then 0 else outDest0 o n := by
    simp [outDests, hn]
  rw [hget]
  split
  · omega
  next h =>
    simp only [Bool.or_eq_true, decide_eq_true_eq, not_or] at h
    omega

/-- The outputs of a RECIPE that lie in no stockroom and no vault. -/
def ShelfOutputs (o : Nat) : Prop := ∀ n < 2, (outDests o (inKinds o).1).1.getD n 0 ∉ [1, 2, 3]

theorem ShelfOutputs.cases {o n : Nat} (h : ShelfOutputs o) (hn : n < 2) :
    (outDests o (inKinds o).1).1.getD n 0 = 0 ∨ (outDests o (inKinds o).1).1.getD n 0 = 4 := by
  have hle := outDests_le_four o (inKinds o).1 hn
  have hne := h n hn
  simp only [List.mem_cons, List.not_mem_nil, or_false, not_or] at hne
  omega

/-- The first n micro-op words behind a RECIPE's constants (R97). -/
def State.recipeWords (s : State) (c o n : Nat) : List Nat :=
  (List.range n).map (fun i => leNat (memBytesWrap 2097152 (s.core c).stock (ordF o 4 20 0 / 256 * 256 + 32 + 8 * i) 8))

theorem State.recipeWords_prefix {n m : Nat} (h : n ≤ m) (o : Nat) : s.recipeWords c o n <+: s.recipeWords c o m := by
  have hrange : List.range n <+: List.range m := by
    rw [show List.range n = (List.range m).take n by rw [List.take_range, Nat.min_eq_left h]]
    exact List.take_prefix ..
  exact hrange.map _

/-- A recipe as it joins its engine: none of its elements has issued. -/
structure RecipeRun.Joins (r : RecipeRun) (s : State) (c o : Nat) : Prop where
  flight : r.flight = (s.core c).freshId
  pc : r.pc = 0
  next : r.next = 0
  lanes : r.lanes = []
  uops : r.uops <+: s.recipeWords c o 24

/-- The state in which a started RECIPE has joined its engine, with its clamps counted. -/
def State.recipeJoined (s : State) (c : Nat) (st : Start) (k k' : Nat) (r : RecipeRun) : State :=
  (((s.startOrder c st).1.orderClamps c (s.core c).freshId pgElem c k).orderClamps c (s.core c).freshId pgTally c k').modCore c
    (fun x => { x with eng := { x.eng with runs := x.eng.runs ++ [r] } })

/-- A RECIPE joins its engine, and begins at once where the engine is idle. -/
theorem State.recipeStart_joined {p : Nat} (hp : s.partOfCore c = some p) (hbad : (s.core c).stockBad = []) (houts : ShelfOutputs st.ord) :
    ∃ k k' r, r.Joins s c st.ord
      ∧ (s.recipeStart c st = (s.recipeJoined c st k k' r).engineBegin c ∨ s.recipeStart c st = s.recipeJoined c st k k' r) := by
  have hstock : ((s.startOrder c st).1.core c).stockBad = [] := by rw [State.stockBad_startOrder, hbad]
  have hok : (List.range 2).all (fun n => (outDests st.ord (inKinds st.ord).1).1.getD n 0 = 0
      || (outDests st.ord (inKinds st.ord).1).1.getD n 0 = 4
      || s.inWindows p (locOf c (outAddr st.ord n ((outDests st.ord (inKinds st.ord).1).1.getD n 0)).1) 1) = true := by
    rw [List.all_eq_true]
    intro n hn
    rcases houts.cases (List.mem_range.1 hn) with h | h
    · rw [h]
      rfl
    · rw [h]
      rfl
  have huops : ∀ n, (cutRecipe (s.recipeWords c st.ord (clampNat 1 24 n)) 0 0).1 <+: s.recipeWords c st.ord 24 := fun n =>
    (cutRecipe_prefix ..).trans (State.recipeWords_prefix (by unfold clampNat; split_ifs <;> omega) _)
  unfold State.recipeStart
  simp only [hp, hok, State.startOrder_snd, Bool.not_true, Bool.false_eq_true, if_false, State.stockRanges_intact hstock, ite_self,
    State.stock_startOrder, ← Nat.add_assoc]
  refine ⟨_, _, _, ?_, ite_eq_or_eq _ _ _⟩
  exact ⟨rfl, rfl, rfl, rfl, huops _⟩

/-! #### What a RECIPE's start changes and leaves -/

theorem State.recipeJoined_proj {α : Type} {k k' : Nat} (π : Core → α) (he : ∀ x e, π { x with eng := e } = π x)
    (hf : ∀ x fs, π { x with flights := fs } = π x) (z : Nat) :
    π ((s.recipeJoined c st k k' r).core z) = π ((s.startOrder c st).1.core z) := by
  unfold State.recipeJoined
  rw [State.modCore_proj _ π _ (fun x => he x _), State.orderClamps_proj π hf, State.orderClamps_proj π hf]

theorem State.recipeJoined_runs {k k' : Nat} : ((s.recipeJoined c st k k' r).core c).eng.runs = (s.core c).eng.runs ++ [r] := by
  have hclamps : ((((s.startOrder c st).1.orderClamps c (s.core c).freshId pgElem c k).orderClamps c (s.core c).freshId pgTally c
      k').core c).eng.runs = (s.core c).eng.runs := by
    rw [State.orderClamps_proj (fun x => x.eng.runs) (fun _ _ => by rfl), State.orderClamps_proj (fun x => x.eng.runs) (fun _ _ => by rfl),
      State.startOrder_core]
    rfl
  unfold State.recipeJoined
  rw [State.core_modCore_same]
  exact congrArg (· ++ [r]) hclamps

theorem State.recipeJoined_kept {k k' : Nat} : Kept { regs := true, cores := true } s (s.recipeJoined c st k k' r) :=
  (((State.startOrder_kept s c st).1.orderClamps rfl rfl ..).orderClamps rfl rfl ..).modCore rfl ..

theorem State.recipeJoined_cores {k k' : Nat} : CoresKept s (s.recipeJoined c st k k' r) [c] := by
  have hc : c ∈ [c] := List.mem_singleton_self c
  exact (((State.startOrder_coresKept c st).orderClamps hc _ _ _ _).orderClamps hc _ _ _ _).modCore hc _

theorem State.recipeJoined_flight {k k' : Nat} : (((s.recipeJoined c st k k' r).core c).flight (s.core c).freshId).isSome := by
  have heng := State.modCore_proj
    (((s.startOrder c st).1.orderClamps c (s.core c).freshId pgElem c k).orderClamps c (s.core c).freshId pgTally c k')
    (fun x => (x.flight (s.core c).freshId).isSome)
    (fun x => { x with eng := { x.eng with runs := x.eng.runs ++ [r] } }) (fun _ => by rfl) c c
  refine (congrArg (fun b => b = true) heng).mpr ?_
  rw [State.isSome_flight_orderClamps, State.isSome_flight_orderClamps, State.startOrder_core, Core.started_flight]
  rfl

/-- A recipe begins: the carry registers and the recipe's register alone. -/
theorem State.engineBegin_proj {α : Type} (π : Core → α)
    (h : ∀ x c6 c7 b, π { x with eng := { x.eng with carry6 := c6, carry7 := c7, carryLive := b } } = π x) (z : Nat) :
    π ((s.engineBegin c).core z) = π (s.core z) := by
  unfold State.engineBegin
  split
  · rfl
  · dsimp only
    rw [State.core_congr (State.setReg_cores ..)]
    refine s.modCore_proj π _ (fun x => ?_) c z
    split
    · exact h x x.eng.carry6 x.eng.carry7 true
    · exact h x [] [] false

theorem State.engineBegin_kept : Kept { regs := true, cores := true } s (s.engineBegin c) := by
  unfold State.engineBegin
  split
  · exact Kept.refl ..
  · exact ((Kept.refl ..).modCore rfl ..).setReg rfl ..

theorem State.engineBegin_cores : CoresKept s (s.engineBegin c) [c] := by
  unfold State.engineBegin
  split
  · exact CoresKept.refl
  · dsimp only
    exact (CoresKept.modCore CoresKept.refl (List.mem_singleton_self c) _).trans_of_cores_eq (State.setReg_cores ..)

/-- What a RECIPE's start answers: the recipe held last, and of the core whatever depends on neither engine nor flights as the started
order left it. -/
theorem recipe_answers {p : Nat} (hpick : s.pick c = some st) (hop : st.op = 0x18) (hp : s.partOfCore c = some p)
    (hbad : (s.core c).stockBad = []) (houts : ShelfOutputs st.ord) : ∃ t r, exec (.recipe c) s = .next t ∧ r.Joins s c st.ord
      ∧ (t.core c).eng.runs = (s.core c).eng.runs ++ [r] ∧ ((t.core c).flight (s.core c).freshId).isSome
      ∧ (∀ {α : Type} (π : Core → α), (∀ x e, π { x with eng := e } = π x) → (∀ x fs, π { x with flights := fs } = π x) →
          π (t.core c) = π ((s.startOrder c st).1.core c))
      ∧ CoresKept s t [c] ∧ Kept { regs := true, cores := true } s t := by
  obtain ⟨k, k', r, hjoins, hstart⟩ := State.recipeStart_joined hp hbad houts
  have hexec : exec (.recipe c) s = .next (reachOrder.take s (s.recipeStart c st)) :=
    congrArg (fun w => Host.Outcome.next (reachOrder.take s w)) (State.runOrder_pick hpick (by simpa using hop) _)
  rcases hstart with hstart | hstart
  · have hkept := State.recipeJoined_kept.trans (State.engineBegin_kept (s := s.recipeJoined c st k k' r) (c := c))
    rw [hstart, (hkept.mono (g := reachOrder) rfl).take_eq] at hexec
    refine ⟨_, r, hexec, hjoins, ?_, ?_, fun π he hf => ?_, State.recipeJoined_cores.trans State.engineBegin_cores, hkept⟩
    · exact (State.engineBegin_proj (fun x => x.eng.runs) (fun _ _ _ _ => by rfl) c).trans State.recipeJoined_runs
    · exact (congrArg (fun b => b = true) (State.engineBegin_proj (fun x => (x.flight (s.core c).freshId).isSome)
        (fun _ _ _ _ => by rfl) c)).mpr State.recipeJoined_flight
    · exact (State.engineBegin_proj π (fun x _ _ _ => he x _) c).trans (State.recipeJoined_proj π he hf c)
  · rw [hstart, (State.recipeJoined_kept.mono (g := reachOrder) rfl).take_eq] at hexec
    exact ⟨_, r, hexec, hjoins, State.recipeJoined_runs, State.recipeJoined_flight, fun π he hf => State.recipeJoined_proj π he hf c,
      State.recipeJoined_cores, State.recipeJoined_kept⟩

/-! #### The recipe whose groups issue -/

/-- Until its last group has issued, the running recipe is the one whose groups issue (R112). -/
theorem State.issuer_running (h : s.run c = some r) (hall : r.allIssued = false) : s.issuer c = some (0, r) := by
  have hruns := State.runs_of_run h
  unfold State.issuer
  generalize (s.core c).eng.runs.drop 1 = rest at hruns
  rw [hruns]
  cases rest with
  | nil => rfl
  | cons r' l => simp [hall]

/-- A recipe without a tap takes no tally. -/
theorem State.tapAcquire_none (h : r.tOp = 0) : s.tapAcquire c r = s := by
  simp [State.tapAcquire, h]

theorem mapIdx_self {α : Type} (l : List α) : l.mapIdx (fun _ x => x) = l :=
  List.ext_getElem (by simp) (by simp)

/-- The first of the recipes that an engine holds is the one that runs. -/
theorem State.modRunAt_zero (h : s.run c = some r) (f : RecipeRun → RecipeRun) : s.modRunAt c 0 f = s.modRun c f := by
  have hruns := State.runs_of_run h
  unfold State.modRunAt State.modRun State.modCore
  dsimp only
  generalize (s.core c).eng.runs.drop 1 = rest at hruns
  rw [hruns]
  simp [List.mapIdx_cons, mapIdx_self]

/-! #### A group issues (R90, R91, R110) -/

/-- A recipe after n of a unit's elements have issued, `ls` of them now; `done`: they were the last of their unit. -/
def RecipeRun.issued (r : RecipeRun) (ls : List ElemLane) (n : Nat) (done : Bool) : RecipeRun :=
  { r with lanes := r.lanes ++ ls, next := if done then 0 else n, unit := if done then r.unit + 1 else r.unit, unitOn := r.unitOn && !done,
           missed := false }

/-- The state in which a group is counted, with the cycles that it waits for the ports of the stockroom (R110). -/
def State.groupCounted (s : State) (c ki ko : Nat) : State :=
  (((s.bump pgElem c 0 rElemGroups 1).bump pgElem c 0 rElemBusy 1).bump pgElem c 0 rElemStallIn ki).bump pgElem c 0 rElemStallOut ko

theorem State.groupCounted_cores (ki ko : Nat) : (s.groupCounted c ki ko).cores = s.cores := rfl

theorem State.groupCounted_groups (ki ko : Nat) :
    (s.groupCounted c ki ko).reg pgElem c 0 rElemGroups = s.reg pgElem c 0 rElemGroups + 1 := by
  unfold State.groupCounted State.bump
  rw [State.reg_setReg_other _ _ (regKey_off (by decide)), State.reg_setReg_other _ _ (regKey_off (by decide)),
    State.reg_setReg_other _ _ (regKey_off (by decide))]
  exact s.reg_bump_same ..

theorem State.groupCounted_busy (ki ko : Nat) :
    (s.groupCounted c ki ko).reg pgElem c 0 rElemBusy = s.reg pgElem c 0 rElemBusy + 1 := by
  unfold State.groupCounted
  have hother : ∀ t : State, ∀ n, (t.bump pgElem c 0 rElemGroups n).reg pgElem c 0 rElemBusy = t.reg pgElem c 0 rElemBusy := fun t n =>
    State.reg_setReg_other _ _ (regKey_off (by decide))
  rw [State.bump, State.reg_setReg_other _ _ (regKey_off (by decide)), State.bump, State.reg_setReg_other _ _ (regKey_off (by decide)),
    State.reg_bump_same, hother]
  rfl

/-- The elements of a group of a recipe without a SHELF input carry consecutive logical indices. -/
def groupIdx (s : State) (r : RecipeRun) : List Nat := (List.range (min s.boot.lanes (r.unitLen - r.next))).map (fun i => r.next + i)

/-- A group of a recipe without a SHELF input and without a random value is issued from an intact stockroom. -/
theorem State.groupIssue_issued (hrun : s.run c = some r) (hshelf : r.shelfIns = []) (hbad : (s.core c).stockBad = [])
    (h8 : r.at8 = none) (hdraws : r.usesDraws (s.ordOf c r.flight) (s.srEnable c) 0 24 = false) (hstays : r.Stays (s.ordOf c r.flight)) :
    ∃ ki ko ls n done, ls.map (·.idx) = groupIdx s r
      ∧ s.groupIssue c 0 r = (s.groupCounted c ki ko).modRun c (fun x => x.issued ls n done) := by
  have hfold : ∀ (b : Bool) (f : State → Nat → State) (t : State), (if b then [].foldl f t else t) = t := fun b f t => by
    cases b <;> rfl
  have hissue : ∃ ki ko ls n done, ls.map (·.idx) = groupIdx s r ∧ s.groupIssue c 0 r
      = ((s.groupCounted c ki ko).modRunAt c 0 (fun x => x.issued ls n done)).elemSettle c := by
    unfold State.groupIssue
    simp only [hshelf, List.isEmpty_nil, if_true, State.stockRanges_intact hbad, h8, hdraws, Bool.false_eq_true, if_false, hfold]
    exact ⟨_, _, _, _, _, List.ext_getElem (by simp [groupIdx]) (by simp [groupIdx]), rfl⟩
  obtain ⟨ki, ko, ls, n, done, hidx, hissue⟩ := hissue
  have hcore : (s.groupCounted c ki ko).core c = s.core c := State.core_congr (State.groupCounted_cores ki ko) c
  have hcounted : (s.groupCounted c ki ko).run c = some r := (State.run_congr (by rw [hcore])).trans hrun
  have hnext : (r.issued ls n done).Stays ((s.groupCounted c ki ko).ordOf c r.flight) := by
    rw [State.ordOf_congr (by rw [hcore])]
    exact ⟨hstays.more, hstays.tap, hstays.park⟩
  rw [State.modRunAt_zero hcounted, State.elemSettle_modRun hcounted (by rfl) hnext] at hissue
  exact ⟨ki, ko, ls, n, done, hidx, hissue⟩

/-- The state in which a group without a fault may issue: a mismatch that a reissue has mended sets its error bit (R308). -/
def State.missedNoted (s : State) (r : RecipeRun) : State := if r.missed then s.setErr pgRng 0 0 else s

theorem State.missedNoted_kept : Kept { regs := true } s (s.missedNoted r) := by
  unfold State.missedNoted
  split
  · exact (Kept.refl ..).setErr rfl ..
  · exact Kept.refl ..

theorem State.missedNoted_cores : (s.missedNoted r).cores = s.cores := State.missedNoted_kept.cores rfl

/-- Of the registers, an error bit of the generators changes BLK_ERR alone. -/
theorem State.reg_missedNoted (code inst : Nat) {off : Nat} (hoff : off % 4096 ≠ hErr % 4096) :
    (s.missedNoted r).reg code inst 0 off = s.reg code inst 0 off := by
  unfold State.missedNoted
  split
  · exact State.reg_setReg_other _ _ (regKey_ne_of_off hoff)
  · rfl

/-- A group of a recipe that needs neither a SHELF input nor the tally issues (R90, R104, R125). -/
theorem exec_elemGroupIssue (hrun : s.run c = some r) (htally : r.tOp = 0) (hshelf : r.shelfIns = []) (hall : r.allIssued = false)
    (hcarry : r.carryEn = true → r.pc = 0 ∧ r.lanes = []) :
    exec (.elemGroupIssue c 0) s = .next (reachOrder.take s ((s.missedNoted r).groupIssue c 0 r)) := by
  have hfree : (r.carryEn && (decide (r.pc > 0) || !r.lanes.isEmpty)) = false := by
    cases hen : r.carryEn with
    | false => rfl
    | true =>
      obtain ⟨hpc, hlanes⟩ := hcarry hen
      simp [hpc, hlanes]
  have hheld : s.tapHeld c r = true := by simp [State.tapHeld, htally]
  show execElemGroupIssue c 0 s = _
  unfold execElemGroupIssue
  simp only [State.issuer_running hrun hall, State.tapAcquire_none htally, hall, hshelf, List.isEmpty_nil, Bool.true_or, hheld, hfree,
    Bool.not_true, Bool.or_self, Bool.false_eq_true, if_false]
  rfl

/-! #### A shelf unit starts (R108) -/

/-- The fewest valid rows among the slots of a unit, at most 32. -/
def unitRowsOf (slots : List (Option Slot)) : Nat :=
  slots.foldl (fun m x => match x with | some sl => min m sl.valid | none => m) 32

theorem unitRowsOf_le (slots : List (Option Slot)) : unitRowsOf slots ≤ 32 ∧ ∀ sl, some sl ∈ slots → unitRowsOf slots ≤ sl.valid := by
  have hfold : ∀ (xs : List (Option Slot)) (m : Nat),
      let k := xs.foldl (fun m x => match x with | some sl => min m sl.valid | none => m) m
      k ≤ m ∧ ∀ sl, some sl ∈ xs → k ≤ sl.valid := by
    intro xs
    induction xs with
    | nil => intro m; simp
    | cons x xs ih =>
      intro m
      cases x with
      | none =>
        obtain ⟨hle, hall⟩ := ih m
        exact ⟨hle, fun sl hsl => hall sl (by simpa using hsl)⟩
      | some y =>
        obtain ⟨hle, hall⟩ := ih (min m y.valid)
        refine ⟨hle.trans (Nat.min_le_left ..), fun sl hsl => ?_⟩
        rcases List.mem_cons.1 hsl with hsl | hsl
        · cases hsl
          exact hle.trans (Nat.min_le_right ..)
        · exact hall sl hsl
  exact hfold slots 32

/-- A recipe whose shelf unit of n rows has started. -/
def RecipeRun.unitStarted (r : RecipeRun) (n : Nat) : RecipeRun := { r with unitOn := true, unitRows := n, unitLen := 32 * n, next := 0 }

/-- A unit starts once every slot it takes is full. -/
theorem exec_shelfUnitStart (hrun : s.run c = some r) (htally : r.tOp = 0) (hshelf : r.shelfIns ≠ []) (hon : r.unitOn = false)
    (hall : r.allIssued = false)
    (hfull : ∀ n ∈ r.shelfIns, ∃ sl, s.unitSlot c (s.ordOf c r.flight) r n = some sl ∧ sl.full = true) :
    exec (.shelfUnitStart c) s = .next (reachOrder.take s (s.modRun c
      (fun x => x.unitStarted (unitRowsOf (r.shelfIns.map (s.unitSlot c (s.ordOf c r.flight) r)))))) := by
  have hheld : s.tapHeld c r = true := by simp [State.tapHeld, htally]
  have hslots : (false || !(r.shelfIns.map (s.unitSlot c (s.ordOf c r.flight) r)).all
      (fun x => match x with | some sl => sl.full | none => false)) = false := by
    rw [Bool.false_or, Bool.not_eq_false', List.all_map, List.all_eq_true]
    intro n hn
    obtain ⟨sl, hsl, hslfull⟩ := hfull n hn
    simp only [Function.comp_apply, hsl, hslfull]
  rw [← State.modRunAt_zero hrun]
  show execShelfUnitStart c s = _
  unfold execShelfUnitStart
  simp only [State.issuer_running hrun hall, State.tapAcquire_none htally, List.isEmpty_eq_false_iff.2 hshelf, hon, hall, hheld,
    Bool.not_true, Bool.or_self]
  exact congrArg (fun w => Host.Outcome.next (reachOrder.take s w)) (if_neg fun h => Bool.false_ne_true (hslots.symm.trans h))

/-! #### A store is reloaded (R126) -/

/-- The state after a reload of a store of the element engine. -/
def State.storeReloaded (s : State) (c store : Nat) : State := ((s.bump pgElem c 0 rElemReload 1).setErr pgElem c store).tileError c

theorem exec_elemParityReload (hrun : s.run c = some r) {store : Nat} (hstore : store < 2) :
    exec (.elemParityReload c store) s = .next (reachOrder.take s (s.storeReloaded c store)) := by
  have hmin : min store 1 = store := by omega
  show execElemParityReload c store s = _
  unfold execElemParityReload
  rw [hrun]
  dsimp only
  rw [hmin]
  rfl

theorem State.storeReloaded_kept (store : Nat) : Kept { regs := true, abs := true } s (s.storeReloaded c store) :=
  (((Kept.refl ..).bump rfl ..).setErr rfl ..).trans ((State.tileError_kept c).mono rfl)

theorem State.storeReloaded_count (store : Nat) :
    (s.storeReloaded c store).reg pgElem c 0 rElemReload = s.reg pgElem c 0 rElemReload + 1 := by
  rw [State.storeReloaded, State.reg_tileError]
  exact (State.reg_setReg_other _ _ (regKey_off (by decide))).trans (s.reg_bump_same ..)

end Sys2Proof.Machine

namespace Sys2Proof.Proofs

open Sys2Proof Sys2Proof.Machine Sys2Proof.Safety Sys2Proof.Claims

/-- Settles O15, one command after the other. -/
theorem recipesStartAndIssueTheirGroups : Obligations.RecipesStartAndIssueTheirGroups := by
  unfold Obligations.RecipesStartAndIssueTheirGroups
  refine ⟨?start, ?group, ?unit, ?reload⟩
  case start =>
    intro s c st p hpick hop hp hbad houts
    obtain ⟨t, r, hexec, hjoins, hruns, hflight, hproj, hcores, hkept⟩ := recipe_answers hpick hop hp hbad houts
    refine ⟨t, r, hexec, hruns, hjoins.flight, hjoins.pc, hjoins.next, hjoins.lanes, hjoins.uops, hflight, ?_, ?_, ?_, ?_, hcores, hkept⟩
    · exact (hproj (fun x => (x.qs.getD st.q {}).index) (fun _ _ => by rfl) (fun _ _ => by rfl)).trans (State.holds (k := 0) hpick).queue
    · exact (hproj Core.sregs (fun _ _ => by rfl) (fun _ _ => by rfl)).trans (State.holds (k := 0) hpick).sregs
    · exact (hproj Core.ctrs (fun _ _ => by rfl) (fun _ _ => by rfl)).trans (State.holds (k := 0) hpick).ctrs
    · exact (hproj Core.stock (fun _ _ => by rfl) (fun _ _ => by rfl)).trans (State.stock_startOrder ..)
  case group =>
    intro s c r hrun htally hshelf hall hcarry hmore hpark hdraws hbad h8 _
    have hcore : (s.missedNoted r).core c = s.core c := State.core_congr State.missedNoted_cores c
    have hsr : (s.missedNoted r).srEnable c = s.srEnable c := by
      unfold State.srEnable State.fld
      rw [State.reg_missedNoted _ _ (by decide)]
    have hord : (s.missedNoted r).ordOf c r.flight = s.ordOf c r.flight := State.ordOf_congr (by rw [hcore]) _
    have htap : r.tapAt = none := if_pos htally
    have hrun' : (s.missedNoted r).run c = some r := (State.run_congr (by rw [hcore])).trans hrun
    obtain ⟨ki, ko, ls, n, done, hidx, hissue⟩ := State.groupIssue_issued hrun' hshelf (by rw [hcore, hbad]) h8
      (by rw [hord, hsr]; exact hdraws) ⟨hmore, .inr (by simp [htap]), by rw [hord]; exact hpark⟩
    have hboot : (s.missedNoted r).boot = s.boot := State.missedNoted_kept.boot rfl
    have hkept : Kept { regs := true, cores := true } s
        (((s.missedNoted r).groupCounted c ki ko).modRun c (fun x => x.issued ls n done)) :=
      (((((State.missedNoted_kept.mono rfl).bump rfl ..).bump rfl ..).bump rfl ..).bump rfl ..).modCore rfl ..
    have hexec := exec_elemGroupIssue hrun htally hshelf hall hcarry
    rw [hissue, (hkept.mono (g := reachOrder) rfl).take_eq] at hexec
    refine ⟨_, _, hexec, State.run_modRun hrun' _, ?_, rfl, rfl, ?_, ?_, ?_, ?_, hkept⟩
    · show (r.lanes ++ ls).map (·.idx) = _
      rw [List.map_append, hidx, groupIdx, hboot]
    · exact (State.groupCounted_groups ki ko).trans (by rw [State.reg_missedNoted _ _ (by decide)])
    · exact (State.groupCounted_busy ki ko).trans (by rw [State.reg_missedNoted _ _ (by decide)])
    · exact (State.modRun_proj Core.stock (fun _ _ => by rfl) ..).trans (congrArg Core.stock hcore)
    · exact (CoresKept.of_cores_eq (s := s) (t := (s.missedNoted r).groupCounted c ki ko) State.missedNoted_cores).modCore
        (List.mem_singleton_self c) _
  case unit =>
    intro s c r hrun htally hshelf hon hall hfull
    have hkept : Kept { cores := true } s (s.modRun c
      (fun x => x.unitStarted (unitRowsOf (r.shelfIns.map (s.unitSlot c (s.ordOf c r.flight) r))))) := (Kept.refl ..).modCore rfl ..
    have hexec := exec_shelfUnitStart hrun htally hshelf hon hall hfull
    obtain ⟨hle, hvalid⟩ := unitRowsOf_le (r.shelfIns.map (s.unitSlot c (s.ordOf c r.flight) r))
    rw [(hkept.mono (g := reachOrder) rfl).take_eq] at hexec
    exact ⟨_, _, hexec, State.run_modRun hrun _, rfl, rfl, rfl, hle, fun n hn sl hsl => hvalid sl (hsl ▸ List.mem_map_of_mem hn),
      State.modRun_proj Core.shelf (fun _ _ => by rfl) .., CoresKept.modCore CoresKept.refl (List.mem_singleton_self c) _, hkept⟩
  case reload =>
    intro s c store r hrun hstore
    have hkept := State.storeReloaded_kept (s := s) (c := c) store
    have hexec := exec_elemParityReload hrun hstore
    rw [(hkept.mono (g := reachOrder) rfl).take_eq] at hexec
    refine ⟨_, hexec, State.storeReloaded_count store, ?_, hkept.cores rfl, hkept⟩
    rw [State.storeReloaded, State.reg_tileError]
    exact State.bit_setErr_same _ _ (by omega)

end Sys2Proof.Proofs
end

section
/-! PROOFS. Station 8 (R99, R100): elements renumbered by COMPRESS, and placed by EXPAND_KEEP and EXPAND_FILL. -/

namespace Sys2Proof.Safety

open Sys2Proof.Machine

variable {s t : State} {c : Nat}

theorem CoresKept.modRun (h : CoresKept s t [c]) {f : RecipeRun → RecipeRun} : CoresKept s (t.modRun c f) [c] :=
  h.modCore (List.mem_singleton_self c) _

/-- An order's command reaches every core. -/
theorem CoresKept.takeOrder {cs : List Nat} (h : CoresKept s t cs) {w : State} : CoresKept s (reachOrder.take w t) cs :=
  h.trans_of_cores_eq rfl

end Sys2Proof.Safety

namespace Sys2Proof.Machine

open Sys2Proof.Safety Sys2Proof.Claims

variable {s s1 : State} {c u op o : Nat} {sts : List Nat} {r : RecipeRun}

/-! #### The carry registers -/

/-- The state in which elements that leave the stream have left v6 and v7 in their lanes (R125). -/
def State.carryLeft (s : State) (c : Nat) (r : RecipeRun) (ls : List ElemLane) : State := if r.carryEn then s.keepCarry c ls else s

/-- Keeping v6 and v7 of elements writes the two carry registers alone. -/
theorem foldl_carry (ls : List ElemLane) (e : ElemEng) : ∃ c6 c7, ls.foldl (fun e l =>
    { e with carry6 := smSet 0 e.carry6 l.lane (l.v.getD 6 0), carry7 := smSet 0 e.carry7 l.lane (l.v.getD 7 0) }) e
      = { e with carry6 := c6, carry7 := c7 } := by
  induction ls generalizing e with
  | nil => exact ⟨_, _, rfl⟩
  | cons l ls ih => exact ih _

/-- What does not depend on a core's carry registers is as before. -/
theorem State.carryLeft_proj {α : Type} (π : Core → α)
    (h : ∀ x c6 c7, π { x with eng := { x.eng with carry6 := c6, carry7 := c7 } } = π x) (r : RecipeRun) (ls : List ElemLane) (z : Nat) :
    π ((s.carryLeft c r ls).core z) = π (s.core z) := by
  unfold State.carryLeft
  split
  · refine s.modCore_proj π _ (fun x => ?_) c z
    obtain ⟨c6, c7, hfold⟩ := foldl_carry ls x.eng
    rw [hfold]
    exact h x c6 c7
  · rfl

theorem State.carryLeft_regs (r : RecipeRun) (ls : List ElemLane) : (s.carryLeft c r ls).regs = s.regs := by
  unfold State.carryLeft
  split
  · rfl
  · rfl

theorem State.carryLeft_cores (r : RecipeRun) (ls : List ElemLane) : CoresKept s (s.carryLeft c r ls) [c] := by
  unfold State.carryLeft
  split
  · exact CoresKept.modCore CoresKept.refl (List.mem_singleton_self c) _
  · exact CoresKept.refl

/-! #### Fresh draws -/

theorem State.srEnable_congr {t : State} (h : t.reg pgElem c 0 rElemCfg = s.reg pgElem c 0 rElemCfg) : t.srEnable c = s.srEnable c := by
  unfold State.srEnable State.fld
  rw [h]

/-- Nothing behind station 8 takes a random value: there is nothing to draw (R302). -/
theorem State.redraw_none {t : State} (hdraws : r.usesDraws (s.ordOf c r.flight) (s.srEnable c) (r.pc + 1) 25 = false)
    (hflights : (t.core c).flights = (s.core c).flights) (hcfg : t.reg pgElem c 0 rElemCfg = s.reg pgElem c 0 rElemCfg)
    (ls : List ElemLane) : t.redraw c r ls = (t, ls) := by
  unfold State.redraw
  rw [State.ordOf_congr hflights, State.srEnable_congr hcfg]
  simp only [hdraws, Bool.false_eq_true, if_false]

/-- The recipe goes on behind station 8 with `ls` in flight, of which COMPRESS has kept k so far. -/
def RecipeRun.renumbered (r : RecipeRun) (ls : List ElemLane) (k : Nat) : RecipeRun := { r with lanes := ls, kept := k, pc := r.pc + 1 }

theorem State.renumbered_settles {t : State} (hrun : s.run c = some r) (hgo : GoesOn r (s.ordOf c r.flight))
    (hruns : (t.core c).eng.runs = (s.core c).eng.runs) (hflights : (t.core c).flights = (s.core c).flights) (ls : List ElemLane)
    (k : RecipeRun → Nat) :
    (t.modRun c (fun x => x.renumbered ls (k x))).elemSettle c = t.modRun c (fun x => x.renumbered ls (k x)) := by
  refine State.elemSettle_modRun ((State.run_congr hruns).trans hrun) rfl ?_
  rw [State.ordOf_congr hflights]
  exact RecipeRun.stays_of_goesOn hgo ls (k r)

/-! #### COMPRESS (R99) -/

/-- The elements that COMPRESS keeps, in ascending logical index. -/
def RecipeRun.keptLanes (r : RecipeRun) : List ElemLane := (r.lanes.filter (·.p0)).mergeSort (fun a b => decide (a.idx ≤ b.idx))

/-- The state in which COMPRESS has written its index list and told its count. -/
def State.compressed (s : State) (c o : Nat) (r : RecipeRun) : State :=
  (((s.carryLeft c r (r.lanes.filter (fun x => !x.p0))).stockWrite c (ordF o 17 20 0 + 4 * r.kept)
    (r.keptLanes.flatMap (fun x => leBytes 4 x.idx))).setSreg c (ordF o 11 21 16)
      (BitVec.ofNat 64 ((r.kept + r.keptLanes.length) % 4294967296))).bump pgElem c 0 rElemKept r.keptLanes.length

/-- Of a core, COMPRESS changes its carry registers, its stockroom with what is lost of it, and its s-registers. -/
theorem State.compressed_proj {α : Type} (π : Core → α)
    (hcarry : ∀ x c6 c7, π { x with eng := { x.eng with carry6 := c6, carry7 := c7 } } = π x)
    (hstock : ∀ x m b, π { x with stock := m, stockBad := b } = π x) (hsregs : ∀ x rs, π { x with sregs := rs } = π x) (z : Nat) :
    π ((s.compressed c o r).core z) = π (s.core z) := by
  unfold State.compressed State.setSreg State.stockWrite
  rw [State.core_congr (State.bump_cores ..), State.modCore_proj _ π _ (fun x => hsregs x _),
    State.modCore_proj _ π _ (fun x => hstock x _ _),
    State.carryLeft_proj π hcarry]

theorem State.compressed_reg {off : Nat} (h : off ≠ rElemKept) : (s.compressed c o r).reg pgElem c 0 off = s.reg pgElem c 0 off :=
  (State.reg_setReg_other _ _ (regKey_off h)).trans (State.reg_congr (State.carryLeft_regs ..) ..)

theorem State.compressed_kept :
    (s.compressed c o r).reg pgElem c 0 rElemKept = s.reg pgElem c 0 rElemKept + BitVec.ofNat 64 r.keptLanes.length :=
  (State.reg_bump_same ..).trans (congrArg (· + _) (State.reg_congr (State.carryLeft_regs ..) ..))

theorem State.compressed_stock : ((s.compressed c o r).core c).stock = memSetBytesWrap 2097152 (s.core c).stock
    ((ordF o 17 20 0 + 4 * r.kept) % 2097152) (r.keptLanes.flatMap (fun x => leBytes 4 x.idx)) := by
  have hset (t : State) (k : Nat) (v : DWord) : ((t.setSreg c k v).core c).stock = (t.core c).stock :=
    t.modCore_proj Core.stock _ (fun _ => by rfl) c c
  unfold State.compressed
  rw [State.core_congr (State.bump_cores ..), hset, State.stock_stockWrite_same, State.carryLeft_proj Core.stock fun _ _ _ => by rfl]

theorem State.compressed_sreg :
    (s.compressed c o r).sreg c (ordF o 11 21 16) = BitVec.ofNat 64 ((r.kept + r.keptLanes.length) % 4294967296) :=
  (State.sreg_congr (State.bump_cores ..) ..).trans (State.sreg_setSreg_same ..)

theorem State.compressed_cores : CoresKept s (s.compressed c o r) [c] := by
  have hc : c ∈ [c] := List.mem_singleton_self c
  exact ((CoresKept.stockWrite (State.carryLeft_cores _ _) hc _ _).setSreg hc _ _).trans_of_cores_eq rfl

/-- COMPRESS renumbers the elements with p0 from the count so far, and nothing further follows where the recipe goes on. -/
theorem exec_uopCompress (hready : s.uopReady c [8] 0 = some (s1, r, u)) (hgo : GoesOn r (s1.ordOf c r.flight))
    (hdraws : r.usesDraws (s1.ordOf c r.flight) (s1.srEnable c) (r.pc + 1) 25 = false) :
    ∃ ls, ls.map (·.idx) = (List.range r.keptLanes.length).map (fun i => r.kept + i) ∧ exec (.uopCompress c) s
      = .next (reachOrder.take s ((s1.compressed c (s1.ordOf c r.flight) r).modRun c
          (fun x => x.renumbered ls (r.kept + r.keptLanes.length)))) := by
  have hflights : ((s1.compressed c (s1.ordOf c r.flight) r).core c).flights = (s1.core c).flights :=
    State.compressed_proj Core.flights (fun _ _ _ => by rfl) (fun _ _ _ => by rfl) (fun _ _ => by rfl) c
  have hruns : ((s1.compressed c (s1.ordOf c r.flight) r).core c).eng.runs = (s1.core c).eng.runs :=
    State.compressed_proj (fun x => x.eng.runs) (fun _ _ _ => by rfl) (fun _ _ _ => by rfl) (fun _ _ => by rfl) c
  have hredraw := State.redraw_none hdraws hflights (State.compressed_reg (by decide))
  have hexec : exec (.uopCompress c) s = .next (reachOrder.take s (
      let q := (s1.compressed c (s1.ordOf c r.flight) r).redraw c r (r.keptLanes.mapIdx (fun i x =>
        { (if predOk u x then setV u x (uA r u x) else x) with idx := r.kept + i }))
      (q.1.modRun c (fun x => x.renumbered q.2 (r.kept + r.keptLanes.length))).elemSettle c)) := by
    show execUopCompress c s = _
    unfold execUopCompress
    rw [hready]
    rfl
  rw [hredraw] at hexec
  dsimp only at hexec
  rw [State.renumbered_settles (State.uopReady_run hready) hgo hruns hflights] at hexec
  exact ⟨_, List.ext_getElem (by simp) (by simp), hexec⟩

/-! #### EXPAND (R100) -/

/-- Word j of an EXPAND's index list. -/
def State.listWord (s : State) (c o : Nat) (r : RecipeRun) (j : Nat) : Nat :=
  leNat (memBytesWrap 2097152 (s.core c).stock (r.listAt o + 4 * j) 4)

/-- The dense elements in flight, each with the position that its list word names. -/
def State.placedLanes (s : State) (c o u : Nat) (r : RecipeRun) : List ElemLane :=
  (r.lanes.filter (fun x => decide (x.idx < r.mexp))).map (fun x =>
    { (if predOk u x then setV u x (uA r u x) else x) with idx := s.listWord c o r x.idx })

/-- Those of them whose position is an element of the order. -/
def State.keepLanes (s : State) (c o u : Nat) (r : RecipeRun) : List ElemLane :=
  (s.placedLanes c o u r).filter (fun x => decide (x.idx < recN o))

/-- The positions of the dense elements in flight. -/
def State.placedIdx (s : State) (c o : Nat) (r : RecipeRun) : List Nat :=
  ((r.lanes.map (·.idx)).filter (fun j => decide (j < r.mexp))).map (s.listWord c o r)

theorem State.placedLanes_idx : (s.placedLanes c o u r).map (·.idx) = s.placedIdx c o r := by
  simp [State.placedLanes, State.placedIdx, List.filter_map, Function.comp_def]

theorem State.keepLanes_idx : (s.keepLanes c o u r).map (·.idx) = (s.placedIdx c o r).filter (fun q => decide (q < recN o)) := by
  rw [← State.placedLanes_idx (u := u), List.filter_map]
  rfl

/-- Those placed are kept or dropped. -/
theorem State.dropped_length : (s.placedLanes c o u r).length - (s.keepLanes c o u r).length
    = ((s.placedIdx c o r).filter (fun q => decide (recN o ≤ q))).length := by
  have hsplit := List.length_eq_length_filter_add (l := s.placedIdx c o r) (fun q => decide (q < recN o))
  have hnot : (fun q => !decide (q < recN o)) = fun q => decide (recN o ≤ q) := by
    funext q
    rw [← decide_not]
    exact decide_eq_decide.2 Nat.not_lt
  rw [hnot, ← State.keepLanes_idx (u := u), ← State.placedLanes_idx (u := u), List.length_map, List.length_map] at hsplit
  rw [← State.placedLanes_idx (u := u)]
  omega

/-- The state in which EXPAND has counted the elements that it drops. -/
def State.expandCounted (s : State) (c o u : Nat) (r : RecipeRun) : State :=
  (s.carryLeft c r (r.lanes.filter (fun x => decide (x.idx ≥ r.mexp) || decide (s.listWord c o r x.idx ≥ recN o)))).bump
    pgElem c 0 rElemIndexDrop ((s.placedLanes c o u r).length - (s.keepLanes c o u r).length)

theorem State.expandCounted_proj {α : Type} (π : Core → α)
    (h : ∀ x c6 c7, π { x with eng := { x.eng with carry6 := c6, carry7 := c7 } } = π x) (z : Nat) :
    π ((s.expandCounted c o u r).core z) = π (s.core z) := by
  unfold State.expandCounted
  rw [State.core_congr (State.bump_cores ..), State.carryLeft_proj π h]

theorem State.expandCounted_reg {off : Nat} (h : off ≠ rElemIndexDrop) :
    (s.expandCounted c o u r).reg pgElem c 0 off = s.reg pgElem c 0 off :=
  (State.reg_setReg_other _ _ (regKey_off h)).trans (State.reg_congr (State.carryLeft_regs ..) ..)

theorem State.expandCounted_dropped : (s.expandCounted c o u r).reg pgElem c 0 rElemIndexDrop = s.reg pgElem c 0 rElemIndexDrop
    + BitVec.ofNat 64 ((s.placedIdx c o r).filter (fun q => decide (recN o ≤ q))).length := by
  rw [← State.dropped_length (u := u)]
  exact (State.reg_bump_same ..).trans (congrArg (· + _) (State.reg_congr (State.carryLeft_regs ..) ..))

theorem State.expandCounted_cores : CoresKept s (s.expandCounted c o u r) [c] :=
  CoresKept.trans_of_cores_eq (State.carryLeft_cores _ _) rfl

theorem State.expandCounted_flights : ((s.expandCounted c o u r).core c).flights = (s.core c).flights :=
  State.expandCounted_proj Core.flights (fun _ _ _ => by rfl) c

theorem State.expandCounted_runs : ((s.expandCounted c o u r).core c).eng.runs = (s.core c).eng.runs :=
  State.expandCounted_proj (fun x => x.eng.runs) (fun _ _ _ => by rfl) c

/-- EXPAND_KEEP goes on with the elements whose position is one of the order's. -/
theorem exec_uopExpandKeep (hready : s.uopReady c [8] 2 = some (s1, r, u)) (hgo : GoesOn r (s1.ordOf c r.flight))
    (hdraws : r.usesDraws (s1.ordOf c r.flight) (s1.srEnable c) (r.pc + 1) 25 = false) (hbad : (s1.core c).stockBad = []) :
    exec (.uopExpandKeep c) s = .next (reachOrder.take s ((s1.expandCounted c (s1.ordOf c r.flight) u r).modRun c
      (fun x => x.renumbered (s1.keepLanes c (s1.ordOf c r.flight) u r) x.kept))) := by
  have hredraw := State.redraw_none (t := s1.expandCounted c (s1.ordOf c r.flight) u r) hdraws State.expandCounted_flights
    (State.expandCounted_reg (by decide)) (s1.keepLanes c (s1.ordOf c r.flight) u r)
  have hexec : exec (.uopExpandKeep c) s = .next (reachOrder.take s (
      let q := (s1.expandCounted c (s1.ordOf c r.flight) u r).redraw c r (s1.keepLanes c (s1.ordOf c r.flight) u r)
      (q.1.modRun c (fun x => x.renumbered (q.2.map id) x.kept)).elemSettle c)) := by
    show Host.Outcome.next (reachOrder.take s (s.expand c false)) = _
    unfold State.expand
    simp only [Bool.false_eq_true, if_false, hready, State.stockRanges_intact hbad]
    rfl
  rw [hredraw] at hexec
  dsimp only at hexec
  rw [List.map_id, State.renumbered_settles (State.uopReady_run hready) hgo State.expandCounted_runs State.expandCounted_flights] at hexec
  exact hexec

/-! #### Which positions EXPAND_FILL supplies (R100) -/

/-- One more than the highest position of the order that the first k list words name. -/
def namedPast (named : List Nat) (n k : Nat) : Nat := ((named.take k).filter (fun q => decide (q < n))).foldl (fun m q => max m (q + 1)) 0

theorem lt_foldl_max {q : Nat} (l : List Nat) (m : Nat) : q < l.foldl (fun m q => max m (q + 1)) m ↔ q < m ∨ ∃ x ∈ l, q ≤ x := by
  induction l generalizing m with
  | nil => simp
  | cons y l ih =>
    rw [List.foldl_cons, ih, lt_max_iff, Nat.lt_succ_iff, or_assoc, List.exists_mem_cons_iff]

theorem lt_namedPast {word : Nat → Nat} {len n k q : Nat} :
    q < namedPast ((List.range len).map word) n k ↔ ∃ j < min k len, q ≤ word j ∧ word j < n := by
  rw [namedPast, lt_foldl_max, ← List.map_take, List.take_range]
  simp only [Nat.not_lt_zero, false_or, List.mem_filter, List.mem_map, List.mem_range, decide_eq_true_eq]
  constructor
  · rintro ⟨x, ⟨⟨j, hj, rfl⟩, hx⟩, hq⟩
    exact ⟨j, hj, hq, hx⟩
  · rintro ⟨j, hj, hq, hx⟩
    exact ⟨_, ⟨⟨j, hj, rfl⟩, hx⟩, hq⟩

theorem namedPast_le {word : Nat → Nat} {len n k : Nat} : namedPast ((List.range len).map word) n k ≤ n := by
  by_contra h
  obtain ⟨j, -, hq, hx⟩ := lt_namedPast.1 (Nat.lt_of_not_le h)
  omega

theorem foldl_min_idx_le (ls : List ElemLane) (m : Nat) : ∀ x ∈ ls, ls.foldl (fun m x => min m x.idx) m ≤ x.idx := by
  have hle : ∀ (l : List ElemLane) (k : Nat), l.foldl (fun m x => min m x.idx) k ≤ k := fun l => by
    induction l with
    | nil => exact fun k => Nat.le_refl k
    | cons y l ih => exact fun k => (ih _).trans (Nat.min_le_left ..)
  induction ls generalizing m with
  | nil => simp
  | cons y ls ih =>
    intro x hx
    rcases List.mem_cons.1 hx with rfl | hx
    · exact (hle ls _).trans (Nat.min_le_right ..)
    · exact ih _ x hx

theorem lt_foldl_max_idx (ls : List ElemLane) : ∀ x ∈ ls, x.idx + 1 ≤ ls.foldl (fun m x => max m (x.idx + 1)) 0 := by
  intro x hx
  have hfold := (lt_foldl_max (q := x.idx) (ls.map (·.idx)) 0).2 (.inr ⟨_, List.mem_map_of_mem hx, Nat.le_refl _⟩)
  rwa [List.foldl_map] at hfold

/-- The positions that EXPAND_FILL emits: those of `keep` below lo, then from lo to hi those of `keep` and the ones that no word
names. -/
def fillIdx (keep named : List Nat) (lo hi : Nat) : List Nat :=
  keep.filter (fun q => decide (q < lo)) ++ ((List.range (hi - lo)).map (· + lo)).flatMap (fun q =>
    keep.filter (fun p => decide (p = q)) ++ (if named.contains q then [] else [q]))

theorem lt_of_mem_fillIdx {keep named : List Nat} {lo hi n q : Nat} (hkeep : ∀ p ∈ keep, p < n) (hhi : hi ≤ n)
    (h : q ∈ fillIdx keep named lo hi) : q < n := by
  rw [fillIdx, List.mem_append, List.mem_flatMap] at h
  rcases h with h | ⟨p, hp, h⟩
  · exact hkeep q (List.mem_filter.1 h).1
  · rw [List.mem_append] at h
    rcases h with h | h
    · exact hkeep q (List.mem_filter.1 h).1
    · obtain ⟨i, hi', rfl⟩ := List.mem_map.1 hp
      rw [List.mem_range] at hi'
      split at h
      · cases h
      · rw [List.mem_singleton] at h
        omega

/-- A value that exactly one member of a list supplies, once, is supplied once. -/
theorem count_flatMap_eq_one {α β : Type} [DecidableEq β] {f : α → List β} {l : List α} (hl : l.Nodup) {a : α} (ha : a ∈ l) {b : β}
    (hone : (f a).count b = 1) (hzero : ∀ x ∈ l, x ≠ a → b ∉ f x) : (l.flatMap f).count b = 1 := by
  induction l with
  | nil => cases ha
  | cons y l ih =>
    obtain ⟨hy, hl⟩ := List.nodup_cons.1 hl
    rw [List.flatMap_cons, List.count_append]
    rcases List.mem_cons.1 ha with rfl | ha
    · have hrest : (l.flatMap f).count b = 0 := List.count_eq_zero.2 fun hb => by
        obtain ⟨x, hx, hbx⟩ := List.mem_flatMap.1 hb
        exact hzero x (List.mem_cons_of_mem _ hx) (ne_of_mem_of_not_mem hx hy) hbx
      rw [hone, hrest]
    · have hhead : (f y).count b = 0 := List.count_eq_zero.2 (hzero y (List.mem_cons_self ..) (ne_of_mem_of_not_mem ha hy).symm)
      rw [hhead, ih hl ha fun x hx => hzero x (List.mem_cons_of_mem _ hx)]

/-- A position between lo and hi that no word names and no kept element has is emitted once. -/
theorem count_fillIdx {keep named : List Nat} {lo hi q : Nat} (hkeep : q ∉ keep) (hnamed : q ∉ named) (hlo : lo ≤ q) (hhi : q < hi) :
    (fillIdx keep named lo hi).count q = 1 := by
  have hno : ∀ P : Nat → Bool, q ∉ keep.filter P := fun P h => hkeep (List.mem_filter.1 h).1
  have hnodup : ((List.range (hi - lo)).map (· + lo)).Nodup := List.nodup_range.map (add_left_injective lo)
  have hmem : q ∈ (List.range (hi - lo)).map (· + lo) := List.mem_map.2 ⟨q - lo, List.mem_range.2 (by omega), by omega⟩
  rw [fillIdx, List.count_append, List.count_eq_zero.2 (hno _), Nat.zero_add]
  refine count_flatMap_eq_one hnodup hmem ?_ fun p _ hp h => ?_
  · rw [List.count_append, List.count_eq_zero.2 (hno _), if_neg (by simpa using hnamed), Nat.zero_add, List.count_singleton_self]
  · rw [List.mem_append] at h
    rcases h with h | h
    · exact hno _ h
    · split at h
      · cases h
      · exact hp (List.mem_singleton.1 h).symm

/-- A value that a function takes once on a list, it takes at one member only. -/
theorem exists_unique_of_count_map {α β : Type} [DecidableEq β] {f : α → β} {l : List α} {b : β} (h : (l.map f).count b = 1) :
    ∃ x ∈ l, f x = b ∧ ∀ y ∈ l, f y = b → y = x := by
  have hlen : (l.filter (fun x => f x == b)).length = 1 := by
    rw [← List.countP_eq_length_filter]
    simpa [List.count, List.countP_map, Function.comp_def] using h
  obtain ⟨x, hx⟩ := List.length_eq_one_iff.1 hlen
  have hmem : ∀ y, y ∈ l ∧ f y = b ↔ y = x := fun y => by
    rw [← List.mem_singleton (a := y), ← hx, List.mem_filter, beq_iff_eq]
  obtain ⟨hxl, hxb⟩ := (hmem x).2 rfl
  exact ⟨x, hxl, hxb, fun y hy hyb => (hmem y).1 ⟨hy, hyb⟩⟩

/-- The lowest position that EXPAND_FILL emits a blank at: with carry_en, the one after those of the groups before. -/
def State.fillLo (s : State) (c o : Nat) (r : RecipeRun) : Nat :=
  if r.carryEn then namedPast ((List.range r.mexp).map (s.listWord c o r)) (recN o) (r.lanes.foldl (fun m x => min m x.idx) r.mexp) else 0

/-- The position before which EXPAND_FILL emits blanks: all of the order's, or those that the elements in flight reach. -/
def State.fillHi (s : State) (c o : Nat) (r : RecipeRun) : Nat :=
  if r.allIssued then recN o
  else namedPast ((List.range r.mexp).map (s.listWord c o r)) (recN o) (r.lanes.foldl (fun m x => max m (x.idx + 1)) 0)

/-- The positions that EXPAND_FILL emits. -/
def State.filledIdx (s : State) (c o : Nat) (r : RecipeRun) : List Nat :=
  fillIdx ((s.placedIdx c o r).filter (fun q => decide (q < recN o)))
    ((List.range r.mexp).map (s.listWord c o r)) (s.fillLo c o r) (s.fillHi c o r)

/-- Position q stands no later than one of the order's that the first k list words name. -/
def State.reached (s : State) (c o : Nat) (r : RecipeRun) (q k : Nat) : Prop :=
  ∃ j < min k r.mexp, q ≤ s.listWord c o r j ∧ s.listWord c o r j < recN o

theorem State.fillHi_le : s.fillHi c o r ≤ recN o := by
  unfold State.fillHi
  split
  · exact Nat.le_refl _
  · exact namedPast_le

theorem State.lt_fillHi {q : Nat} (hq : q < recN o) (h : r.allIssued = true ∨ ∃ x ∈ r.lanes, s.reached c o r q (x.idx + 1)) :
    q < s.fillHi c o r := by
  unfold State.fillHi
  split
  · exact hq
  next hall =>
    obtain ⟨x, hx, j, hj, hreach⟩ := h.resolve_left hall
    have hmax := lt_foldl_max_idx r.lanes x hx
    exact lt_namedPast.2 ⟨j, by omega, hreach⟩

theorem State.fillLo_le {q : Nat} (h : r.carryEn = true → ¬ ∀ x ∈ r.lanes, s.reached c o r q x.idx) : s.fillLo c o r ≤ q := by
  unfold State.fillLo
  split
  next hcarry =>
    by_contra hlt
    obtain ⟨j, hj, hreach⟩ := lt_namedPast.1 (Nat.lt_of_not_le hlt)
    refine h hcarry fun x hx => ⟨j, ?_, hreach⟩
    have hmin := foldl_min_idx_le r.lanes r.mexp x hx
    omega
  · exact Nat.zero_le q

theorem State.filledIdx_lt {q : Nat} (h : q ∈ s.filledIdx c o r) : q < recN o :=
  lt_of_mem_fillIdx (fun p hp => by simpa using (List.mem_filter.1 hp).2) State.fillHi_le h

/-- Each position of the order that the group reaches and no list word names is emitted once. -/
theorem State.count_filledIdx {q : Nat} (hq : q < recN o) (hhi : r.allIssued = true ∨ ∃ x ∈ r.lanes, s.reached c o r q (x.idx + 1))
    (hlo : r.carryEn = true → ¬ ∀ x ∈ r.lanes, s.reached c o r q x.idx) (hnamed : ∀ j < r.mexp, s.listWord c o r j ≠ q) :
    (s.filledIdx c o r).count q = 1 := by
  refine count_fillIdx ?_ ?_ (State.fillLo_le hlo) (State.lt_fillHi hq hhi)
  · intro h
    obtain ⟨j, hj, hjq⟩ := List.mem_map.1 (List.mem_filter.1 h).1
    exact hnamed j (by simpa using (List.mem_filter.1 hj).2) hjq
  · intro h
    obtain ⟨j, hj, hjq⟩ := List.mem_map.1 h
    exact hnamed j (List.mem_range.1 hj) hjq

/-! #### EXPAND_FILL's elements -/

/-- An element at a position that no list word names, before its operand is read. -/
def blankLane (q : Nat) : ElemLane :=
  { idx := q, in0 := 0, in1 := 0, in2 := 0, v := List.replicate 8 0, p0 := false, p1 := false, rnd := ⟨0, 0, 0, 0⟩,
    enc0 := (none, .none), enc1 := (none, .none), lane := 0, unit := 0 }

/-- The elements that EXPAND_FILL emits, before blanks take their operand and lanes are numbered. -/
def State.fillLanes (s : State) (c o u : Nat) (r : RecipeRun) : List ElemLane :=
  (s.keepLanes c o u r).filter (fun x => decide (x.idx < s.fillLo c o r))
    ++ ((List.range (s.fillHi c o r - s.fillLo c o r)).map (· + s.fillLo c o r)).flatMap (fun q =>
      (s.keepLanes c o u r).filter (fun x => x.idx = q)
        ++ (if ((List.range r.mexp).map (s.listWord c o r)).contains q then [] else [blankLane q]))

theorem State.fillLanes_idx : (s.fillLanes c o u r).map (·.idx) = s.filledIdx c o r := by
  have hblank : ∀ (b : Bool) (q : Nat), (if b then [] else [blankLane q]).map (·.idx) = if b then [] else [q] := fun b q => by
    cases b <;> rfl
  rw [State.filledIdx, ← State.keepLanes_idx (u := u), fillIdx, State.fillLanes, List.map_append, List.map_flatMap, List.filter_map]
  congr 1
  refine congrArg (fun f => List.flatMap f _) (funext fun q => ?_)
  rw [List.map_append, hblank, List.filter_map]
  rfl

/-- EXPAND_FILL goes on with its elements, each at its position. -/
theorem exec_uopExpandFill (hready : s.uopReady c [8] 1 = some (s1, r, u)) (hgo : GoesOn r (s1.ordOf c r.flight))
    (hdraws : r.usesDraws (s1.ordOf c r.flight) (s1.srEnable c) (r.pc + 1) 25 = false) (hbad : (s1.core c).stockBad = [])
    (hrnd : uSrcC u ≠ 11) : ∃ ls, ls.map (·.idx) = s1.filledIdx c (s1.ordOf c r.flight) r ∧ exec (.uopExpandFill c) s
      = .next (reachOrder.take s ((s1.expandCounted c (s1.ordOf c r.flight) u r).modRun c (fun x => x.renumbered ls x.kept))) := by
  have hredraw := State.redraw_none (t := s1.expandCounted c (s1.ordOf c r.flight) u r) hdraws State.expandCounted_flights
    (State.expandCounted_reg (by decide)) (s1.fillLanes c (s1.ordOf c r.flight) u r)
  have hexec : exec (.uopExpandFill c) s = .next (reachOrder.take s (
      let q := (s1.expandCounted c (s1.ordOf c r.flight) u r).redraw c r (s1.fillLanes c (s1.ordOf c r.flight) u r)
      (q.1.modRun c (fun x => x.renumbered ((q.2.map (fun x =>
        if true && !((List.range r.mexp).map (s1.listWord c (s1.ordOf c r.flight) r)).contains x.idx then setV u x (uC r u x) else x)).mapIdx
          (fun i x => { x with lane := i % s.boot.lanes })) x.kept)).elemSettle c)) := by
    show Host.Outcome.next (reachOrder.take s (s.expand c true)) = _
    unfold State.expand
    simp only [if_true, hready, State.stockRanges_intact hbad, hrnd, decide_false, Bool.and_false, Bool.false_eq_true, if_false]
    rfl
  rw [hredraw] at hexec
  dsimp only at hexec
  rw [State.renumbered_settles (State.uopReady_run hready) hgo State.expandCounted_runs State.expandCounted_flights] at hexec
  refine ⟨_, ?_, hexec⟩
  rw [← State.fillLanes_idx (u := u)]
  refine List.ext_getElem (by simp) fun i h1 h2 => ?_
  simp only [List.getElem_map, List.getElem_mapIdx]
  split
  · rfl
  · rfl

end Sys2Proof.Machine
end

section
/-! PROOFS. Stations 9 and 10 (R101, R103): conversions to formats that are no block format, and an element routed to its core's
stockroom. O16 is settled at the end. -/

namespace Sys2Proof.Machine

open Sys2Proof.Safety Sys2Proof.Claims

variable {s s1 : State} {c u op o : Nat} {sts : List Nat} {r : RecipeRun}

/-! #### Conversions (R101) -/

/-- A station 9 micro-op's own place among the encodings changes none of an element's values (R103). -/
theorem voidEnc_eq (u n : Nat) (x : ElemLane) : ∃ e0 e1, voidEnc u n x = { x with enc0 := e0, enc1 := e1 } := by
  unfold voidEnc
  split
  · exact ⟨_, _, rfl⟩
  · exact ⟨_, _, rfl⟩

theorem setEnc_eq (u n : Nat) (x : ElemLane) (w : Word) (e : Enc) :
    ∃ e0 e1, setEnc u n x w e = { x with v := x.v.set (bits u 11 9) w, enc0 := e0, enc1 := e1 } := by
  unfold setEnc
  dsimp only
  split
  · exact ⟨_, _, rfl⟩
  · exact ⟨_, _, rfl⟩

/-- The overflow policy of a conversion: imm[2:1], or the engine's (R101). -/
theorem uNonsat_eq (dflt : Bool) (u : Nat) : uNonsat dflt u
    = if bits u 63 32 / 2 % 4 = 1 then false else if bits u 63 32 / 2 % 4 = 2 then true else dflt := by
  have hfield : bits (uImm u) 2 1 = bits u 63 32 / 2 % 4 := congrArg (· % 4) (Nat.shiftRight_eq_div_pow (uImm u) 1)
  rw [← hfield, uNonsat]
  split
  next h => rw [if_pos h]
  next h => rw [if_neg (by omega), if_pos h]
  next h1 h2 => rw [if_neg h1, if_neg h2]

/-- The encoding that a conversion of an element to a format gives (R50, R101); `sr`: it rounds stochastically. -/
def convertedCode (r : RecipeRun) (u fmt : Nat) (sr nonsat : Bool) (x : ElemLane) : Nat :=
  convScalar (if sr then .sr x.rnd.y3 else .rne) fmt nonsat (opnd r u x (bits u 15 12) (fmtIsInt fmt))

/-- What a conversion makes of an element. -/
def convertLane (r : RecipeRun) (u fmt : Nat) (sr nonsat : Bool) (x0 : ElemLane) : ElemLane :=
  let x := voidEnc u (uImm u % 2) x0
  if predOk u x then
    setEnc u (uImm u % 2) x (rawDecode32 fmt ⟨convertedCode r u fmt sr nonsat x, 127, 0⟩) (.plain (convertedCode r u fmt sr nonsat x))
  else x

theorem convertLane_v (r : RecipeRun) (u fmt : Nat) (sr nonsat : Bool) (x : ElemLane) : (convertLane r u fmt sr nonsat x).v
    = if predTrue u x then x.v.set (bits u 11 9) (rawDecode32 fmt ⟨convertedCode r u fmt sr nonsat x, 127, 0⟩) else x.v := by
  obtain ⟨e0, e1, hvoid⟩ := voidEnc_eq u (uImm u % 2) x
  have hpred : predOk u { x with enc0 := e0, enc1 := e1 } = predTrue u x := predOk_eq_predTrue u x
  have hcode : convertedCode r u fmt sr nonsat { x with enc0 := e0, enc1 := e1 } = convertedCode r u fmt sr nonsat x := rfl
  unfold convertLane
  dsimp only
  rw [hvoid, hpred, hcode]
  split
  · obtain ⟨d0, d1, hset⟩ := setEnc_eq u (uImm u % 2) { x with enc0 := e0, enc1 := e1 }
      (rawDecode32 fmt ⟨convertedCode r u fmt sr nonsat x, 127, 0⟩) (.plain (convertedCode r u fmt sr nonsat x))
    rw [hset]
  · rfl

theorem convertLane_rest (r : RecipeRun) (u fmt : Nat) (sr nonsat : Bool) (x : ElemLane) :
    ((convertLane r u fmt sr nonsat x).idx, (convertLane r u fmt sr nonsat x).p0, (convertLane r u fmt sr nonsat x).p1)
      = (x.idx, x.p0, x.p1) := by
  obtain ⟨e0, e1, hvoid⟩ := voidEnc_eq u (uImm u % 2) x
  unfold convertLane
  dsimp only
  rw [hvoid]
  split
  · obtain ⟨d0, d1, hset⟩ := setEnc_eq u (uImm u % 2) { x with enc0 := e0, enc1 := e1 }
      (rawDecode32 fmt ⟨convertedCode r u fmt sr nonsat { x with enc0 := e0, enc1 := e1 }, 127, 0⟩)
      (.plain (convertedCode r u fmt sr nonsat { x with enc0 := e0, enc1 := e1 }))
    rw [hset]
  · rfl

/-- A conversion to a format that is no block format acts on each element alone, where the recipe goes on after it. -/
theorem exec_convertRow : ∀ row ∈ convertRows c, s.uopReady c [9] row.2.1 = some (s1, r, u) → GoesOn r (s1.ordOf c r.flight) →
    fmtIsBlock (outFmt (s1.ordOf c r.flight) (uImm u % 2) r.dests) = false → exec row.1 s = .next (reachOrder.take s (s1.modRun c
      (fun x => x.renumbered (x.lanes.map (convertLane r u (outFmt (s1.ordOf c r.flight) (uImm u % 2) r.dests) (row.2.2 && s1.srEnable c)
        (uNonsat (s1.defaultNonsat c) u))) x.kept))) := by
  have hconvert : ∀ op sr, s.uopReady c [9] op = some (s1, r, u) → GoesOn r (s1.ordOf c r.flight) →
      fmtIsBlock (outFmt (s1.ordOf c r.flight) (uImm u % 2) r.dests) = false → s.convert c op sr = s1.modRun c
        (fun x => x.renumbered (x.lanes.map (convertLane r u (outFmt (s1.ordOf c r.flight) (uImm u % 2) r.dests) (sr && s1.srEnable c)
          (uNonsat (s1.defaultNonsat c) u))) x.kept) := by
    intro op sr hready hgo hblock
    unfold State.convert
    simp only [hready, hblock, Bool.not_false, if_true]
    exact State.elemSettle_modRun (State.uopReady_run hready) rfl (RecipeRun.stays_of_goesOn hgo _ r.kept)
  intro row hrow hready hgo hblock
  have hgoes := hconvert row.2.1 row.2.2 hready hgo hblock
  rw [← hgoes]
  simp only [convertRows, List.mem_cons, List.not_mem_nil, or_false] at hrow
  obtain rfl | rfl | rfl | rfl := hrow
  · rfl
  · rfl
  · rfl
  · rfl

/-! #### ROUTE (R103) -/

theorem spaceOf_inSpace_zero (a : Nat) : spaceOf (inSpace 0 21 a) = 0 := by
  have hlt : inSpace 0 21 a < 2 ^ 60 := by
    unfold inSpace
    omega
  rw [spaceOf, bits, Nat.shiftRight_eq_div_pow, Nat.div_eq_of_lt hlt, Nat.zero_mod]

/-- An output to the stockroom stands in space 0 (R164). -/
theorem spaceOf_outAddr_stock (o n : Nat) : spaceOf (outAddr o n 1).1 = 0 := by
  show spaceOf (if spaceOf (ordW64 o (13 + 2 * n)) = 0 then (ordW64 o (13 + 2 * n), 0)
    else (inSpace 0 21 (ordW64 o (13 + 2 * n)), 1)).1 = 0
  split
  · assumption
  · exact spaceOf_inSpace_zero _

/-- An output to the stockroom is its own core's (R109). -/
theorem RecipeRun.outLoc_stock {n : Nat} (h : r.dests.getD n 0 = 1) : ∃ a, r.outLoc c o n = .stock c a := by
  refine ⟨bits (outAddr o n 1).1 20 0, ?_⟩
  rw [RecipeRun.outLoc, h, locOf, spaceOf_outAddr_stock]
  rfl

/-- Bytes from a core to its own stockroom cost no token (R24). -/
theorem State.flowCost_own (p : Nat) (a b n : Nat) : s.flowCost p none (.stock c a) (.stock c b) n = [] := by
  rw [State.flowCost_stock, hopCost, if_pos (by simp)]
  rfl

/-- One FP32 element that no station 9 micro-op has encoded goes to its place in the stockroom. -/
theorem State.routeElem_stock {n a : Nat} {x : ElemLane} (hdest : r.dests.getD n 0 = 1) (hloc : r.outLoc c o n = .stock c a)
    (hfmt : outFmt o n r.dests = 0) (henc : x.enc0.1 = none ∧ x.enc1.1 = none) : s.routeElem c o r u n x
      = s.stockWrite c ((a + x.idx * 4) % 2097152)
          (leBytes 4 (convScalar .rne 0 (s.defaultNonsat c) (opnd r u x (bits u 15 12) false))) := by
  have hown : (if n = 0 then x.enc0 else x.enc1).1 = none := by
    split
    · exact henc.1
    · exact henc.2
  have hblock : fmtIsBlock 0 = false := by decide
  have hplace : x.idx * 32 / 8 = x.idx * 4 := by omega
  unfold State.routeElem
  simp only [hdest, hfmt, hown, hloc, hblock, Bool.false_eq_true, if_false, reduceCtorEq]
  unfold State.putElem
  simp only [show fmtWidth 0 = 32 from rfl, hplace]
  rfl

theorem State.runs_stockWrite (d e : Nat) (bs : List Byte) (z : Nat) :
    ((s.stockWrite d e bs).core z).eng.runs = (s.core z).eng.runs :=
  s.modCore_proj (fun x => x.eng.runs) _ (fun _ => by rfl) d z

/-- ROUTE of one such element, of a recipe that goes on after it. -/
theorem exec_uopRoute {n a : Nat} {x : ElemLane} (hn : n < 2) (hready : s.uopReady c [10] n = some (s1, r, u))
    (hfirst : n = 1 → s.uopReady c [10] 0 = none) (hgo : GoesOn r (s1.ordOf c r.flight)) (hlanes : r.lanes = [x])
    (hpred : predTrue u x = true) (hdest : r.dests.getD n 0 = 1) (houts : s1.outsReady c (s1.ordOf c r.flight) r = true)
    (hfmt : outFmt (s1.ordOf c r.flight) n r.dests = 0) (henc : x.enc0.1 = none ∧ x.enc1.1 = none)
    (hloc : r.outLoc c (s1.ordOf c r.flight) n = .stock c a) : exec (.uopRoute c) s = .next (reachOrder.take s ((s1.stockWrite c
      ((a + x.idx * 4) % 2097152) (leBytes 4 (convScalar .rne 0 (s1.defaultNonsat c) (opnd r u x (bits u 15 12) false)))).modRun c
        (fun y => { y with pc := y.pc + 1 }))) := by
  have houtput : ∀ go : Nat → State, (if (s.uopReady c [10] 0).isSome then go 0 else go 1) = go n := fun go => by
    obtain rfl | rfl : n = 0 ∨ n = 1 := by omega
    · rw [hready]
      rfl
    · rw [hfirst rfl]
      rfl
  have hlive : r.lanes.filter (predOk u) = [x] := by simp [hlanes, predOk_eq_predTrue, hpred]
  have hroute := State.routeElem_stock (s := s1) (u := u) hdest hloc hfmt henc
  have hsettle := State.elemSettle_modRun (s := s1.routeElem c (s1.ordOf c r.flight) r u n x) (c := c) (r := r)
    (f := fun y => { y with pc := y.pc + 1 })
    (by rw [hroute, State.run_congr (State.runs_stockWrite ..)]; exact State.uopReady_run hready) rfl
    (by rw [hroute, State.ordOf_congr (State.flights_stockWrite ..)]; exact RecipeRun.stays_of_goesOn hgo r.lanes r.kept)
  have hopen : s1.gatesOpen [] = true := rfl
  have htake : s1.gatesTake [] = s1 := rfl
  rw [← hroute, ← hsettle]
  refine congrArg (fun w => Host.Outcome.next (reachOrder.take s w)) ?_
  extract_lets go
  rw [houtput go]
  cases hp : s1.partOfCore c with
  | none =>
    simp only [go, hready, hlive, hp, houts, hopen, htake, Bool.not_true, Bool.false_eq_true, if_false, List.foldl_cons, List.foldl_nil]
  | some p =>
    simp only [go, hready, hlive, hp, houts, hloc, State.flowCost_own, ite_self, hopen, htake, Bool.not_true, Bool.false_eq_true, if_false,
      List.foldl_cons, List.foldl_nil]

end Sys2Proof.Machine

namespace Sys2Proof.Proofs

open Sys2Proof Sys2Proof.Machine Sys2Proof.Safety Sys2Proof.Claims

/-- Settles O16, one micro-op after the other. -/
theorem elementsAreRenumberedConvertedAndRouted : Obligations.ElementsAreRenumberedConvertedAndRouted := by
  unfold Obligations.ElementsAreRenumberedConvertedAndRouted
  refine ⟨⟨?compress, ?keep, ?fill⟩, ?convert, ?route⟩
  case compress =>
    intro s s1 c u r hready hgo hdraws o kept
    obtain ⟨ls, hidx, hexec⟩ := exec_uopCompress hready hgo hdraws
    have hrun : (s1.compressed c o r).run c = some r :=
      (State.run_congr (State.compressed_proj (fun x => x.eng.runs) (fun _ _ _ => by rfl) (fun _ _ _ => by rfl) (fun _ _ => by rfl) c)).trans
        (State.uopReady_run hready)
    refine ⟨_, _, hexec, State.run_modRun hrun _, hidx, rfl, rfl, ?_, State.compressed_kept, ?_, ?_⟩
    · exact (State.modRun_proj (fun x => smGet 0 x.sregs (ordF o 11 21 16 % 64)) (fun _ _ => by rfl) ..).trans State.compressed_sreg
    · exact (State.modRun_proj Core.stock (fun _ _ => by rfl) ..).trans State.compressed_stock
    · exact State.compressed_cores.modRun.takeOrder
  case keep =>
    intro s s1 c u r hready hgo hdraws hbad o word dense
    have hrun : (s1.expandCounted c o u r).run c = some r :=
      (State.run_congr State.expandCounted_runs).trans (State.uopReady_run hready)
    refine ⟨_, _, exec_uopExpandKeep hready hgo hdraws hbad, State.run_modRun hrun _, State.keepLanes_idx, rfl, State.expandCounted_dropped,
      ?_, ?_⟩
    · exact (State.modRun_proj Core.stock (fun _ _ => by rfl) ..).trans (State.expandCounted_proj Core.stock (fun _ _ _ => by rfl) c)
    · exact State.expandCounted_cores.modRun.takeOrder
  case fill =>
    intro s s1 c u r hready hgo hdraws hbad hrnd o word reached
    obtain ⟨ls, hidx, hexec⟩ := exec_uopExpandFill hready hgo hdraws hbad hrnd
    have hrun : (s1.expandCounted c o u r).run c = some r :=
      (State.run_congr State.expandCounted_runs).trans (State.uopReady_run hready)
    refine ⟨_, _, hexec, State.run_modRun hrun _, rfl, fun q hq hhi hlo hnamed => ?_, fun x hx => ?_, ?_, ?_⟩
    · have hcount := State.count_filledIdx hq hhi hlo hnamed
      rw [← hidx] at hcount
      exact exists_unique_of_count_map hcount
    · exact State.filledIdx_lt (hidx ▸ List.mem_map_of_mem hx)
    · exact (State.modRun_proj Core.stock (fun _ _ => by rfl) ..).trans (State.expandCounted_proj Core.stock (fun _ _ _ => by rfl) c)
    · exact State.expandCounted_cores.modRun.takeOrder
  case convert =>
    intro s s1 c u r row hrow hready hgo fmt hblock nonsat enc
    have hexec := exec_convertRow row hrow hready hgo hblock
    rw [uNonsat_eq] at hexec
    refine ⟨_, _, hexec, State.run_modRun (State.uopReady_run hready) _, rfl, ?_, ?_,
      CoresKept.refl.modRun.takeOrder, State.modRun_proj Core.stock (fun _ _ => by rfl) .., rfl⟩
    · refine List.map_map.trans (List.map_congr_left fun x _ => ?_)
      exact convertLane_v ..
    · refine List.map_map.trans (List.map_congr_left fun x _ => ?_)
      exact convertLane_rest ..
  case route =>
    intro s s1 c u n r x hn hready hfirst hgo hlanes hpred hdest houts hfmt henc
    obtain ⟨a, hloc⟩ := RecipeRun.outLoc_stock (c := c) (o := s1.ordOf c r.flight) hdest
    have hexec := exec_uopRoute hn hready hfirst hgo hlanes hpred hdest houts hfmt henc hloc
    refine ⟨_, hexec, a, hloc, ?_, ?_, ?_⟩
    · refine (State.modRun_proj Core.stock (fun _ _ => by rfl) ..).trans ?_
      rw [State.stock_stockWrite_same, Nat.mod_mod]
    · exact congrArg (Option.map (·.pc))
        (State.run_modRun ((State.run_congr (State.runs_stockWrite ..)).trans (State.uopReady_run hready)) _)
    · exact (CoresKept.refl.stockWrite (List.mem_singleton_self c) _ _).modRun.takeOrder

end Sys2Proof.Proofs
end

section
/-! PROOFS. The tally (R112 to R121, R128): how a reduction begins and ends, what taking elements changes, and a row of COUNT. O17 is
settled at the end. -/

namespace Sys2Proof.Safety

open Sys2Proof.Machine

variable {s t : State} {f : Reach} {c : Nat}

theorem Kept.modTally (h : Kept f s t) (hf : f.cores = true) (c : Nat) (g : TallyRun → TallyRun) : Kept f s (t.modTally c g) :=
  h.modCore hf ..

theorem CoresKept.modTally (h : CoresKept s t [c]) (g : TallyRun → TallyRun) : CoresKept s (t.modTally c g) [c] :=
  h.modCore (List.mem_singleton_self c) _

end Sys2Proof.Safety

namespace Sys2Proof.Machine

open Sys2Proof.Safety Sys2Proof.Claims

variable {s t : State} {c : Nat} {st : Start} {x : TallyRun} {rest : List TallyRun}

/-! #### The reduction at the head of the tally -/

theorem State.tally_modTally (h : (s.core c).tally = x :: rest) (f : TallyRun → TallyRun) :
    ((s.modTally c f).core c).tally = f x :: rest := by
  unfold State.modTally
  rw [State.core_modCore_same, h]

/-- What does not depend on a core's tally is as before an update of its head reduction. -/
theorem State.modTally_proj {α : Type} (π : Core → α) (h : ∀ x ts, π { x with tally := ts } = π x) (c : Nat) (f : TallyRun → TallyRun)
    (z : Nat) : π ((s.modTally c f).core z) = π (s.core z) :=
  s.modCore_proj π _ (fun x => h x _) c z

theorem State.ordOf_modFlight {id : Nat} {g : Flight → Flight} (hid : ∀ y, (g y).id = y.id) (hord : ∀ y, (g y).ord = y.ord) (k : Nat) :
    (s.modFlight c id g).ordOf c k = s.ordOf c k := by
  unfold State.ordOf
  rw [State.flight_modFlight hid]
  cases (s.core c).flight k with
  | none => rfl
  | some f =>
    rw [Option.map_some]
    dsimp only
    split
    · exact hord f
    · rfl

theorem recRow_pos (o : Nat) : 0 < recRow o := by
  unfold recRow clampNat
  split_ifs <;> omega

/-! #### When a reduction ends (R120) -/

/-- A reduction whose stream is not closed, or with a row's result to write, goes on. -/
theorem State.tallyEnd_goesOn (h : (s.core c).tally = x :: rest)
    (hopen : x.closed = false ∨ (x.lost = false ∧ x.written < ceilDiv x.total (recRow (s.ordOf c x.flight)))) : s.tallyEnd c = s := by
  have hnot : (x.closed && x.inbox.isEmpty && (x.isOrder || x.outsDone)
      && (x.lost || decide (x.written ≥ ceilDiv x.total (recRow (s.ordOf c x.flight))))) = false := by
    rcases hopen with hclosed | ⟨hlost, hrows⟩
    · simp [hclosed]
    · simp [hlost, hrows]
  unfold State.tallyEnd
  simp only [h, hnot, Bool.false_eq_true, if_false]

/-- The end of a reduction changes its core's tally and flights alone. -/
theorem State.tallyEnd_proj {α : Type} (π : Core → α) (ht : ∀ x ts, π { x with tally := ts } = π x)
    (hf : ∀ x fs, π { x with flights := fs } = π x) (z : Nat) : π ((s.tallyEnd c).core z) = π (s.core z) := by
  unfold State.tallyEnd
  split
  · rfl
  · dsimp only
    split
    · exact (State.modFlight_proj π hf ..).trans (s.modCore_proj π _ (fun x => ht x _) c z)
    · rfl

theorem State.tallyEnd_cores : CoresKept s (s.tallyEnd c) [c] := by
  have hc : c ∈ [c] := List.mem_singleton_self c
  unfold State.tallyEnd
  split
  · exact CoresKept.refl
  · dsimp only
    split
    · exact ((CoresKept.modCore CoresKept.refl hc _).trans_of_cores_eq (State.bump_cores ..)).finish hc _ _
    · exact CoresKept.refl

/-! #### A TALLY order starts (R112, R117) -/

/-- A reduction as a TALLY order begins it. -/
structure TallyRun.Begins (x : TallyRun) (s : State) (c o : Nat) : Prop where
  flight : x.flight = (s.core c).freshId
  op : x.op = tallyOp0 o
  isOrder : x.isOrder = true
  total : x.total = recN o
  next : x.next = 0
  written : x.written = 0
  unclosed : x.closed = false

/-- The state in which a started TALLY order has joined the tally, with its clamps counted. -/
def State.tallyJoined (s : State) (c : Nat) (st : Start) (k : Nat) (x : TallyRun) : State :=
  ((s.startOrder c st).1.orderClamps c (s.core c).freshId pgTally c k).modCore c (fun y => { y with tally := y.tally ++ [x] })

theorem State.tallyJoined_proj {α : Type} {k : Nat} (π : Core → α) (ht : ∀ x ts, π { x with tally := ts } = π x)
    (hf : ∀ x fs, π { x with flights := fs } = π x) (z : Nat) :
    π ((s.tallyJoined c st k x).core z) = π ((s.startOrder c st).1.core z) := by
  unfold State.tallyJoined
  rw [State.modCore_proj _ π _ (fun x => ht x _), State.orderClamps_proj π hf]

theorem State.tallyJoined_tally {k : Nat} (hidle : (s.core c).tally = []) : ((s.tallyJoined c st k x).core c).tally = [x] := by
  have hstarted : (((s.startOrder c st).1.orderClamps c (s.core c).freshId pgTally c k).core c).tally = [] := by
    rw [State.orderClamps_proj Core.tally (fun _ _ => by rfl), State.startOrder_core]
    exact hidle
  unfold State.tallyJoined
  rw [State.core_modCore_same, hstarted]
  rfl

theorem State.tallyJoined_kept {k : Nat} : Kept { regs := true, cores := true } s (s.tallyJoined c st k x) :=
  ((State.startOrder_kept s c st).1.orderClamps rfl rfl ..).modCore rfl ..

theorem State.tallyJoined_cores {k : Nat} : CoresKept s (s.tallyJoined c st k x) [c] := by
  have hc : c ∈ [c] := List.mem_singleton_self c
  exact ((State.startOrder_coresKept c st).orderClamps hc _ _ _ _).modCore hc _

/-- A TALLY order with an operation joins an idle tally and stays there. -/
theorem State.tallyStart_joined (hidle : (s.core c).tally = []) (hlo : 1 ≤ tallyOp0 st.ord) (hhi : tallyOp0 st.ord ≤ 9) :
    ∃ k x, x.Begins s c st.ord ∧ s.tallyStart c st = s.tallyJoined c st k x := by
  have hop : ¬ tallyOp0 st.ord > 9 := by omega
  have hne : ¬ tallyOp0 st.ord = 0 := by omega
  have hstart : ∃ k x, x.Begins s c st.ord ∧ s.tallyStart c st = (s.tallyJoined c st k x).tallyEnd c := by
    unfold State.tallyStart
    simp only [hop, hne, if_false, decide_false]
    refine ⟨_, _, ?_, rfl⟩
    exact ⟨rfl, rfl, rfl, rfl, rfl, rfl, rfl⟩
  obtain ⟨k, x, hbegins, hstart⟩ := hstart
  rw [State.tallyEnd_goesOn (State.tallyJoined_tally hidle) (.inl hbegins.unclosed)] at hstart
  exact ⟨k, x, hbegins, hstart⟩

theorem exec_tally (hpick : s.pick c = some st) (hop : st.op = 0x19) :
    exec (.tally c) s = .next (reachOrder.take s (s.tallyStart c st)) :=
  congrArg (fun w => Host.Outcome.next (reachOrder.take s w)) (State.runOrder_pick hpick (by simpa using hop) _)

/-! #### An element is taken (R118, R119) -/

/-- The state in which an element has come out of order: counted, with its error bit, its order's data lost (R119). -/
def State.tallyFaulted (s : State) (c id : Nat) : State := ((s.bump pgTally c 0 rTallyOrderFault 1).setErr pgTally c 2).flightLost c id

/-- The state in which an element is counted and has joined its reduction. -/
def State.tallyFilled (s : State) (c : Nat) (g : TallyRun → TallyRun) : State := (s.bump pgTally c 0 rTallyElems 1).modTally c g

/-- An update of a reduction's row state alone. -/
def FillsRows (g : TallyRun → TallyRun) : Prop := ∀ y, ∃ rows last h, g y = { y with rows := rows, last := last, h := h }

/-- An element of SUM, RMAXSUM or SCAN may come out of order; otherwise it joins its row, and SCAN writes its value. -/
theorem State.tallyTake_cases (h : (s.core c).tally = x :: rest) (o : Nat) (m : Mem) (e : Nat × Word × Word) :
    (x.op ∈ [1, 6, 9] ∧ s.tallyTake c o m e = s.tallyFaulted c x.flight)
    ∨ ∃ g, FillsRows g ∧ (s.tallyTake c o m e = s.tallyFilled c g
        ∨ (x.op = 9 ∧ ∃ a bs, s.tallyTake c o m e = (s.tallyFilled c g).stockWrite c a bs)) := by
  unfold State.tallyTake
  simp only [h, List.head?_cons]
  split
  next hfault =>
    simp only [Bool.and_eq_true, Bool.or_eq_true, decide_eq_true_eq] at hfault
    refine .inl ⟨?_, rfl⟩
    simp only [List.mem_cons, List.not_mem_nil, or_false]
    omega
  · split
    next hscan => exact .inr ⟨_, fun y => ⟨_, _, _, rfl⟩, .inr ⟨hscan, _, _, rfl⟩⟩
    · exact .inr ⟨_, fun y => ⟨_, _, _, rfl⟩, .inl rfl⟩

/-- What taking n elements leaves of a state whose tally has x at its head. -/
structure TallyTook (s t : State) (c : Nat) (x : TallyRun) (rest : List TallyRun) (n : Nat) : Prop where
  tally : ∃ rows last h, (t.core c).tally = { x with rows := rows, last := last, h := h } :: rest
  ord : ∀ id, t.ordOf c id = s.ordOf c id
  busy : t.reg pgTally c 0 rTallyBusy = s.reg pgTally c 0 rTallyBusy
  elems : x.op ∉ [1, 6, 9] → t.reg pgTally c 0 rTallyElems = s.reg pgTally c 0 rTallyElems + BitVec.ofNat 64 n
  stock : x.op ≠ 9 → (t.core c).stock = (s.core c).stock
  cores : CoresKept s t [c]
  kept : Kept { regs := true, cores := true } s t

theorem TallyTook.refl (h : (s.core c).tally = x :: rest) : TallyTook s s c x rest 0 :=
  ⟨⟨_, _, _, h⟩, fun _ => rfl, rfl, fun _ => by simp, fun _ => rfl, CoresKept.refl, Kept.refl ..⟩

/-- An element out of order leaves the reduction as it was. -/
theorem State.tallyFaulted_took (h : (s.core c).tally = x :: rest) (hop : x.op ∈ [1, 6, 9]) (id : Nat) :
    TallyTook s (s.tallyFaulted c id) c x rest 1 where
  tally := ⟨x.rows, x.last, x.h, (State.modFlight_proj Core.tally (fun _ _ => by rfl) ..).trans h⟩
  ord := State.ordOf_modFlight (fun _ => rfl) (fun _ => rfl)
  busy := (State.reg_setReg_other _ _ (regKey_off (by decide))).trans (State.reg_setReg_other _ _ (regKey_off (by decide)))
  elems := fun hne => absurd hop hne
  stock := fun _ => State.modFlight_proj Core.stock (fun _ _ => by rfl) ..
  cores := CoresKept.modFlight (CoresKept.of_cores_eq (s := s) rfl) (List.mem_singleton_self c) _ _
  kept := (((Kept.refl ..).bump rfl ..).setErr rfl ..).modFlight rfl ..

theorem State.tallyFilled_took (h : (s.core c).tally = x :: rest) {g : TallyRun → TallyRun} (hg : FillsRows g) :
    TallyTook s (s.tallyFilled c g) c x rest 1 where
  tally := by
    obtain ⟨rows, last, hs, hx⟩ := hg x
    exact ⟨rows, last, hs, (State.tally_modTally (s := s.bump pgTally c 0 rTallyElems 1) h g).trans (by rw [hx])⟩
  ord := State.ordOf_congr (State.modTally_proj Core.flights (fun _ _ => by rfl) ..)
  busy := State.reg_setReg_other _ _ (regKey_off (by decide))
  elems := fun _ => s.reg_bump_same ..
  stock := fun _ => State.modTally_proj Core.stock (fun _ _ => by rfl) ..
  cores := CoresKept.modTally (CoresKept.of_cores_eq (s := s) rfl) _
  kept := ((Kept.refl ..).bump rfl ..).modTally rfl ..

/-- SCAN's value is written beside what its reduction keeps. -/
theorem TallyTook.stockWrite {n : Nat} (h : TallyTook s t c x rest n) (hop : x.op = 9) (a : Nat) (bs : List Byte) :
    TallyTook s (t.stockWrite c a bs) c x rest n where
  tally := by
    obtain ⟨rows, last, hs, htally⟩ := h.tally
    exact ⟨rows, last, hs, (t.modCore_proj Core.tally _ (fun _ => by rfl) c c).trans htally⟩
  ord := fun id => (State.ordOf_congr (State.flights_stockWrite ..) id).trans (h.ord id)
  busy := h.busy
  elems := h.elems
  stock := fun hne => absurd hop hne
  cores := h.cores.stockWrite (List.mem_singleton_self c) _ _
  kept := h.kept.stockWrite rfl ..

theorem State.tallyTake_took (h : (s.core c).tally = x :: rest) (o : Nat) (m : Mem) (e : Nat × Word × Word) :
    TallyTook s (s.tallyTake c o m e) c x rest 1 := by
  rcases State.tallyTake_cases h o m e with ⟨hop, htake⟩ | ⟨g, hg, htake | ⟨hop, a, bs, htake⟩⟩
  · rw [htake]
    exact State.tallyFaulted_took h hop _
  · rw [htake]
    exact State.tallyFilled_took h hg
  · rw [htake]
    exact (State.tallyFilled_took h hg).stockWrite hop a bs

theorem TallyTook.take {n : Nat} (h : TallyTook s t c x rest n) (o : Nat) (m : Mem) (e : Nat × Word × Word) :
    TallyTook s (t.tallyTake c o m e) c x rest (n + 1) := by
  obtain ⟨rows, last, hs, htally⟩ := h.tally
  have hnext := State.tallyTake_took htally o m e
  obtain ⟨rows', last', hs', htally'⟩ := hnext.tally
  refine ⟨⟨rows', last', hs', htally'⟩, fun id => (hnext.ord id).trans (h.ord id), hnext.busy.trans h.busy, fun hop => ?_,
    fun hop => (hnext.stock hop).trans (h.stock hop), h.cores.trans hnext.cores, h.kept.trans hnext.kept⟩
  rw [hnext.elems hop, h.elems hop, BitVec.add_assoc, BitVec.ofNat_add_ofNat]

theorem TallyTook.foldl {n : Nat} (h : TallyTook s t c x rest n) (o : Nat) (m : Mem) (es : List (Nat × Word × Word)) :
    TallyTook s (es.foldl (fun s e => s.tallyTake c o m e) t) c x rest (n + es.length) := by
  induction es generalizing t n with
  | nil => exact h
  | cons e es ih =>
    have hrest := ih (h.take o m e)
    rwa [Nat.add_right_comm, Nat.add_assoc] at hrest

/-! #### A TALLY order takes its elements (R117, R121) -/

/-- The rate of an operation is that of the table of tally rates. -/
theorem tallyCycles_eq_tallyRate : tallyCycles = tallyRate := rfl

/-- A reduction that has taken n further elements of its operand. -/
def TallyRun.advanced (x : TallyRun) (n : Nat) : TallyRun :=
  { x with next := x.next + n, inbox := x.inbox.drop n, closed := x.closed || (x.isOrder && decide (x.next + n ≥ x.total)) }

/-- The state in which n elements have been taken in k cycles. -/
def State.tallyMoved (s : State) (c n k : Nat) : State := (s.bump pgTally c 0 rTallyBusy k).modTally c (fun x => x.advanced n)

theorem TallyTook.moved_tally {n : Nat} (h : TallyTook s t c x rest n) (k : Nat) : ∃ rows last hs,
    ((t.tallyMoved c n k).core c).tally = ({ x with rows := rows, last := last, h := hs } : TallyRun).advanced n :: rest := by
  obtain ⟨rows, last, hs, htally⟩ := h.tally
  exact ⟨rows, last, hs, State.tally_modTally (s := t.bump pgTally c 0 rTallyBusy k) htally _⟩

theorem State.tallyMoved_proj {α : Type} {n k : Nat} (π : Core → α) (h : ∀ x ts, π { x with tally := ts } = π x) (z : Nat) :
    π ((s.tallyMoved c n k).core z) = π (s.core z) :=
  (State.modTally_proj π h ..).trans (congrArg π (State.core_congr (State.bump_cores ..) z))

theorem State.tallyMoved_busy {n k : Nat} :
    (s.tallyMoved c n k).reg pgTally c 0 rTallyBusy = s.reg pgTally c 0 rTallyBusy + BitVec.ofNat 64 k := s.reg_bump_same ..

theorem State.tallyMoved_elems {n k : Nat} : (s.tallyMoved c n k).reg pgTally c 0 rTallyElems = s.reg pgTally c 0 rTallyElems :=
  State.reg_setReg_other _ _ (regKey_off (by decide))

/-- With rows' results to write, a reduction that has taken elements does not end. -/
theorem TallyTook.moved_goesOn {n : Nat} (h : TallyTook s t c x rest n) (hlost : x.lost = false)
    (hrows : x.written < ceilDiv x.total (recRow (s.ordOf c x.flight))) (k : Nat) :
    (t.tallyMoved c n k).tallyEnd c = t.tallyMoved c n k := by
  obtain ⟨rows, last, hs, htally⟩ := h.moved_tally k
  have hord : (t.tallyMoved c n k).ordOf c x.flight = s.ordOf c x.flight :=
    (State.ordOf_congr (State.tallyMoved_proj Core.flights (fun _ _ => by rfl) c) _).trans (h.ord _)
  refine State.tallyEnd_goesOn htally (.inr ⟨hlost, ?_⟩)
  show x.written < ceilDiv x.total (recRow ((t.tallyMoved c n k).ordOf c x.flight))
  rwa [hord]

theorem State.tallyRun_foldl (h : (s.core c).tally = x :: rest) (horder : x.isOrder = true) (hlost : x.lost = false)
    (hbad : (s.core c).stockBad = []) : ∃ es : List (Nat × Word × Word), es.length = min s.boot.lanes (x.total - x.next)
      ∧ s.tallyRun c x.op 0 = ((es.foldl (fun t e => t.tallyTake c (s.ordOf c x.flight) (s.core c).stock e) s).tallyMoved c
          (min s.boot.lanes (x.total - x.next)) (tallyRate x.op (tallyK (s.ordOf c x.flight)) (recRow (s.ordOf c x.flight)) s.boot.lanes
            (min s.boot.lanes (x.total - x.next)))).tallyEnd c := by
  rw [← tallyCycles_eq_tallyRate]
  unfold State.tallyRun
  simp only [h, List.head?_cons, horder, hlost, State.stockRanges_intact hbad, bne_self_eq_false, decide_true, Bool.true_or, if_true,
    Bool.false_eq_true, if_false, Bool.false_or, Bool.true_and]
  refine ⟨_, ?_, rfl⟩
  simp

/-- The head reduction of a TALLY order takes as many elements as there are lanes, or all that are left. -/
theorem State.tallyRun_moved (h : (s.core c).tally = x :: rest) (horder : x.isOrder = true) (hlost : x.lost = false)
    (hbad : (s.core c).stockBad = []) : let n := min s.boot.lanes (x.total - x.next); let o := s.ordOf c x.flight
    ∃ t, TallyTook s t c x rest n
      ∧ s.tallyRun c x.op 0 = (t.tallyMoved c n (tallyRate x.op (tallyK o) (recRow o) s.boot.lanes n)).tallyEnd c := by
  obtain ⟨es, hlen, hrun⟩ := State.tallyRun_foldl h horder hlost hbad
  have htook := (TallyTook.refl h).foldl (s.ordOf c x.flight) (s.core c).stock es
  rw [Nat.zero_add, hlen] at htook
  exact ⟨_, htook, hrun⟩

theorem exec_tallyRow : ∀ row ∈ tallyRows c, exec row.1 s = .next (reachOrder.take s (s.tallyRun c row.2 0)) := by
  simp only [tallyRows, List.forall_mem_cons, List.not_mem_nil, false_implies, implies_true, and_true]
  and_intros <;> rfl

/-! #### A row of COUNT (R117, R120) -/

/-- An FP32 word is a zero where its other 31 bits are 0. -/
theorem f32IsZero_eq (w : Word) : f32IsZero w = (w &&& 0x7FFFFFFF#32 == 0) := by
  rw [Bool.eq_iff_iff, beq_iff_eq]
  constructor
  · intro h
    unfold f32IsZero at h
    by_cases hnan : nanBits w
    · rw [f32Val_of_nanBits hnan] at h
      cases h
    · by_cases hinf : infBits w
      · rw [f32Val_of_infBits hinf] at h
        cases h
      · obtain ⟨m, e, hval, hzero⟩ := f32Val_finite hnan hinf
        rw [hval] at h
        exact hzero (by simpa [fpIsZero] using h)
  · intro h
    rw [f32IsZero, f32Val_of_zeroBits h]
    rfl

/-- The elements of a row that are not zero. -/
def nonZeros (es : List (Nat × Word × Word)) : List (Nat × Word × Word) := es.filter (fun e => e.2.1 &&& 0x7FFFFFFF#32 != 0)

/-- An unseeded row of COUNT is the number of its elements that are not zero. -/
theorem rowResult_count (o row len : Nat) {es : List (Nat × Word × Word)} (hlen : es.length < 4294967296) (wide : Word) :
    rowResult o 8 row len es none wide = [BitVec.ofNat 32 (nonZeros es).length] := by
  have hfilter : es.filter (fun e => !f32IsZero e.2.1) = nonZeros es := List.filter_congr fun e _ => by
    rw [f32IsZero_eq]
    rfl
  have hle : (nonZeros es).length ≤ es.length := List.length_filter_le ..
  have hover : ¬ (nonZeros es).length > 0xFFFFFFFF := by omega
  unfold rowResult
  simp [hfilter, hover]

/-- The state in which a row's result stands at its place, and the reduction has gone on to the next row. -/
def State.rowReported (s : State) (c o row : Nat) (w : Word) (g : TallyRun → TallyRun) : State :=
  (s.freeUsed.stockWrite c (ordF o 21 20 0 + 4 * row) (leBytes 4 w.toNat)).modTally c g

/-- A row of COUNT is reported once its last element is taken, where its order wants neither a seed nor an s-register. -/
theorem exec_tallyRowResult_count (h : (s.core c).tally = x :: rest) (horder : x.isOrder = true) (hlost : x.lost = false) (hop : x.op = 8)
    (hrow : x.written < ceilDiv x.total (recRow (s.ordOf c x.flight)))
    (hdue : x.next ≥ min x.total ((x.written + 1) * recRow (s.ordOf c x.flight)))
    (hseed : bit (ordW (s.ordOf c x.flight) 18) 26 = false) (hsreg : bit (ordW (s.ordOf c x.flight) 18) 25 = false)
    (hlen : ((smFind x.rows x.written).getD []).length < 4294967296) : ∃ g, exec (.tallyRowResult c) s = .next (reachOrder.take s
      ((s.rowReported c (s.ordOf c x.flight) x.written (BitVec.ofNat 32 (nonZeros ((smFind x.rows x.written).getD [])).length) g).tallyEnd
        c)) := by
  have hnoclamp : ∀ t : State, t.orderClamps c x.flight pgTally c 0 = t := fun t => if_pos rfl
  have hsum : decide ((8 : Nat) = 1) = false := rfl
  have hwords : ∀ k lse, resultWords 8 k lse = 1 := fun k lse => rfl
  have hresult := rowResult_count (s.ordOf c x.flight) x.written
    (min (recRow (s.ordOf c x.flight)) (x.total - x.written * recRow (s.ordOf c x.flight))) hlen
  show ∃ g, execTallyRowResult c s = _
  unfold execTallyRowResult
  simp only [h, List.head?_cons, horder, hlost, hop, hdue, hseed, hsreg, Nat.not_le.2 hrow, hsum, if_true, decide_true, decide_false,
    Bool.not_true, Bool.or_self, Bool.false_and, Bool.false_eq_true, if_false, b2n, Nat.add_zero, hnoclamp, ite_self,
    hresult, hwords, one_ne_zero, List.flatMap_cons, List.flatMap_nil, List.append_nil, Nat.mul_one]
  exact ⟨_, rfl⟩

theorem State.rowReported_stock {row : Nat} {w : Word} {g : TallyRun → TallyRun} (o : Nat) :
    ((s.rowReported c o row w g).core c).stock
      = memSetBytesWrap 2097152 (s.core c).stock ((ordF o 21 20 0 + 4 * row) % 2097152) (leBytes 4 w.toNat) :=
  (State.modTally_proj Core.stock (fun _ _ => by rfl) ..).trans (State.stock_stockWrite_same s.freeUsed ..)

theorem State.rowReported_sregs {row : Nat} {w : Word} {g : TallyRun → TallyRun} (o : Nat) :
    ((s.rowReported c o row w g).core c).sregs = (s.core c).sregs :=
  (State.modTally_proj Core.sregs (fun _ _ => by rfl) ..).trans (s.freeUsed.modCore_proj Core.sregs _ (fun _ => by rfl) c c)

theorem State.rowReported_cores {row : Nat} {w : Word} {g : TallyRun → TallyRun} (o : Nat) :
    CoresKept s (s.rowReported c o row w g) [c] :=
  (CoresKept.stockWrite (CoresKept.of_cores_eq (t := s.freeUsed) rfl) (List.mem_singleton_self c) _ _).modTally _

theorem lt_ceilDiv {a b k : Nat} (hb : 0 < b) (h : k * b < a) : k < ceilDiv a b := by
  rw [ceilDiv, Nat.lt_iff_add_one_le, Nat.le_div_iff_mul_le hb, Nat.add_mul]
  omega

end Sys2Proof.Machine

namespace Sys2Proof.Proofs

open Sys2Proof Sys2Proof.Machine Sys2Proof.Safety Sys2Proof.Claims

/-- Settles O17: the order joins an idle tally, every operation's elements move its reduction on alone, and a row of COUNT is the
number of the elements that it took. -/
theorem tallyTakesAndReportsRows : Obligations.TallyTakesAndReportsRows := by
  unfold Obligations.TallyTakesAndReportsRows
  refine ⟨?start, ?take, ?report⟩
  case start =>
    intro s c st hpick hop hidle hlo hhi
    obtain ⟨k, x, hbegins, hstart⟩ := State.tallyStart_joined hidle hlo hhi
    have hexec := exec_tally hpick hop
    rw [hstart, (State.tallyJoined_kept.mono (g := reachOrder) rfl).take_eq] at hexec
    refine ⟨_, x, hexec, State.tallyJoined_tally hidle, hbegins.op, hbegins.isOrder, hbegins.total, hbegins.next, hbegins.written,
      hbegins.flight, ?_, ?_, ?_, State.tallyJoined_cores, State.tallyJoined_kept⟩
    · exact (State.tallyJoined_proj (fun x => (x.qs.getD st.q {}).index) (fun _ _ => by rfl) (fun _ _ => by rfl) c).trans
        (State.holds (k := 0) hpick).queue
    · exact (State.tallyJoined_proj Core.sregs (fun _ _ => by rfl) (fun _ _ => by rfl) c).trans (State.holds (k := 0) hpick).sregs
    · exact (State.tallyJoined_proj Core.stock (fun _ _ => by rfl) (fun _ _ => by rfl) c).trans (State.stock_startOrder ..)
  case take =>
    intro s c x rest row hrow htally hop horder hlost hbad hrows o n
    obtain ⟨t, htook, hrun⟩ := State.tallyRun_moved htally horder hlost hbad
    obtain ⟨rows, last, hs, hmoved⟩ := htook.moved_tally (tallyRate x.op (tallyK o) (recRow o) s.boot.lanes n)
    have hkept : Kept { regs := true, cores := true } s (t.tallyMoved c n (tallyRate x.op (tallyK o) (recRow o) s.boot.lanes n)) :=
      (htook.kept.bump rfl ..).modTally rfl ..
    have hexec := exec_tallyRow row hrow (s := s)
    rw [← hop, hrun, htook.moved_goesOn hlost hrows, (hkept.mono (g := reachOrder) rfl).take_eq] at hexec
    rw [← hop]
    refine ⟨_, _, hexec, congrArg List.head? hmoved, rfl, rfl, ?_, ?_, fun hne => ?_, fun hne => ?_, ?_, hkept⟩
    · show (x.closed || (x.isOrder && decide (x.next + n ≥ x.total))) = true ↔ _
      rw [horder, Bool.true_and, Bool.or_eq_true, decide_eq_true_eq]
    · rw [State.tallyMoved_busy, htook.busy]
    · rw [State.tallyMoved_elems, htook.elems hne]
    · exact (State.tallyMoved_proj Core.stock (fun _ _ => by rfl) c).trans (htook.stock hne)
    · exact (htook.cores.trans_of_cores_eq (State.bump_cores ..)).modTally _
  case report =>
    intro s c x rest htally horder hlost o len hrow hdue hseed hop hsreg hlen
    have hpos := recRow_pos o
    obtain ⟨g, hexec⟩ := exec_tallyRowResult_count htally horder hlost hop (lt_ceilDiv hpos hrow) hdue hseed hsreg hlen
    have hnum : (BitVec.ofNat 32 (nonZeros ((smFind x.rows x.written).getD [])).length).toNat
        = (nonZeros ((smFind x.rows x.written).getD [])).length :=
      Nat.mod_eq_of_lt (lt_of_le_of_lt (List.length_filter_le ..) hlen)
    refine ⟨_, hexec, ?_, ?_, by omega, ?_⟩
    · refine (State.tallyEnd_proj Core.stock (fun _ _ => by rfl) (fun _ _ => by rfl) c).trans ?_
      rw [State.rowReported_stock, hnum]
      rfl
    · exact (State.tallyEnd_proj Core.sregs (fun _ _ => by rfl) (fun _ _ => by rfl) c).trans (State.rowReported_sregs _)
    · exact ((State.rowReported_cores _).trans State.tallyEnd_cores).takeOrder

end Sys2Proof.Proofs
end

section
/-! PROOFS. Orders that complete in their start cycle (R135, R138, R149 to R151): an order begins, its effects beside the start stand, and
its completion tells its status and its counter. O2 and O3 are settled at the end, and O1 is refuted beside the statement that holds. -/

namespace Sys2Proof.Machine

open Sys2Proof.Safety Sys2Proof.Claims

variable {s w : State} {c : Nat} {st : Start}

/-! #### The completion of an order that has only begun -/

theorem Start.flight_reported (st : Start) (id : Nat) : (st.flight id).reported = st.status := by
  unfold Flight.reported Start.status Start.flight
  by_cases h : st.clamps > 0
  · simp [h, statusOf, statusJoin, statusRank, stOk, stState, stQuota]
  · simp [h, statusOf, statusJoin, statusRank, stOk, stState, stQuota]

theorem Start.status_eq_or (st : Start) : st.status = stOk ∨ st.status = stClamped := by
  unfold Start.status
  split
  · exact .inr rfl
  · exact .inl rfl

/-- An order without a status of its own, a replay or an owed clamp completes with what it tells its core alone. -/
theorem State.complete_started {id : Nat} (h : (w.core c).flight id = some (st.flight id)) :
    w.complete c id = w.tell c (st.flight id) := by
  have hrep := st.flight_reported id
  have hstep := State.complete_eq w c (st.flight id) h
  unfold State.reportStep State.recordNonok State.payOwed at hstep
  rw [hrep] at hstep
  rcases st.status_eq_or with hst | hst
  · simpa [hst, Start.flight, stOk, stState, stQuota, stClamped, stLost, stReplayed] using hstep
  · simpa [hst, Start.flight, stOk, stState, stQuota, stClamped, stLost, stReplayed] using hstep

/-- What an order tells changes its core's flights, s-registers and counters alone. -/
theorem State.tell_core (f : Flight) : ∃ sregs ctrs, (w.tell c f).core c
    = { w.core c with flights := (w.core c).flights.filter (fun y => y.id != f.id), sregs := sregs, ctrs := ctrs } := by
  unfold State.tell State.leave State.setSregIf State.signalIf State.signal State.setCtr State.setSreg
  cases bit (ordW f.ord 2) 14 <;> cases (bit (ordW f.ord 2) 22 && !statusValid f.reported) <;> cases bit f.ord 10 <;> simp

theorem State.tell_queue (f : Flight) (q : Nat) : (w.tell c f).queue c q = w.queue c q := by
  obtain ⟨sregs, ctrs, hcore⟩ := State.tell_core (w := w) (c := c) f
  unfold State.queue
  rw [hcore]

end Sys2Proof.Machine

namespace Sys2Proof.Safety

open Sys2Proof.Machine Sys2Proof.Claims

/-- An order of core c has begun, with k clamps besides those of its common words, and is not complete; s-registers other than those of
`dst` and counters other than those of `cdst` are as before (R131, R138). -/
structure BegunAtStart (s w : State) (c : Nat) (st : Start) (k : Nat) (dst cdst : List Nat) : Prop where
  flights : (w.core c).flights = (s.core c).flights ++ [Start.flight { st with clamps := st.clamps + k } (s.core c).freshId]
  queue : (w.queue c st.q).index = st.idx + 1
  queues : ∀ q, q ≠ st.q → w.queue c q = s.queue c q
  sregs : ∀ r, (∀ d ∈ dst, r % 64 ≠ d % 64) → w.sreg c r = s.sreg c r
  ctrs : ∀ r, (∀ d ∈ cdst, r % 64 ≠ d % 64) → w.ctr c r = s.ctr c r
  cores : CoresKept s w [c]
  orders : w.reg pgClerk c 0 rClerkOrders = s.reg pgClerk c 0 rClerkOrders + 1
  regs : RegsKept s w (startKeys c (st.clamps + k))
  rest : Kept { regs := true, cores := true } s w
  latches : w.latch = s.latch ∧ w.staged = s.staged

namespace BegunAtStart

variable {s w : State} {c k : Nat} {st : Start} {dst cdst : List Nat}

theorem start (h : s.pick c = some st) (k : Nat) :
    BegunAtStart s (s.startOrder c { st with clamps := st.clamps + k }).1 c st k [] [] := by
  have held := State.holds (k := k) h
  refine ⟨?_, held.queue, held.queues, fun r _ => ?_, fun r _ => ?_, held.cores, held.orders, held.regs, held.rest, held.latches⟩
  · rw [State.startOrder_core]
    rfl
  · exact State.sreg_startOrder ..
  · exact State.ctr_startOrder ..

/-- A further effect on the core, which leaves its flights, its queues, and the registers outside the lists. -/
theorem modCore (h : BegunAtStart s w c st k dst cdst) (g : Core → Core) {dst' cdst' : List Nat}
    (hf : ∀ x, (g x).flights = x.flights) (hq : ∀ x, (g x).qs = x.qs) (hd : ∀ d ∈ dst, d ∈ dst') (hcd : ∀ d ∈ cdst, d ∈ cdst')
    (hs : ∀ x r, (∀ d ∈ dst', r % 64 ≠ d % 64) → smGet 0 (g x).sregs (r % 64) = smGet 0 x.sregs (r % 64))
    (hk : ∀ x r, (∀ d ∈ cdst', r % 64 ≠ d % 64) → smGet 0 (g x).ctrs (r % 64) = smGet 0 x.ctrs (r % 64)) :
    BegunAtStart s (w.modCore c g) c st k dst' cdst' := by
  have hqueue : ∀ q, (w.modCore c g).queue c q = w.queue c q := fun q => by
    unfold State.queue
    rw [State.core_modCore_same, hq]
  refine ⟨?_, ?_, fun q hne => ?_, fun r hr => ?_, fun r hr => ?_, h.cores.modCore (List.mem_singleton_self c) _, h.orders, h.regs,
    h.rest.modCore rfl .., h.latches⟩
  · rw [State.core_modCore_same, hf]
    exact h.flights
  · rw [hqueue]
    exact h.queue
  · rw [hqueue]
    exact h.queues q hne
  · rw [← h.sregs r fun d hx => hr d (hd d hx)]
    unfold State.sreg
    rw [State.core_modCore_same]
    exact hs _ r hr
  · rw [← h.ctrs r fun d hx => hr d (hcd d hx)]
    unfold State.ctr
    rw [State.core_modCore_same]
    exact hk _ r hr

theorem setSreg (h : BegunAtStart s w c st k dst cdst) (d : Nat) (v : DWord) : BegunAtStart s (w.setSreg c d v) c st k (d :: dst) cdst :=
  h.modCore _ (fun _ => rfl) (fun _ => rfl) (fun _ hx => List.mem_cons_of_mem _ hx) (fun _ hx => hx)
    (fun _ _ hr => smGet_smSet_other _ _ _ _ (hr d (List.mem_cons_self ..))) (fun _ _ _ => rfl)

theorem setCtr (h : BegunAtStart s w c st k dst cdst) (d : Nat) (v : Word) : BegunAtStart s (w.setCtr c d v) c st k dst (d :: cdst) :=
  h.modCore _ (fun _ => rfl) (fun _ => rfl) (fun _ hx => hx) (fun _ hx => List.mem_cons_of_mem _ hx) (fun _ _ _ => rfl)
    (fun _ _ hr => smGet_smSet_other _ _ _ _ (hr d (List.mem_cons_self ..)))

theorem stockWrite (h : BegunAtStart s w c st k dst cdst) (a : Nat) (bs : List Byte) :
    BegunAtStart s (w.stockWrite c a bs) c st k dst cdst :=
  h.modCore _ (fun _ => rfl) (fun _ => rfl) (fun _ hx => hx) (fun _ hx => hx) (fun _ _ _ => rfl) (fun _ _ _ => rfl)

/-- The order that completes. -/
theorem flight (h : BegunAtStart s w c st k dst cdst) : (w.core c).flight (s.core c).freshId
    = some (Start.flight { st with clamps := st.clamps + k } (s.core c).freshId) := by
  unfold Core.flight
  rw [h.flights, List.find?_append, Core.find_fresh]
  simp [Start.flight]

theorem filter_flights (h : BegunAtStart s w c st k dst cdst) :
    (w.core c).flights.filter (fun y => y.id != (s.core c).freshId) = (s.core c).flights := by
  rw [h.flights, List.filter_append, Core.filter_fresh]
  simp [Start.flight]

theorem complete_eq (h : BegunAtStart s w c st k dst cdst) : w.complete c (s.core c).freshId
    = w.tell c (Start.flight { st with clamps := st.clamps + k } (s.core c).freshId) :=
  State.complete_started h.flight

/-- The status and the counter that its completion tells. -/
theorem complete_sreg (h : BegunAtStart s w c st k dst cdst) (r : Nat) :
    (w.complete c (s.core c).freshId).sreg c r = if tellsStatus st.ord r then startStatus st k else w.sreg c r := by
  rw [h.complete_eq, State.tell_sreg, ← Flight.reported_eq_finalStatus, Start.flight_reported]
  unfold Start.status startStatus
  by_cases hk : st.clamps + k = 0
  · simp [hk, Start.flight, stOk]
  · rw [if_pos (Nat.pos_of_ne_zero hk), if_neg hk]
    rfl

theorem complete_ctr (h : BegunAtStart s w c st k dst cdst) (r : Nat) : (w.complete c (s.core c).freshId).ctr c r
    = w.ctr c r + if tellsCounter st.ord r then BitVec.ofNat 32 (bits (ordW st.ord 2) 7 0) else 0 := by
  have hvalid : validStatus (finalStatus (Start.flight { st with clamps := st.clamps + k } (s.core c).freshId)) = true := by
    rw [← Flight.reported_eq_finalStatus, Start.flight_reported]
    rcases Start.status_eq_or { st with clamps := st.clamps + k } with hst | hst
    · rw [hst]; rfl
    · rw [hst]; rfl
  rw [h.complete_eq, State.tell_ctr, completionAdds, hvalid]
  simp only [Bool.not_true, Bool.and_false, Bool.false_and, Bool.false_eq_true, if_false]
  exact congrArg (w.ctr c r + ·) (BitVec.add_zero _)

/-- A begun order that completes retires (R135, R143). -/
theorem retires (h : BegunAtStart s w c st k dst cdst) :
    RetiresAtStart s (w.complete c (s.core c).freshId) c st k dst cdst (st.idx + 1) := by
  have heq := h.complete_eq
  have hkept := State.tell_kept w c (Start.flight { st with clamps := st.clamps + k } (s.core c).freshId)
  rw [← heq] at hkept
  obtain ⟨hregs, hlatch, hstaged⟩ := hkept.regs rfl
  refine ⟨?_, fun q hne => ?_, fun r hr => ?_, fun r hr => ?_, ?_, ?_, ?_, h.rest.trans (hkept.mono rfl), ?_⟩
  · rw [heq, State.tell_queue]
    exact h.queue
  · rw [heq, State.tell_queue]
    exact h.queues q hne
  · rw [h.complete_sreg, h.sregs r hr]
  · rw [h.complete_ctr, h.ctrs r hr]
    split
    · rfl
    · exact BitVec.add_zero _
  · rw [heq]
    exact h.cores.trans (State.tell_cores w c _)
  · rw [State.reg_congr hregs]
    exact h.orders
  · exact h.regs.trans (RegsKept.of_regs_eq hregs)
  · exact ⟨hlatch.trans h.latches.1, hstaged.trans h.latches.2⟩

/-- Its completion changes its core's s-registers and counters alone, beside the end of its own flight. -/
theorem complete_core (h : BegunAtStart s w c st k dst cdst) : ∃ sregs ctrs, (w.complete c (s.core c).freshId).core c
    = { w.core c with flights := (s.core c).flights, sregs := sregs, ctrs := ctrs } := by
  obtain ⟨sregs, ctrs, hcore⟩ := State.tell_core (w := w) (c := c)
    (Start.flight { st with clamps := st.clamps + k } (s.core c).freshId)
  refine ⟨sregs, ctrs, ?_⟩
  rw [h.complete_eq, hcore]
  exact congrArg (fun fs => { w.core c with flights := fs, sregs := sregs, ctrs := ctrs }) h.filter_flights

theorem complete_units (h : BegunAtStart s w c st k dst cdst) {x : Core}
    (hu : UnitsKept x { w.core c with flights := (s.core c).flights }) :
    UnitsKept x ((w.complete c (s.core c).freshId).core c) := by
  obtain ⟨sregs, ctrs, hcore⟩ := h.complete_core
  rw [hcore]
  exact { hu with }

end BegunAtStart

variable {s t : State} {c k n : Nat} {st : Start} {dst cdst : List Nat} {x : Core}

/-- An s-register write leaves the units of a core. -/
theorem UnitsKept.setSreg (h : UnitsKept x (t.core c)) (k : Nat) (v : DWord) :
    UnitsKept x ((t.setSreg c k v).core c) := by
  unfold State.setSreg
  rw [State.core_modCore_same]
  exact { h with }

/-- A queue's index moves, within its own core. -/
theorem UnitsKept.jump (h : UnitsKept x (t.core c)) (q : Nat) (i : Int) : UnitsKept x ((t.jump c q i).core c) := by
  unfold State.jump State.modQueue
  rw [State.core_modCore_same]
  exact { h with }

/-- Where a retired order's queue goes on after a jump (R152). -/
theorem RetiresAtStart.jump_target (hpick : s.pick c = some st)
    (h : RetiresAtStart s t c st k dst cdst n) (i : Int) :
    RetiresAtStart s (t.jump c st.q i) c st k dst cdst (target (s.queueLen c st.q) i) := by
  have hjump := h.jump (State.pick_lt hpick) i
  rw [State.queueLen_start (State.pick_lt hpick) h.regs] at hjump
  exact hjump

end Sys2Proof.Safety

namespace Sys2Proof.Machine

open Sys2Proof.Safety Sys2Proof.Claims

variable {s : State} {c : Nat} {st : Start}

/-- Starting an order leaves the units of its core, but for its own flight. -/
theorem State.startOrder_units (s : State) (c : Nat) (st : Start) :
    UnitsKept (s.core c) { (s.startOrder c st).1.core c with flights := (s.core c).flights } := by
  rw [State.startOrder_core]
  constructor <;> simp [Core.started]

theorem b2n_decide (p : Prop) [Decidable p] : b2n (decide p) = if p then 1 else 0 := by
  unfold b2n
  simp only [decide_eq_true_eq]

/-- A command that runs the next order does all that the order does, within its reach. -/
theorem take_runOrder {f : Reach} {want : Start → Bool} {run : State → Start → State} (hpick : s.pick c = some st)
    (hwant : want st = true) (hk : Kept f s (run s st)) : f.take s (s.runOrder c want run) = run s st := by
  rw [State.runOrder_pick hpick hwant, hk.take_eq]

/-! #### SCALAR (R149) -/

/-- Each row's order computes its value from its operands. -/
theorem exec_scalarRow {row : Instr × Nat × (DWord → DWord → DWord → DWord → Word → DWord)} (hrow : row ∈ scalarRows c) :
    exec row.1 s = .next (reachCore.take s (s.scalar c row.2.1 (fun x => row.2.2 x.a x.b x.sb x.imm x.ctr))) := by
  have hsar : ∀ a b : DWord, a.sshiftRight (b.toNat % 64) = BitVec.ofInt 64 (a.toInt / 2 ^ (b.toNat % 64)) := fun a b => by
    rw [← BitVec.ofInt_toInt (x := a.sshiftRight _), BitVec.toInt_sshiftRight, Int.shiftRight_eq_div_pow]
    norm_cast
  simp only [scalarRows, List.mem_cons, List.not_mem_nil, or_false] at hrow
  rcases hrow with rfl | rfl | rfl | rfl | rfl | rfl | rfl | rfl | rfl | rfl | rfl | rfl | rfl | rfl | rfl
  · rfl
  · rfl
  · rfl
  · rfl
  · rfl
  · show execScalarSar c s = _
    simp only [execScalarSar, hsar]
  · rfl
  · rfl
  · rfl
  · rfl
  · rfl
  · show execScalarCmplt c s = _
    simp only [execScalarCmplt, BitVec.slt_iff_toInt_lt]
  · show execScalarCmpltu c s = _
    simp only [execScalarCmpltu, BitVec.ult_iff_toNat_lt]
  · rfl
  · show execScalarRdctr c s = _
    simp only [execScalarRdctr, BitVec.truncate_eq_setWidth, BitVec.ofNat_toNat]

/-- The state in which a SCALAR order has completed and then written its value (R135, R138). -/
def State.scalarDone (s : State) (c : Nat) (st : Start) (v : DWord) : State :=
  ((s.startOrder c { st with clamps := st.clamps + scalarClamp st.ord }).1.complete c (s.core c).freshId).setSreg c (ordF st.ord 4 13 8) v

theorem State.scalarDone_retires (hpick : s.pick c = some st) (v : DWord) :
    RetiresAtStart s (s.scalarDone c st v) c st (scalarClamp st.ord) [ordF st.ord 4 13 8] [] (st.idx + 1) :=
  (BegunAtStart.start hpick _).retires.setSreg _ v

/-- The next order, if it is of the code wanted, completes and writes its value. -/
theorem State.scalar_next {code : Nat} (h : NextScalar s c st code) (f : ScalarIn → DWord) :
    reachCore.take s (s.scalar c code f) = s.scalarDone c st (f (s.scalarIn c st.ord)) := by
  obtain ⟨hpick, hop, hcode⟩ := h
  have hclamp : b2n (ordF st.ord 4 7 0 > 0x10) = scalarClamp st.ord := b2n_decide _
  have hrun := State.runOrder_pick hpick (want := fun st => st.op = 0x58 && scalarOp st.ord = code) (by simpa [hop, scalarOp] using hcode)
    (fun s st => ((s.startOrder c { st with clamps := st.clamps + b2n (ordF st.ord 4 7 0 > 0x10) }).1.complete c
      (s.core c).freshId).setSreg c (ordF st.ord 4 13 8) (f (s.scalarIn c st.ord)))
  rw [hclamp] at hrun
  have hkept := ((State.scalarDone_retires hpick (f (s.scalarIn c st.ord))).rest.mono (g := reachCore) rfl).take_eq
  exact (congrArg (reachCore.take s) hrun).trans hkept

/-- The rows of R149 that write `dst`: the value of the row, and nothing else but what the completion reports. -/
theorem scalarRow_writes {row : Instr × Nat × (DWord → DWord → DWord → DWord → Word → DWord)} (hrow : row ∈ scalarRows c)
    (h : NextScalar s c st row.2.1) : ∃ t, exec row.1 s = .next t
      ∧ t.sreg c (ordF st.ord 4 13 8) = row.2.2 (s.sreg c (ordF st.ord 4 21 16)) (scalarB s c st.ord)
          (s.sreg c (ordF st.ord 4 29 24)) (BitVec.ofNat 64 (ordW64 st.ord 5)) (s.ctr c (ordF st.ord 4 29 24))
      ∧ RetiresAtStart s t c st (scalarClamp st.ord) [ordF st.ord 4 13 8] [] (st.idx + 1)
      ∧ UnitsKept (s.core c) (t.core c) := by
  refine ⟨_, (exec_scalarRow hrow).trans (congrArg _ (State.scalar_next h _)), State.sreg_setSreg_same .., State.scalarDone_retires h.1 _, ?_⟩
  exact UnitsKept.setSreg ((BegunAtStart.start h.1 _).complete_units (State.startOrder_units ..)) ..

/-- The address of LDS and STS. -/
theorem State.scalarIn_addr (o : Nat) : (s.scalarIn c o).addr = scalarAddr s c o := rfl

theorem State.scalarIn_b (o : Nat) : (s.scalarIn c o).b = scalarB s c o := rfl

/-- STS has written its word when it completes. -/
def State.stsDone (s : State) (c : Nat) (st : Start) : State :=
  (((s.startOrder c st).1.stockWrite c (scalarAddr s c st.ord) (leBytes 8 (scalarB s c st.ord).toNat))).complete c (s.core c).freshId

theorem State.stsBegun (hpick : s.pick c = some st) : BegunAtStart s
    ((s.startOrder c st).1.stockWrite c (scalarAddr s c st.ord) (leBytes 8 (scalarB s c st.ord).toNat)) c st 0 [] [] :=
  (BegunAtStart.start hpick 0).stockWrite _ _

theorem exec_scalarSts_next (h : NextScalar s c st 0x0F) : exec (.scalarSts c) s = .next (s.stsDone c st) := by
  obtain ⟨hpick, hop, hcode⟩ := h
  exact congrArg _ (take_runOrder hpick (by simpa [hop, scalarOp] using hcode) ((State.stsBegun hpick).retires.rest.mono rfl))

/-- A doubleword of the stockroom at its address. -/
theorem scalarAddr_dvd (o : Nat) : scalarAddr s c o % 8 = 0 ∧ scalarAddr s c o + 8 ≤ 2097152 := by
  unfold scalarAddr
  omega

theorem leBytes_length (n v : Nat) : (leBytes n v).length = n := by
  induction n generalizing v with
  | zero => rfl
  | succ n ih => exact congrArg (· + 1) (ih _)

theorem leBytes_getElem (n v : Nat) {i : Nat} (h : i < (leBytes n v).length) : (leBytes n v)[i] = BitVec.ofNat 8 (v / 256 ^ i) := by
  induction n generalizing v i with
  | zero => cases h
  | succ n ih =>
    cases i with
    | zero => simp [leBytes]
    | succ i =>
      rw [Nat.pow_succ', ← Nat.div_div_eq_div_mul]
      exact ih _ (Nat.lt_of_succ_lt_succ h)

/-- Byte i of a little-endian number. -/
theorem leNat_digit (bs : List Byte) {i : Nat} (h : i < bs.length) : leNat bs / 256 ^ i % 256 = bs[i].toNat := by
  induction bs generalizing i with
  | nil => cases h
  | cons b r ih =>
    have hb := b.isLt
    cases i with
    | zero =>
      simp only [leNat, Nat.pow_zero, Nat.div_one, List.getElem_cons_zero]
      omega
    | succ i =>
      rw [leNat, Nat.pow_succ', ← Nat.div_div_eq_div_mul, show (b.toNat + 256 * leNat r) / 256 = leNat r by omega]
      exact ih (Nat.lt_of_succ_lt_succ h)

/-- Byte i of a 64-bit word. -/
theorem extract_byte_toNat (v : DWord) (i : Nat) : (v.extractLsb' (8 * i) 8).toNat = v.toNat / 256 ^ i % 256 := by
  rw [BitVec.extractLsb'_toNat, Nat.shiftRight_eq_div_pow, Nat.pow_mul]

theorem extract_byte_ofNat (n : Nat) {i : Nat} (h : i < 8) : ((BitVec.ofNat 64 n).extractLsb' (8 * i) 8).toNat = n / 256 ^ i % 256 := by
  rw [extract_byte_toNat, BitVec.toNat_ofNat]
  interval_cases i <;> omega

/-- STS writes the bytes of b at its word, and no other byte. -/
theorem State.stsDone_stock (hpick : s.pick c = some st) (a : Nat) (ha : a < 2097152) : memByte ((s.stsDone c st).core c).stock a
    = if a / 8 = scalarAddr s c st.ord / 8 then (scalarB s c st.ord).extractLsb' (8 * (a % 8)) 8 else memByte (s.core c).stock a := by
  obtain ⟨haddr, hend⟩ := scalarAddr_dvd (s := s) (c := c) st.ord
  obtain ⟨sregs, ctrs, hcore⟩ := (State.stsBegun hpick).complete_core
  have hlen := leBytes_length 8 (scalarB s c st.ord).toNat
  unfold State.stsDone
  rw [hcore]
  show memByte (((s.startOrder c st).1.stockWrite c _ _).core c).stock a = _
  rw [State.stock_stockWrite_same, State.stock_startOrder, Nat.mod_eq_of_lt (by omega)]
  generalize scalarAddr s c st.ord = d at haddr hend
  split
  · next hword =>
    have hin := memByte_memSetBytesWrap_inside (sz := 2097152) (s.core c).stock d (leBytes 8 (scalarB s c st.ord).toNat)
      (by omega) (i := a % 8) (by omega)
    rw [show (d + a % 8) % 2097152 = a by omega, leBytes_getElem] at hin
    rw [hin]
    apply BitVec.eq_of_toNat_eq
    rw [extract_byte_toNat, BitVec.toNat_ofNat]
  · exact memByte_memSetBytesWrap_outside _ _ _ fun i hi => by omega

theorem scalarSts_writes (h : NextScalar s c st 0x0F) : ∃ t, exec (.scalarSts c) s = .next t
    ∧ (∀ a < 2097152, memByte (t.core c).stock a =
        if a / 8 = scalarAddr s c st.ord / 8 then (scalarB s c st.ord).extractLsb' (8 * (a % 8)) 8 else memByte (s.core c).stock a)
    ∧ UnitsKept { (s.core c) with stock := (t.core c).stock, stockBad := (t.core c).stockBad } (t.core c)
    ∧ (t.core c).stockBad = (s.core c).stockBad.filter (fun w => w != scalarAddr s c st.ord / 8)
    ∧ RetiresAtStart s t c st 0 [] [] (st.idx + 1) := by
  have hbegun := State.stsBegun h.1
  have hunits := State.startOrder_units s c st
  obtain ⟨sregs, ctrs, hcore⟩ := hbegun.complete_core
  refine ⟨_, exec_scalarSts_next h, State.stsDone_stock h.1, ?_, ?_, hbegun.retires⟩
  · unfold State.stsDone
    rw [hcore]
    unfold State.stockWrite
    rw [State.core_modCore_same]
    exact { hunits with stock := ⟨rfl, rfl, hunits.stock.2.2⟩ }
  · unfold State.stsDone
    rw [hcore]
    unfold State.stockWrite
    rw [State.core_modCore_same, leBytes_length]
    dsimp only
    rw [State.stockBad_startOrder]
    refine List.filter_congr fun x _ => ?_
    obtain ⟨haddr, hend⟩ := scalarAddr_dvd (s := s) (c := c) st.ord
    generalize scalarAddr s c st.ord = d at haddr hend
    rw [Bool.eq_iff_iff]
    simp only [Bool.not_eq_true', Bool.and_eq_false_iff, decide_eq_false_iff_not, bne_iff_ne]
    omega

/-! #### LDS -/

/-- LDS has loaded its word when it completes. -/
def State.ldsBegun (s : State) (c : Nat) (st : Start) : State :=
  (s.startOrder c st).1.setSreg c (ordF st.ord 4 13 8) (BitVec.ofNat 64 (leNat (s.stockBytes c (scalarAddr s c st.ord) 8)))

theorem State.ldsBegun_begun (hpick : s.pick c = some st) :
    BegunAtStart s (s.ldsBegun c st) c st 0 [ordF st.ord 4 13 8] [] :=
  (BegunAtStart.start hpick 0).setSreg _ _

theorem exec_scalarLds_next (h : NextScalar s c st 0x0E) (hlost : s.stockLost c (scalarAddr s c st.ord) 8 = false) :
    exec (.scalarLds c) s = .next ((s.ldsBegun c st).complete c (s.core c).freshId) := by
  obtain ⟨hpick, hop, hcode⟩ := h
  have hlost1 : (s.startOrder c st).1.stockLost c (scalarAddr s c st.ord) 8 = false := by
    unfold State.stockLost at hlost ⊢
    rw [State.stockBad_startOrder]
    exact hlost
  have hread : (s.startOrder c st).1.readLoc (.stock c (s.scalarIn c st.ord).addr) 8
      = ((s.startOrder c st).1, some (s.stockBytes c (scalarAddr s c st.ord) 8)) := by
    rw [State.scalarIn_addr]
    simp only [State.readLoc, hlost1, Bool.false_eq_true, if_false, State.stockBytes, State.stock_startOrder]
  show Host.Outcome.next (reachOrder.take s (s.runOrder c _ _)) = _
  rw [State.runOrder_pick hpick (by simpa [hop, scalarOp] using hcode)]
  show Host.Outcome.next (reachOrder.take s (match (s.startOrder c st).1.readLoc (.stock c (s.scalarIn c st.ord).addr) 8 with
    | (s2, b) => match b with
      | some bs => (s2.setSreg c (ordF st.ord 4 13 8) (BitVec.ofNat 64 (leNat bs))).complete c (s.core c).freshId
      | none => _)) = _
  rw [hread]
  exact congrArg _ (((State.ldsBegun_begun hpick).retires.rest.mono (g := reachOrder) rfl).take_eq)

/-- LDS loads its word into `dst`, unless its own completion then writes its status there; it leaves the rest as its completion does. -/
theorem scalarLds_loads (h : NextScalar s c st 0x0E) (hlost : s.stockLost c (scalarAddr s c st.ord) 8 = false) :
    ∃ t, exec (.scalarLds c) s = .next t
      ∧ (tellsStatus st.ord (ordF st.ord 4 13 8) = true → t.sreg c (ordF st.ord 4 13 8) = startStatus st 0)
      ∧ (tellsStatus st.ord (ordF st.ord 4 13 8) = false → ∀ i < 8, (t.sreg c (ordF st.ord 4 13 8)).extractLsb' (8 * i) 8
          = memByte (s.core c).stock (scalarAddr s c st.ord + i))
      ∧ (∀ r, r % 64 ≠ ordF st.ord 4 13 8 % 64 → tellsStatus st.ord r = false → t.sreg c r = s.sreg c r)
      ∧ UnitsKept (s.core c) (t.core c) ∧ CoresKept s t [c]
      ∧ (t.queue c st.q).index = st.idx + 1
      ∧ Kept { regs := true, cores := true } s t := by
  have hbegun := State.ldsBegun_begun h.1
  have hretires := hbegun.retires
  refine ⟨_, exec_scalarLds_next h hlost, fun htell => ?_, fun htell i hi => ?_, fun r hr htell => ?_, ?_, hretires.cores, hretires.queue,
    hretires.rest⟩
  · rw [hbegun.complete_sreg, if_pos htell]
  · obtain ⟨haddr, hend⟩ := scalarAddr_dvd (s := s) (c := c) st.ord
    rw [hbegun.complete_sreg, htell]
    show ((s.ldsBegun c st).sreg c _).extractLsb' (8 * i) 8 = _
    unfold State.ldsBegun
    rw [State.sreg_setSreg_same]
    apply BitVec.eq_of_toNat_eq
    have hlen : i < (s.stockBytes c (scalarAddr s c st.ord) 8).length := by
      rw [State.stockBytes, memBytesWrap_length]
      exact hi
    have hbyte : (s.stockBytes c (scalarAddr s c st.ord) 8)[i] = memByte (s.core c).stock (scalarAddr s c st.ord + i) := by
      refine (memBytesWrap_getElem _ _ hlen).trans ?_
      rw [Nat.mod_eq_of_lt (a := scalarAddr s c st.ord) (by omega), Nat.mod_eq_of_lt (by omega)]
    rw [extract_byte_ofNat _ hi, leNat_digit _ hlen, hbyte]
  · rw [hretires.sregs r (by simpa using hr), htell]
    rfl
  · refine hbegun.complete_units ?_
    unfold State.ldsBegun State.setSreg
    rw [State.core_modCore_same]
    exact { State.startOrder_units s c st with }

/-! #### LOOP and BRANCH_IF (R150 to R152) -/

theorem State.sreg_jump_setSreg (t : State) (c q r : Nat) (v : DWord) (i : Int) : ((t.setSreg c r v).jump c q i).sreg c r = v := by
  unfold State.jump State.modQueue State.sreg State.setSreg
  simp

/-- The order of a LOOP has started and completed; a back of 0 counts as a clamp (R150). -/
def State.loopDone (s : State) (c : Nat) (st : Start) : State :=
  (s.startOrder c { st with clamps := st.clamps + if ordF st.ord 5 15 0 = 0 then 1 else 0 }).1.complete c (s.core c).freshId

theorem exec_loop_next (hpick : s.pick c = some st) (hop : st.op = 0x59) : exec (.loop c) s = .next (
    if (s.sreg c (ordF st.ord 4 5 0)).toNat > 1 then
      ((s.loopDone c st).setSreg c (ordF st.ord 4 5 0) (s.sreg c (ordF st.ord 4 5 0) - 1)).jump c st.q ((st.idx : Int) - loopBack st.ord)
    else (s.loopDone c st).setSreg c (ordF st.ord 4 5 0) 0) := by
  have hretires : RetiresAtStart s (s.loopDone c st) c st _ [] [] (st.idx + 1) := (BegunAtStart.start hpick _).retires
  show execLoop c s = _
  unfold execLoop
  rw [State.runOrder_pick hpick (by simpa using hop)]
  simp only [b2n_decide]
  refine congrArg _ (?_ : reachCore.take s (if (s.sreg c (ordF st.ord 4 5 0)).toNat > 1 then
      ((s.loopDone c st).setSreg c (ordF st.ord 4 5 0) (BitVec.ofNat 64 ((s.sreg c (ordF st.ord 4 5 0)).toNat - 1))).jump c st.q
        ((st.idx : Int) - loopBack st.ord)
    else (s.loopDone c st).setSreg c (ordF st.ord 4 5 0) 0) = _)
  split
  · next hn =>
    have hdec : BitVec.ofNat 64 ((s.sreg c (ordF st.ord 4 5 0)).toNat - 1) = s.sreg c (ordF st.ord 4 5 0) - 1 := by bv_omega
    rw [hdec]
    exact ((((hretires.setSreg _ _).jump_target hpick _).rest).mono rfl).take_eq
  · exact ((hretires.setSreg _ _).rest.mono rfl).take_eq

/-- The order of a BRANCH_IF has started and completed. -/
def State.branchDone (s : State) (c : Nat) (st : Start) : State :=
  (s.startOrder c { st with clamps := st.clamps + branchClamps st.ord }).1.complete c (s.core c).freshId

theorem branchTaken_iff (cond : Nat) (a b : DWord) : branchTaken cond a b = true ↔ branchCond cond a b := by
  unfold branchTaken branchCond
  split
  · simp
  · exact BitVec.slt_iff_toInt_lt
  · rw [Bool.not_eq_true', ← Bool.not_eq_true, BitVec.slt_iff_toInt_lt]
    exact Iff.rfl
  · exact BitVec.ult_iff_toNat_lt
  · rw [Bool.not_eq_true', ← Bool.not_eq_true, BitVec.ult_iff_toNat_lt]
    exact Iff.rfl
  · next h1 h2 h3 h4 h5 => rw [if_neg h1, if_neg h2, if_neg h3, if_neg h4, if_neg h5, decide_eq_true_eq]

theorem exec_branchIf_next (hpick : s.pick c = some st) (hop : st.op = 0x5A) : exec (.branchIf c) s = .next (
    if branchTaken (ordF st.ord 4 18 16) (s.sreg c (ordF st.ord 4 5 0)) (branchB s c st.ord) then
      (s.branchDone c st).jump c st.q ((st.idx : Int) + branchOffset st.ord)
    else s.branchDone c st) := by
  have hretires : RetiresAtStart s (s.branchDone c st) c st _ [] [] (st.idx + 1) := (BegunAtStart.start hpick _).retires
  show execBranchIf c s = _
  unfold execBranchIf
  rw [State.runOrder_pick hpick (by simpa using hop)]
  simp only [b2n_decide]
  refine congrArg _ (?_ : reachCore.take s
    (if branchTaken (ordF st.ord 4 18 16) (s.sreg c (ordF st.ord 4 5 0)) (branchB s c st.ord) then
      (s.branchDone c st).jump c st.q ((st.idx : Int) + branchOffset st.ord)
    else s.branchDone c st) = _)
  split
  · exact ((hretires.jump_target hpick _).rest.mono rfl).take_eq
  · exact (hretires.rest.mono rfl).take_eq

end Sys2Proof.Machine

namespace Sys2Proof.Proofs

open Sys2Proof Sys2Proof.Machine Sys2Proof.Safety Sys2Proof.Claims

/-- Settles O2: the order retires with a back of 0 as a clamp, then its register is written, and above 1 its queue jumps back. -/
theorem loopCountsDown : Obligations.LoopCountsDown := by
  unfold Obligations.LoopCountsDown
  intro s c st hpick hop r k
  have hbegun := BegunAtStart.start hpick k
  have hretires : RetiresAtStart s (s.loopDone c st) c st k [] [] (st.idx + 1) := hbegun.retires
  have hunits : UnitsKept (s.core c) ((s.loopDone c st).core c) := hbegun.complete_units (State.startOrder_units ..)
  refine ⟨_, exec_loop_next hpick hop, ?_⟩
  by_cases hn : (s.sreg c r).toNat > 1
  · rw [if_pos hn, if_pos hn]
    exact ⟨(hunits.setSreg _ _).jump _ _, State.sreg_jump_setSreg .., (hretires.setSreg _ _).jump_target hpick _⟩
  · rw [if_neg hn, if_neg hn]
    exact ⟨hunits.setSreg _ _, State.sreg_setSreg_same .., hretires.setSreg _ _⟩

/-- Settles O3: the order retires with its clamps, and its queue jumps where the condition of the model, which is that of R151, holds. -/
theorem branchFollowsItsCondition : Obligations.BranchFollowsItsCondition := by
  unfold Obligations.BranchFollowsItsCondition
  intro s c st hpick hop taken
  have hbegun := BegunAtStart.start hpick (branchClamps st.ord)
  have hretires : RetiresAtStart s (s.branchDone c st) c st (branchClamps st.ord) [] [] (st.idx + 1) := hbegun.retires
  have hunits : UnitsKept (s.core c) ((s.branchDone c st).core c) := hbegun.complete_units (State.startOrder_units ..)
  have htaken := branchTaken_iff (ordF st.ord 4 18 16) (s.sreg c (ordF st.ord 4 5 0)) (branchB s c st.ord)
  have hexec := exec_branchIf_next hpick hop
  by_cases h : taken
  · rw [if_pos (htaken.2 h)] at hexec
    exact ⟨_, _, hexec, hunits.jump _ _, hretires.jump_target hpick _, fun _ => rfl, fun hn => absurd h hn⟩
  · rw [if_neg (fun hm => h (htaken.1 hm))] at hexec
    exact ⟨_, _, hexec, hunits, hretires, fun hm => absurd hm h, fun _ => rfl⟩

/-- Core 0 is about to load byte 5 at stockroom address 0 into s3, which `status_sreg` names too. -/
def ldsOverS3 : State :=
  { regs := [(regKey pgClerk 0 0 rClerkQSpan, 1)]
    cores := [(0, { stock := [(0, 5)], qs := [{ running := true, buf := [(0, 0x58 + 0x4300 <<< 64 + 0x030E <<< 128)] }] })]
    parts := [(0, { st := .serving, cores := [0] })]
    boot := { state := .ready, coreSite := [(0, 0)], sites := [(0, { core := 0 })] } }

/-- The LDS order of `ldsOverS3`, as the clerk starts it. -/
def ldsStart : Start := ⟨0, 0, 0x58 + 0x4300 <<< 64 + 0x030E <<< 128, 0x58, 0⟩

theorem ldsOverS3_next : NextScalar ldsOverS3 0 ldsStart 0x0E := by
  unfold NextScalar
  decide

/-- Refutes O1, by its LDS clause alone: an LDS whose `status_sreg` names its `dst` writes the word first and its status over it, so in
`ldsOverS3` s3 ends as the status OK, 0, and not as the byte 5 that it loaded. The rows that write `dst` and STS are as O1 says
(`scalarRow_writes`, `scalarSts_writes`), and so is an LDS that `status_sreg` leaves alone (`scalarLds_loads`). -/
theorem not_scalarOrdersComputeOverSRegisters : ¬ Obligations.ScalarOrdersComputeOverSRegisters := by
  unfold Obligations.ScalarOrdersComputeOverSRegisters
  intro h
  have hlost : ldsOverS3.stockLost 0 (scalarAddr ldsOverS3 0 ldsStart.ord) 8 = false := by decide
  obtain ⟨t, hexec, hloaded, -⟩ := (h.2 ldsOverS3 0 ldsStart).1 ldsOverS3_next hlost
  obtain ⟨u, hexec', hstatus, -⟩ := scalarLds_loads ldsOverS3_next hlost
  cases hexec.symm.trans hexec'
  have hbyte := hloaded 0 (by decide)
  rw [hstatus (by decide)] at hbyte
  exact absurd hbyte (by decide)

end Sys2Proof.Proofs
end

section
/-! PROOFS. SIGNAL orders (R135, R140, R153): local, remote and refused ones, and the delivery of a remote signal. O4 and O5 are settled
at the end. -/

namespace Sys2Proof.Machine

open Sys2Proof.Safety Sys2Proof.Claims

variable {s : State} {c : Nat} {st : Start}

/-! #### Local signals -/

/-- A local SIGNAL has begun: its counter has risen by its value, or holds it. -/
def State.signalBegun (s : State) (c : Nat) (st : Start) : State :=
  if bit (ordW st.ord 4) 17 then (s.startOrder c st).1.setCtr c (ordF st.ord 4 5 0) (BitVec.ofNat 32 (ordW st.ord 5))
  else (s.startOrder c st).1.signal c (ordF st.ord 4 5 0) (BitVec.ofNat 32 (ordW st.ord 5)).toNat

theorem State.signalBegun_begun (hpick : s.pick c = some st) :
    BegunAtStart s (s.signalBegun c st) c st 0 [] [ordF st.ord 4 5 0] := by
  unfold State.signalBegun
  split
  · exact (BegunAtStart.start hpick 0).setCtr _ _
  · exact (BegunAtStart.start hpick 0).setCtr _ _

theorem State.signalBegun_ctr : (s.signalBegun c st).ctr c (ordF st.ord 4 5 0)
    = if bit (ordW st.ord 4) 17 then BitVec.ofNat 32 (ordW st.ord 5)
      else s.ctr c (ordF st.ord 4 5 0) + BitVec.ofNat 32 (ordW st.ord 5) := by
  unfold State.signalBegun
  split
  · exact State.ctr_setCtr_same ..
  · unfold State.signal
    rw [State.ctr_setCtr_same, State.ctr_startOrder, BitVec.ofNat_toNat, BitVec.setWidth_eq]

theorem State.signalBegun_units : UnitsKept (s.core c) { (s.signalBegun c st).core c with flights := (s.core c).flights } := by
  have hunits := State.startOrder_units s c st
  unfold State.signalBegun State.signal State.setCtr
  split <;> (rw [State.core_modCore_same]; exact { hunits with })

/-- SIGNAL_ADD or SIGNAL_SET, as bit 17 of word 4 says. -/
def signalCmd (c : Nat) (set : Bool) : Instr := if set then .signalSet c else .signalAdd c

theorem exec_signalCmd (c : Nat) (set : Bool) : exec (signalCmd c set) s = .next (reachCore.take s (s.signalOrder c set)) := by
  cases set with
  | false => rfl
  | true => rfl

/-- A SIGNAL order's run, by the core it names. -/
theorem State.signalOrder_local (hpick : s.pick c = some st) (hop : st.op = 0x50) (hlocal : bit (ordW st.ord 4) 16 = false) :
    s.signalOrder c (bit (ordW st.ord 4) 17) = (s.signalBegun c st).complete c (s.core c).freshId := by
  unfold State.signalOrder
  rw [State.runOrder_pick hpick (by simpa using hop)]
  simp only [hlocal, Bool.false_eq_true, if_false]
  exact (apply_ite (fun w : State => w.complete c (s.core c).freshId) _ _ _).symm

theorem exec_signalCmd_local (hpick : s.pick c = some st) (hop : st.op = 0x50) (hlocal : bit (ordW st.ord 4) 16 = false) :
    exec (signalCmd c (bit (ordW st.ord 4) 17)) s = .next ((s.signalBegun c st).complete c (s.core c).freshId) := by
  rw [exec_signalCmd, State.signalOrder_local hpick hop hlocal]
  exact congrArg _ ((State.signalBegun_begun hpick).retires.rest.mono rfl).take_eq

/-! #### Remote signals -/

/-- The signal that a remote SIGNAL leaves in its core. -/
def State.sentSignal (s : State) (c : Nat) (st : Start) : RemSig :=
  ⟨(s.core c).freshId, ordF st.ord 4 15 8, ordF st.ord 4 5 0, bit (ordW st.ord 4) 17, BitVec.ofNat 32 (ordW st.ord 5),
    s.transfersTo c (ordF st.ord 4 15 8)⟩

/-- A remote SIGNAL has completed, and its signal waits. -/
def State.signalSent (s : State) (c : Nat) (st : Start) : State :=
  ((s.startOrder c st).1.complete c (s.core c).freshId).modCore c (fun x => { x with sigs := x.sigs ++ [s.sentSignal c st] })

theorem State.signalSent_retires (hpick : s.pick c = some st) : RetiresAtStart s (s.signalSent c st) c st 0 [] [] (st.idx + 1) :=
  (BegunAtStart.start hpick 0).retires.modCore _ [] [] rfl (fun _ h => h) (fun _ h => h) (fun _ _ => rfl) (fun _ _ => rfl)

theorem State.signalSent_core (hpick : s.pick c = some st) :
    ((s.signalSent c st).core c).sigs = (s.core c).sigs ++ [s.sentSignal c st]
      ∧ ((s.signalSent c st).core c).flights = (s.core c).flights := by
  have hunits := (BegunAtStart.start hpick 0).complete_units (State.startOrder_units s c st)
  unfold State.signalSent
  rw [State.core_modCore_same]
  exact ⟨congrArg (· ++ _) hunits.sigs, hunits.flights⟩

theorem exec_signalCmd_remote (hpick : s.pick c = some st) (hop : st.op = 0x50) (hremote : bit (ordW st.ord 4) 16 = true)
    (hpart : s.samePart c (ordF st.ord 4 15 8) = true) :
    exec (signalCmd c (bit (ordW st.ord 4) 17)) s = .next (s.signalSent c st) := by
  have hrun : s.signalOrder c (bit (ordW st.ord 4) 17) = s.signalSent c st := by
    unfold State.signalOrder
    rw [State.runOrder_pick hpick (by simpa using hop)]
    simp only [hremote, hpart]
    rfl
  rw [exec_signalCmd, hrun]
  exact congrArg _ ((State.signalSent_retires hpick).rest.mono rfl).take_eq

/-! #### Refused signals -/

/-- The order of a refused start, as it stands when it completes: done, with its refusal (R10). -/
def Start.refused (st : Start) (id status : Nat) : Flight :=
  { Start.flight { st with clamps := 0 } id with done := true, status := statusJoin stOk status }

/-- A refused order has completed: what it told, and the count and the record of its status. -/
def State.refusedDone (s : State) (c : Nat) (st : Start) : State :=
  ((s.refuseOrder c st stQuota).tell c (st.refused (s.core c).freshId stQuota)).recordNonok c (st.refused (s.core c).freshId stQuota)

theorem State.refuseOrder_flight (status : Nat) : ((s.refuseOrder c st status).core c).flight (s.core c).freshId
    = some (st.refused (s.core c).freshId status) := by
  unfold Core.flight
  rw [State.refuseOrder_flights, List.find?_append, Core.find_fresh]
  simp [Start.refused, Start.flight]

theorem State.refuseOrder_complete : (s.refuseOrder c st stQuota).complete c (s.core c).freshId = s.refusedDone c st := by
  have hstep := State.complete_eq _ c (st.refused (s.core c).freshId stQuota) (State.refuseOrder_flight (s := s) (c := c) stQuota)
  have hrep : (st.refused (s.core c).freshId stQuota).reported = stQuota := rfl
  unfold State.payOwed State.reportStep at hstep
  rw [hrep] at hstep
  exact hstep

theorem State.refusedDone_kept : Kept { regs := true, cores := true } s (s.refusedDone c st) :=
  ((State.refuseOrder_kept stQuota).trans ((State.tell_kept _ c _).mono rfl)).trans ((State.recordNonok_kept _ c _).mono rfl)

theorem State.refusedDone_cores_eq : (s.refusedDone c st).cores
    = ((s.refuseOrder c st stQuota).tell c (st.refused (s.core c).freshId stQuota)).cores :=
  (State.recordNonok_kept _ c _).cores rfl

theorem State.refusedDone_coresKept : CoresKept s (s.refusedDone c st) [c] :=
  ((State.refuseOrder_cores stQuota).trans (State.tell_cores _ c _)).trans_of_cores_eq State.refusedDone_cores_eq

theorem State.refusedDone_flights : ((s.refusedDone c st).core c).flights = (s.core c).flights := by
  rw [State.core_congr State.refusedDone_cores_eq, State.tell_flights, State.refuseOrder_flights, List.filter_append]
  show (s.core c).flights.filter (fun y => y.id != (s.core c).freshId) ++ _ = _
  rw [Core.filter_fresh]
  simp [Start.refused, Start.flight]

theorem State.refuseOrder_queue (hpick : s.pick c = some st) (status : Nat) :
    ((s.refuseOrder c st status).queue c st.q).index = st.idx + 1 := by
  rw [State.refuseOrder_eq, State.queue_finish]
  unfold State.queue
  rw [State.core_congr (State.noteRefuse_cores ..), State.refusedStart_core]
  simp [Core.started, fixSet_get_same _ _ _ (State.pick_lt hpick), OrderQ.trim]

theorem State.refusedDone_queue (hpick : s.pick c = some st) : ((s.refusedDone c st).queue c st.q).index = st.idx + 1 := by
  unfold State.queue
  rw [State.core_congr State.refusedDone_cores_eq]
  exact (congrArg OrderQ.index (State.tell_queue ..)).trans (State.refuseOrder_queue hpick _)

theorem State.refuseOrder_orders : (s.refuseOrder c st stQuota).reg pgClerk c 0 rClerkOrders = s.reg pgClerk c 0 rClerkOrders + 1 := by
  have hstart : (s.startOrder c { st with clamps := 0 }).1.regs = (s.bump pgClerk c 0 rClerkOrders 1).regs := State.startOrder_regs ..
  have hcount : (s.startOrder c { st with clamps := 0 }).1.reg pgClerk c 0 rClerkOrders = s.reg pgClerk c 0 rClerkOrders + BitVec.ofNat 64 1 :=
    (State.reg_congr hstart ..).trans (s.reg_bump_same ..)
  have hnoted : (s.refuseOrder c st stQuota).regs = ((s.refusedStart c st).noteRefuse (refusePage st.op) (s.refuseInst c st.op)).regs := rfl
  have hstarted : (s.refusedStart c st).regs = (s.startOrder c { st with clamps := 0 }).1.regs := rfl
  have hother : ((s.refusedStart c st).noteRefuse (refusePage st.op) (s.refuseInst c st.op)).reg pgClerk c 0 rClerkOrders
      = (s.refusedStart c st).reg pgClerk c 0 rClerkOrders := by
    unfold State.noteRefuse State.bumpSat State.setFld
    rw [State.reg_setReg_other _ _ (regKey_ne_of_off (by decide)), State.reg_setReg_other _ _ (regKey_ne_of_off (by decide))]
  exact (State.reg_congr hnoted ..).trans (hother.trans ((State.reg_congr hstarted ..).trans hcount))

/-- CLERK_ORDERS counts a refused order, and no count of its refusal is in that register. -/
theorem State.refusedDone_orders : (s.refusedDone c st).reg pgClerk c 0 rClerkOrders = s.reg pgClerk c 0 rClerkOrders + 1 := by
  have hnot : regKey pgClerk (regInst pgClerk c) 0 rClerkOrders ∉ [regKey pgClerk c 0 rClerkNonok, regKey pgClerk c 0 rClerkLastFault] := by
    simp only [List.mem_cons, List.not_mem_nil, or_false, not_or]
    exact ⟨regKey_ne_of_off (by decide), regKey_ne_of_off (by decide)⟩
  exact ((State.recordNonok_regs _ c _).reg_eq hnot).trans
    ((State.reg_congr ((State.tell_kept _ c _).regs rfl).1 ..).trans State.refuseOrder_orders)

theorem exec_signalCmd_refused (hpick : s.pick c = some st) (hop : st.op = 0x50) (hremote : bit (ordW st.ord 4) 16 = true)
    (hpart : s.samePart c (ordF st.ord 4 15 8) = false) :
    exec (signalCmd c (bit (ordW st.ord 4) 17)) s = .next (s.refusedDone c st) := by
  have hrun : s.signalOrder c (bit (ordW st.ord 4) 17) = (s.refuseOrder c st stQuota).complete c (s.core c).freshId := by
    unfold State.signalOrder
    rw [State.runOrder_pick hpick (by simpa using hop)]
    simp only [hremote, hpart]
    rfl
  rw [exec_signalCmd, hrun, State.refuseOrder_complete]
  exact congrArg _ (State.refusedDone_kept.mono rfl).take_eq

/-! #### Every SIGNAL order completes (R135) -/

/-- What is common to the completions of the three kinds. -/
theorem signalCmd_completes (hpick : s.pick c = some st) (hop : st.op = 0x50) :
    ∃ t, exec (signalCmd c (bit (ordW st.ord 4) 17)) s = .next t ∧ (t.queue c st.q).index = st.idx + 1
      ∧ t.reg pgClerk c 0 rClerkOrders = s.reg pgClerk c 0 rClerkOrders + 1 ∧ (t.core c).flights = (s.core c).flights
      ∧ CoresKept s t [c] ∧ Kept { regs := true, cores := true } s t := by
  cases hremote : bit (ordW st.ord 4) 16 with
  | false =>
    have hbegun := State.signalBegun_begun hpick
    have hretires := hbegun.retires
    exact ⟨_, exec_signalCmd_local hpick hop hremote, hretires.queue, hretires.orders,
      (hbegun.complete_units State.signalBegun_units).flights, hretires.cores, hretires.rest⟩
  | true =>
    cases hpart : s.samePart c (ordF st.ord 4 15 8) with
    | true =>
      have hretires := State.signalSent_retires hpick
      exact ⟨_, exec_signalCmd_remote hpick hop hremote hpart, hretires.queue, hretires.orders, (State.signalSent_core hpick).2,
        hretires.cores, hretires.rest⟩
    | false =>
      exact ⟨_, exec_signalCmd_refused hpick hop hremote hpart, State.refusedDone_queue hpick, State.refusedDone_orders,
        State.refusedDone_flights, State.refusedDone_coresKept, State.refusedDone_kept⟩

/-! #### Delivery (R153, R21, R465) -/

/-- A waiting signal has been delivered. -/
def State.delivered (s : State) (c : Nat) (g : RemSig) : State :=
  let s1 := s.modCore c (fun y => { y with sigs := y.sigs.filter (fun h => h.id != g.id) })
  s1.setCtr g.core g.ctr (if g.set then g.value else s.ctr g.core g.ctr + g.value)

theorem State.delivered_kept (g : RemSig) : Kept { cores := true } s (s.delivered c g) := by
  unfold State.delivered State.setCtr
  exact ((Kept.refl _ s).modCore rfl ..).modCore rfl ..

theorem State.delivered_cores (g : RemSig) : CoresKept s (s.delivered c g) [c, g.core] := by
  unfold State.delivered State.setCtr
  exact (CoresKept.refl.modCore (by simp) _).modCore (by simp) _

theorem exec_signalDeliver_next {id : Nat} {g : RemSig} (hfind : (s.core c).sigs.find? (fun h => h.id = id) = some g)
    (hafter : ∀ i ∈ g.after, (s.core c).flight i = none) (hfirst : ∀ h ∈ (s.core c).sigs, h.core = g.core → g.id ≤ h.id)
    (hhalf : s.fencedHalf ≠ some (coreHalf g.core)) : exec (.signalDeliver c id) s = .next (s.delivered c g) := by
  have hid : g.id = id := by simpa using List.find?_some hfind
  have hwaits : (g.after.any (fun i => ((s.core c).flight i).isSome)
      || (s.core c).sigs.any (fun h => h.core = g.core && decide (h.id < g.id)) || decide (s.fencedHalf = some (coreHalf g.core))) = false := by
    simp only [Bool.or_eq_false_iff, List.any_eq_false, decide_eq_false_iff_not, Bool.and_eq_true, decide_eq_true_eq, not_and, not_lt]
    exact ⟨⟨fun i hi => by simp [hafter i hi], hfirst⟩, hhalf⟩
  have hctr : (s.modCore c (fun y => { y with sigs := y.sigs.filter (fun h => h.id != g.id) })).ctr g.core g.ctr = s.ctr g.core g.ctr :=
    s.modCore_proj (fun x => smGet 0 x.ctrs (g.ctr % 64)) _ (fun _ => by rfl) c g.core
  have hrun : s.delivered c g
      = let s1 := s.modCore c (fun y => { y with sigs := y.sigs.filter (fun h => h.id != id) })
        if g.set then s1.setCtr g.core g.ctr g.value else s1.signal g.core g.ctr g.value.toNat := by
    unfold State.delivered State.signal
    rw [← hid]
    dsimp only
    rw [hctr, BitVec.ofNat_toNat, BitVec.setWidth_eq]
    exact apply_ite (fun v => State.setCtr _ g.core g.ctr v) _ _ _
  show execSignalDeliver c id s = _
  unfold execSignalDeliver
  simp only [hfind, hwaits, Bool.false_eq_true, if_false]
  exact congrArg _ ((congrArg (reachCore.take s) hrun.symm).trans ((State.delivered_kept g).mono rfl).take_eq)

theorem State.delivered_ctr_same (g : RemSig) :
    (s.delivered c g).ctr g.core g.ctr = if g.set then g.value else s.ctr g.core g.ctr + g.value :=
  State.ctr_setCtr_same ..

theorem State.delivered_ctr_other (g : RemSig) {k : Nat} (hk : k % 64 ≠ g.ctr % 64) : (s.delivered c g).ctr g.core k = s.ctr g.core k := by
  unfold State.delivered State.setCtr State.ctr
  rw [State.core_modCore_same]
  exact (smGet_smSet_other _ _ _ _ hk).trans (s.modCore_proj (fun x => smGet 0 x.ctrs (k % 64)) _ (fun _ => by rfl) c g.core)

theorem State.delivered_sigs (g : RemSig) :
    ((s.delivered c g).core c).sigs = (s.core c).sigs.filter (fun h => h.id != g.id) := by
  unfold State.delivered State.setCtr
  refine (State.modCore_proj _ Core.sigs _ (fun _ => by rfl) _ _).trans ?_
  rw [State.core_modCore_same]

end Sys2Proof.Machine

namespace Sys2Proof.Proofs

open Sys2Proof Sys2Proof.Machine Sys2Proof.Safety Sys2Proof.Claims

/-- Settles O4: a local SIGNAL's counter has changed before its own completion adds to it, a remote one leaves its signal, and a delivery
changes the counter that the signal names. -/
theorem signalsChangeTheirCounters : Obligations.SignalsChangeTheirCounters := by
  unfold Obligations.SignalsChangeTheirCounters
  refine ⟨?here, ?remote, ?deliver⟩
  case here =>
    intro s c st hpick hop hlocal k v own
    have hexec := exec_signalCmd_local hpick hop hlocal
    have hbegun := State.signalBegun_begun hpick
    have hunits := hbegun.complete_units State.signalBegun_units
    have hctr := hbegun.complete_ctr k
    rw [State.signalBegun_ctr] at hctr
    refine ⟨fun hset => ?_, fun hset => ?_⟩
    · rw [hset] at hexec hctr
      exact ⟨_, hexec, hctr.trans (add_right_comm ..), hbegun.retires, hunits⟩
    · rw [hset] at hexec hctr
      exact ⟨_, hexec, hctr, hbegun.retires, hunits⟩
  case remote =>
    intro s c st set hpick hop hremote hset hpart
    subst hset
    exact ⟨_, _, exec_signalCmd_remote hpick hop hremote hpart, (State.signalSent_core hpick).1, rfl, rfl, rfl, rfl,
      State.signalSent_retires hpick⟩
  case deliver =>
    intro s c g hfind hafter hfirst hhalf
    refine ⟨_, exec_signalDeliver_next hfind (fun i hi => Option.isNone_iff_eq_none.1 (hafter i hi)) hfirst hhalf,
      State.delivered_ctr_same g, fun k hk => State.delivered_ctr_other g hk, fun h hh => ?_, State.delivered_cores g,
      ((State.delivered_kept g).regs rfl).1, (State.delivered_kept g).mono rfl⟩
    rw [State.delivered_sigs] at hh
    simpa using (List.mem_filter.1 hh).2

/-- Settles O5: each kind of SIGNAL order completes at its start, and a signal whose turn it is is delivered. -/
theorem signalsComplete : Obligations.SignalsComplete := by
  unfold Obligations.SignalsComplete
  refine ⟨fun s c st hpick hop => ?_, fun s c id g hfind hafter hfirst hhalf => ?_⟩
  · have hdone := signalCmd_completes hpick hop
    refine ⟨fun hset => ?_, fun hset => ?_⟩
    · rw [hset] at hdone
      exact hdone
    · rw [hset] at hdone
      exact hdone
  · have hid : g.id = id := by simpa using List.find?_some hfind
    exact ⟨_, exec_signalDeliver_next hfind hafter hfirst hhalf, State.delivered_ctr_same g, hid ▸ State.delivered_sigs g,
      State.delivered_cores g, (State.delivered_kept g).mono rfl⟩

end Sys2Proof.Proofs
end

section
/-! PROOFS. WAIT, FENCE and TREADLE, rests and order fetches (R129, R140, R152, R154, R155, R157, R165, R167). O6 is settled at the end. -/

namespace Sys2Proof.Safety

open Sys2Proof.Machine

variable {s t w : State} {c k : Nat} {st : Start}

/-- What a reach takes lies within it. -/
theorem Kept.take (f : Reach) (s w : State) : Kept f s (f.take s w) := by
  constructor
  case fused => exact ⟨Reach.take_keys .., Reach.take_revoked0 .., Reach.take_seed .., Reach.take_rom ..⟩
  case pending => rfl
  case fuse => exact Reach.take_svn s f w
  case sec => exact Reach.take_sec s f w
  all_goals intro h; simp [h]

/-- A further effect on the core of an order that is held, which leaves its queues and registers and keeps it held last. -/
theorem HeldAtStart.modCore (h : HeldAtStart s t c st k) (g : Core → Core) (hq : (g (t.core c)).qs = (t.core c).qs)
    (hs : (g (t.core c)).sregs = (t.core c).sregs) (hc : (g (t.core c)).ctrs = (t.core c).ctrs)
    (hf : ∃ f, (g (t.core c)).flights = (s.core c).flights ++ [f] ∧ f.id = (s.core c).freshId ∧ f.q = st.q ∧ f.idx = st.idx
      ∧ f.ord = st.ord ∧ f.op = st.op ∧ f.done = false) : HeldAtStart s (t.modCore c g) c st k := by
  have hcore : (t.modCore c g).core c = g (t.core c) := State.core_modCore_same ..
  have hqueue : ∀ q, (t.modCore c g).queue c q = t.queue c q := fun q => by
    unfold State.queue
    rw [hcore, hq]
  refine ⟨by rw [hcore]; exact hf, ?_, fun q hne => ?_, ?_, ?_, h.cores.modCore (List.mem_singleton_self c) _, h.orders, h.regs,
    h.rest.modCore rfl .., h.latches⟩
  · rw [hqueue]
    exact h.queue
  · rw [hqueue]
    exact h.queues q hne
  · rw [hcore, hs]
    exact h.sregs
  · rw [hcore, hc]
    exact h.ctrs

end Sys2Proof.Safety

namespace Sys2Proof.Machine

open Sys2Proof.Safety Sys2Proof.Claims

variable {s w : State} {c : Nat} {st : Start}

/-! #### Orders that stay (R154, R155) -/

/-- An order that waits notes what it waits for. -/
theorem State.startOrder_noted (hpick : s.pick c = some st) (l : List Nat) :
    HeldAtStart s ((s.startOrder c st).1.modFlight c (s.core c).freshId (fun f => { f with aux := l })) c st 0 := by
  refine (State.holds (k := 0) hpick).modCore _ rfl rfl rfl ⟨{ st.flight (s.core c).freshId with aux := l }, ?_, rfl, rfl, rfl, rfl, rfl, rfl⟩
  have hstart : ((s.startOrder c { st with clamps := st.clamps + 0 }).1.core c).flights = (s.core c).flights ++ [st.flight (s.core c).freshId] :=
    (BegunAtStart.start hpick 0).flights
  dsimp only
  rw [hstart, List.map_append, Core.map_fresh]
  simp [Start.flight]

/-! #### WAIT (R140, R155) -/

/-- The header wait of an order that the clerk picks holds (R131, R140). -/
theorem State.pick_headerWait (hpick : s.pick c = some st) : s.headerWait c st.ord = true := by
  obtain ⟨-, hstate, -, raw, hhead, hprep⟩ := State.pick_inv hpick
  have hord : (prepOrder s c raw).1 = st.ord := (congrArg Prod.fst hprep).symm
  by_contra hwait
  rw [Bool.not_eq_true] at hwait
  unfold State.queueState at hstate
  simp only [hhead, hord, hwait, Bool.not_false, Bool.or_true, Bool.true_or, if_true] at hstate
  revert hstate
  split_ifs <;> decide

theorem State.waitMet_iff (hpick : s.pick c = some st) : s.waitMet c st.ord (s.waitBase c st.ord) = true
    ↔ waitHolds s c st.ord 6 5 0 5 ∧ waitHolds s c st.ord 14 13 8 6 ∧ waitHolds s c st.ord 22 21 16 7 := by
  have hheader : s.headerWaitAt c st.ord (s.waitBase c st.ord) = true := State.pick_headerWait hpick
  have hok (en hi lo v : Nat) : (!bit (ordW st.ord 4) en || ctrSatisfies (s.ctr c (ordF st.ord 4 hi lo))
      (BitVec.ofNat 32 (ordW st.ord v) + s.waitBase c st.ord)) = true ↔ waitHolds s c st.ord en hi lo v := by
    unfold waitHolds ctrSatisfies State.waitBase
    cases bit (ordW st.ord 4) en <;> simp
  unfold State.waitMet
  simp only [hheader, Bool.true_and, Bool.and_eq_true, hok, and_assoc]

theorem exec_wait_next (hpick : s.pick c = some st) (hop : st.op = 0x51) : exec (.wait c) s = .next (
    if s.waitMet c st.ord (s.waitBase c st.ord) then (s.startOrder c st).1.complete c (s.core c).freshId
    else (s.startOrder c st).1.modFlight c (s.core c).freshId (fun f => { f with aux := [(s.waitBase c st.ord).toNat] })) := by
  show execWait c s = _
  unfold execWait
  rw [State.runOrder_pick hpick (by simpa using hop)]
  refine congrArg _ (?_ : reachCore.take s (if s.waitMet c st.ord (s.waitBase c st.ord) then _ else _) = _)
  split
  · exact ((BegunAtStart.start hpick 0).retires.rest.mono rfl).take_eq
  · exact ((State.startOrder_noted hpick _).rest.mono rfl).take_eq

/-! #### FENCE (R154) -/

theorem exec_fence_next (hpick : s.pick c = some st) (hop : st.op = 0x5B) : exec (.fence c) s = .next (
    if (s.fenceSet c st).isEmpty then (s.startOrder c st).1.complete c (s.core c).freshId
    else (s.startOrder c st).1.modFlight c (s.core c).freshId (fun f => { f with aux := s.fenceSet c st })) := by
  show execFence c s = _
  unfold execFence
  rw [State.runOrder_pick hpick (by simpa using hop)]
  refine congrArg _ (?_ : reachCore.take s (if (s.fenceSet c st).isEmpty then _ else _) = _)
  split
  · exact ((BegunAtStart.start hpick 0).retires.rest.mono rfl).take_eq
  · exact ((State.startOrder_noted hpick _).rest.mono rfl).take_eq

/-- A FENCE waits for an order: it is of its own queue, or bit 1 names every one, or it is a transfer and bit 2 names those. -/
theorem State.mem_fenceSet (id : Nat) : id ∈ s.fenceSet c st ↔ ∃ f ∈ (s.core c).flights, f.id = id
    ∧ (bit (ordW st.ord 4) 1 = true ∨ f.q = st.q ∨ (bit (ordW st.ord 4) 2 = true ∧ opUnit f.op = .transfer)) := by
  unfold State.fenceSet
  simp only [List.mem_map, List.mem_filter, Bool.or_eq_true, Bool.and_eq_true, decide_eq_true_eq, or_assoc]
  exact ⟨fun ⟨f, ⟨hf, hwaits⟩, hid⟩ => ⟨f, hf, hid, hwaits⟩, fun ⟨f, hf, hid, hwaits⟩ => ⟨f, ⟨hf, hwaits⟩, hid⟩⟩

theorem State.fenceSet_isEmpty (h : ∀ f ∈ (s.core c).flights, f.q ≠ st.q ∧ bit (ordW st.ord 4) 1 = false
    ∧ (bit (ordW st.ord 4) 2 = true → opUnit f.op ≠ .transfer)) : (s.fenceSet c st).isEmpty = true := by
  rw [List.isEmpty_iff, List.eq_nil_iff_forall_not_mem]
  intro id hid
  obtain ⟨f, hf, -, hwaits⟩ := State.mem_fenceSet id |>.1 hid
  obtain ⟨hq, hall, htransfer⟩ := h f hf
  rcases hwaits with h1 | h2 | ⟨h3, h4⟩
  · exact absurd h1 (by simp [hall])
  · exact hq h2
  · exact htransfer h3 h4

theorem State.fenceSet_not_isEmpty (h : ∃ f ∈ (s.core c).flights, f.q = st.q ∨ bit (ordW st.ord 4) 1 = true) :
    (s.fenceSet c st).isEmpty = false := by
  obtain ⟨f, hf, hwaits⟩ := h
  rw [List.isEmpty_eq_false_iff_exists_mem]
  exact ⟨f.id, (State.mem_fenceSet _).2 ⟨f, hf, rfl, hwaits.elim (fun h => .inr (.inl h)) .inl⟩⟩

/-! #### TREADLE (R157) -/

/-- A completion leaves its core's looms and the other cores; its order is no longer in flight. -/
theorem State.complete_leaves (w : State) (c id : Nat) : ((w.complete c id).core c).looms = (w.core c).looms
    ∧ ((w.complete c id).core c).flights = (w.core c).flights.filter (fun g => g.id != id) ∧ CoresKept w (w.complete c id) [c] := by
  cases hflight : (w.core c).flight id with
  | none =>
    have hnone : ∀ g ∈ (w.core c).flights, g.id ≠ id := by simpa [Core.flight] using hflight
    have hsame : w.complete c id = w := by
      unfold State.complete
      rw [hflight]
    rw [hsame]
    exact ⟨rfl, (List.filter_eq_self.2 fun g hg => by simpa using hnone g hg).symm, CoresKept.refl⟩
  | some f =>
    obtain rfl : f.id = id := by simpa using List.find?_some hflight
    have hcores := State.complete_cores_eq hflight
    have hpaid : (w.payOwed f).cores = w.cores := (w.payOwed_kept f).cores rfl
    obtain ⟨sregs, ctrs, htold⟩ := State.tell_core (w := w.payOwed f) (c := c) f
    rw [State.core_congr hcores, htold, State.core_congr hpaid]
    exact ⟨rfl, rfl, ((CoresKept.of_cores_eq hpaid).trans (State.tell_cores _ c f)).trans (CoresKept.of_cores_eq hcores)⟩

theorem State.completeAll_leaves (c : Nat) (l : List Nat) (w : State) :
    ((l.foldl (fun s f => s.complete c f) w).core c).looms = (w.core c).looms
    ∧ ((l.foldl (fun s f => s.complete c f) w).core c).flights = (w.core c).flights.filter (fun g => !l.contains g.id)
    ∧ CoresKept w (l.foldl (fun s f => s.complete c f) w) [c] := by
  induction l generalizing w with
  | nil => exact ⟨rfl, by simp, CoresKept.refl⟩
  | cons id l ih =>
    obtain ⟨hlooms, hflights, hcores⟩ := State.complete_leaves w c id
    obtain ⟨hlooms', hflights', hcores'⟩ := ih (w.complete c id)
    refine ⟨hlooms'.trans hlooms, ?_, hcores.trans hcores'⟩
    rw [List.foldl_cons, hflights', hflights, List.filter_filter]
    congr 1
    funext g
    simp [Bool.and_comm, bne, beq_eq_decide]

/-- The TREADLE orders active on the looms that an order names. -/
def State.olderTreadles (s : State) (c mask : Nat) : List Nat :=
  ((List.range 4).filterMap (fun l => if bit mask l then (((s.core c).looms.getD l {}).fixedBy.map (·.1)) else none)).eraseDups

/-- A TREADLE order takes the looms it names, and its predecessors there leave the others. -/
def takeLooms (mask id lvl : Nat) (old : List Nat) (x : Core) : Core :=
  { x with looms := x.looms.mapIdx (fun l m =>
      if bit mask l then { m with fixedBy := some (id, lvl) }
      else match m.fixedBy with
        | some (f, _) => if old.contains f then { m with fixedBy := none } else m
        | none => m) }

theorem takeLooms_named {mask id lvl l : Nat} {old : List Nat} {x : Core} (hl : l < x.looms.length) (hmask : bit mask l = true) :
    ((takeLooms mask id lvl old x).looms.getD l {}).fixedBy = some (id, lvl) := by
  simp [takeLooms, List.getD, hl, hmask]

/-- A TREADLE order begins, with the clamps of its level and duration. -/
def State.treadleBegun (s : State) (c : Nat) (st : Start) : State :=
  ((s.startOrder c { st with clamps := st.clamps + (treadleFields st.ord).2.2 }).1.modCore c
    (takeLooms (ordF st.ord 4 3 0) (s.core c).freshId (min 100 (ordF st.ord 4 14 8)) (s.olderTreadles c (ordF st.ord 4 3 0))))

/-- The looms that a TREADLE order fixed are free. -/
def freeLooms (id : Nat) (x : Core) : Core :=
  { x with looms := x.looms.map (fun m =>
      match m.fixedBy with
      | some (i, _) => if i = id then { m with fixedBy := none } else m
      | none => m) }

theorem freeLooms_free {id : Nat} {x : Core} {m : Loom} (hm : m ∈ (freeLooms id x).looms) (v : Nat) : m.fixedBy ≠ some (id, v) := by
  obtain ⟨m', -, rfl⟩ := List.mem_map.1 hm
  cases hfix : m'.fixedBy with
  | none => simp [hfix]
  | some p =>
    by_cases hid : p.1 = id
    · simp [hid]
    · simp only [hid, if_false, hfix, ne_eq, Option.some.injEq]
      rintro rfl
      exact hid rfl

theorem exec_treadle_next (hpick : s.pick c = some st) (hop : st.op = 0x60) : exec (.treadle c) s = .next (reachCore.take s
    ((s.olderTreadles c (ordF st.ord 4 3 0)).foldl (fun s f => s.complete c f) (s.treadleBegun c st))) := by
  show execTreadle c s = _
  unfold execTreadle
  rw [State.runOrder_pick hpick (by simpa using hop)]
  rfl

/-- A loom's number fits the mask of four bits. -/
theorem lt_four_of_bit_mask {o l : Nat} (h : bit (ordF o 4 3 0) l = true) : l < 4 := by
  have hmask : ordF o 4 3 0 < 2 ^ 4 := by
    unfold ordF bits
    omega
  by_contra hl
  have hout : (ordF o 4 3 0).testBit l = false :=
    Nat.testBit_lt_two_pow (lt_of_lt_of_le hmask (Nat.pow_le_pow_right (by decide) (not_lt.1 hl)))
  exact Bool.false_ne_true (hout.symm.trans h)

theorem State.mem_olderTreadles {mask l f v : Nat} (hl : l < 4) (hmask : bit mask l = true)
    (hfix : ((s.core c).looms.getD l {}).fixedBy = some (f, v)) : f ∈ s.olderTreadles c mask := by
  unfold State.olderTreadles
  rw [List.mem_eraseDups, List.mem_filterMap]
  exact ⟨l, List.mem_range.2 hl, by simp only [hmask, hfix, if_true, Option.map_some]⟩

theorem State.olderTreadles_eq_nil (h : ∀ m ∈ (s.core c).looms, m.fixedBy = none) (mask : Nat) : s.olderTreadles c mask = [] := by
  have hfix : ∀ l, ((s.core c).looms.getD l {}).fixedBy = none := fun l => by
    rw [List.getD_eq_getElem?_getD]
    cases hm : (s.core c).looms[l]? with
    | none => rfl
    | some m => exact h m (List.mem_of_getElem? hm)
  unfold State.olderTreadles
  simp only [hfix, Option.map_none, ite_self, List.filterMap_none]
  rfl

theorem State.treadleBegun_looms (s : State) (c : Nat) (st : Start) : ((s.treadleBegun c st).core c).looms
    = (takeLooms (ordF st.ord 4 3 0) (s.core c).freshId (min 100 (ordF st.ord 4 14 8)) (s.olderTreadles c (ordF st.ord 4 3 0)) (s.core c)).looms := by
  have hunits := (State.startOrder_units s c { st with clamps := st.clamps + (treadleFields st.ord).2.2 }).looms.1
  unfold State.treadleBegun
  rw [State.core_modCore_same]
  exact congrArg (List.mapIdx _) hunits

theorem State.treadleBegun_held (hpick : s.pick c = some st) :
    HeldAtStart s (s.treadleBegun c st) c st (treadleFields st.ord).2.2 := by
  have hheld := State.holds (k := (treadleFields st.ord).2.2) hpick
  exact hheld.modCore _ rfl rfl rfl hheld.held

/-- A TREADLE order fixes the looms it names, ends its predecessors there, and is held where there is none (R157). -/
theorem treadle_fixes (hpick : s.pick c = some st) (hop : st.op = 0x60) : ∃ t, exec (.treadle c) s = .next t
    ∧ (∀ l < (s.core c).looms.length, bit (ordF st.ord 4 3 0) l = true →
        ((t.core c).looms.getD l {}).fixedBy = some ((s.core c).freshId, min 100 (ordF st.ord 4 14 8)))
    ∧ (∀ l < (s.core c).looms.length, bit (ordF st.ord 4 3 0) l = true → ∀ f v, ((s.core c).looms.getD l {}).fixedBy = some (f, v) →
        (t.core c).flight f = none)
    ∧ ((∀ m ∈ (s.core c).looms, m.fixedBy = none) → HeldAtStart s t c st
        ((if ordF st.ord 4 14 8 > 100 then 1 else 0) + (if ordF st.ord 5 15 0 = 0 then 1 else 0)))
    ∧ CoresKept s t [c] ∧ Kept reachCore s t := by
  have hheld := State.treadleBegun_held hpick
  obtain ⟨hlooms, hflights, hcores⟩ :=
    State.completeAll_leaves c (s.olderTreadles c (ordF st.ord 4 3 0)) (s.treadleBegun c st)
  refine ⟨_, exec_treadle_next hpick hop, fun l hl hmask => ?_, fun l hl hmask f v hfix => ?_, fun hfree => ?_,
    (hheld.cores.trans hcores).trans (CoresKept.of_cores_eq rfl), Kept.take ..⟩
  · rw [State.core_congr (Reach.take_cores ..), hlooms, State.treadleBegun_looms]
    exact takeLooms_named hl hmask
  · have hold := State.mem_olderTreadles (lt_four_of_bit_mask hmask) hmask hfix
    rw [State.core_congr (Reach.take_cores ..), Core.flight, hflights, List.find?_eq_none]
    intro g hg
    have hleft := (List.mem_filter.1 hg).2
    simp only [decide_eq_true_eq]
    rintro rfl
    simp [hold] at hleft
  · rw [State.olderTreadles_eq_nil hfree, List.foldl_nil, (hheld.rest.mono rfl).take_eq]
    have hclamps : (treadleFields st.ord).2.2
        = (if ordF st.ord 4 14 8 > 100 then 1 else 0) + (if ordF st.ord 5 15 0 = 0 then 1 else 0) :=
      congrArg₂ (· + ·) (b2n_decide _) (b2n_decide _)
    rw [← hclamps]
    exact hheld

/-- A TREADLE order's duration ends: it completes and leaves its looms (R157). -/
theorem treadleDurationEnd_frees {f : Flight} (hflight : (s.core c).flight f.id = some f) (hop : f.op = 0x60) :
    ∃ t, exec (.treadleDurationEnd c f.id) s = .next t ∧ (t.core c).flight f.id = none
      ∧ (∀ m ∈ (t.core c).looms, ∀ v, m.fixedBy ≠ some (f.id, v)) ∧ CoresKept s t [c] ∧ Kept reachCore s t := by
  have hexec : exec (.treadleDurationEnd c f.id) s = .next (reachCore.take s ((s.modCore c (freeLooms f.id)).complete c f.id)) := by
    show execTreadleDurationEnd c f.id s = _
    unfold execTreadleDurationEnd
    simp only [hflight, hop, if_true]
    rfl
  obtain ⟨hlooms, hflights, hcores⟩ := State.complete_leaves (s.modCore c (freeLooms f.id)) c f.id
  refine ⟨_, hexec, ?_, fun m hm v => ?_, ((CoresKept.refl.modCore (List.mem_singleton_self c) _).trans hcores).trans (CoresKept.of_cores_eq rfl),
    Kept.take ..⟩
  · rw [State.core_congr (Reach.take_cores ..), Core.flight, hflights, List.find?_eq_none]
    intro g hg
    simpa using (List.mem_filter.1 hg).2
  · rw [State.core_congr (Reach.take_cores ..), hlooms, State.core_modCore_same] at hm
    exact freeLooms_free hm v

/-! #### Rests (R165) -/

theorem restEnd_counts (hrest : (s.core c).rest ≠ 0) : ∃ t, exec (.restEnd c) s = .next t ∧ (t.core c).rest = 0
    ∧ t.reg pgClerk c 0 rClerkRestCyc = s.reg pgClerk c 0 rClerkRestCyc + BitVec.ofNat 64 (s.core c).rest
    ∧ t.core c = { (s.core c) with rest := 0, restAt := 0 } ∧ CoresKept s t [c] ∧ RegsKept s t [regKey pgClerk c 0 rClerkRestCyc]
    ∧ Kept { regs := true, cores := true } s t := by
  have hkept : Kept { regs := true, cores := true } s
      ((s.bump pgClerk c 0 rClerkRestCyc (s.core c).rest).modCore c (fun x => { x with rest := 0, restAt := 0 })) :=
    ((Kept.refl _ s).bump rfl ..).modCore rfl ..
  have hexec : exec (.restEnd c) s
      = .next ((s.bump pgClerk c 0 rClerkRestCyc (s.core c).rest).modCore c (fun x => { x with rest := 0, restAt := 0 })) := by
    show execRestEnd c s = _
    unfold execRestEnd
    rw [if_neg hrest, (hkept.mono rfl).take_eq]
  have hcore := State.core_modCore_same (s.bump pgClerk c 0 rClerkRestCyc (s.core c).rest) c (fun x => { x with rest := 0, restAt := 0 })
  exact ⟨_, hexec, by rw [hcore], s.reg_bump_same .., hcore, CoresKept.refl.modCore (List.mem_singleton_self c) _,
    (RegsKept.of_regs_eq rfl).setReg _ (by simp [regInst]), hkept⟩

variable {q b off : Nat}

/-! #### Order fetches (R129, R152, R167) -/

theorem State.queue_modQueue_same (hq : q < 4) (f : OrderQ → OrderQ) : (s.modQueue c q f).queue c q = f (s.queue c q) := by
  unfold State.modQueue State.queue
  rw [State.core_modCore_same]
  exact fixSet_getD_same _ _ _ hq

theorem State.modQueue_regs (f : OrderQ → OrderQ) : (s.modQueue c q f).regs = s.regs := rfl

theorem State.modQueue_stockBad (f : OrderQ → OrderQ) (b : Nat) : ((s.modQueue c q f).core b).stockBad = (s.core b).stockBad := by
  unfold State.modQueue
  by_cases h : b = c
  · rw [h, State.core_modCore_same]
  · rw [State.core_modCore_other _ _ h]

theorem State.modQueue_stockBytes (f : OrderQ → OrderQ) (b a n : Nat) : (s.modQueue c q f).stockBytes b a n = s.stockBytes b a n := by
  unfold State.stockBytes State.modQueue
  by_cases h : b = c
  · rw [h, State.core_modCore_same]
  · rw [State.core_modCore_other _ _ h]

theorem State.orderLoc_congr (h : w.regs = s.regs) (i : Nat) : w.orderLoc c q i = s.orderLoc c q i := by
  unfold State.orderLoc
  rw [State.reg_congr h]

/-- A queue lies in one stockroom as a whole. -/
theorem State.orderLoc_stock {i : Nat} (h : s.orderLoc c q i = .stock b off) (j : Nat) : ∃ o, s.orderLoc c q j = .stock b o := by
  unfold State.orderLoc at h ⊢
  cases hbase : locOf c (s.reg pgClerk c 0 (rClerkQBase + 8 * q)).toNat <;> rw [hbase] at h <;> cases h
  exact ⟨_, rfl⟩

/-- An order in an intact stockroom is fetched as it stands. -/
theorem State.fetchOne_stock {i : Nat} (h : s.orderLoc c q i = .stock b off) (hbad : (s.core b).stockBad = []) :
    s.fetchOne c q i = (s.modQueue c q (fun x => { x with buf := smPut x.buf i (leNat (s.stockBytes b off 128)) }), true) := by
  have hintact : s.stockLost b off 128 = false := by
    unfold State.stockLost
    rw [hbad]
    rfl
  unfold State.fetchOne
  rw [h]
  unfold State.readRestored State.readLoc
  simp [hintact]

/-- A window's fetch has put the head order, and has lost none. -/
structure HeadFetched (s : State) (c q b raw : Nat) (acc : State × Option Nat) : Prop where
  regs : acc.1.regs = s.regs
  intact : (acc.1.core b).stockBad = []
  index : (acc.1.queue c q).index = (s.queue c q).index
  head : smFind (acc.1.queue c q).buf (s.queue c q).index = some raw
  found : acc.2 = none

/-- One step of a window's fetch (R129). -/
def fetchStep (c q len : Nat) (acc : State × Option Nat) (i : Nat) : State × Option Nat :=
  if i ≥ len ∨ acc.2.isSome ∨ (smFind (acc.1.queue c q).buf i).isSome then acc
  else
    let (s2, ok) := acc.1.fetchOne c q i
    (s2, if ok then none else some i)

theorem fetchStep_stock {len i : Nat} {acc : State × Option Nat} (hloc : acc.1.orderLoc c q i = .stock b off)
    (hbad : (acc.1.core b).stockBad = []) (hlen : i < len) (hfound : acc.2 = none) (hbuf : smFind (acc.1.queue c q).buf i = none) :
    fetchStep c q len acc i
      = (acc.1.modQueue c q (fun x => { x with buf := smPut x.buf i (leNat (acc.1.stockBytes b off 128)) }), none) := by
  unfold fetchStep
  rw [if_neg (by simp [hlen, hfound, hbuf]), State.fetchOne_stock hloc hbad]
  rfl

theorem HeadFetched.step {raw len : Nat} {acc : State × Option Nat} (h : HeadFetched s c q b raw acc) (hq : q < 4)
    (hloc : s.orderLoc c q (s.queue c q).index = .stock b off) (i : Nat) : HeadFetched s c q b raw (fetchStep c q len acc i) := by
  by_cases hskip : i ≥ len ∨ acc.2.isSome ∨ (smFind (acc.1.queue c q).buf i).isSome
  · rw [fetchStep, if_pos hskip]
    exact h
  · obtain ⟨hlen, -, hbuf⟩ : i < len ∧ _ ∧ smFind (acc.1.queue c q).buf i = none := by simpa [not_or] using hskip
    obtain ⟨o, hi⟩ := State.orderLoc_stock hloc i
    have hne : (s.queue c q).index ≠ i := by
      rintro rfl
      rw [h.head] at hbuf
      cases hbuf
    rw [fetchStep_stock (by rw [State.orderLoc_congr h.regs, hi]) h.intact hlen h.found hbuf]
    refine ⟨(State.modQueue_regs _).trans h.regs, (State.modQueue_stockBad _ b).trans h.intact, ?_, ?_, rfl⟩
    · rw [State.queue_modQueue_same hq]
      exact h.index
    · rw [State.queue_modQueue_same hq]
      exact (smFind_smPut_other _ _ hne).trans h.head

/-- The state in which a queue's buffer keeps only its window. -/
def State.trimmed (s : State) (c q : Nat) : State := s.modQueue c q (·.trim (s.queueLen c q))

/-- The indexes of a window, from its head on and then behind its head. -/
def windowFrom (h : Nat) : List Nat :=
  (List.range (windowLo h + 32 - h)).map (· + h) ++ (List.range (h - windowLo h)).map (· + windowLo h)

theorem State.fetchWindow_eq : s.fetchWindow c q
    = (windowFrom ((s.trimmed c q).queue c q).index).foldl (fetchStep c q (s.queueLen c q)) (s.trimmed c q, none) := rfl

theorem windowFrom_eq_cons (h : Nat) : ∃ l, windowFrom h = h :: l := by
  obtain ⟨n, hn⟩ : ∃ n, windowLo h + 32 - h = n + 1 := ⟨windowLo h + 31 - h, by unfold windowLo; omega⟩
  unfold windowFrom
  rw [hn, List.range_succ_eq_map, List.map_cons, List.cons_append, Nat.zero_add]
  exact ⟨_, rfl⟩

theorem State.trimmed_queue (hq : q < 4) : (s.trimmed c q).queue c q = (s.queue c q).trim (s.queueLen c q) :=
  State.queue_modQueue_same hq _

/-- The head order is fetched first. -/
theorem HeadFetched.first (hq : q < 4) (hloc : s.orderLoc c q (s.queue c q).index = .stock b off) (hbad : (s.core b).stockBad = [])
    (hlen : (s.queue c q).index < s.queueLen c q)
    (hbuf : smFind ((s.queue c q).trim (s.queueLen c q)).buf (s.queue c q).index = none) :
    HeadFetched s c q b (leNat (s.stockBytes b off 128)) (fetchStep c q (s.queueLen c q) (s.trimmed c q, none) (s.queue c q).index) := by
  have hregs : (s.trimmed c q).regs = s.regs := State.modQueue_regs _
  have hintact : ((s.trimmed c q).core b).stockBad = [] := (State.modQueue_stockBad _ b).trans hbad
  have hbytes : (s.trimmed c q).stockBytes b off 128 = s.stockBytes b off 128 := State.modQueue_stockBytes _ b off 128
  rw [fetchStep_stock (acc := (s.trimmed c q, none)) ((State.orderLoc_congr hregs _).trans hloc) hintact hlen rfl
    (by rw [State.trimmed_queue hq]; exact hbuf), hbytes]
  constructor
  case regs => exact (State.modQueue_regs _).trans hregs
  case intact => exact (State.modQueue_stockBad _ b).trans hintact
  case index =>
    rw [State.queue_modQueue_same hq, State.trimmed_queue hq]
    rfl
  case head =>
    rw [State.queue_modQueue_same hq]
    exact smFind_smPut_same ..
  case found => rfl

/-- A window whose queue lies in an intact stockroom is fetched whole, the head order first (R129, R152). -/
theorem State.fetchWindow_stock (hq : q < 4) (hloc : s.orderLoc c q (s.queue c q).index = .stock b off) (hbad : (s.core b).stockBad = [])
    (hlen : (s.queue c q).index < s.queueLen c q)
    (hbuf : smFind ((s.queue c q).trim (s.queueLen c q)).buf (s.queue c q).index = none) :
    HeadFetched s c q b (leNat (s.stockBytes b off 128)) (s.fetchWindow c q) := by
  have hindex : ((s.trimmed c q).queue c q).index = (s.queue c q).index := by
    rw [State.trimmed_queue hq]
    rfl
  obtain ⟨l, hl⟩ := windowFrom_eq_cons (s.queue c q).index
  rw [State.fetchWindow_eq, hindex, hl, List.foldl_cons]
  exact List.foldlRecOn _ _ (HeadFetched.first hq hloc hbad hlen hbuf) fun acc hacc i _ => hacc.step hq hloc i

theorem HeadFetched.headOrd {raw : Nat} {acc : State × Option Nat} (h : HeadFetched s c q b raw acc) : acc.1.headOrd c q = some raw := by
  unfold State.headOrd
  rw [h.index]
  exact h.head

theorem State.headOrd_congr (h : w.cores = s.cores) : w.headOrd c q = s.headOrd c q := by
  unfold State.headOrd State.queue
  rw [State.core_congr h]

theorem orderRefetch_fetches (hq : q < 4) (hloc : s.orderLoc c q (s.queue c q).index = .stock b off) (hbad : (s.core b).stockBad = [])
    (hlen : (s.queue c q).index < s.queueLen c q)
    (hbuf : smFind ((s.queue c q).trim (s.queueLen c q)).buf (s.queue c q).index = none) (hstop : (s.queue c q).stopped = false) :
    ∃ t, exec (.orderRefetch c q) s = .next t ∧ t.headOrd c q = some (leNat (s.stockBytes b off 128)) := by
  have hfetched := State.fetchWindow_stock hq hloc hbad hlen hbuf
  have hready : s.locReady (s.orderLoc c q (s.queue c q).index) 128 = true := by rw [hloc]; rfl
  have hexec : exec (.orderRefetch c q) s = .next (reachOrder.take s (s.fetchWindow c q).1) := by
    show execOrderRefetch c q s = _
    unfold execOrderRefetch
    simp [hstop, hready, hfetched.found, not_le.2 hq, not_le.2 hlen]
  exact ⟨_, hexec, (State.headOrd_congr (Reach.take_cores ..)).trans hfetched.headOrd⟩

/-- The state in which a buffer's entries are discarded. -/
def State.parityErr (s : State) (c q : Nat) : State := (s.modQueue c q (fun x => { x with buf := [] })).setErr pgClerk c 0

theorem State.parityErr_reg {o : Nat} (ho : hErr ≠ o) : (s.parityErr c q).reg pgClerk c 0 o = s.reg pgClerk c 0 o :=
  State.reg_setReg_other _ _ (regKey_off ho.symm)

theorem State.parityErr_core (d : Nat) : (s.parityErr c q).core d = (s.modQueue c q (fun x => { x with buf := [] })).core d :=
  State.core_congr (s.modQueue c q _ |>.setErr_cores ..) d

theorem clerkBufferParity_refetches (hq : q < 4) (hloc : s.orderLoc c q (s.queue c q).index = .stock b off)
    (hbad : (s.core b).stockBad = []) (hlen : (s.queue c q).index < s.queueLen c q) :
    ∃ t, exec (.clerkBufferParity c q) s = .next t ∧ t.headOrd c q = some (leNat (s.stockBytes b off 128))
      ∧ bit (t.reg pgClerk c 0 hErr).toNat 0 = true := by
  have hqueue : (s.parityErr c q).queue c q = { s.queue c q with buf := [] } := by
    rw [State.queue, State.parityErr_core]
    exact State.queue_modQueue_same hq _
  have hloc' : (s.parityErr c q).orderLoc c q ((s.parityErr c q).queue c q).index = .stock b off := by
    rw [hqueue]
    unfold State.orderLoc at hloc ⊢
    rw [State.parityErr_reg (by unfold hErr rClerkQBase; omega), hloc]
  have hlen' : (s.parityErr c q).queueLen c q = s.queueLen c q := by
    unfold State.queueLen State.fld
    rw [State.parityErr_reg (by unfold hErr rClerkQSpan; omega)]
  have hbytes : (s.parityErr c q).stockBytes b off 128 = s.stockBytes b off 128 := by
    rw [State.stockBytes, State.parityErr_core]
    exact State.modQueue_stockBytes _ b off 128
  have hfetched := State.fetchWindow_stock hq hloc' (by rw [State.parityErr_core, State.modQueue_stockBad, hbad]) (by rw [hqueue, hlen']; exact hlen)
    (by rw [hqueue]; rfl)
  have hready : (s.parityErr c q).locReady ((s.parityErr c q).orderLoc c q ((s.parityErr c q).queue c q).index) 128 = true := by
    rw [hloc']; rfl
  have hexec : exec (.clerkBufferParity c q) s = .next (reachOrder.take s ((s.parityErr c q).fetchWindow c q).1) := by
    show execClerkBufferParity c q s = _
    unfold execClerkBufferParity
    have hpresent : ¬ ((s.parityErr c q).queue c q).index ≥ (s.parityErr c q).queueLen c q := by
      rw [hqueue, hlen']
      exact not_le.2 hlen
    unfold State.parityErr at hpresent hready hfetched ⊢
    simp [hready, hfetched.found, not_le.2 hq, hpresent]
  refine ⟨_, hexec, ?_, ?_⟩
  · rw [State.headOrd_congr (Reach.take_cores ..), hfetched.headOrd, hbytes]
  · have herr : (s.parityErr c q).fld pgClerk c 0 hErr 0 0 = 1 := State.fld_setFld_same _ _ _ _ _ _ (by decide) (by decide)
    rw [State.reg_congr (Reach.take_regs ..), State.reg_congr hfetched.regs]
    unfold State.fld bits at herr
    unfold bit
    rw [Nat.testBit_eq_decide_div_mod_eq]
    simpa [Nat.shiftRight_eq_div_pow] using herr

end Sys2Proof.Machine

namespace Sys2Proof.Proofs

open Sys2Proof Sys2Proof.Machine Sys2Proof.Safety Sys2Proof.Claims

/-- Settles O6: WAIT and FENCE turn on `State.waitMet_iff` and `State.mem_fenceSet`, TREADLE on `treadle_fixes`, and a fetch puts its
window's head first (`State.fetchWindow_stock`). -/
theorem waitsFencesTreadlesAndRests : Obligations.WaitsFencesTreadlesAndRests := by
  unfold Obligations.WaitsFencesTreadlesAndRests
  refine ⟨fun s c st hpick => ⟨fun hop h1 h2 h3 => ?_, fun hop h => ?_, fun hop h => ?_, fun hop h => ?_⟩,
    ⟨fun s c st => treadle_fixes, fun s c f => treadleDurationEnd_frees⟩, fun s c => restEnd_counts,
    fun s c q b off hq hloc hbad hlen => ⟨orderRefetch_fetches hq hloc hbad hlen, clerkBufferParity_refetches hq hloc hbad hlen⟩⟩
  · rw [exec_wait_next hpick hop, if_pos ((State.waitMet_iff hpick).2 ⟨h1, h2, h3⟩)]
    have hbegun := BegunAtStart.start hpick 0
    exact ⟨_, rfl, hbegun.retires, hbegun.complete_units (State.startOrder_units s c _)⟩
  · rw [exec_wait_next hpick hop, if_neg (mt (State.waitMet_iff hpick).1 h)]
    exact ⟨_, rfl, State.startOrder_noted hpick _⟩
  · rw [exec_fence_next hpick hop, if_pos (State.fenceSet_isEmpty h)]
    have hbegun := BegunAtStart.start hpick 0
    exact ⟨_, rfl, hbegun.retires, hbegun.complete_units (State.startOrder_units s c _)⟩
  · rw [exec_fence_next hpick hop, if_neg (by simp [State.fenceSet_not_isEmpty h])]
    exact ⟨_, rfl, State.startOrder_noted hpick _⟩

end Sys2Proof.Proofs
end

section
/-! PROOFS. Barriers (R156, R369, R370): a first join of a partition's barrier, releases and joins of a guild's. O19 is settled at the end. -/

namespace Sys2Proof.Machine

open Sys2Proof.Safety Sys2Proof.Claims

variable {s w : State} {c p : Nat} {st : Start} {m : FMsg}

/-! #### Barriers of a partition (R156) -/

theorem State.coreActive_congr (h : w.boot = s.boot) (d : Nat) : w.coreActive d = s.coreActive d := by
  unfold State.coreActive State.site
  rw [h]

/-- A barrier to which every active core has come is released (R156). -/
theorem State.barJoined_whole {id : Nat} {j : Nat × Nat × List (Nat × Nat)}
    (hfind : (s.part p).joins.find? (fun j => j.1 = 0 && j.2.1 = id) = some j)
    (hall : ((s.part p).cores.filter (fun d => s.coreActive d)).all (fun d => j.2.2.any (fun x => x.1 = d)) = true) :
    s.barJoined p 0 id = (s.modPart p (fun x => { x with joins := x.joins.filter (fun y => !(decide (y.1 = 0) && y.2.1 = id)) })).barDone
      (if s.fab.isMember then s.fab.epoch else 0) j.2.2 := by
  unfold State.barJoined
  dsimp only
  rw [hfind]
  simp only [hall]
  rfl

/-- A barrier to which an active core has yet to come stays. -/
theorem State.barJoined_short {id : Nat} {j : Nat × Nat × List (Nat × Nat)}
    (hfind : (s.part p).joins.find? (fun j => j.1 = 0 && j.2.1 = id) = some j)
    (hall : ((s.part p).cores.filter (fun d => s.coreActive d)).all (fun d => j.2.2.any (fun x => x.1 = d)) = false) :
    s.barJoined p 0 id = s := by
  unfold State.barJoined
  dsimp only
  rw [hfind]
  simp only [hall]
  rfl

/-- The first join of a partition's barrier. -/
def firstJoin (c : Nat) (st : Start) (id : Nat) : Nat × Nat × List (Nat × Nat) := (0, ordF st.ord 4 13 8, [(c, id)])

/-- A BARRIER order begins and is recorded as its barrier's first join. -/
def State.joinBegun (s : State) (c p : Nat) (st : Start) : State :=
  (s.startOrder c { st with clamps := st.clamps + b2n (ordF st.ord 4 1 0 = 3) }).1.modPart p
    (fun x => { x with joins := x.joins ++ [firstJoin c st (s.core c).freshId] })

theorem State.joinBegun_kept : Kept { regs := true, cores := true, parts := true } s (s.joinBegun c p st) :=
  ((State.startOrder_kept s c _).1.mono rfl).modPart rfl ..

theorem State.joinBegun_cores : (s.joinBegun c p st).cores
    = (s.startOrder c { st with clamps := st.clamps + b2n (ordF st.ord 4 1 0 = 3) }).1.cores := rfl

theorem State.joinBegun_part : (s.joinBegun c p st).part p
    = { s.part p with joins := (s.part p).joins ++ [firstJoin c st (s.core c).freshId] } := by
  unfold State.joinBegun
  rw [State.part_modPart_same]
  unfold State.part
  rw [(State.startOrder_kept s c _).1.parts rfl]

theorem State.joinBegun_parts : PartsKept s (s.joinBegun c p st) [p] := fun d hd => by
  unfold State.joinBegun
  rw [State.part_modPart_other _ _ (by simpa using hd)]
  unfold State.part
  rw [(State.startOrder_kept s c _).1.parts rfl]

theorem State.joinBegun_coresKept : CoresKept s (s.joinBegun c p st) [c] :=
  (State.startOrder_coresKept c _).trans (CoresKept.of_cores_eq rfl)

theorem State.joinBegun_flight : ((s.joinBegun c p st).core c).flight (s.core c).freshId
    = some (Start.flight { st with clamps := st.clamps + b2n (ordF st.ord 4 1 0 = 3) } (s.core c).freshId) := by
  rw [State.core_congr State.joinBegun_cores, State.startOrder_core]
  exact Core.started_flight ..

/-- No order has joined the barrier that an order names. -/
def NoJoin (s : State) (p : Nat) (o : Nat) : Prop := ∀ j ∈ (s.part p).joins, ¬ (j.1 = 0 ∧ j.2.1 = ordF o 4 13 8)

theorem exec_barrierJoin_first (hpick : s.pick c = some st) (hop : st.op = 0x61) (hp : s.partOfCore c = some p)
    (hscope : barScope st.ord = 0) (hfirst : NoJoin s p st.ord) : exec (.barrierJoin c) s
      = .next (reachOrder.take s ((s.joinBegun c p st).barJoined p 0 (ordF st.ord 4 13 8))) := by
  have hparts : (s.startOrder c { st with clamps := st.clamps + b2n (ordF st.ord 4 1 0 = 3) }).1.part p = s.part p := by
    unfold State.part
    rw [(State.startOrder_kept s c _).1.parts rfl]
  have hnone : (s.part p).joins.find? (fun j => j.1 = 0 && j.2.1 = ordF st.ord 4 13 8) = none :=
    List.find?_eq_none.2 fun j hj => by simpa using hfirst j hj
  have hkeep : (s.part p).joins.filter (fun y => !(decide (y.1 = 0) && y.2.1 = ordF st.ord 4 13 8)) = (s.part p).joins :=
    List.filter_eq_self.2 fun j hj => by simpa [imp_iff_not_or] using hfirst j hj
  show execBarrierJoin c s = _
  unfold execBarrierJoin
  rw [State.runOrder_pick hpick (by simpa using hop)]
  simp only [hscope, hp]
  have hjoin : State.joinBegun s c p st = (s.startOrder c { st with clamps := st.clamps + b2n (ordF st.ord 4 1 0 = 3) }).1.setPart p
      { s.part p with joins := (s.part p).joins ++ [firstJoin c st (s.core c).freshId] } := by
    unfold State.joinBegun State.modPart
    rw [hparts]
  rw [hjoin]
  unfold State.modPart
  rw [hparts]
  simp only [hnone, hkeep]
  rfl

theorem State.joinBegun_find (hfirst : NoJoin s p st.ord) :
    ((s.joinBegun c p st).part p).joins.find? (fun j => j.1 = 0 && j.2.1 = ordF st.ord 4 13 8)
      = some (firstJoin c st (s.core c).freshId) := by
  have hnone : (s.part p).joins.find? (fun j => j.1 = 0 && j.2.1 = ordF st.ord 4 13 8) = none :=
    List.find?_eq_none.2 fun j hj => by simpa using hfirst j hj
  rw [State.joinBegun_part, List.find?_append, hnone]
  simp [firstJoin]

theorem State.joinBegun_active : (((s.joinBegun c p st).part p).cores.filter (fun d => (s.joinBegun c p st).coreActive d))
    = (s.part p).cores.filter (fun d => s.coreActive d) := by
  rw [State.joinBegun_part]
  exact List.filter_congr fun d _ => State.coreActive_congr (State.joinBegun_kept.boot rfl) d

/-- The barrier that an order has joined ends. -/
def State.joinReleased (s : State) (c p : Nat) (st : Start) : State :=
  (s.joinBegun c p st).modPart p (fun x => { x with joins := x.joins.filter (fun y => !(decide (y.1 = 0) && y.2.1 = ordF st.ord 4 13 8)) })

theorem State.joinReleased_cores : (s.joinReleased c p st).cores = (s.joinBegun c p st).cores := rfl

/-- An order that alone has joined a barrier takes the epoch and is done. -/
theorem State.barDone_single {id epoch : Nat} {f : Flight} (h : (w.core c).flight id = some f) : w.barDone epoch [(c, id)]
    = (w.setSregIf (bit (ordW f.ord 4) 22) c (ordF f.ord 4 21 16) (BitVec.ofNat 64 epoch)).finish c id stOk := by
  unfold State.barDone
  simp only [List.foldl_cons, List.foldl_nil, h]
  rfl

/-- The epoch that a partition's barrier gives (R156). -/
def State.barEpoch (s : State) : Nat := if s.fab.isMember then s.fab.epoch else 0

/-- The state after a BARRIER of a partition without another active core. -/
def State.joinDone (s : State) (c p : Nat) (st : Start) : State :=
  ((s.joinReleased c p st).setSregIf (bit (ordW st.ord 4) 22) c (ordF st.ord 4 21 16) (BitVec.ofNat 64 s.barEpoch)).finish c
    (s.core c).freshId stOk

theorem State.joinReleased_joins (hfirst : NoJoin s p st.ord) : ((s.joinReleased c p st).part p).joins = (s.part p).joins := by
  have hkeep : (s.part p).joins.filter (fun y => !(decide (y.1 = 0) && y.2.1 = ordF st.ord 4 13 8)) = (s.part p).joins :=
    List.filter_eq_self.2 fun j hj => by simpa [imp_iff_not_or] using hfirst j hj
  unfold State.joinReleased
  rw [State.part_modPart_same, State.joinBegun_part]
  simp only [List.filter_append, hkeep]
  simp [firstJoin]

/-- Only the s-register and the flight of an order change after it has joined. -/
theorem State.joinDone_proj {α : Type} (π : Core → α) (hs : ∀ x l, π { x with sregs := l } = π x) (hf : ∀ x l, π { x with flights := l } = π x) :
    π ((s.joinDone c p st).core c) = π ((s.joinBegun c p st).core c) := by
  unfold State.joinDone State.finish State.modFlight
  rw [State.core_modCore_same, hf]
  unfold State.setSregIf State.setSreg
  split
  · rw [State.core_modCore_same, hs, State.core_congr State.joinReleased_cores]
  · rw [State.core_congr State.joinReleased_cores]

theorem State.joinBegun_whole (hfirst : NoJoin s p st.ord) (hsole : (s.part p).cores.filter (fun d => s.coreActive d) = [c]) :
    (s.joinBegun c p st).barJoined p 0 (ordF st.ord 4 13 8) = s.joinDone c p st := by
  rw [State.barJoined_whole (State.joinBegun_find hfirst) (by rw [State.joinBegun_active, hsole]; simp [firstJoin]),
    State.joinBegun_kept.fab rfl]
  show (s.joinReleased c p st).barDone s.barEpoch [(c, (s.core c).freshId)] = _
  rw [State.barDone_single (by rw [State.core_congr State.joinReleased_cores]; exact State.joinBegun_flight)]
  rfl

/-- A BARRIER of a partition's only active core is released at once (R156). -/
theorem barrierJoin_alone (hpick : s.pick c = some st) (hop : st.op = 0x61) (hp : s.partOfCore c = some p)
    (hscope : barScope st.ord = 0) (hfirst : NoJoin s p st.ord) (hsole : (s.part p).cores.filter (fun d => s.coreActive d) = [c]) :
    ∃ t, exec (.barrierJoin c) s = .next t ∧ DoneNow s t c 0
      ∧ (∀ r, t.sreg c r = if bit (ordW st.ord 4) 22 ∧ r % 64 = ordF st.ord 4 21 16 % 64
          then BitVec.ofNat 64 (if s.fab.isMember then s.fab.epoch else 0) else s.sreg c r)
      ∧ (t.core c).ctrs = (s.core c).ctrs ∧ (t.core c).stock = (s.core c).stock
      ∧ (t.part p).joins = (s.part p).joins ∧ CoresKept s t [c] ∧ PartsKept s t [p]
      ∧ Kept { regs := true, cores := true, parts := true } s t := by
  have hc : c ∈ [c] := List.mem_singleton_self c
  have hkept : Kept { regs := true, cores := true, parts := true } s (s.joinDone c p st) :=
    ((State.joinBegun_kept.modPart rfl _ _).setSregIf rfl _ _ _ _).finish rfl _ _ _
  have hcores : CoresKept s (s.joinDone c p st) [c] :=
    ((State.joinBegun_coresKept.trans (CoresKept.of_cores_eq State.joinReleased_cores)).setSregIf hc _ _ _).finish hc _ _
  have hflight : (((s.joinReleased c p st).setSregIf (bit (ordW st.ord 4) 22) c (ordF st.ord 4 21 16) (BitVec.ofNat 64 s.barEpoch)).core c).flight
      (s.core c).freshId = some (Start.flight { st with clamps := st.clamps + b2n (ordF st.ord 4 1 0 = 3) } (s.core c).freshId) := by
    rw [Core.flight, State.flights_setSregIf, State.core_congr State.joinReleased_cores]
    exact State.joinBegun_flight
  have hdone : DoneNow s (s.joinDone c p st) c 0 := ⟨_, State.flight_finish _ hflight _, rfl, rfl⟩
  have hparts : (s.joinDone c p st).parts = (s.joinReleased c p st).parts :=
    (((Kept.refl { cores := true } _).setSregIf rfl _ _ _ _).finish rfl _ _ _).parts rfl
  refine ⟨_, by rw [exec_barrierJoin_first hpick hop hp hscope hfirst, State.joinBegun_whole hfirst hsole, (hkept.mono rfl).take_eq],
    hdone, fun r => ?_, ?_, ?_, ?_, hcores, fun d hd => ?_, hkept⟩
  · unfold State.joinDone
    rw [State.sreg_finish, State.sreg_setSregIf, State.sreg_congr State.joinReleased_cores, State.sreg_congr State.joinBegun_cores,
      State.sreg_startOrder]
    simp only [Bool.and_eq_true, decide_eq_true_eq, eq_comm (a := r % 64)]
    rfl
  · rw [State.joinDone_proj Core.ctrs (fun _ _ => rfl) (fun _ _ => rfl), State.core_congr State.joinBegun_cores, State.startOrder_core]
    rfl
  · rw [State.joinDone_proj Core.stock (fun _ _ => rfl) (fun _ _ => rfl), State.core_congr State.joinBegun_cores, State.startOrder_core]
    rfl
  · rw [State.part_congr hparts]
    exact State.joinReleased_joins hfirst
  · rw [State.part_congr hparts]
    exact (State.part_modPart_other _ _ (by simpa using hd)).trans (State.joinBegun_parts d hd)

/-- A BARRIER of a partition with another active core is held (R156). -/
theorem barrierJoin_first (hpick : s.pick c = some st) (hop : st.op = 0x61) (hp : s.partOfCore c = some p)
    (hscope : barScope st.ord = 0) (hfirst : NoJoin s p st.ord) {d : Nat} (hd : d ∈ (s.part p).cores) (hne : d ≠ c)
    (hactive : s.coreActive d = true) :
    ∃ t, exec (.barrierJoin c) s = .next t ∧ HeldNow s t c
      ∧ (t.part p).joins = (s.part p).joins ++ [(0, ordF st.ord 4 13 8, [(c, (s.core c).freshId)])]
      ∧ (t.core c).sregs = (s.core c).sregs ∧ CoresKept s t [c] ∧ PartsKept s t [p]
      ∧ Kept { regs := true, cores := true, parts := true } s t := by
  have hshort : (((s.joinBegun c p st).part p).cores.filter (fun d => (s.joinBegun c p st).coreActive d)).all
      (fun d => (firstJoin c st (s.core c).freshId).2.2.any (fun x => x.1 = d)) = false := by
    rw [State.joinBegun_active, List.all_eq_false]
    exact ⟨d, List.mem_filter.2 ⟨hd, hactive⟩, by simpa [firstJoin] using hne.symm⟩
  refine ⟨_, by rw [exec_barrierJoin_first hpick hop hp hscope hfirst, State.barJoined_short (State.joinBegun_find hfirst) hshort,
      (State.joinBegun_kept.mono rfl).take_eq],
    ⟨_, State.joinBegun_flight, rfl⟩, congrArg Part.joins State.joinBegun_part, ?_, State.joinBegun_coresKept, State.joinBegun_parts,
    State.joinBegun_kept⟩
  rw [State.core_congr State.joinBegun_cores, State.startOrder_core]
  rfl

/-! #### Barriers of a guild (R369, R370) -/

/-- The state in which a message has shown its snap tag. -/
def State.heard (s : State) (m : FMsg) : State :=
  { s with fab := { s.fab with seenTags := smSet false s.fab.seenTags (m.srcGuild * 64 + m.srcDev) m.snap } }

theorem State.forMe_accepts (h : Accepts s m) (f : State → State) : s.forMe m f = f (s.heard m) := by
  obtain ⟨hguild, hdev, hmember, hsrc, hother, hlisted, hsnap⟩ := h
  have hcut : s.cutSeen m = s.heard m := by
    have hsame : (m.snap != s.fab.snapTag) = false := by simp [hsnap]
    unfold State.cutSeen
    simp only [hsame, Bool.false_and]
    rfl
  have hmine : s.isMine m = true := by simp [State.isMine, hguild, hdev]
  unfold State.forMe
  simp [hmine, hmember, Option.isSome_iff_ne_none.1 hlisted, hcut]

theorem State.toMaster_own (h : m.srcGuild = s.fab.guild) (f : State → State) : s.toMaster m f = f s := by
  unfold State.toMaster
  simp [h]

theorem State.heard_kept : Kept { fab := true } s (s.heard m) := by
  constructor <;> simp [State.heard]

/-- The epoch that a guild's barrier message carries. -/
theorem leNat_lt (bs : List Byte) : leNat bs < 256 ^ bs.length := by
  induction bs with
  | nil => decide
  | cons b r ih =>
    have hb := b.isLt
    rw [List.length_cons, Nat.pow_succ]
    show b.toNat + 256 * leNat r < _
    omega

/-- Message m waits until its collective opens. -/
def State.putEarly (s : State) (m : FMsg) : State := { s with fab := { s.fab with early := s.fab.early ++ [m] } }

theorem coll_early (h : Accepts s m) (hnew : ∀ r ∈ s.fab.colls, r.scope = 1 → r.id ≠ bits m.info 5 0) :
    ∃ t, exec (.coll m) s = .next t ∧ t.fab.early = s.fab.early ++ [m] ∧ t.fab.colls = s.fab.colls ∧ Kept { fab := true } s t := by
  have hnone : (s.heard m).fab.colls.find? (fun (x : CollSt) => decide (x.scope = 1) && x.id = bits m.info 5 0) = none :=
    List.find?_eq_none.2 fun r hr => by simpa using hnew r hr
  have hkept : Kept { fab := true } s ((s.heard m).putEarly m) := by constructor <;> simp [State.heard, State.putEarly]
  have hexec : exec (.coll m) s = .next ((s.heard m).putEarly m) := by
    show execColl m s = _
    unfold execColl
    rw [State.forMe_accepts h, ← (hkept.mono (g := reachLink) rfl).take_eq]
    simp only [hnone]
    rfl
  exact ⟨_, hexec, rfl, rfl, hkept⟩

/-- A guild's barrier ends with its epoch. -/
def State.barEnded (s : State) (id epoch : Nat) : State := { s with fab := { s.fab with
  epoch := epoch % 18446744073709551616
  bars := s.fab.bars.filter (fun x => !(decide (x.id = id) && decide (x.scope = 1))) } }

/-- A release for which no order waits, and which no member below hears, ends its barrier alone. -/
theorem State.barRelease_leaf {id epoch : Nat} (hleaf : s.barChildren = []) (hnobody : (s.bar id 1).waiting = []) :
    s.barRelease id 1 epoch = s.barEnded id epoch := by
  unfold State.barRelease
  simp only [hleaf, hnobody]
  rfl

theorem barRelease_ends (h : Accepts s m) (hscope : bits m.info 7 6 = 1) (hleaf : s.barChildren = [])
    (hnobody : ∀ b ∈ s.fab.bars, b.id = bits m.info 5 0 → b.scope = 1 → b.waiting = []) :
    ∃ t, exec (.barRelease m) s = .next t ∧ t.fab.epoch = leNat (m.data.take 8)
      ∧ t.fab.bars = s.fab.bars.filter (fun x => !(decide (x.id = bits m.info 5 0) && decide (x.scope = 1)))
      ∧ Kept { fab := true } s t := by
  have hepoch : leNat (m.data.take 8) % 18446744073709551616 = leNat (m.data.take 8) :=
    Nat.mod_eq_of_lt ((leNat_lt _).trans_le (Nat.pow_le_pow_right (by decide) (List.length_take_le ..)))
  have hwaiting : ((s.heard m).bar (bits m.info 5 0) 1).waiting = [] := by
    unfold State.bar
    cases hfind : (s.heard m).fab.bars.find? (fun x => x.id = bits m.info 5 0 && x.scope = 1) with
    | none => rfl
    | some b =>
      have hb := List.find?_some hfind
      simp only [Bool.and_eq_true, decide_eq_true_eq] at hb
      exact hnobody b (List.mem_of_find?_eq_some hfind) hb.1 hb.2
  have hkept : Kept { fab := true } s ((s.heard m).barEnded (bits m.info 5 0) (leNat (m.data.take 8))) := by
    constructor <;> simp [State.heard, State.barEnded]
  obtain ⟨-, -, -, hsrc, -⟩ := id h
  replace hsrc : m.srcGuild = (s.heard m).fab.guild := hsrc
  have hexec : exec (.barRelease m) s = .next ((s.heard m).barEnded (bits m.info 5 0) (leNat (m.data.take 8))) := by
    show execBarRelease m s = _
    unfold execBarRelease
    rw [State.forMe_accepts h, State.toMaster_own hsrc, hscope, State.barRelease_leaf (s := s.heard m) hleaf hwaiting, (hkept.mono rfl).take_eq]
  exact ⟨_, hexec, hepoch, rfl, hkept⟩

theorem State.bar_putBar_same (b : BarSt) : (s.putBar b).bar b.id b.scope = b := by
  have hnone : (s.fab.bars.filter (fun x => !(decide (x.id = b.id) && x.scope = b.scope))).find?
      (fun x => x.id = b.id && x.scope = b.scope) = none :=
    List.find?_eq_none.2 fun x hx => by simpa [imp_iff_not_or] using (List.mem_filter.1 hx).2
  unfold State.putBar State.bar
  rw [List.find?_append, hnone]
  simp

theorem State.bar_putBar_other (b : BarSt) {id scope : Nat} (h : (id, scope) ≠ (b.id, b.scope)) :
    (s.putBar b).bar id scope = s.bar id scope := by
  have hb : (decide (b.id = id) && decide (b.scope = scope)) = false := by
    rw [Bool.and_eq_false_iff, decide_eq_false_iff_not, decide_eq_false_iff_not, ← not_and_or]
    rintro ⟨rfl, rfl⟩
    exact h rfl
  have hkept : (s.fab.bars.filter (fun x => !(decide (x.id = b.id) && x.scope = b.scope))).find? (fun x => x.id = id && x.scope = scope)
      = s.fab.bars.find? (fun x => x.id = id && x.scope = scope) := by
    rw [List.find?_filter]
    congr 1
    funext x
    by_cases hx : x.id = id ∧ x.scope = scope
    · obtain ⟨rfl, rfl⟩ := hx
      simpa [Prod.ext_iff, imp_iff_not_or] using h
    · rcases not_and_or.1 hx with hx | hx <;> simp [hx]
  unfold State.putBar State.bar
  rw [List.find?_append, hkept]
  simp [hb]

theorem mem_insNat (l : List Nat) (x : Nat) : x ∈ insNat l x := by
  induction l with
  | nil => exact List.mem_singleton_self x
  | cons y r ih =>
    unfold insNat
    split
    · next h => exact h ▸ List.mem_cons_self ..
    · split
      · exact List.mem_cons_self ..
      · exact List.mem_cons_of_mem _ ih

theorem State.bar_names (id scope : Nat) : (s.bar id scope).id = id ∧ (s.bar id scope).scope = scope := by
  unfold State.bar
  cases hfind : s.fab.bars.find? (fun x => x.id = id && x.scope = scope) with
  | none => exact ⟨rfl, rfl⟩
  | some b => simpa using List.find?_some hfind

/-- What a BAR_JOIN adds to its barrier (R369, R370). -/
def BarSt.joinedBy (b : BarSt) (who top : Nat) : BarSt := { b with children := insNat b.children who, top := max b.top top }

/-- A device that has not itself joined keeps the joins from below. -/
theorem State.barGather_waits {id scope : Nat} (h : (s.bar id scope).self = false) : s.barGather id scope = s := by
  unfold State.barGather
  simp [h]

theorem barJoin_records (h : Accepts s m) (hself : (s.bar (bits m.info 5 0) (bits m.info 7 6)).self = false) :
    ∃ t, exec (.barJoin m) s = .next t ∧ m.srcDev ∈ (t.bar (bits m.info 5 0) (bits m.info 7 6)).children
      ∧ (∀ id scope, (id, scope) ≠ (bits m.info 5 0, bits m.info 7 6) → t.bar id scope = s.bar id scope)
      ∧ t.fab.epoch = s.fab.epoch ∧ Kept { fab := true } s t := by
  obtain ⟨hid, hscope⟩ := State.bar_names (s := s) (bits m.info 5 0) (bits m.info 7 6)
  have hbar : ((s.heard m).putBar ((s.bar (bits m.info 5 0) (bits m.info 7 6)).joinedBy m.srcDev (leNat (m.data.take 8)))).bar
      (bits m.info 5 0) (bits m.info 7 6) = (s.bar (bits m.info 5 0) (bits m.info 7 6)).joinedBy m.srcDev (leNat (m.data.take 8)) := by
    have hsame := State.bar_putBar_same (s := s.heard m) ((s.bar (bits m.info 5 0) (bits m.info 7 6)).joinedBy m.srcDev (leNat (m.data.take 8)))
    simpa only [BarSt.joinedBy, hid, hscope] using hsame
  have hkept : Kept { fab := true } s
      ((s.heard m).putBar ((s.bar (bits m.info 5 0) (bits m.info 7 6)).joinedBy m.srcDev (leNat (m.data.take 8)))) := by
    constructor <;> simp [State.heard, State.putBar]
  obtain ⟨-, -, -, hsrc, -⟩ := id h
  replace hsrc : m.srcGuild = (s.heard m).fab.guild := hsrc
  have hexec : exec (.barJoin m) s
      = .next ((s.heard m).putBar ((s.bar (bits m.info 5 0) (bits m.info 7 6)).joinedBy m.srcDev (leNat (m.data.take 8)))) := by
    show execBarJoin m s = _
    unfold execBarJoin
    rw [State.forMe_accepts h, State.toMaster_own hsrc, if_pos hsrc]
    exact congrArg _ ((congrArg _ (State.barGather_waits (hbar ▸ hself))).trans (hkept.mono rfl).take_eq)
  refine ⟨_, hexec, ?_, fun id scope hne => State.bar_putBar_other _ (by rw [BarSt.joinedBy, hid, hscope]; exact hne), rfl, hkept⟩
  rw [hbar]
  exact mem_insNat ..

end Sys2Proof.Machine

namespace Sys2Proof.Proofs

open Sys2Proof Sys2Proof.Machine Sys2Proof.Safety Sys2Proof.Claims

/-- Settles O19: a partition's barrier ends where its only active core has joined (`State.joinBegun_whole`), and the messages of a guild's
barriers and collectives change the fabric alone. -/
theorem barriersRelease : Obligations.BarriersRelease := by
  unfold Obligations.BarriersRelease
  exact ⟨fun s c p st hpick hop hp hscope hfirst => ⟨fun hsole => barrierJoin_alone hpick hop hp hscope hfirst hsole,
      fun d hd hne hactive => barrierJoin_first hpick hop hp hscope hfirst hd hne hactive⟩,
    fun s m => barRelease_ends, fun s m => barJoin_records, fun s m => coll_early⟩

end Sys2Proof.Proofs
end

section
/-! PROOFS. A clerk's missed heartbeat (R455, R458). O42 is refuted, beside what its last clause says where no guild takes part. -/

namespace Sys2Proof.Machine

open Sys2Proof.Safety Sys2Proof.Claims

variable {s w : State} {c p : Nat}

theorem foldl_kept {α : Type} {f : Reach} {step : State → α → State} (hstep : ∀ u x, Kept f u (step u x)) (l : List α) (w : State) :
    Kept f w (l.foldl step w) :=
  foldl_rel (R := Kept f) (Kept.refl f) Kept.trans hstep l w

theorem State.setStream_kept (n : Nat) (e : Stream) : Kept { roll := true } w (w.setStream n e) := by
  unfold State.setStream
  constructor <;> dsimp only <;> (split_ifs <;> simp)

theorem State.abandonStep_kept : Kept { regs := true, cores := true, parts := true, roll := true } s (s.abandonStep p) := by
  unfold State.abandonStep
  dsimp only
  split
  · exact Kept.refl ..
  · have hvoided := foldl_kept (step := fun s (e : StepEntry) => s.modStream e.stream (fun y => { y with lastTok := e.old }))
      (fun u e => State.setStream_kept (w := u) e.stream _) (s.part p).set s
    refine Kept.modPart ?_ rfl ..
    refine Kept.trans ?_ ((foldl_kept (f := { cores := true }) (fun u d => (Kept.refl _ u).modCore rfl d _) _ _).mono rfl)
    exact ((hvoided.mono rfl).bump rfl ..).setErr rfl ..

/-- The step of a partition that runs is abandoned. -/
theorem State.abandonStep_rolledBack (h : (s.part p).running = true) : ((s.abandonStep p).part p).rolledBack = true := by
  unfold State.abandonStep
  dsimp only
  split
  next hdone => simpa [h] using hdone
  next => rw [State.part_modPart_same]

theorem State.idleToMark_kept : Kept { cores := true } s (s.idleToMark p) := by
  unfold State.idleToMark
  dsimp only
  split
  · exact Kept.refl ..
  · have hmark (u : State) (d : Nat) : Kept { cores := true } u (u.toMark d) := by
      unfold State.toMark
      exact (Kept.refl _ u).modCore rfl _ _
    exact foldl_kept hmark _ _

/-- The core's partition has no step to roll back with its guild (R454). -/
def RollsAlone (s : State) (c : Nat) : Prop := ∀ p, s.partOfCore c = some p → (s.part p).st ≠ .resetting → s.spans p = false

/-- A rollback that no guild takes part in: its reach, and what it does to the core's partition (R458). -/
theorem State.rollBack_alone (halone : RollsAlone s c) :
    Kept { regs := true, cores := true, parts := true, roll := true, abs := true } s (s.rollBack c)
      ∧ (s.rollBack c).abs.castWait = s.abs.castWait ∧ RolledBack s (s.rollBack c) c := by
  unfold State.rollBack
  cases hp : s.partOfCore c with
  | none =>
    refine ⟨Kept.refl .., rfl, fun p h => ?_⟩
    rw [hp] at h
    cases h
  | some p =>
    by_cases hst : (s.part p).st = .resetting
    · simp only [hst, if_true]
      refine ⟨Kept.refl .., trivial, fun q h _ hne => ?_⟩
      rw [hp] at h
      cases h
      exact absurd hst hne
    · have hspans := halone p hp hst
      have hkept : Kept { regs := true, cores := true, parts := true, roll := true } s ((s.abandonStep p).idleToMark p) :=
        State.abandonStep_kept.trans (State.idleToMark_kept.mono rfl)
      simp only [hst, hspans, if_false, Bool.false_eq_true]
      have hcasts : ((s.abandonStep p).idleToMark p).abs.castWait = s.abs.castWait := by rw [hkept.abs rfl]
      refine ⟨(hkept.mono rfl).setAbs rfl _, hcasts, fun q h _ _ => ?_⟩
      rw [hp] at h
      cases h
      refine ⟨mem_insNat .., fun hrunning => ?_⟩
      show (((s.abandonStep p).idleToMark p).part p).rolledBack = true
      rw [State.part_congr (State.idleToMark_kept.parts rfl)]
      exact State.abandonStep_rolledBack hrunning

/-- A missed heartbeat's trigger waits last (R455). -/
def State.triggered (s : State) (c : Nat) : State :=
  { s with abs := { s.abs with castWait := s.abs.castWait ++ [⟨c, 1, true, false⟩] } }

/-- A missed heartbeat asks for an abrupt castling and rolls the core's partition back; nothing else waits for it where no guild takes
part (R454, R455, R458). -/
theorem clerkHeartbeatMiss_rollsBack (hactive : s.coreActive c = true) (hdest : (s.castDest ⟨c, 1, true, false⟩).1 ≠ 3)
    (hwait : s.abs.castWait.any (fun q => q.logical = c && q.vault = false) = false) (halone : RollsAlone s c) :
    ∃ t, exec (.clerkHeartbeatMiss c) s = .next t ∧ t.abs.castWait = s.abs.castWait ++ [⟨c, 1, true, false⟩] ∧ RolledBack s t c := by
  have htrigger : s.castTrigger ⟨c, 1, true, false⟩ = s.triggered c := by
    unfold State.castTrigger
    rw [if_neg (by rw [hwait]; exact Bool.false_ne_true)]
    rfl
  obtain ⟨hkept, hcasts, hrolled⟩ := State.rollBack_alone (s := s.triggered c) (c := c) halone
  have hboot : ((s.triggered c).rollBack c).boot = s.boot := hkept.boot rfl
  have hdest' : ((s.triggered c).rollBack c).castDest ⟨c, 1, true, false⟩ = s.castDest ⟨c, 1, true, false⟩ := by
    unfold State.castDest State.nearestSite State.site
    rw [hboot]
    rfl
  have habrupt : s.abruptTrigger c 1 = (s.triggered c).rollBack c := by
    unfold State.abruptTrigger
    simp only [htrigger, hdest', decide_eq_false hdest, Bool.and_false, Bool.false_eq_true, if_false]
  have hwhole : Kept { regs := true, cores := true, parts := true, roll := true, abs := true } s (s.abruptTrigger c 1) := by
    rw [habrupt]
    exact ((Kept.refl _ s).setAbs rfl _).trans hkept
  refine ⟨(s.triggered c).rollBack c, ?_, hcasts, hrolled⟩
  show execClerkHeartbeatMiss c s = _
  unfold execClerkHeartbeatMiss
  rw [if_pos hactive, (hwhole.mono rfl).take_eq, habrupt]

end Sys2Proof.Machine

namespace Sys2Proof.Proofs

open Sys2Proof Sys2Proof.Machine Sys2Proof.Safety Sys2Proof.Claims

/-- The orders of core 0: one, a BARRIER at GUILD scope. -/
def barrierRegion : Region := ⟨1, 0, 0, false, 1, 0, 0, 0, 128, 0, [], []⟩

/-- Core 0 of a spanning partition, with a spare site beside its own. A snapshot has yet to copy granule 0 of its vault, whose line 0 is
lost, where three lines have been lost within the hour; a ledger entry of the partition names the granule's page. -/
def spanning : State := {
  cores := [(0, { stock := [(0, 0x61), (16, 1)] })]
  parts := [(0, { st := .serving, cores := [0], patterns := [⟨0, false, false, 0, [], [barrierRegion], []⟩] })]
  vaults := [(0, { role := .logical, valid := [0], arr := [(0, 0xFF), (1, 0xFF), (2, 0xFF), (3, 0xFF), (4, 0xFF)]
                   wq := (List.range 63).map (fun i => (i + 1, [])) })]
  ledgA := [(0, { st := .near })]
  snap := some ⟨0, 0, 0, [0], [], 0, []⟩
  boot := { coreSite := [(0, 0)], sites := [(0, { core := 0 }), (1, { core := 2 })] }
  abs := { ueTimes := [(0, [0, 0, 0])] } }

theorem spanning_castWait : (reachLink.take spanning (spanning.abruptTrigger 0 1)).abs.castWait
    = [⟨0, 1, true, false⟩, ⟨0, 7, false, true⟩] := by decide +kernel

/-- Refutes O42: its last clause lets the heartbeat's trigger alone join those that wait, but a spanning partition is reset (R454), and
the reset may find more. In `spanning` the page that it frees goes into the snapshot first (R373); its line 0 is the fourth that the
vault has lost within the hour, so a castling of the vault is asked for as well (R455). -/
theorem not_castlingMovesACore : ¬ Obligations.CastlingMovesACore := by
  unfold Obligations.CastlingMovesACore
  rintro ⟨-, -, -, hclerk⟩
  have hactive : spanning.coreActive 0 = true := by decide
  obtain ⟨t, hexec, hwait, -⟩ := (hclerk spanning 0).2 hactive (by decide +kernel) (by decide)
  have hstep : exec (.clerkHeartbeatMiss 0) spanning = .next (reachLink.take spanning (spanning.abruptTrigger 0 1)) := by
    show execClerkHeartbeatMiss 0 spanning = _
    unfold execClerkHeartbeatMiss
    rw [if_pos hactive]
  have ht : reachLink.take spanning (spanning.abruptTrigger 0 1) = t := Host.Outcome.next.inj (hstep.symm.trans hexec)
  rw [← ht, spanning_castWait] at hwait
  exact absurd hwait (by decide)

end Sys2Proof.Proofs
end

section
/-! PROOFS. The end of a step (R278). O51 is refuted. -/

namespace Sys2Proof.Proofs

open Sys2Proof Sys2Proof.Machine Sys2Proof.Safety Sys2Proof.Claims

/-- The first 64 rows of stream 0, all prefill. -/
def prefillEntry : StepEntry := {
  stream := 0, rows := 64, pos := 0, firstRow := 0, gambits := 0, kind := 1, tokens := [], voided := false, uncounted := false
  replayed := false, old := 0, oldStep := 0, gtoks := [] }

/-- The nodes of the opening book that a block of 64 zero tokens may take. -/
def zeroBlockSpots : List Nat := bookSpots ((bookHashes 0 (List.replicate 64 0) 1).getD 0 (0, 0)).1

/-- Partition 0 at the end of a step that caches its stream's prompt, whose block is to go into the opening book (Word 12 [17]). Its core
has number 65536, and its nodes are all live. The admin ring, off, holds one record: a RESET_PARTITION of partition 0. -/
def promptCached : State := {
  regs := [(regKey pgBook 512 0 rBookCfg, 0x80000000), (regKey pgFore 0 0 rForeAdmCfg, 0x7FFFFFFF)]
  parts := [(0, { st := .serving, cores := [65536], steps := 1, running := true, set := [prefillEntry] })]
  rollA := [(0, { st := .prefill, nPrompt := 64, maxNew := 1, hist := 4096, opts := 131072, inStep := true })]
  book := zeroBlockSpots.map (fun x => (x, { live := true }))
  host := { width := 16, mem := [(0, 0x07)] }
  admTail := 1
  sec := { pf1 := { opened := true } } }

theorem promptCached_steps : ((reachAdmin.take promptCached ((promptCached.bellsGo.stepFinish 0).1.admPump)).part 0).steps = 0 := by
  decide +kernel

/-- Refutes O51: its clause on a step's end has the step count rise by 1, but bounds no core number, and registers are told apart only for
pages numbered below 512 (`regKey_inj`). In `promptCached` the partition's core has number 65536, so the book of its half has page
512, whose registers fall on the foreman's. The eviction that the finished prompt's block counts there (BOOK_EVICTS, at the
offset of FORE_ADM_CFG) turns the admin ring on, and the RESET_PARTITION at its head is taken in the same command: the step count is 0.
No core of the device has that number (R6); with such numbers shut out this counterexample does not arise. -/
theorem not_stepsStartAndEnd : ¬ Obligations.StepsStartAndEnd := by
  unfold Obligations.StepsStartAndEnd
  rintro ⟨-, -, hend, -⟩
  have hover : StepOver promptCached 0 := by unfold StepOver; decide
  have hring : RingOff promptCached 0 := by unfold RingOff; decide
  have hadmin : AdminOff promptCached := by unfold AdminOff; decide
  have hmirror : NotMirrored promptCached 0 := by unfold NotMirrored; decide
  obtain ⟨t, hexec, -, -, hsteps, -⟩ := hend promptCached 0 prefillEntry rfl hover (by decide) (by decide) hring hadmin hmirror rfl
    (by decide) (.inl (by decide))
  have hstep : exec (.stepEnd 0) promptCached = .next (reachAdmin.take promptCached ((promptCached.bellsGo.stepFinish 0).1.admPump)) := by
    show execStepEnd 0 promptCached = _
    unfold execStepEnd
    rfl
  have ht := Host.Outcome.next.inj (hstep.symm.trans hexec)
  rw [← ht, promptCached_steps] at hsteps
  exact absurd hsteps (by decide)

end Sys2Proof.Proofs
end

section
/-! PROOFS. What the memory's and the ledger's operations, and the parts of a partition's reset (R266), leave of the admin queue, of the
partitions and of the cores' progress. -/

namespace Sys2Proof.Safety

open Sys2Proof.Machine

variable {s t u : State} {cs : List Nat}

/-! #### What the memory's and the ledger's operations leave of the admin queue -/

/-- The registers from which a completion takes its place (R258). -/
def admKeys : List Nat := [regKey pgFore 0 0 rForeAdmCfg, regKey pgFore 0 0 rForeAcqBase]

/-- The pages after the foreman's hold none of them. -/
theorem admKeys_of_later {code : Nat} (h : pgFore < code) (inst bank off : Nat) : regKey code (regInst code inst) bank off ∉ admKeys := by
  unfold admKeys regKey pgFore rForeAdmCfg rForeAcqBase at *
  simp only [List.mem_cons, List.not_mem_nil, or_false, not_or]
  omega

theorem admKeys_of_off {off : Nat} (h : off % 4096 ≠ 0x98 ∧ off % 4096 ≠ 0x90) (code inst bank : Nat) :
    regKey code inst bank off ∉ admKeys := by
  simp only [admKeys, List.mem_cons, List.not_mem_nil, or_false, not_or]
  exact ⟨regKey_ne_of_off h.1, regKey_ne_of_off h.2⟩

/-- The partitions, the admin commands that are open or wait, the next place of a completion, and the host link's width. -/
def Posture (s : State) : SMap Part × List (Nat × Nat × Nat) × List (Nat × List Nat) × Nat × Nat :=
  (s.parts, s.admOpen, s.admWait, s.acqTail, s.host.width)

/-- The orders that a core has started, its s-registers and its counters. -/
def Progress (x : Core) : List Flight × SMap DWord × SMap Word := (x.flights, x.sregs, x.ctrs)

/-- The partitions, the admin queue and the registers of its completions stand; so does the progress of the cores outside a list. -/
structure Calm (cs : List Nat) (s t : State) : Prop where
  posture : Posture t = Posture s
  regs : ∀ k ∈ admKeys, smFind t.regs k = smFind s.regs k
  units : ∀ c, c ∉ cs → Progress (t.core c) = Progress (s.core c)

namespace Calm

theorem refl (s : State) : Calm cs s s := ⟨rfl, fun _ _ => rfl, fun _ _ => rfl⟩

theorem of_eq (h : Calm cs s t) (hposture : Posture u = Posture t) (hregs : u.regs = t.regs) (hcores : u.cores = t.cores) : Calm cs s u :=
  ⟨hposture.trans h.posture, fun k hk => by rw [hregs, h.regs k hk], fun c hc => by rw [State.core_congr hcores, h.units c hc]⟩

theorem trans (h : Calm cs s t) (h' : Calm cs t u) : Calm cs s u :=
  ⟨h'.posture.trans h.posture, fun k hk => (h'.regs k hk).trans (h.regs k hk), fun c hc => (h'.units c hc).trans (h.units c hc)⟩

theorem parts (h : Calm cs s t) : t.parts = s.parts := congrArg Prod.fst h.posture

/-- Steps that are each calm are calm together. -/
theorem foldl {α : Type} (h : Calm cs s t) {step : State → α → State} (hstep : ∀ u x, Calm cs u (step u x)) (l : List α) :
    Calm cs s (l.foldl step t) :=
  h.trans (foldl_rel refl trans hstep l t)

theorem foldN (h : Calm cs s t) {step : Nat → State → State} (hstep : ∀ i u, Calm cs u (step i u)) (n : Nat) : Calm cs s (foldN n step t) :=
  h.foldl (fun u i => hstep i u) _

/-- The same for steps that carry a value along. -/
theorem foldl_fst {α β : Type} {step : State × β → α → State × β} (hstep : ∀ u b x, Calm cs u (step (u, b) x).1) (l : List α)
    (acc : State × β) (h : Calm cs s acc.1) : Calm cs s (l.foldl step acc).1 := by
  induction l generalizing acc with
  | nil => exact h
  | cons x r ih => exact ih _ (h.trans (hstep acc.1 acc.2 x))

theorem ite {c : Prop} [Decidable c] (ht : Calm cs s t) (hu : Calm cs s u) : Calm cs s (if c then t else u) := by
  split
  · exact ht
  · exact hu

/-- The state of an answer. -/
theorem fst {β : Type} {x : State × β} {b : β} (h : Calm cs s x.1) (hx : x = (u, b)) : Calm cs s u := by
  subst hx
  exact h

/-! The operations on registers, interrupts, the host and the log. -/

theorem setReg (h : Calm cs s t) {code inst bank off : Nat} (hk : regKey code (regInst code inst) bank off ∉ admKeys) (v : DWord) :
    Calm cs s (t.setReg code inst bank off v) :=
  ⟨h.posture, fun k hmem => (State.setReg_regs_other t v (ne_of_mem_of_not_mem hmem hk)).trans (h.regs k hmem), h.units⟩

/-- A write to a page that comes after the foreman's. -/
theorem setLater (h : Calm cs s t) {code : Nat} (hc : pgFore < code) (inst bank off : Nat) (v : DWord) :
    Calm cs s (t.setReg code inst bank off v) := h.setReg (admKeys_of_later hc _ _ _) v

theorem bump (h : Calm cs s t) {code inst bank off : Nat} (hk : regKey code (regInst code inst) bank off ∉ admKeys) (n : Nat) :
    Calm cs s (t.bump code inst bank off n) := h.setReg hk _

theorem bumpLater (h : Calm cs s t) {code : Nat} (hc : pgFore < code) (inst bank off n : Nat) : Calm cs s (t.bump code inst bank off n) :=
  h.setLater hc ..

theorem setErr (h : Calm cs s t) (code inst b : Nat) : Calm cs s (t.setErr code inst b) :=
  h.setReg (off := hErr) (admKeys_of_off (by decide) _ _ _) _

theorem setVault (h : Calm cs s t) (p : Nat) (x : Vault) : Calm cs s (t.setVault p x) := h.of_eq rfl rfl rfl

theorem modVault (h : Calm cs s t) (p : Nat) (g : Vault → Vault) : Calm cs s (t.modVault p g) := h.of_eq rfl rfl rfl

/-- An effect on a core of the list, or one that leaves what a core has started and counted. -/
theorem modCore (h : Calm cs s t) (c : Nat) {g : Core → Core} (hg : c ∈ cs ∨ ∀ x, Progress (g x) = Progress x) : Calm cs s (t.modCore c g) := by
  refine ⟨h.posture, h.regs, fun d hd => ?_⟩
  by_cases hdc : d = c
  · subst hdc
    rw [State.core_modCore_same]
    exact (hg.resolve_left hd _).trans (h.units d hd)
  · rw [State.core_modCore_other _ _ hdc]
    exact h.units d hd

theorem modFar (h : Calm cs s t) (p : Nat) (g : FarPort → FarPort) : Calm cs s (t.modFar p g) := h.of_eq rfl rfl rfl

theorem emit (h : Calm cs s t) (o : Out) : Calm cs s (t.emit o) := h.of_eq rfl rfl rfl

theorem freeUsed (h : Calm cs s t) : Calm cs s t.freeUsed := h.of_eq rfl rfl rfl

theorem raiseInt (h : Calm cs s t) (code inst : Nat) : Calm cs s (t.raiseInt code inst) := h.of_eq rfl rfl rfl

theorem setInt (h : Calm cs s t) (code inst m : Nat) : Calm cs s (t.setInt code inst m) :=
  have hset : Calm cs s ((t.setReg code inst 0 hIntSts (BitVec.ofNat 64 ((t.reg code inst 0 hIntSts).toNat ||| m))).setReg code inst 0 hIntEn
      (BitVec.ofNat 64 (t.reg code inst 0 hIntEn).toNat)) :=
    (h.setReg (off := hIntSts) (admKeys_of_off (by decide) _ _ _) _).setReg (off := hIntEn) (admKeys_of_off (by decide) _ _ _) _
  ite hset (hset.raiseInt ..)

theorem hostWrite (h : Calm cs s t) (a : Nat) (bs : List Byte) : Calm cs s (t.hostWrite a bs) :=
  ite ((h.of_eq (u := { t with host := { t.host with mem := memSetBytes t.host.mem a bs } }) rfl rfl rfl).bumpLater (by decide) ..)
    (h.bumpLater (by decide) ..)

theorem log (h : Calm cs s t) (ev : Nat) (i : LogInfo) : Calm cs s (t.log ev i) := by
  unfold State.log
  extract_lets n en tail phase e _ logged head used a written _ moved
  have hlogged : Calm cs s logged := h.of_eq rfl rfl rfl
  have hmoved : Calm cs s moved := (hlogged.hostWrite ..).of_eq rfl rfl rfl
  have hlost : Calm cs s (logged.bump pgStw 0 0 rStwElogLost 1) := hlogged.bump (by decide) _
  exact ite (ite hlost (hmoved.emit _)) hlost

theorem castTrigger (h : Calm cs s t) (r : CastReq) : Calm cs s (t.castTrigger r) := ite (h.of_eq rfl rfl rfl) (h.of_eq rfl rfl rfl)

theorem setLedg (h : Calm cs s t) (i : Nat) (e : LEntry) : Calm cs s (t.setLedg i e) := by
  unfold State.setLedg
  extract_lets e' s1
  have hfirst : Calm cs s s1 := ite h (h.of_eq rfl rfl rfl)
  exact ite hfirst (hfirst.of_eq rfl rfl rfl)

theorem setStream (h : Calm cs s t) (n : Nat) (e : Stream) : Calm cs s (t.setStream n e) := by
  unfold State.setStream
  extract_lets e' s1
  have hfirst : Calm cs s s1 := ite h (h.of_eq rfl rfl rfl)
  exact ite hfirst (hfirst.of_eq rfl rfl rfl)

/-! What errors of a line do. -/

theorem kvLost (h : Calm cs s t) (p l : Nat) : Calm cs s (t.kvLost p l) := h.foldl (fun u _ => (refl u).setLedg ..) _

theorem bucketAdd (h : Calm cs s t) (p n : Nat) : Calm cs s (t.bucketAdd p n) :=
  h.foldN (fun _ u => ite ((((((refl u).setErr ..).setInt ..).log ..).bumpLater (by decide) ..).modVault ..) ((refl u).modVault ..)) n

theorem suspectAdd (h : Calm cs s t) (p seg : Nat) : Calm cs s (t.suspectAdd p seg) := ite (h.setVault ..) (h.setVault ..)

theorem lineCorrected (h : Calm cs s t) (p l k : Nat) (d : List Byte) : Calm cs s (t.lineCorrected p l k d) :=
  (((((h.modVault ..).setErr ..).bumpLater (by decide) ..).bumpLater (by decide) ..).bucketAdd ..).suspectAdd ..

theorem lineUe (h : Calm cs s t) (p l : Nat) : Calm cs s (t.lineUe p l) := by
  unfold State.lineUe
  extract_lets c v s1 s2 s3 s4 s5 ts _ s6
  have hnoted : Calm cs s s2 := ite (h.bumpLater (by decide) ..) ((h.bumpLater (by decide) ..).setLater (by decide) ..)
  have hlogged : Calm cs s s3 := (hnoted.setInt ..).log ..
  have hclass : Calm cs s s4 := ite (hlogged.kvLost ..) (ite (hlogged.setErr ..) hlogged)
  have hvault : Calm cs s s5 := hclass.modVault ..
  have htimes : Calm cs s s6 := hvault.of_eq rfl rfl rfl
  exact ite (ite (htimes.castTrigger _) htimes) hvault

theorem dropNode (h : Calm cs s t) (i : Nat) : Calm cs s (t.dropNode i) :=
  (h.of_eq (u := { t with book := smSet {} t.book i {} }) rfl rfl rfl).setErr ..

theorem tableLine (h : Calm cs s t) (p l : Nat) : Calm cs s (t.tableLine p l).1 := by
  have hput {u : State} (hu : Calm cs s u) (d : List Byte) : Calm cs s (u.modVault p (fun v => v.store l (lineEncode d))) := hu.modVault ..
  unfold State.tableLine
  extract_lets put won lost x nodes
  have hwon {u : State} (hu : Calm cs s u) (d : List Byte) : Calm cs s (won u d).1 := hput (hu.log ..) d
  have hlost : Calm cs s lost.1 := by
    dsimp only [lost]
    exact h.freeUsed.modVault ..
  split
  · exact h
  · split
    · exact hput (h.freeUsed.dropNode _) _
    · split
      · exact hlost
      · split
        · exact hlost
        · split
          · exact hwon h.freeUsed _
          · split
            · exact hwon h.freeUsed _
            · exact hwon (h.freeUsed.lineCorrected ..) _
            · exact hlost

/-! Reads and writes of lines. -/

theorem arrayRead (h : Calm cs s t) (p l : Nat) (noise : BitVec 576) : Calm cs s (t.arrayRead p l noise).1 := by
  unfold State.arrayRead
  extract_lets v d v' s1
  have hread : Calm cs s s1 := h.bumpLater (by decide) ..
  split
  · exact h.bumpLater (by decide) ..
  · split
    · exact ((h.setVault ..).setErr ..).bumpLater (by decide) ..
    · split
      · exact hread
      · exact hread.lineCorrected ..
      · exact (hread.lineUe ..).tableLine ..

theorem drainWq (h : Calm cs s t) (p : Nat) : Calm cs s (t.drainWq p) := ite h ((((h.setVault ..).bumpLater (by decide) ..).bumpLater (by decide) ..).bumpLater (by decide) ..)

theorem dropRewrite (h : Calm cs s t) (p l : Nat) : Calm cs s (t.dropRewrite p l) := ite ((h.modVault ..).bumpLater (by decide) ..) h

theorem acceptLine (h : Calm cs s t) (p l : Nat) (d : List Byte) : Calm cs s (t.acceptLine p l d) :=
  ite (((h.dropRewrite ..).modVault ..).drainWq p) ((h.dropRewrite ..).modVault ..)

theorem evictLine (h : Calm cs s t) (p l : Nat) (noise : BitVec 576) : Calm cs s (t.evictLine p l noise).1 := by
  unfold State.evictLine
  split
  · exact h
  · split
    next base r hbase =>
      have hread : Calm cs s base := fst (by
        split
        · exact h
        · split
          · exact h
          · exact h.arrayRead ..) hbase
      extract_lets merged
      have hmerged : Calm cs s merged := hread.bumpLater (by decide) ..
      split
      · exact hmerged.acceptLine ..
      · split
        · dsimp only
          exact hmerged.modVault ..
        · exact (hmerged.modVault ..).log ..

theorem readLine (h : Calm cs s t) (p l : Nat) (noise : BitVec 576) : Calm cs s (t.readLine p l noise).1 := by
  unfold State.readLine
  split
  · exact h.evictLine ..
  · split
    · exact h
    · exact h.arrayRead ..

theorem materialise (h : Calm cs s t) (p g n : Nat) : Calm cs s (t.materialise p g n) := ite h (((h.setVault ..).bumpLater (by decide) ..).bumpLater (by decide) ..)

theorem acceptNarrow (h : Calm cs s t) (p l i : Nat) (bs : List Byte) (fresh : Bool) : Calm cs s (t.acceptNarrow p l i bs fresh) := by
  unfold State.acceptNarrow
  extract_lets new dropped room
  have hdropped : Calm cs s dropped := h.dropRewrite ..
  have hroom : Calm cs s room := hdropped.foldl (fun u _ => ite (refl u) ((refl u).evictLine ..)) _
  split
  · exact ite (hdropped.acceptLine ..) (hdropped.modVault ..)
  · exact ite (hroom.modVault ..) (hroom.modVault ..)

theorem putLine (h : Calm cs s t) (p l i : Nat) (bs : List Byte) (fresh : Bool) (n : Nat) : Calm cs s (t.putLine p l i bs fresh n) :=
  ite ((h.materialise ..).acceptLine ..) ((h.materialise ..).acceptNarrow ..)

theorem migrateGranule (h : Calm cs s t) (l g : Nat) : Calm cs s (t.migrateGranule l g) := by
  unfold State.migrateGranule
  split
  · exact h
  next m hm =>
    extract_lets gone drop lost c stored filled copied
    have hdrop {u : State} (hu : Calm cs s u) : Calm cs s (drop u) := hu.of_eq rfl rfl rfl
    have hfilled : Calm cs s filled := h.materialise ..
    have hlost : Calm cs s lost := hdrop hfilled
    have hstored : Calm cs s stored := hlost.modVault ..
    have hcopied : Calm cs s copied := hfilled.foldN (fun i u => by
      dsimp only
      have hread : Calm cs u _ := (refl u).readLine (m.src g) (g * 64 + i) 0
      split
      · exact hread.modVault ..
      · exact hread.modVault ..) 64
    exact ite h (ite (ite (hstored.kvLost ..) hstored) (ite (hdrop h) ((hdrop hcopied).bump (by decide) _)))

theorem vaultBytes (h : Calm cs s t) (l a n : Nat) : Calm cs s (t.vaultBytes l a n).1 := by
  unfold State.vaultBytes
  split
  · exact h
  · extract_lets first cnt
    refine foldl_fst (fun u b i => ?_) (List.range cnt) (t, [], true) h
    dsimp only
    split
    · exact refl u
    · have hread : Calm cs u _ := (refl u).readLine ‹_› ((first + i) % 16777216) 0
      split
      · exact hread
      · exact hread

theorem vaultPut (h : Calm cs s t) (l a : Nat) (bs : List Byte) : Calm cs s (t.vaultPut l a bs) := by
  refine ite h (h.foldl (fun u i => ?_) _)
  have hmoved : Calm cs u _ := (refl u).migrateGranule l ((a / 64 + i) % 16777216 / 64)
  dsimp only
  split
  · exact hmoved
  · exact hmoved.putLine ..

/-! The snapshot's copies and the clearing of ranges. -/

theorem imagePut (h : Calm cs s t) (x : Loc) (bs : List Byte) : Calm cs s (t.imagePut x bs) := by
  cases x with
  | stock c o =>
    show Calm cs s (t.stockWrite c o bs)
    unfold State.stockWrite
    exact h.modCore c (.inr fun _ => rfl)
  | vault l o => exact h.vaultPut ..
  | near o => exact h.foldl (fun u _ => (refl u).vaultPut ..) _
  | far p o => exact ite ((h.modFar ..).bumpLater (by decide) ..) h
  | host a => exact h.hostWrite ..
  | guild d o => exact h
  | market g d c o => exact h

theorem gateTake (h : Calm cs s t) (g : Gate) (n : Nat) : Calm cs s (t.gateTake g n) := ite h (h.of_eq rfl rfl rfl)

theorem dmaCharge (h : Calm cs s t) (p : Nat) (x : Loc) (out : Bool) (n : Nat) : Calm cs s (t.dmaCharge p x out n) := by
  cases x with
  | host a => exact h.gateTake ..
  | far f o => exact h.gateTake ..
  | stock c o => exact h
  | vault l o => exact h
  | near o => exact h
  | guild d o => exact h
  | market g d c o => exact h

theorem snapGranule (h : Calm cs s t) (l g : Nat) : Calm cs s (t.snapGranule l g) := by
  unfold State.snapGranule
  split
  · exact h
  · split
    · exact h
    · have hbytes : Calm cs s (t.vaultBytes l (g * 4096) 4096).1 := h.vaultBytes ..
      have hfree (u : State) : Calm cs u (u.freeBytes 4096).1 := (refl u).of_eq rfl rfl rfl
      split
      next copied b hb =>
        have hcopied : Calm cs s copied := hbytes.fst hb
        split
        next ready bs hbs =>
          have hready : Calm cs s ready := fst (by
            split
            · exact hcopied
            · exact hcopied.trans (hfree _)) hbs
          exact ((hready.dmaCharge ..).imagePut ..).of_eq rfl rfl rfl

theorem snapRange (h : Calm cs s t) (l first count : Nat) : Calm cs s (t.snapRange l first count) := by
  unfold State.snapRange
  split
  · exact h
  · exact h.foldl (fun u _ => (refl u).snapGranule ..) _

theorem clearRange (h : Calm cs s t) (p first count : Nat) : Calm cs s (t.clearRange p first count) := by
  unfold State.clearRange
  extract_lets l cleared gone new
  have hcleared : Calm cs s cleared := (h.snapRange ..).modVault ..
  have hnew : Calm cs s new := hcleared.foldl (fun u m => ite ((refl u).modVault ..) (refl u)) _
  exact ite (hnew.of_eq rfl rfl rfl) hcleared

theorem clearPage (h : Calm cs s t) (p first count : Nat) : Calm cs s (t.clearPage p first count) := ite (h.clearRange ..) (h.modVault ..)

/-! The parts of a partition's reset (R266). -/

theorem freeNear (h : Calm cs s t) (e : LEntry) : Calm cs s (t.freeNear e) := by
  unfold State.freeNear
  split
  · split
    · exact h.clearPage ..
    · exact h
  · exact h

theorem dropEntry (h : Calm cs s t) (i : Nat) : Calm cs s (t.dropEntry i) := ((h.freeNear _).setLedg ..).bump (by decide) _

theorem poolFree (h : Calm cs s t) (p src : Nat) : Calm cs s (t.poolFree p src) := h.of_eq rfl rfl rfl

theorem clearCounters (h : Calm cs s t) {code inst bank : Nat}
    (hk : ∀ d ∈ regTable code, d = counterReg d.off d.banked → regKey code (regInst code inst) bank d.off ∉ admKeys) :
    Calm cs s (t.clearCounters code inst bank) := by
  refine List.foldlRecOn _ _ h fun u hu d hd => ?_
  obtain ⟨hmem, hcounter⟩ := List.mem_filter.1 hd
  exact hu.setReg (hk d hmem (by simpa using hcounter)) 0

theorem haltCores (h : Calm cs s t) {cores : List Nat} (hcs : ∀ c ∈ cores, c ∈ cs) : Calm cs s (t.haltCores cores) := by
  unfold State.haltCores
  extract_lets halted mine dropProg hit dropped
  have hhalted : Calm cs s halted := List.foldlRecOn _ _ h fun u hu c hc => hu.modCore c (.inl (hcs c hc))
  have hdropped : Calm cs s dropped := hhalted.foldl (fun u _ => (refl u).modVault ..) _
  exact hdropped.of_eq rfl rfl rfl

theorem clearCorePages (h : Calm cs s t) (c : Nat) : Calm cs s (t.clearCorePages c) := by
  refine List.foldlRecOn _ _ h fun u hu pg hpg => ?_
  have hlater : pgFore < pg := by
    simp only [List.mem_cons, List.not_mem_nil, or_false] at hpg
    rcases hpg with rfl | rfl | rfl | rfl | rfl <;> decide
  exact ((hu.clearCounters fun d _ _ => admKeys_of_later hlater _ _ _).setLater hlater ..).setLater hlater ..

theorem resetCores (h : Calm cs s t) {cores : List Nat} (hcs : ∀ c ∈ cores, c ∈ cs) : Calm cs s (t.resetCores cores) := by
  have hpages : Calm cs s (cores.foldl (fun s c => s.clearCorePages c) (t.haltCores cores)) :=
    (h.haltCores hcs).foldl (fun u c => (refl u).clearCorePages c) _
  exact hpages.of_eq rfl rfl rfl

theorem resetStreams (h : Calm cs s t) (p : Nat) : Calm cs s (t.resetStreams p) := by
  unfold State.resetStreams
  extract_lets es ss freed dropped idle
  have hfreed : Calm cs s freed := h.foldl (fun u _ => ite ((refl u).poolFree ..) (refl u)) _
  have hdropped : Calm cs s dropped := hfreed.foldl (fun u _ => (refl u).dropEntry _) _
  have hidle : Calm cs s idle := hdropped.foldl (fun u _ => (refl u).setStream ..) _
  exact hidle.of_eq rfl rfl rfl

theorem clearVaults (h : Calm cs s t) (cores : List Nat) (part : Option Nat) : Calm cs s (t.clearVaults cores part) := by
  refine h.foldl (fun u c => ?_) _
  split
  · exact ((refl u).clearRange ..).modVault ..
  · exact refl u

end Calm

end Sys2Proof.Safety
end

section
/-! PROOFS. How an admin command completes (R258, R263): the record on its ring, the interrupt, and what stays of the state that the
command left. -/

namespace Sys2Proof.Machine

open Sys2Proof.Safety Sys2Proof.Claims

variable {s t u : State} {w : List Nat} {code tag st : Nat} {r : List Nat}

/-- The open and the waiting commands, the next place of a completion and the registers that place it stand. -/
structure AdmKept (s t : State) : Prop where
  opened : t.admOpen = s.admOpen
  wait : t.admWait = s.admWait
  tail : t.acqTail = s.acqTail
  width : t.host.width = s.host.width
  regs : ∀ k ∈ admKeys, smFind t.regs k = smFind s.regs k

namespace AdmKept

theorem of_eq (h : AdmKept s t) (hopened : u.admOpen = t.admOpen) (hwait : u.admWait = t.admWait) (htail : u.acqTail = t.acqTail)
    (hhost : u.host = t.host) (hregs : u.regs = t.regs) : AdmKept s u :=
  ⟨hopened.trans h.opened, hwait.trans h.wait, htail.trans h.tail, (congrArg _ hhost).trans h.width, fun k hk => by rw [hregs, h.regs k hk]⟩

theorem touched (s : State) : AdmKept s (touched s) := ⟨rfl, rfl, rfl, rfl, fun _ _ => rfl⟩

theorem modPart (h : AdmKept s t) (p : Nat) (g : Part → Part) : AdmKept s (t.modPart p g) := h.of_eq rfl rfl rfl rfl rfl

theorem setPart (h : AdmKept s t) (p : Nat) (x : Part) : AdmKept s (t.setPart p x) := h.of_eq rfl rfl rfl rfl rfl

theorem calm {cs : List Nat} (h : AdmKept s t) (hc : Calm cs t u) : AdmKept s u := by
  obtain ⟨-, hopened, hwait, htail, hwidth⟩ : _ ∧ _ ∧ _ ∧ _ ∧ _ := by simpa only [Posture, Prod.mk.injEq] using hc.posture
  exact ⟨hopened.trans h.opened, hwait.trans h.wait, htail.trans h.tail, hwidth.trans h.width, fun k hk => (hc.regs k hk).trans (h.regs k hk)⟩

theorem setReg (h : AdmKept s t) {code inst bank off : Nat} (hk : regKey code (regInst code inst) bank off ∉ admKeys) (v : DWord) :
    AdmKept s (t.setReg code inst bank off v) := h.calm ((Calm.refl (cs := []) t).setReg hk v)

theorem fldCfg (h : AdmKept s t) (hi lo : Nat) : t.fld pgFore 0 0 rForeAdmCfg hi lo = s.fld pgFore 0 0 rForeAdmCfg hi lo :=
  congrArg (fun v => bits (BitVec.toNat (Option.getD v _)) hi lo) (h.regs _ (.head _))

theorem fldBase (h : AdmKept s t) (hi lo : Nat) : t.fld pgFore 0 0 rForeAcqBase hi lo = s.fld pgFore 0 0 rForeAcqBase hi lo :=
  congrArg (fun v => bits (BitVec.toNat (Option.getD v _)) hi lo) (h.regs _ (.tail _ (.head _)))

theorem hostUp (h : AdmKept s t) : t.hostUp = s.hostUp := by
  unfold State.hostUp
  rw [h.width]

theorem adminOff (h : AdmKept s t) (hs : AdminOff s) : AdminOff t := by
  obtain ⟨hcfg, hopen, hwait⟩ := hs
  exact ⟨(h.fldCfg ..).trans hcfg, h.opened.trans hopen, h.wait.trans hwait⟩

end AdmKept

/-! ### The ring is not read -/

theorem State.admHeadRec_off (h : s.fld pgFore 0 0 rForeAdmCfg 31 31 = 0) : s.admHeadRec = none := by
  unfold State.admHeadRec
  simp [h]

theorem State.admTake_off (hcfg : s.fld pgFore 0 0 rForeAdmCfg 31 31 = 0) (hwait : s.admWait = []) (k : Nat) : s.admTake k = s := by
  cases k with
  | zero => rfl
  | succ k => simp [State.admTake, State.admNext, hwait, State.admHeadRec_off hcfg]

/-- With its ring not read, and nothing that waits, the foreman takes no further command. -/
theorem State.admPump_off (h : AdminOff s) : s.admPump = s := by
  obtain ⟨hcfg, hopen, hwait⟩ := h
  have hsettle : s.admSettle = s := by simp [State.admSettle, hopen]
  unfold State.admPump
  rw [hsettle, State.admTake_off hcfg hwait]

/-! ### The completion record -/

theorem memBytes_memSetBytes_append (m : Mem) (a : Nat) (bs cs : List Byte) : memBytes (memSetBytes m a (bs ++ cs)) a bs.length = bs := by
  refine List.ext_getElem (by simp [memBytes]) fun i _ hi => ?_
  simp only [memBytes, List.getElem_map, List.getElem_range]
  rw [memByte_memSetBytes_inside _ _ _ _ (by simp; omega), List.getElem_append_left hi]

theorem State.admPut_parts : (s.admPut tag st r).parts = s.parts := State.hostWrite_parts ..

theorem State.admPut_cores : (s.admPut tag st r).cores = s.cores := State.hostWrite_cores ..

theorem State.hostWrite_regs_other (a : Nat) (bs : List Byte) {k : Nat} (htx : k ≠ regKey pgHost 0 0 rHostTxBytes)
    (hdiscard : k ≠ regKey pgHost 0 0 rHostDmaDiscard) : smFind (s.hostWrite a bs).regs k = smFind s.regs k := by
  unfold State.hostWrite
  split
  · exact State.setReg_regs_other _ _ htx
  · exact State.setReg_regs_other _ _ hdiscard

theorem regKey_ne_of_code {code inst bank off code' inst' bank' off' : Nat} (h : code ≠ code') (hi : inst < 512) (hb : bank < 64) (ho : off < 4096)
    (hi' : inst' < 512) (hb' : bank' < 64) (ho' : off' < 4096) : regKey code inst bank off ≠ regKey code' inst' bank' off' :=
  fun e => h (regKey_inj hi hb ho hi' hb' ho' e).1

/-- A completion counts in the host link's page alone. -/
theorem State.reg_admPut {bank off : Nat} (hb : bank < 64) (ho : off < 4096) : (s.admPut tag st r).reg pgFore 0 bank off = s.reg pgFore 0 bank off := by
  have hne {off' : Nat} (ho' : off' < 4096) : regKey pgFore 0 bank off ≠ regKey pgHost 0 0 off' :=
    regKey_ne_of_code (by decide) (by decide) hb ho (by decide) (by decide) ho'
  have hkey := s.hostWrite_regs_other
    (s.fld pgFore 0 0 rForeAcqBase 63 4 * 16 + (s.acqTail % (2 * 2 ^ s.fld pgFore 0 0 rForeAdmCfg 12 8) % 2 ^ s.fld pgFore 0 0 rForeAdmCfg 12 8) * 16)
  unfold State.reg smGet
  exact congrArg (Option.getD · _) (hkey _ (hne (by decide)) (hne (by decide)))

/-- What a completion reports, on a state whose admin queue stands. -/
theorem AdmKept.completed (h : AdmKept s t) (hs : AdminOff s) : Completed s (t.admPut tag st r) tag st := by
  unfold Completed State.admPut State.emit
  simp only [h.fldCfg, h.fldBase, h.tail, State.hostWrite_admOpen, h.opened, hs.2.1, List.mem_cons, true_or, true_and]
  intro hup
  unfold State.hostWrite
  rw [if_pos (h.hostUp.trans hup)]
  exact memBytes_memSetBytes_append _ _ (leBytes 4 _) _

theorem AdmKept.admPut (h : AdmKept s t) (hs : AdminOff s) : AdminOff (t.admPut tag st r) := by
  obtain ⟨hcfg, hopen, hwait⟩ := h.adminOff hs
  refine ⟨?_, (State.hostWrite_admOpen ..).trans hopen, (State.hostWrite_admWait ..).trans hwait⟩
  unfold State.fld
  rw [State.reg_admPut (by decide) (by decide)]
  exact hcfg

/-- What the completion of an admin command says and leaves: its record, and the partitions, cores and registers as the command left them
in `u`. -/
structure Answered (s u : State) (tag st : Nat) (t : State) : Prop where
  completed : Completed s t tag st
  parts : t.parts = u.parts
  cores : t.cores = u.cores
  reg : ∀ {bank off}, bank < 64 → off < 4096 → t.reg pgFore 0 bank off = u.reg pgFore 0 bank off

/-- A command that the foreman takes at once and that is not refused completes. -/
theorem State.admDirect_answered (hfree : AdmFree s) (hexec : (touched s).admExec code (recPart w) (recTag w) w = (u, some (st, r)))
    (hst : st < stState) (hkept : AdmKept s u) : Answered s u (recTag w) st (reachAdmin.take s (s.admDirect code w).admPump) := by
  obtain ⟨hopened, hoff⟩ := hfree
  have hrun : s.admDirect code w = u.admPut (recTag w) st r := by
    unfold State.admDirect State.admRun
    extract_lets w0 tag p
    rw [if_pos (by simp [hoff.2.1, hoff.2.2]), if_neg (by simp [hopened])]
    split
    next heq =>
      cases hexec.symm.trans heq
      unfold State.admDone
      rw [if_neg (by unfold stState at *; simp [stQuota]; omega)]
      rfl
    next heq => cases hexec.symm.trans heq
  rw [hrun, State.admPump_off (hkept.admPut hoff)]
  exact ⟨hkept.completed hoff, State.admPut_parts, State.admPut_cores, fun hb ho => State.reg_admPut hb ho⟩

end Sys2Proof.Machine
end

section
/-! PROOFS. What each admin command of O53 answers, and the moves of a partition (R263, R264, R266, R448). O53 is settled at the end. -/

namespace Sys2Proof.Machine

open Sys2Proof.Safety Sys2Proof.Claims

variable {s t u : State} {w cores : List Nat} {p : Nat} {x : Part}

/-- A command record names one of the 64 partitions. -/
theorem recPart_lt (w : List Nat) : recPart w < 64 := Nat.mod_lt _ (by decide)

/-- A partition in another state. -/
def Part.moved (x : Part) (d : PState) : Part := { x with st := d }

/-- A partition that owes the completion of a QUIESCE. -/
def Part.owesQuiesce (x : Part) (tag : Option Nat) : Part := { x with after := x.after ++ [.quiesce tag] }

/-! ### The answers of commands -/

/-- A command that gives a partition its new record leaves the other partitions. -/
theorem Answered.moves {tag st : Nat} (h : Answered s u tag st t) (hu : u.parts = (s.setPart p x).parts) : t.part p = x ∧ PartsKept s t [p] := by
  have hpart := State.part_congr (h.parts.trans hu)
  exact ⟨(hpart p).trans (s.part_setPart_same ..), fun q hq => (hpart q).trans (s.part_setPart_other _ (by simpa using hq))⟩

theorem State.setPart_parts_congr (h : u.parts = s.parts) (p : Nat) (x : Part) : (u.setPart p x).parts = (s.setPart p x).parts :=
  congrArg (fun m => smSet ({} : Part) m p x) h

/-- A request ring that is not read is not polled. -/
theorem State.pollRing_off (h : RingOff s p) : s.pollRing p = s := by
  have hhead : s.ringHead p = none := by
    unfold RingOff at h
    simp [State.ringHead, h]
  have hconsume (k : Nat) : s.consume p k = s := by
    cases k with
    | zero => rfl
    | succ k => simp [State.consume, hhead]
  simp [State.pollRing, hconsume, State.putHead]

theorem State.serve_of_ready (hst : (s.part p).st = .loaded ∨ (s.part p).st = .quiesced) (hring : RingOff s p) :
    s.serve p = (s.modPart p (·.moved .serving), stOk, [0, 0, 0]) := by
  have hready : ((s.part p).st = .loaded || (s.part p).st = .quiesced) = true := by simpa using hst
  unfold State.serve
  rw [if_pos hready]
  exact congrArg (·, stOk, [0, 0, 0]) (State.pollRing_off (s := s.modPart p (·.moved .serving)) hring)

theorem State.quiesce_idle (hst : (s.part p).st = .serving) (hrun : (s.part p).running = false) (tag : Option Nat) :
    s.quiesce p tag = (s.modPart p (·.moved .quiesced), some stOk) := by
  unfold State.quiesce
  rw [if_neg (by simp [hst]), if_neg (by simp [hrun])]
  rfl

theorem State.quiesce_running (hst : (s.part p).st = .serving) (hrun : (s.part p).running = true) (tag : Option Nat) :
    s.quiesce p tag = (s.modPart p (·.owesQuiesce tag), none) := by
  unfold State.quiesce
  rw [if_neg (by simp [hst]), if_pos hrun]
  rfl

/-! ### SERVE and QUIESCE -/

theorem serve_moves (hfree : AdmFree s) (hst : (s.part (recPart w)).st = .loaded ∨ (s.part (recPart w)).st = .quiesced) (hring : RingOff s (recPart w)) :
    ∃ t, exec (.serve w) s = .next t ∧ Completed s t (recTag w) 0 ∧ t.part (recPart w) = { s.part (recPart w) with st := .serving }
      ∧ PartsKept s t [recPart w] := by
  have hexec : (touched s).admExec 0x05 (recPart w) (recTag w) w = ((touched s).modPart (recPart w) (·.moved .serving), some (stOk, [0, 0, 0])) :=
    congrArg (fun r : AdmRes => (r.1, some r.2)) (State.serve_of_ready (s := touched s) hst hring)
  have ht := State.admDirect_answered hfree hexec (by decide) ((AdmKept.touched s).modPart ..)
  exact ⟨_, rfl, ht.completed, ht.moves (x := (s.part (recPart w)).moved .serving) rfl⟩

theorem quiesce_idle_moves (hfree : AdmFree s) (hst : (s.part (recPart w)).st = .serving) (hrun : (s.part (recPart w)).running = false) :
    ∃ t, exec (.quiesce w) s = .next t ∧ Completed s t (recTag w) 0 ∧ t.part (recPart w) = { s.part (recPart w) with st := .quiesced }
      ∧ PartsKept s t [recPart w] := by
  have hexec : (touched s).admExec 0x06 (recPart w) (recTag w) w = ((touched s).modPart (recPart w) (·.moved .quiesced), some (stOk, [])) :=
    congrArg (fun r : State × Option Nat => (r.1, r.2.map fun st => (st, ([] : List Nat)))) (State.quiesce_idle (s := touched s) hst hrun _)
  have ht := State.admDirect_answered hfree hexec (by decide) ((AdmKept.touched s).modPart ..)
  exact ⟨_, rfl, ht.completed, ht.moves (x := (s.part (recPart w)).moved .quiesced) rfl⟩

/-- An open QUIESCE waits while its partition owes it. -/
theorem State.admSettle_owed {tag : Nat} {rest : List (Nat × Nat × Nat)} (hopen : s.admOpen = (tag, admQuiesce, p) :: rest)
    (howes : .quiesce (some tag) ∈ (s.part p).after) : s.admSettle = s := by
  unfold State.admSettle
  rw [hopen]
  exact if_neg (by simpa using ⟨_, howes, by simp⟩)

/-- A QUIESCE that waits for the running step stays open, and holds the ring. -/
theorem quiesce_running_moves (hfree : AdmFree s) (hst : (s.part (recPart w)).st = .serving) (hrun : (s.part (recPart w)).running = true) :
    ∃ t, exec (.quiesce w) s = .next t ∧ t.admOpen = [(recTag w, 0x06, recPart w)]
      ∧ t.part (recPart w) = { s.part (recPart w) with after := (s.part (recPart w)).after ++ [.quiesce (some (recTag w))] }
      ∧ PartsKept s t [recPart w] := by
  obtain ⟨hopened, hcfg, hopen, hwait⟩ := hfree
  have hexec : (touched s).admExec 0x06 (recPart w) (recTag w) w = ((touched s).modPart (recPart w) (·.owesQuiesce (some (recTag w))), none) :=
    congrArg (fun r : State × Option Nat => (r.1, r.2.map fun st => (st, ([] : List Nat)))) (State.quiesce_running (s := touched s) hst hrun _)
  obtain ⟨u, hu, hparts, hopen', hcfg', hwait'⟩ : ∃ u, s.admDirect 0x06 w = u
      ∧ u.parts = (s.modPart (recPart w) (·.owesQuiesce (some (recTag w)))).parts
      ∧ u.admOpen = [(recTag w, 0x06, recPart w)] ∧ u.fld pgFore 0 0 rForeAdmCfg 31 31 = 0 ∧ u.admWait = [] := by
    refine ⟨_, rfl, ?_⟩
    unfold State.admDirect State.admRun
    extract_lets w0 tag p
    rw [if_pos (by simp [hopen, hwait]), if_neg (by simp [hopened])]
    split
    next heq => cases hexec.symm.trans heq
    next heq =>
      cases hexec.symm.trans heq
      exact ⟨rfl, congrArg (· ++ [(recTag w, 0x06, recPart w)]) hopen, hcfg, hwait⟩
  have hpart := State.part_congr hparts
  have hown : u.part (recPart w) = _ := (hpart _).trans (s.part_modPart_same ..)
  have hpump : u.admPump = u := by
    unfold State.admPump
    rw [State.admSettle_owed hopen' (by rw [hown]; simp [Part.owesQuiesce]), State.admTake_off hcfg' hwait']
  refine ⟨reachAdmin.take s u, congrArg (fun v => Host.Outcome.next (reachAdmin.take s v)) ?_, hopen', hown,
    fun q hq => (hpart q).trans (s.part_modPart_other _ (by simpa using hq))⟩
  rw [hu, hpump]

/-! ### RESET_PARTITION and its end -/

/-- The foreman's counters are none of the registers of the admin ring. -/
theorem foreCounters_not_admKeys {d : RegDef} (hd : d ∈ regTable pgFore) (hcounter : d = counterReg d.off d.banked) (bank : Nat) :
    regKey pgFore (regInst pgFore 0) bank d.off ∉ admKeys := by
  have hall : ∀ d ∈ regTable pgFore, d = counterReg d.off d.banked → d.off % 4096 ≠ 0x98 ∧ d.off % 4096 ≠ 0x90 := by decide
  exact admKeys_of_off (hall d hd hcounter) _ _ _

/-- The orders, s-registers and counters of a core that is reset (R136). -/
theorem State.progress_haltCores {c : Nat} (hc : c ∈ cores) : Progress ((s.haltCores cores).core c) = ([], [], []) := by
  have hhalted (l : List Nat) (u : State) (h : c ∈ l ∨ Progress (u.core c) = ([], [], [])) :
      Progress ((l.foldl (fun s c => s.modCore c Core.afterReset) u).core c) = ([], [], []) := by
    induction l generalizing u with
    | nil => exact h.resolve_left (by simp)
    | cons d l ih =>
      refine ih _ ?_
      by_cases hcd : c = d
      · subst hcd
        exact .inr (by rw [State.core_modCore_same]; rfl)
      · rw [State.core_modCore_other _ _ hcd]
        exact h.imp_left fun h => (List.mem_cons.1 h).resolve_left hcd
  unfold State.haltCores
  extract_lets halted mine dropProg hit dropped
  have hdropped : Calm [] halted dropped := (Calm.refl _).foldl (fun u _ => (Calm.refl u).modVault ..) _
  exact (hdropped.units c (by simp)).trans (hhalted cores s (.inl hc))

theorem State.progress_resetCores {c : Nat} (hc : c ∈ cores) : Progress ((s.resetCores cores).core c) = ([], [], []) := by
  have hpages : Calm [] (s.haltCores cores) (cores.foldl (fun s c => s.clearCorePages c) (s.haltCores cores)) :=
    (Calm.refl _).foldl (fun u c => (Calm.refl u).clearCorePages c) _
  exact (hpages.units c (by simp)).trans (State.progress_haltCores hc)

theorem State.resetPartition_reset (hst : ((s.part p).st = .empty || (s.part p).st = .resetting) = false) (hmigs : s.abs.migs = []) :
    Calm (s.part p).cores (s.modPart p Part.afterReset) (s.resetPartition p).1 ∧ (s.resetPartition p).2 = (stOk, [0, 0, 0])
      ∧ ∀ c ∈ (s.part p).cores, Progress ((s.resetPartition p).1.core c) = ([], [], []) := by
  unfold State.resetPartition
  rw [if_neg (by simp [hst])]
  extract_lets s1 s2
  have hs1 : s1 = s.modPart p Part.afterReset := rfl
  have hstreams : Calm [] (s1.resetCores (s.part p).cores) ((s1.resetCores (s.part p).cores).resetStreams p) := (Calm.refl _).resetStreams p
  have hstands : Stands s1 ((s1.resetCores (s.part p).cores).resetStreams p) := ((Stands.refl s1).resetCores _).resetStreams _
  have hs2 : s2 = (s1.resetCores (s.part p).cores).resetStreams p := by
    dsimp only [s2]
    simp [State.resetMigrations, hstands.migs hmigs]
  have hcounters {cs : List Nat} {u v : State} (h : Calm cs u v) : Calm cs u ((v.clearCounters pgFore 0 p).clearCounters pgPort 0 p) :=
    (h.clearCounters fun _ hd hc => foreCounters_not_admKeys hd hc p).clearCounters fun _ _ _ => admKeys_of_later (by decide) _ _ _
  rw [hs2, hs1]
  refine ⟨hcounters (((Calm.refl _).resetCores fun _ => id).resetStreams p), rfl, fun c hc => ?_⟩
  exact ((hcounters hstreams).units c (by simp)).trans (State.progress_resetCores hc)

theorem resetPartition_moves (hfree : AdmFree s) (hempty : (s.part (recPart w)).st ≠ .empty) (hreset : (s.part (recPart w)).st ≠ .resetting)
    (hmigs : s.abs.migs = []) :
    ∃ t, exec (.resetPartition w) s = .next t ∧ Completed s t (recTag w) 0 ∧ (t.part (recPart w)).st = .resetting
      ∧ (t.part (recPart w)).running = false ∧ (t.part (recPart w)).cores = (s.part (recPart w)).cores
      ∧ (∀ c ∈ (s.part (recPart w)).cores, (t.core c).flights = [] ∧ (t.core c).sregs = [] ∧ (t.core c).ctrs = []) ∧ PartsKept s t [recPart w] := by
  obtain ⟨hcalm, hanswer, hcores⟩ := State.resetPartition_reset (s := touched s) (p := recPart w) (by simpa using ⟨hempty, hreset⟩) hmigs
  have hexec : (touched s).admExec 0x07 (recPart w) (recTag w) w = (((touched s).resetPartition (recPart w)).1, some (stOk, [0, 0, 0])) :=
    congrArg (fun r : Nat × List Nat => (((touched s).resetPartition (recPart w)).1, some r)) hanswer
  have ht := State.admDirect_answered hfree hexec (by decide) (((AdmKept.touched s).modPart ..).calm hcalm)
  obtain ⟨hpart, hparts⟩ := ht.moves hcalm.parts
  refine ⟨_, rfl, ht.completed, ?_, ?_, ?_, fun c hc => ?_, hparts⟩
  · rw [hpart]; rfl
  · rw [hpart]; rfl
  · rw [hpart]; rfl
  · have hprogress := hcores c hc
    rw [State.core_congr ht.cores]
    simpa only [Progress, Prod.mk.injEq] using hprogress

theorem partitionResetDone_moves (hfree : AdmFree s) (hst : (s.part p).st = .resetting)
    (hcores : ∀ c ∈ (s.part p).cores, s.fencedHalf ≠ some (coreHalf c) ∧ (smFind s.boot.coreSite c).isSome) (hring : RingOff s p) :
    ∃ t, exec (.partitionResetDone p) s = .next t
      ∧ t.part p = { s.part p with st := if (s.part p).patterns.isEmpty then .configured else .loaded } ∧ PartsKept s t [p]
      ∧ Kept { parts := true } s t := by
  have hany : ((s.part p).cores.any fun c => s.fencedHalf = some (coreHalf c) || (smFind s.boot.coreSite c).isNone) = false := by
    simp only [List.any_eq_false]
    intro c hc
    obtain ⟨hfence, hsite⟩ := hcores c hc
    simp [hfence, Option.ne_none_iff_isSome.2 hsite]
  have hdone : s.partitionResetDone p = s.modPart p (·.moved (if (s.part p).patterns.isEmpty then .configured else .loaded)) := by
    unfold State.partitionResetDone
    rw [if_neg (by simp [hst, hany])]
    exact State.pollRing_off (s := s.modPart p _) hring
  have hkept := (Kept.refl { parts := true } s).modPart rfl p (·.moved (if (s.part p).patterns.isEmpty then .configured else .loaded))
  have hpump : (s.partitionResetDone p).admPump = s.modPart p (·.moved (if (s.part p).patterns.isEmpty then .configured else .loaded)) := by
    rw [hdone]
    exact State.admPump_off hfree.2
  have hexec : exec (.partitionResetDone p) s = .next (reachAdmin.take s (s.partitionResetDone p).admPump) := rfl
  rw [hpump, (hkept.mono (by decide)).take_eq] at hexec
  exact ⟨_, hexec, s.part_modPart_same .., fun q hq => s.part_modPart_other _ (by simpa using hq), hkept⟩

/-! ### DESTROY_PARTITION -/

/-- What a partition that is destroyed keeps: its ring indices, and NONREPRODUCIBLE (R311). -/
def Part.destroyed (x : Part) : Part := {
  reqHead := x.reqHead, reqTail := x.reqTail, tokTail := x.tokTail, tokHead := x.tokHead, tokTimes := x.tokTimes, msixAt := x.msixAt
  nonrepro := x.nonrepro }

theorem State.destroyPartition_destroys (hst : (s.part p).st = .configured ∨ (s.part p).st = .loaded ∨ (s.part p).st = .quiesced) :
    ∃ u, Calm (s.part p).cores s u ∧ s.destroyPartition p = (u.setPart p (s.part p).destroyed, stOk, [0, 0, 0]) := by
  have hready : ((s.part p).st = .configured || (s.part p).st = .loaded || (s.part p).st = .quiesced : Bool) = true := by
    simpa [or_assoc] using hst
  exact ⟨_, (((Calm.refl _).resetCores fun _ => id).resetStreams _).clearVaults _ _, if_neg (by rw [hready]; decide)⟩

theorem destroyPartition_moves (hfree : AdmFree s)
    (hst : (s.part (recPart w)).st = .configured ∨ (s.part (recPart w)).st = .loaded ∨ (s.part (recPart w)).st = .quiesced) :
    ∃ t, exec (.destroyPartition w) s = .next t ∧ Completed s t (recTag w) 0 ∧ (t.part (recPart w)).st = .empty
      ∧ (t.part (recPart w)).cores = [] ∧ (t.part (recPart w)).patterns = [] ∧ PartsKept s t [recPart w] := by
  obtain ⟨u, hcalm, hdestroy⟩ := State.destroyPartition_destroys (s := touched s) hst
  have hexec : (touched s).admExec 0x08 (recPart w) (recTag w) w = (u.setPart (recPart w) (s.part (recPart w)).destroyed, some (stOk, [0, 0, 0])) :=
    congrArg (fun r : AdmRes => (r.1, some r.2)) hdestroy
  have ht := State.admDirect_answered hfree hexec (by decide) (((AdmKept.touched s).calm hcalm).setPart ..)
  obtain ⟨hpart, hparts⟩ := ht.moves (State.setPart_parts_congr (s := s) hcalm.parts _ _)
  refine ⟨_, rfl, ht.completed, ?_, ?_, ?_, hparts⟩
  · rw [hpart]; rfl
  · rw [hpart]; rfl
  · rw [hpart]; rfl

/-! ### SET_POLICY -/

theorem calm_noteClamps {cs : List Nat} (h : Calm cs s t) (code inst n : Nat) : Calm cs s (t.noteClamps code inst n) :=
  .ite h ((h.setReg (off := hClamp) (admKeys_of_off (by decide) _ _ _) _).setReg (off := hSts) (admKeys_of_off (by decide) _ _ _) _)

theorem calm_putReg {cs : List Nat} (h : Calm cs s t) {off : Nat} (hoff : off % 4096 ≠ 0x98 ∧ off % 4096 ≠ 0x90) (code inst bank v : Nat) :
    Calm cs s (t.putReg code inst bank off v) := .ite h (calm_noteClamps (h.setReg (admKeys_of_off hoff _ _ _) _) _ _ _)

/-- A field of no page's header: where clamps are not counted. -/
def NoHeader (off : Nat) : Prop := off % 4096 ≠ hClamp ∧ off % 4096 ≠ hSts

theorem State.reg_putReg_same {code inst bank off v : Nat} (hoff : NoHeader off) (hfind : (regFind code off).isNone = false) :
    (s.putReg code inst bank off v).reg code inst bank off = BitVec.ofNat 64 (s.regTakes code inst bank off v).1 := by
  unfold State.putReg
  simp only [hfind, Bool.false_eq_true, if_false]
  rw [State.reg_noteClamps_other _ (regKey_ne_of_off hoff.1) (regKey_ne_of_off hoff.2), State.reg_setReg_same]

theorem State.reg_putReg_other {code inst bank off code' inst' bank' off' v : Nat} (hoff : NoHeader off) (hne : off % 4096 ≠ off' % 4096) :
    (s.putReg code' inst' bank' off' v).reg code inst bank off = s.reg code inst bank off := by
  unfold State.putReg
  dsimp only
  split
  · rfl
  · rw [State.reg_noteClamps_other _ (regKey_ne_of_off hoff.1) (regKey_ne_of_off hoff.2), State.reg_setReg_other _ _ (regKey_ne_of_off hne)]

/-- The policy registers as SET_POLICY leaves them. -/
def State.policyPut (s : State) (p : Nat) (v : Nat → Nat) : State :=
  ((((s.putReg pgFore 0 p rForeStepCfg (v 0)).putReg pgFore 0 p rForeClass (v 1)).putReg pgFore 0 p rForeStagger (v 2)).putReg
    pgFore 0 p rForePolicy (v 3)).putReg pgPort 0 p rPortCfg (v 4)

theorem State.setPolicy_put (hempty : (s.part p).st ≠ .empty) (hreset : (s.part p).st ≠ .resetting) :
    ∃ st, s.setPolicy p w = (s.policyPut p (Config.policyOf (w.drop 1)), st, [0, 0, 0]) ∧ (st = stOk ∨ st = stClamped) := by
  refine ⟨_, if_neg (by simpa using ⟨hempty, hreset⟩), ?_⟩
  split
  · exact .inr rfl
  · exact .inl rfl

theorem State.policyPut_calm (v : Nat → Nat) : Calm [] s (s.policyPut p v) :=
  calm_putReg (calm_putReg (calm_putReg (calm_putReg (calm_putReg (.refl s) (by decide) ..) (by decide) ..) (by decide) ..) (by decide) ..) (by decide) ..

theorem State.policyPut_stepCfg (v : Nat → Nat) :
    (s.policyPut p v).reg pgFore 0 p rForeStepCfg = BitVec.ofNat 64 (s.regTakes pgFore 0 p rForeStepCfg (v 0)).1 := by
  have hoff : NoHeader rForeStepCfg := by unfold NoHeader; decide
  unfold State.policyPut
  rw [State.reg_putReg_other hoff (by decide), State.reg_putReg_other hoff (by decide), State.reg_putReg_other hoff (by decide),
    State.reg_putReg_other hoff (by decide), State.reg_putReg_same hoff (by decide)]

theorem setPolicy_moves (hfree : AdmFree s) (hempty : (s.part (recPart w)).st ≠ .empty) (hreset : (s.part (recPart w)).st ≠ .resetting) :
    ∃ t st, exec (.setPolicy w) s = .next t ∧ Completed s t (recTag w) st ∧ (st = 0 ∨ st = 1)
      ∧ t.reg pgFore 0 (recPart w) rForeStepCfg
        = BitVec.ofNat 64 (s.regTakes pgFore 0 (recPart w) rForeStepCfg (Config.policyOf (w.drop 1) 0)).1
      ∧ t.parts = s.parts := by
  obtain ⟨st, hput, hst⟩ := State.setPolicy_put (s := touched s) (w := w) hempty hreset
  have hexec : (touched s).admExec 0x04 (recPart w) (recTag w) w
      = ((touched s).policyPut (recPart w) (Config.policyOf (w.drop 1)), some (st, [0, 0, 0])) :=
    congrArg (fun r : AdmRes => (r.1, some r.2)) hput
  have hcalm := State.policyPut_calm (s := touched s) (p := recPart w) (Config.policyOf (w.drop 1))
  have ht := State.admDirect_answered hfree hexec (by rcases hst with rfl | rfl <;> decide) ((AdmKept.touched s).calm hcalm)
  exact ⟨_, st, rfl, ht.completed, hst, (ht.reg (recPart_lt w) (by decide)).trans (State.policyPut_stepCfg _), ht.parts.trans hcalm.parts⟩

/-! ### CREATE_PARTITION -/

/-- The stream quota of a partition stands while other fields of other registers are set, the admin queue too. -/
structure QuotaStands (p : Nat) (s t : State) : Prop where
  calm : Calm [] s t
  quota : t.reg pgFore 0 p rForeStreamQuota = s.reg pgFore 0 p rForeStreamQuota

theorem QuotaStands.setFld (h : QuotaStands p s t) {off : Nat} (hadm : off % 4096 ≠ 0x98 ∧ off % 4096 ≠ 0x90)
    (hquota : rForeStreamQuota % 4096 ≠ off % 4096) (code inst bank hi lo v : Nat) : QuotaStands p s (t.setFld code inst bank off hi lo v) :=
  ⟨h.calm.setReg (admKeys_of_off hadm _ _ _) _, (State.reg_setReg_other _ _ (regKey_ne_of_off hquota)).trans h.quota⟩

/-- No far window is asked for (R448). -/
theorem State.farWindow_none (n : Nat) : s.farWindow n 0 = ((0, 0), 0) := by
  simp [State.farWindow, bits, b2n]

theorem rangesMeet_none (a : Nat) (r : Nat × Nat) : rangesMeet (a, 0) r = false := by simp [rangesMeet]

/-- A partition that is created on cores, with no far memory. -/
def Part.created (x : Part) (cores : List Nat) (host : Nat × Nat) : Part :=
  { x with st := .configured, cores := cores, far := [(0, 0), (0, 0), (0, 0), (0, 0)], host := host, steps := 0 }

theorem State.createPartition_creates (hok : CreateOk s w) :
    ∃ u host, s.createPartition (recPart w) w = (u, stOk, [0, 0, 0]) ∧ AdmKept s u
      ∧ u.parts = (s.setPart (recPart w) ((s.part (recPart w)).created
        (groupCores (w.getD 1 0 % 4294967296 + (w.getD 2 0 % 4294967296) <<< 32)) host)).parts
      ∧ u.fld pgFore 0 (recPart w) rForeStreamQuota 18 0 = bits (w.getD 10 0 % 4294967296) 18 0 := by
  obtain ⟨hempty, hmask, hfree, hw3, hw4, hw5, hw6, hstreams, hledger⟩ := hok
  unfold State.createPartition
  extract_lets g mask cores wins far host sq lq k taken meets s1 s2 s3 s4 s5
  have hwins : wins = List.replicate 4 ((0, 0), 0) := by
    have hnone : ∀ n ∈ List.range 4, s.farWindow n (g (3 + n)) = ((0, 0), 0) := by
      intro n hn
      have hg : g (3 + n) = 0 := by
        dsimp only [g]
        have hlt := List.mem_range.1 hn
        interval_cases n <;> simp_all
      rw [hg, State.farWindow_none]
    exact (List.map_congr_left hnone).trans rfl
  have hk : k = 0 := by
    dsimp only [k, g]
    rw [hwins, decide_eq_false (Nat.not_lt.2 hstreams), decide_eq_false (Nat.not_lt.2 hledger)]
    rfl
  have hmeets : meets = false := by
    simp only [meets, List.any_eq_false]
    intro q _ h
    obtain ⟨n, hn, hmeet⟩ := List.any_eq_true.1 h
    have hfar : far.getD n (0, 0) = (0, 0) := by
      dsimp only [far]
      have hlt := List.mem_range.1 hn
      rw [hwins]
      interval_cases n <;> rfl
    rw [hfar, rangesMeet_none] at hmeet
    cases hmeet
  have htaken : taken = false := by
    simp only [taken, List.any_eq_false]
    intro c hc
    obtain ⟨hsite, hpart⟩ := hfree c hc
    simp [Option.ne_none_iff_isSome.2 hsite, hpart]
  rw [if_neg (by simp [hempty]), if_neg (by simp [htaken, hmeets]; exact hmask)]
  have hcalm : Calm cores s1 s2 := ((Calm.refl s1).resetCores fun _ => id).clearVaults _ _
  have hregs : QuotaStands (recPart w) (s2.setFld pgFore 0 (recPart w) rForeStreamQuota 18 0 sq) s5 := by
    have hledg : QuotaStands (recPart w) (s2.setFld pgFore 0 (recPart w) rForeStreamQuota 18 0 sq) s3 :=
      QuotaStands.setFld (.setFld ⟨.refl _, rfl⟩ (by decide) (by decide) ..) (by decide) (by decide) ..
    have hlinks : QuotaStands (recPart w) (s2.setFld pgFore 0 (recPart w) rForeStreamQuota 18 0 sq) s4 :=
      .setFld (.setFld (.setFld (.setFld (.setFld (.setFld hledg (by decide) (by decide) ..) (by decide) (by decide) ..) (by decide) (by decide) ..)
        (by decide) (by decide) ..) (by decide) (by decide) ..) (by decide) (by decide) ..
    exact List.foldlRecOn _ _ hlinks fun u hu n _ => .setFld (.setFld hu (by decide) (by decide) ..) (by decide) (by decide) ..
  have hquota : Calm cores s1 (s2.setFld pgFore 0 (recPart w) rForeStreamQuota 18 0 sq) := hcalm.setReg (admKeys_of_off (by decide) _ _ _) _
  have hall : s5.parts = s1.parts := hregs.calm.parts.trans hquota.parts
  have hfar : far = [(0, 0), (0, 0), (0, 0), (0, 0)] := by
    dsimp only [far]
    rw [hwins]
    rfl
  refine ⟨s5, host, ?_, ?_, ?_, ?_⟩
  · simp [hk, State.noteClamps]
  · have hset : AdmKept s s1 := ⟨rfl, rfl, rfl, rfl, fun _ _ => rfl⟩
    exact (hset.calm hquota).calm hregs.calm
  · rw [hall]
    dsimp only [s1]
    rw [hfar]
    rfl
  · have hmin : sq = bits (w.getD 10 0 % 4294967296) 18 0 := Nat.min_eq_right hstreams
    unfold State.fld
    rw [hregs.quota]
    refine (s2.fld_setFld_same _ _ _ _ _ (by decide) (by decide)).trans ?_
    rw [hmin]
    exact Nat.mod_eq_of_lt (Nat.lt_of_le_of_lt hstreams (by decide))

theorem createPartition_moves (hadm : AdmFree s) (hok : CreateOk s w) :
    ∃ t, exec (.createPartition w) s = .next t ∧ Completed s t (recTag w) 0 ∧ (t.part (recPart w)).st = .configured
      ∧ (t.part (recPart w)).cores = groupCores (w.getD 1 0 % 4294967296 + (w.getD 2 0 % 4294967296) <<< 32)
      ∧ t.fld pgFore 0 (recPart w) rForeStreamQuota 18 0 = bits (w.getD 10 0 % 4294967296) 18 0 ∧ PartsKept s t [recPart w] := by
  obtain ⟨u, host, hcreate, hkept, hu, hquota⟩ := State.createPartition_creates (s := touched s) hok
  have hexec : (touched s).admExec 0x01 (recPart w) (recTag w) w = (u, some (stOk, [0, 0, 0])) :=
    congrArg (fun r : AdmRes => (r.1, some r.2)) hcreate
  have ht := State.admDirect_answered hadm hexec (by decide) ⟨hkept.opened, hkept.wait, hkept.tail, hkept.width, hkept.regs⟩
  obtain ⟨hpart, hparts⟩ := ht.moves (s := s) hu
  refine ⟨_, rfl, ht.completed, ?_, ?_, ?_, hparts⟩
  · rw [hpart]; rfl
  · rw [hpart]; rfl
  · unfold State.fld
    rw [ht.reg (recPart_lt w) (by decide)]
    exact hquota

end Sys2Proof.Machine

namespace Sys2Proof.Proofs

open Sys2Proof Sys2Proof.Machine Sys2Proof.Safety Sys2Proof.Claims

/-- Settles O53: a clause per command, each by what the command does to its partition and by what its completion leaves. -/
theorem partitionsMoveThroughTheirStates : Obligations.PartitionsMoveThroughTheirStates := by
  unfold Obligations.PartitionsMoveThroughTheirStates
  intro s w hfree
  exact ⟨createPartition_moves hfree, serve_moves hfree, quiesce_idle_moves hfree, quiesce_running_moves hfree, resetPartition_moves hfree,
    partitionResetDone_moves hfree, destroyPartition_moves hfree, setPolicy_moves hfree⟩

end Sys2Proof.Proofs
end

section
/-! PROOFS. The near aperture names each byte once (R173, R174). O60 is settled at the end. -/

namespace Sys2Proof.Machine

/-- The exclusive or of the two bytes of a granule number (R174): what the aperture adds to a logical vault's number. -/
def nearKey (h : Nat) : Nat := h % 256 ^^^ h / 256 % 256

/-- A field of a word by division. -/
theorem bits_eq_div (v hi lo : Nat) : bits v hi lo = v / 2 ^ lo % 2 ^ (hi + 1 - lo) :=
  congrArg (· % 2 ^ (hi + 1 - lo)) (Nat.shiftRight_eq_div_pow v lo)

theorem nearKey_lt (h : Nat) : nearKey h < 256 :=
  Nat.xor_lt_two_pow (n := 8) (Nat.mod_lt _ (by decide)) (Nat.mod_lt _ (by decide))

/-- Adding a key twice takes it away. -/
theorem xor_nearKey_cancel (v h : Nat) : v ^^^ nearKey h ^^^ nearKey h = v := by
  rw [Nat.xor_assoc, Nat.xor_self, Nat.xor_zero]

theorem nearSplit_eq (o : Nat) :
    nearSplit o = (o / 4096 % 256 ^^^ nearKey (o / 1048576 % 262144), o / 1048576 % 262144 * 4096 + o % 4096) := by
  have hlow : o / 268435456 % 256 = o / 1048576 % 262144 / 256 % 256 := by omega
  have hkey : o / 1048576 % 256 = o / 1048576 % 262144 % 256 := by omega
  simp only [nearSplit, nearKey, bits_eq_div, Nat.reducePow, Nat.reduceAdd, Nat.reduceSub, Nat.div_one, Nat.xor_assoc, hlow, hkey]

theorem nearJoin_eq (v a : Nat) :
    nearJoin v a = a / 4096 % 262144 * 1048576 + (v % 256 ^^^ nearKey (a / 4096 % 262144)) * 4096 + a % 4096 := by
  have hlow : a / 1048576 % 256 = a / 4096 % 262144 / 256 % 256 := by omega
  have hkey : a / 4096 % 256 = a / 4096 % 262144 % 256 := by omega
  simp only [nearJoin, nearKey, bits_eq_div, Nat.shiftLeft_eq, Nat.reducePow, Nat.reduceAdd, Nat.reduceSub, Nat.div_one, Nat.xor_assoc, hlow, hkey]

/-- The granule, the vault byte and the byte offset of a joined offset. -/
theorem nearJoin_fields (v : Nat) {a : Nat} (ha : a < 1073741824) :
    nearJoin v a / 1048576 = a / 4096 ∧ nearJoin v a / 4096 % 256 = (v % 256 ^^^ nearKey (a / 4096)) ∧ nearJoin v a % 4096 = a % 4096 := by
  have hgran : a / 4096 % 262144 = a / 4096 := Nat.mod_eq_of_lt (by omega)
  have hbyte : (v % 256 ^^^ nearKey (a / 4096)) < 256 := Nat.xor_lt_two_pow (n := 8) (Nat.mod_lt _ (by decide)) (nearKey_lt _)
  rw [nearJoin_eq, hgran]
  omega

theorem nearJoin_lt (v : Nat) {a : Nat} (ha : a < 1073741824) : nearJoin v a < 274877906944 := by
  obtain ⟨hgran, -, -⟩ := nearJoin_fields v ha
  omega

theorem nearSplit_bounds (o : Nat) : (nearSplit o).1 < 256 ∧ (nearSplit o).2 < 1073741824 := by
  rw [nearSplit_eq]
  refine ⟨Nat.xor_lt_two_pow (n := 8) (Nat.mod_lt _ (by decide)) (nearKey_lt _), ?_⟩
  dsimp only
  omega

theorem nearJoin_nearSplit {o : Nat} (ho : o < 274877906944) : nearJoin (nearSplit o).1 (nearSplit o).2 = o := by
  have hgran : (o / 1048576 % 262144 * 4096 + o % 4096) / 4096 % 262144 = o / 1048576 % 262144 := by omega
  have hbyte : (o / 4096 % 256 ^^^ nearKey (o / 1048576 % 262144)) < 256 :=
    Nat.xor_lt_two_pow (n := 8) (Nat.mod_lt _ (by decide)) (nearKey_lt _)
  rw [nearJoin_eq, nearSplit_eq]
  dsimp only
  rw [hgran, Nat.mod_eq_of_lt hbyte, xor_nearKey_cancel]
  omega

theorem nearSplit_nearJoin {v a : Nat} (hv : v < 256) (ha : a < 1073741824) : nearSplit (nearJoin v a) = (v, a) := by
  obtain ⟨hgran, hbyte, hoff⟩ := nearJoin_fields v ha
  have hmod : a / 4096 % 262144 = a / 4096 := Nat.mod_eq_of_lt (by omega)
  rw [nearSplit_eq, hgran, hbyte, hoff, hmod, xor_nearKey_cancel, Nat.mod_eq_of_lt hv, Nat.div_add_mod']

/-- The fields of a joined offset (R174). -/
theorem nearJoin_bits {v a : Nat} (hv : v < 256) (ha : a < 1073741824) : bits (nearJoin v a) 11 0 = bits a 11 0
    ∧ bits (nearJoin v a) 37 20 = bits a 29 12 ∧ bits (nearJoin v a) 19 12 = (v ^^^ bits a 19 12 ^^^ bits a 27 20) := by
  obtain ⟨hgran, hbyte, hoff⟩ := nearJoin_fields v ha
  have hkey : a / 1048576 % 256 = a / 4096 / 256 % 256 := by omega
  simp only [bits_eq_div, Nat.reducePow, Nat.reduceAdd, Nat.reduceSub, Nat.div_one, hgran, hbyte, hoff, hkey, nearKey, Nat.mod_eq_of_lt hv,
    Nat.xor_assoc, and_self]

end Sys2Proof.Machine

namespace Sys2Proof.Proofs

open Sys2Proof Sys2Proof.Machine

/-- Settles O60: joining and splitting undo each other, since the vault byte takes the same key both times. -/
theorem nearApertureNamesEachByteOnce : Obligations.NearApertureNamesEachByteOnce := by
  unfold Obligations.NearApertureNamesEachByteOnce
  refine ⟨fun o ho => ⟨(nearSplit_bounds o).1, (nearSplit_bounds o).2, nearJoin_nearSplit ho⟩, fun v hv a ha => ?_⟩
  obtain ⟨hlow, hgran, hbyte⟩ := nearJoin_bits hv ha
  refine ⟨nearJoin_lt v ha, nearSplit_nearJoin hv ha, hlow, hgran, hbyte, fun o ho hsplit => ?_⟩
  rw [← nearJoin_nearSplit ho, hsplit]

end Sys2Proof.Proofs
end

section
/-! PROOFS. The stored lines of a vault's array: what a line reads as after stores, and the lengths of codewords (R313, R314, R316). -/

namespace Sys2Proof.Machine

/-! ### Lengths of codewords -/

theorem polyAdd_length (p q : List Nat) : (polyAdd p q).length = max p.length q.length := by
  fun_induction polyAdd p q with
  | case1 q => simp
  | case2 p _ => simp
  | case3 a p b q ih => simp [ih]

theorem gfPowers_length (f : GField) (n x : Nat) : (gfPowers f n x).length = n := by
  induction n generalizing x with
  | zero => rfl
  | succ n ih => simp [gfPowers, ih]

/-- A step of the division keeps the number of the remainder's symbols. -/
theorem rsShift_length {g rem : List Nat} (hrem : rem.length = 8) (hg : 8 ≤ g.length) (d : Nat) : (rsShift rsLine g rem d).length = 8 := by
  simp [rsShift, rsLine, polyAdd_length, polyScale, hrem, hg]

theorem rsCheck_length (data : List Nat) : (rsCheck rsLine data).length = 8 := by
  have hgen : 8 ≤ (rsGen rsLine).length := by decide
  have hfold : ∀ l rem : List Nat, rem.length = 8 → (l.foldl (rsShift rsLine (rsGen rsLine)) rem).length = 8 := by
    intro l
    induction l with
    | nil => exact fun _ h => h
    | cons d l ih => exact fun rem h => ih _ (rsShift_length h hgen d)
  exact hfold _ _ (by decide)

theorem lineEncode_length (d : List Byte) : (lineEncode d).length = d.length + 8 := by
  simp [lineEncode, rsCheck_length]

/-- A decode keeps the number of a word's symbols. -/
theorem rsDecode_length {word w : List Nat} {k : Nat} (h : rsDecode rsLine word = some (w, k)) (hlen : word.length = 72) : w.length = 72 := by
  revert h
  unfold rsDecode
  extract_lets syn pos
  split
  · rintro ⟨⟩
    exact hlen
  · split
    split
    · intro h
      cases h
    · extract_lets om dl errs cnt fixd
      have hfixd : fixd.length = 72 := by
        simp [fixd, errs, pos, polyAdd_length, gfPowers_length, rsLine, hlen]
      split
      · intro h
        exact (congrArg (List.length ∘ Prod.fst) (Option.some.inj h)).symm.trans hfixd
      · intro h
        cases h

/-- The data of a stored line that decodes clean are 64 bytes. -/
theorem lineDecode_clean_length {st d : List Byte} (h : lineDecode st = .clean d) (hlen : st.length = 72) : d.length = 64 := by
  have hword : ((st.drop 64 ++ st.take 64).map BitVec.toNat).length = 72 := by simp [hlen]
  unfold lineDecode at h
  dsimp only at h
  split at h
  · cases h
  · rename_i w k hdecode
    have hw := rsDecode_length hdecode hword
    split at h
    · cases h
      simp [hw]
    · cases h

/-! ### Reads after stores -/

variable {v : Vault} {l l' : Nat}

theorem Vault.stored_length (v : Vault) (l : Nat) : (v.stored l).length = 72 := by simp [Vault.stored, memBytes]

theorem Vault.stored_store_same (v : Vault) (l : Nat) {cw : List Byte} (h : 72 ≤ cw.length) : (v.store l cw).stored l = cw.take 72 := by
  have hlen : (cw.take 72).length = 72 := by simp [h]
  have hread := memBytes_memSetBytes v.arr (v.physLine l * 72) (cw.take 72)
  rw [hlen] at hread
  exact hread

theorem Vault.stored_store_other (h : v.physLine l' ≠ v.physLine l) (cw : List Byte) : (v.store l cw).stored l' = v.stored l' := by
  have hlen : (cw.take 72).length ≤ 72 := by simp
  refine List.map_congr_left fun i hi => memByte_memSetBytes_outside v.arr ?_
  have hi72 : i < 72 := List.mem_range.mp hi
  show v.physLine l' * 72 + i < v.physLine l * 72 ∨ _ ≤ v.physLine l' * 72 + i
  omega

/-- What is stored for a line is the array's and the remap table's. -/
theorem Vault.stored_congr {w : Vault} (harr : w.arr = v.arr) (hremap : w.remap = v.remap) (l : Nat) : w.stored l = v.stored l := by
  unfold Vault.stored Vault.physLine
  rw [harr, hremap]

/-- Valid bits and change flags are not among what a line reads as. -/
theorem Vault.stored_marked (v : Vault) (valid flags : List Nat) (l : Nat) :
    ({ v with valid := valid, flags := flags } : Vault).stored l = v.stored l := rfl

/-- Codewords stored one after another. -/
def Vault.storeAll {α : Type} (v : Vault) (line : α → Nat) (cw : α → List Byte) (ks : List α) : Vault :=
  ks.foldl (fun v k => v.store (line k) (cw k)) v

theorem Vault.foldN_store (v : Vault) (n : Nat) (line : Nat → Nat) (cw : Nat → List Byte) :
    foldN n (fun i v => v.store (line i) (cw i)) v = v.storeAll line cw (List.range n) := rfl

section

variable {α : Type} {line : α → Nat} {cw : α → List Byte}

/-- Stores change the array alone. -/
theorem Vault.storeAll_eq (v : Vault) (line : α → Nat) (cw : α → List Byte) (ks : List α) :
    ∃ m, v.storeAll line cw ks = { v with arr := m } := by
  induction ks generalizing v with
  | nil => exact ⟨v.arr, rfl⟩
  | cons k ks ih => exact ih (v.store (line k) (cw k))

theorem Vault.storeAll_concat (v : Vault) (line : α → Nat) (cw : α → List Byte) (ks : List α) (k : α) :
    v.storeAll line cw (ks ++ [k]) = (v.storeAll line cw ks).store (line k) (cw k) := by
  simp [Vault.storeAll]

theorem Vault.physLine_storeAll (v : Vault) (line : α → Nat) (cw : α → List Byte) (ks : List α) (l : Nat) :
    (v.storeAll line cw ks).physLine l = v.physLine l := by
  obtain ⟨m, hm⟩ := v.storeAll_eq line cw ks
  rw [hm]
  rfl

/-- Where the lines lie apart, each reads as its own codeword. -/
theorem Vault.stored_storeAll {ks : List α} {k : α} (hcw : ∀ k ∈ ks, 72 ≤ (cw k).length)
    (hapart : ∀ j ∈ ks, ∀ k ∈ ks, v.physLine (line j) = v.physLine (line k) → j = k) (hk : k ∈ ks) :
    (v.storeAll line cw ks).stored (line k) = (cw k).take 72 := by
  induction ks using List.reverseRecOn with
  | nil => cases hk
  | append_singleton ks x ih =>
    rw [Vault.storeAll_concat]
    by_cases hx : v.physLine (line k) = v.physLine (line x)
    · obtain rfl := hapart k hk x (by simp) hx
      exact Vault.stored_store_same _ _ (hcw k hk)
    · have hmem : k ∈ ks := by
        rcases List.mem_append.mp hk with hks | hlast
        · exact hks
        · exact absurd (congrArg (fun j => v.physLine (line j)) (List.mem_singleton.mp hlast)) hx
      have hother : (v.storeAll line cw ks).physLine (line k) ≠ (v.storeAll line cw ks).physLine (line x) := by
        simpa [Vault.physLine_storeAll] using hx
      rw [Vault.stored_store_other hother]
      exact ih (fun j hj => hcw j (by simp [hj])) (fun i hi j hj => hapart i (by simp [hi]) j (by simp [hj])) hmem

end

/-- Without spared rows a line stands at its own place (R323). -/
theorem Vault.physLine_unspared (h : v.remap = []) (l : Nat) : v.physLine l = l := by
  simp [Vault.physLine, h]

/-- Without spared rows a granule's 64 lines read as they were stored. -/
theorem Vault.stored_granule {cw : Nat → List Byte} (hremap : v.remap = []) (hcw : ∀ i < 64, 72 ≤ (cw i).length) (g : Nat) {i : Nat}
    (hi : i < 64) : (v.storeAll (fun i => g * 64 + i) cw (List.range 64)).stored (g * 64 + i) = (cw i).take 72 := by
  refine Vault.stored_storeAll (line := fun i => g * 64 + i) (fun k hk => hcw k (List.mem_range.mp hk)) (fun j _ k _ hjk => ?_)
    (List.mem_range.mpr hi)
  rw [Vault.physLine_unspared hremap, Vault.physLine_unspared hremap] at hjk
  omega

end Sys2Proof.Machine
end

section
/-! PROOFS. One line of a vault: reads, writes, drains and evictions (R178, R179, R183, R185, R188 to R190). O28 and O29 are settled at the
end. -/

namespace Sys2Proof.Safety

open Sys2Proof.Machine

variable {s t : State} {f : Reach}

theorem Kept.setVault (h : Kept f s t) (hf : f.vaults = true) (p : Nat) (x : Vault) : Kept f s (t.setVault p x) :=
  h.modVault hf p (fun _ => x)

/-- A change of one vault leaves the others. -/
theorem VaultsKept.modified (s : State) (p : Nat) (g : Vault → Vault) : VaultsKept s (s.modVault p g) [p] :=
  VaultsKept.modVault (.of_vaults_eq rfl) (List.mem_singleton.mpr rfl) g

end Sys2Proof.Safety

namespace Sys2Proof.Machine

open Sys2Proof.Safety Sys2Proof.Claims

variable {s w : State} {v l ln addr : Nat} {d : List Byte} {noise : BitVec 576}

/-! ### Shared facts -/

theorem State.reg_bump_other {code inst bank off code' inst' bank' off' n : Nat} (h : off' % 4096 ≠ off % 4096) :
    (s.bump code inst bank off n).reg code' inst' bank' off' = s.reg code' inst' bank' off' :=
  State.reg_setReg_other _ _ (regKey_ne_of_off h)

theorem mem_insNat_of_ne {x y : Nat} (h : x ≠ y) (m : List Nat) : x ∈ insNat m y ↔ x ∈ m := by
  fun_induction insNat m y with
  | case1 => simp [h]
  | case2 => rfl
  | case3 => simp [h]
  | case4 z r _ _ ih => simp [ih]

/-- Without a lost line of the tables nothing is rebuilt. -/
theorem State.tablesResolve_of_noTableLost (h : NoTableLost s v) : s.tablesResolve v = s := by
  have hnone : (s.vault v).lostLines.filter (fun e => e.2 = 3) = [] := List.filter_eq_nil_iff.mpr fun e he => by simp [h e he]
  unfold State.tablesResolve
  rw [hnone]
  rfl

theorem State.lineAnswer_data (d : List Byte) :
    s.lineAnswer v addr (some d) = (s.bump pgVlt v 0 rVltGuestLines 1).emit (.line v addr (some d)) := rfl

/-! ### Reads of a line -/

/-- A line of the write queue is read from there, whatever the cells show (R179). -/
theorem State.readLine_of_queue (hmb : ∀ e ∈ (s.vault v).mb, e.line ≠ ln) (hwq : (s.vault v).wq.find? (fun e => e.1 = ln) = some (ln, d)) :
    s.readLine v ln noise = (s, some d) := by
  have hmerge : (s.vault v).mb.any (fun e => e.line = ln) = false := by simpa using hmb
  unfold State.readLine
  rw [hmerge, if_neg Bool.false_ne_true, hwq]

/-- A line of an unwritten granule reads as zeros, and counts (R188). -/
theorem State.arrayRead_unwritten (h : (s.vault v).isValid (ln / 64) = false) :
    s.arrayRead v ln noise = (s.bump pgVlt v 0 rVltZeroRead 1, some (List.replicate 64 0)) := by
  unfold State.arrayRead
  dsimp only
  rw [h, Bool.not_false, if_pos rfl]

/-- A sound line of the array is read as it decodes (R316). -/
theorem State.arrayRead_clean (hvalid : (s.vault v).isValid (ln / 64) = true) (hflag : (s.vault v).flags.contains ln = false)
    (hclean : lineDecode (noisy ((s.vault v).stored ln) noise) = .clean d) :
    s.arrayRead v ln noise = (s.bump pgVlt v 0 rVltRdLines 1, some d) := by
  unfold State.arrayRead
  dsimp only
  rw [hvalid, Bool.not_true, if_neg Bool.false_ne_true, hflag, if_neg Bool.false_ne_true, hclean]

theorem State.readLine_of_array (hmb : (s.vault v).mb = []) (hwq : (s.vault v).wq.find? (fun e => e.1 = ln) = none) :
    s.readLine v ln noise = s.arrayRead v ln noise := by
  unfold State.readLine
  rw [hmb, hwq]
  rfl

/-- An open vault answers a read with what its line reads as. -/
theorem exec_vaultRead (hopen : Open s v addr) (hread : s.readLine v (addr / 64) noise = (w, some d)) (hkept : Kept { regs := true } s w)
    (hlost : NoTableLost s v) :
    exec (.vaultRead v addr noise 0) s = .next ((w.bump pgVlt v 0 rVltGuestLines 1).emit (.line v addr (some d))) := by
  obtain ⟨hmode, hbusy, haddr⟩ := hopen
  have hanswer : Kept { regs := true, sent := true } s ((w.bump pgVlt v 0 rVltGuestLines 1).emit (.line v addr (some d))) :=
    ((hkept.mono rfl).bump rfl ..).emit rfl _
  have hlost' : NoTableLost ((w.bump pgVlt v 0 rVltGuestLines 1).emit (.line v addr (some d))) v := by
    unfold NoTableLost
    rw [State.vault_congr (hanswer.vaults rfl)]
    exact hlost
  have herr : s.shellErr v (addr / 64) 0 = s := rfl
  show execVaultRead v addr noise 0 s = _
  unfold execVaultRead
  dsimp only
  rw [Nat.mod_eq_of_lt haddr, hmode, hbusy, if_pos (by decide), herr, hread]
  dsimp only
  rw [State.lineAnswer_data, State.tablesResolve_of_noTableLost hlost', (hanswer.mono rfl).take_eq]

/-- The claim on unwritten granules, for one read (R188). -/
theorem vaultRead_unwritten (hopen : Open s v addr) (hvalid : (s.vault v).isValid (addr / 4096) = false)
    (hwq : (s.vault v).wq.find? (fun e => e.1 = addr / 64) = none) (hmb : (s.vault v).mb = []) (hlost : NoTableLost s v) :
    ∃ t, exec (.vaultRead v addr noise 0) s = .next t ∧ t.sent = .line v addr (some (List.replicate 64 0)) :: s.sent
      ∧ t.reg pgVlt v 0 rVltZeroRead = s.reg pgVlt v 0 rVltZeroRead + 1 ∧ t.reg pgVlt v 0 rVltRdLines = s.reg pgVlt v 0 rVltRdLines
      ∧ (∀ p, t.vault p = s.vault p) ∧ Kept { regs := true, vaults := true, sent := true } s t := by
  have hgran : addr / 64 / 64 = addr / 4096 := Nat.div_div_eq_div_mul ..
  have hread := (State.readLine_of_array hmb hwq).trans (State.arrayRead_unwritten (noise := noise) (hgran ▸ hvalid))
  have hzero : Kept { regs := true } s (s.bump pgVlt v 0 rVltZeroRead 1) := (Kept.refl ..).bump rfl ..
  refine ⟨_, exec_vaultRead hopen hread hzero hlost, rfl, ?_, ?_, fun p => State.vault_congr rfl p, ((hzero.mono rfl).bump rfl ..).emit rfl _⟩
  · exact (State.reg_bump_other (by decide)).trans (State.reg_bump_same ..)
  · exact (State.reg_bump_other (by decide)).trans (State.reg_bump_other (by decide))

/-- The claim on queued lines, for one read (R179). -/
theorem vaultRead_queued (hopen : Open s v addr) (hwq : (s.vault v).wq.find? (fun e => e.1 = addr / 64) = some (addr / 64, d))
    (hmb : ∀ e ∈ (s.vault v).mb, e.line ≠ addr / 64) (hlost : NoTableLost s v) :
    ∃ t, exec (.vaultRead v addr noise 0) s = .next t ∧ t.sent = .line v addr (some d) :: s.sent
      ∧ t.reg pgVlt v 0 rVltGuestLines = s.reg pgVlt v 0 rVltGuestLines + 1
      ∧ (∀ p, t.vault p = s.vault p) ∧ Kept { regs := true, vaults := true, sent := true } s t :=
  ⟨_, exec_vaultRead hopen (State.readLine_of_queue hmb hwq) (Kept.refl ..) hlost, rfl, State.reg_bump_same ..,
    fun p => State.vault_congr rfl p, ((Kept.refl ..).bump rfl ..).emit rfl _⟩

/-! ### Writes within a line -/

section Write

variable {i : Nat} {bs : List Byte}

theorem State.dropRewrite_vault (p l : Nat) : (s.dropRewrite p l).vault p = (s.vault p).rewriteDropped l := by
  rw [State.dropRewrite_eq]
  split
  · exact (State.vault_congr (s := s.modVault p (·.rewriteDropped l)) rfl p).trans (State.vault_modVault_same ..)
  · rename_i hnone
    have hkeep : (s.vault p).rewrites.filter (fun e => e.1 != l) = (s.vault p).rewrites := by
      rw [List.filter_eq_self]
      intro e he
      by_contra hl
      exact hnone (List.any_eq_true.mpr ⟨e, he, by simpa using hl⟩)
    rw [Vault.rewriteDropped, hkeep]

/-- A write of bytes of one line whose granule has data goes to the vault that serves it (R177, R184). -/
theorem State.vaultPut_within (hmigs : s.abs.migs = []) (hv : s.vaultOf l = some v) (haddr : addr < 1073741824) (hpos : 0 < bs.length)
    (hfit : addr % 64 + bs.length ≤ 64) (hvalid : (s.vault v).isValid (addr / 4096) = true) :
    ∃ n, s.vaultPut l addr bs = s.putLine v (addr / 64) (addr % 64) bs false n := by
  have hgran : addr / 64 / 64 = addr / 4096 := Nat.div_div_eq_div_mul ..
  have hcnt : (addr + bs.length - 1) / 64 - addr / 64 + 1 = 1 := by omega
  have hline : (addr / 64 + 0) % 16777216 = addr / 64 := by omega
  have hfrom : (addr / 64 + 0) * 64 + addr % 64 - addr = 0 := by omega
  have hseg : (bs.drop 0).take (64 - addr % 64) = bs := List.take_of_length_le (by simp; omega)
  have hmigrate : s.migrateGranule l (addr / 4096) = s := by simp [State.migrateGranule, hmigs]
  refine ⟨fillLines addr bs.length ((addr / 64 + 0) / 64), ?_⟩
  unfold State.vaultPut
  rw [if_neg (by simp [List.isEmpty_iff, List.ne_nil_of_length_pos hpos])]
  dsimp only
  rw [hcnt]
  simp only [List.range_one, List.foldl_cons, List.foldl_nil, if_true, hline, hfrom, hseg, hgran, hmigrate, State.holder_of_no_migs hmigs, hv,
    hvalid, Bool.not_true, Bool.and_false]

theorem State.putLine_whole (n : Nat) (hvalid : (s.vault v).isValid (ln / 64) = true) (hlen : bs.length = 64) :
    s.putLine v ln 0 bs false n = s.acceptLine v ln bs := by
  simp [State.putLine, State.materialise, hvalid, hlen]

theorem State.putLine_narrow (n : Nat) (hvalid : (s.vault v).isValid (ln / 64) = true) (hlen : bs.length ≠ 64) :
    s.putLine v ln i bs false n = s.acceptNarrow v ln i bs false := by
  simp [State.putLine, State.materialise, hvalid, hlen]

/-- The bytes of a new merge entry: those of a write from byte i of the line. -/
def mergeBytes (i : Nat) (bs : List Byte) : List (Option Byte) :=
  (List.range 64).map (fun k => if i ≤ k ∧ k < i + bs.length then some (bs.getD (k - i) 0) else none)

theorem mergeBytes_getD {k : Nat} (hk : k < 64) :
    (mergeBytes i bs).getD k none = if i ≤ k ∧ k < i + bs.length then some (bs.getD (k - i) 0) else none := by
  simp [mergeBytes, hk]

/-- A write joins a vault's merge buffer (R184). -/
def Vault.merging (x : Vault) (ln i : Nat) (bs : List Byte) : Vault := { x with mb := x.mb ++ [⟨ln, mergeBytes i bs, false, false⟩] }

/-- With room in the merge buffer nothing is evicted. -/
theorem foldl_evict_of_room (p : Nat) (es : List MergeEnt) (h : (s.vault p).mb.length < 64) :
    es.foldl (fun s e => if (s.vault p).mb.length < 64 then s else s.evict p e.line 0) s = s := by
  induction es with
  | nil => rfl
  | cons e es ih => rw [List.foldl_cons, if_pos h, ih]

theorem State.acceptNarrow_new (hnew : (s.vault v).mb.find? (fun e => e.line = ln) = none) (hroom : (s.vault v).mb.length < 64) :
    s.acceptNarrow v ln i bs false = (s.dropRewrite v ln).modVault v (·.merging ln i bs) := by
  have hmb : ((s.dropRewrite v ln).vault v).mb = (s.vault v).mb := by
    rw [State.dropRewrite_vault, Vault.rewriteDropped]
  have hroom' : ((s.dropRewrite v ln).vault v).mb.length < 64 := hmb ▸ hroom
  unfold State.acceptNarrow
  dsimp only
  rw [hmb, hnew, foldl_evict_of_room v _ hroom', if_pos hroom']
  rfl

/-- A write that a vault in MEMORY serves at once (R179). -/
theorem exec_vaultWrite (hopen : Open s v addr) (hrole : (s.vault v).role = .logical) (hsnap : s.snap = none) (hpos : 0 < bs.length)
    (hfit : addr % 64 + bs.length ≤ 64) (hput : s.vaultPut (s.vault v).logical addr bs = w) (hkept : Kept { regs := true, vaults := true } s w) :
    exec (.vaultWrite v addr bs) s = .next (w.bump pgVlt v 0 rVltGuestLines 1) := by
  obtain ⟨hmode, hbusy, haddr⟩ := hopen
  have hgrans : granulesOf addr bs.length = 1 := by
    unfold granulesOf
    rw [if_neg (by omega)]
    omega
  have hfree : GuestReq.busy (.write none addr bs) (s.vault v) = false := by
    show (s.vault v).busyIn (addr / 4096) (granulesOf addr bs.length) = false
    rw [hgrans]
    exact Vault.busyIn_one hbusy
  have hwrite : s.vaultWrite (s.vault v).logical addr bs = w := by
    unfold State.vaultWrite State.snapRange
    rw [hsnap]
    exact hput
  have hone : ceilDiv (addr % 64 + bs.length) 64 = 1 := by
    unfold ceilDiv
    omega
  show execVaultWrite v addr bs s = _
  unfold execVaultWrite State.guestArrive
  rw [Nat.mod_eq_of_lt haddr, hmode, hfree, if_pos (by decide)]
  unfold State.serveGuest
  dsimp only
  rw [hrole, hone, if_pos (by decide), hwrite, ((hkept.mono rfl).bump rfl ..).take_eq]

end Write

/-! ### Drains, evictions and materialisation -/

/-- A vault after its one queued line has gone to the array. -/
def Vault.drained (x : Vault) (ln : Nat) (d : List Byte) : Vault := { x.store ln (lineEncode d) with wq := [], rewrites := [] }

/-- The drain of one queued line. -/
def State.lineDrained (s : State) (v ln : Nat) (d : List Byte) : State :=
  (((s.setVault v ((s.vault v).drained ln d)).bump pgVlt v 0 rVltWrLines 1).bump pgVlt v 0 rVltRewrites 0).bump pgVlt v 0 rVltTurnaround 2

theorem State.drainWq_one (hwq : (s.vault v).wq = [(ln, d)]) (hfilling : (s.vault v).filling = []) (hrewrites : (s.vault v).rewrites = []) :
    s.drainWq v = s.lineDrained v ln d := by
  unfold State.drainWq
  simp only [hwq, hfilling, hrewrites]
  rfl

theorem State.lineDrained_vault : (s.lineDrained v ln d).vault v = (s.vault v).drained ln d :=
  (State.vault_congr rfl v).trans (State.vault_setVault_same ..)

theorem exec_writeDrain_one (hmode : (s.vault v).mode = .memory) (hwq : (s.vault v).wq = [(ln, d)]) (hfilling : (s.vault v).filling = [])
    (hrewrites : (s.vault v).rewrites = []) (hlost : NoTableLost s v) : exec (.writeDrain v 0) s = .next (s.lineDrained v ln d) := by
  have hkept : Kept { regs := true, vaults := true } s (s.lineDrained v ln d) :=
    ((((Kept.refl ..).setVault rfl ..).bump rfl ..).bump rfl ..).bump rfl ..
  have hlost' : NoTableLost (s.lineDrained v ln d) v := by
    unfold NoTableLost
    rw [State.lineDrained_vault]
    exact hlost
  have herr : s.shellErr v ln 0 = s := rfl
  show execWriteDrain v 0 s = _
  unfold execWriteDrain
  rw [hwq]
  dsimp only
  rw [if_pos hmode, herr, State.drainWq_one hwq hfilling hrewrites, State.tablesResolve_of_noTableLost hlost', (hkept.mono rfl).take_eq]

theorem writeDrain_one (hmode : (s.vault v).mode = .memory) (hwq : (s.vault v).wq = [(ln, d)]) (hd : d.length = 64)
    (hfilling : (s.vault v).filling = []) (hrewrites : (s.vault v).rewrites = []) (hlost : NoTableLost s v) :
    ∃ t, exec (.writeDrain v 0) s = .next t ∧ (t.vault v).wq = [] ∧ (t.vault v).stored ln = (lineEncode d).take 72
      ∧ t.reg pgVlt v 0 rVltWrLines = s.reg pgVlt v 0 rVltWrLines + 1
      ∧ t.reg pgVlt v 0 rVltTurnaround = s.reg pgVlt v 0 rVltTurnaround + 2
      ∧ VaultsKept s t [v] ∧ Kept { regs := true, vaults := true } s t := by
  have hlen : 72 ≤ (lineEncode d).length := by rw [lineEncode_length, hd]
  refine ⟨_, exec_writeDrain_one hmode hwq hfilling hrewrites hlost, ?_, ?_, ?_, ?_, ?_, ?_⟩
  · rw [State.lineDrained_vault]
    rfl
  · rw [State.lineDrained_vault]
    exact Vault.stored_store_same _ _ hlen
  · exact (State.reg_bump_other (by decide)).trans ((State.reg_bump_other (by decide)).trans (State.reg_bump_same ..))
  · exact (State.reg_bump_same ..).trans
      (congrArg (· + 2) ((State.reg_bump_other (by decide)).trans (State.reg_bump_other (by decide))))
  · exact (VaultsKept.modified s v (fun x => x.drained ln d)).trans_of_vaults_eq rfl
  · exact ((((Kept.refl ..).setVault rfl ..).bump rfl ..).bump rfl ..).bump rfl ..

/-- The array has been read for an eviction. -/
def State.mergeRead (s : State) (v : Nat) : State := (s.bump pgVlt v 0 rVltRdLines 1).bump pgVlt v 0 rVltRmw 1

theorem State.evict_clean {e : MergeEnt} (he : (s.vault v).mb.find? (fun x => x.line = ln) = some e) (hfresh : e.fresh = false)
    (hwq : (s.vault v).wq.find? (fun y => y.1 = ln) = none) (hread : s.arrayRead v ln noise = (s.bump pgVlt v 0 rVltRdLines 1, some d)) :
    s.evict v ln noise = (s.mergeRead v).acceptLine v ln (overlay e.data d) := by
  unfold State.evict State.evictLine
  rw [he]
  dsimp only
  rw [hwq]
  dsimp only
  rw [hfresh, if_neg Bool.false_ne_true, hread]
  rfl

/-- A byte of a merged line is the entry's, and the stored one where the entry has none. -/
theorem overlay_getD {data : List (Option Byte)} {k : Nat} (hk : k < 64) :
    (overlay data d).getD k 0 = (data.getD k none).getD (d.getD k 0) := by
  simp only [overlay, List.getD_eq_getElem?_getD, List.getElem?_map, List.getElem?_range hk, Option.map_some, Option.getD_some]
  cases data[k]?.getD none <;> rfl

/-- A whole line in the write queue (R183). -/
theorem State.lineWritten_vault : (s.lineWritten v ln d).vault v = ((s.vault v).rewriteDropped ln).queued ln d := by
  rw [State.vault_congr (t := s.lineWritten v ln d) (s := (s.dropRewrite v ln).modVault v (fun x => x.queued ln d)) rfl,
    State.vault_modVault_same, State.dropRewrite_vault]

section Write

variable {bs : List Byte}

/-- A whole-line write of a granule with data joins the write queue (R183, R186). -/
theorem vaultWrite_whole (hopen : Open s v addr) (hrole : (s.vault v).role = .logical) (hserves : s.vaultOf (s.vault v).logical = some v)
    (hmigs : s.abs.migs = []) (hsnap : s.snap = none) (hvalid : (s.vault v).isValid (addr / 4096) = true)
    (hroom : (s.vault v).wq.length + 1 < s.fld pgVlt v 0 rVltCfg 6 0) (hlen : bs.length = 64) (halign : addr % 64 = 0) :
    ∃ t, exec (.vaultWrite v addr bs) s = .next t
      ∧ (t.vault v).wq = (s.vault v).wq.filter (fun e => e.1 != addr / 64) ++ [(addr / 64, bs)]
      ∧ (t.vault v).mb = (s.vault v).mb.filter (fun e => e.line != addr / 64) ∧ (t.vault v).arr = (s.vault v).arr
      ∧ (t.vault v).valid = (s.vault v).valid ∧ VaultsKept s t [v] ∧ Kept { regs := true, vaults := true } s t := by
  obtain ⟨-, -, haddr⟩ := id hopen
  have hgran : addr / 64 / 64 = addr / 4096 := Nat.div_div_eq_div_mul ..
  obtain ⟨n, hput⟩ := State.vaultPut_within (bs := bs) hmigs hserves haddr (by omega) (by omega) hvalid
  rw [halign, State.putLine_whole n (hgran ▸ hvalid) hlen, State.acceptLine_below hroom] at hput
  have hexec := exec_vaultWrite hopen hrole hsnap (by omega) (by omega) hput ((State.dropRewrite_kept ..).modVault rfl ..)
  refine ⟨s.lineWritten v (addr / 64) bs, hexec, ?_, ?_, ?_, ?_, State.lineWritten_vaults, State.lineWritten_kept⟩ <;>
    rw [State.lineWritten_vault] <;> rfl

/-- A part of a line that joins the merge buffer, and counts (R184). -/
def State.narrowWritten (s : State) (v ln i : Nat) (bs : List Byte) : State :=
  ((s.dropRewrite v ln).modVault v (·.merging ln i bs)).bump pgVlt v 0 rVltGuestLines 1

theorem State.narrowWritten_vault (i : Nat) : (s.narrowWritten v ln i bs).vault v = ((s.vault v).rewriteDropped ln).merging ln i bs := by
  rw [State.vault_congr (t := s.narrowWritten v ln i bs) (s := (s.dropRewrite v ln).modVault v (·.merging ln i bs)) rfl,
    State.vault_modVault_same, State.dropRewrite_vault]

theorem State.narrowWritten_vaults (i : Nat) : VaultsKept s (s.narrowWritten v ln i bs) [v] :=
  ((State.dropRewrite_vaults v ln).modVault (List.mem_singleton.mpr rfl) (·.merging ln i bs)).trans_of_vaults_eq rfl

theorem State.narrowWritten_kept (i : Nat) : Kept { regs := true, vaults := true } s (s.narrowWritten v ln i bs) :=
  ((State.dropRewrite_kept v ln).modVault rfl ..).bump rfl ..

/-- A narrow write of a granule with data joins the merge buffer where the line has no entry and an entry is free (R184). -/
theorem vaultWrite_narrow (hopen : Open s v addr) (hrole : (s.vault v).role = .logical) (hserves : s.vaultOf (s.vault v).logical = some v)
    (hmigs : s.abs.migs = []) (hsnap : s.snap = none) (hvalid : (s.vault v).isValid (addr / 4096) = true) (hpos : 0 < bs.length)
    (hfit : addr % 64 + bs.length ≤ 64) (hlen : bs.length ≠ 64) (hnew : (s.vault v).mb.find? (fun e => e.line = addr / 64) = none)
    (hfree : (s.vault v).mb.length < 64) :
    ∃ t e, exec (.vaultWrite v addr bs) s = .next t ∧ (t.vault v).mb = (s.vault v).mb ++ [e] ∧ e.line = addr / 64 ∧ e.held = false
      ∧ (∀ k < 64, e.data.getD k none = if addr % 64 ≤ k ∧ k < addr % 64 + bs.length then some (bs.getD (k - addr % 64) 0) else none)
      ∧ (t.vault v).arr = (s.vault v).arr ∧ (t.vault v).wq = (s.vault v).wq ∧ VaultsKept s t [v]
      ∧ Kept { regs := true, vaults := true } s t := by
  obtain ⟨-, -, haddr⟩ := id hopen
  have hgran : addr / 64 / 64 = addr / 4096 := Nat.div_div_eq_div_mul ..
  obtain ⟨n, hput⟩ := State.vaultPut_within (bs := bs) hmigs hserves haddr hpos hfit hvalid
  rw [State.putLine_narrow n (hgran ▸ hvalid) hlen, State.acceptNarrow_new hnew hfree] at hput
  have hexec := exec_vaultWrite hopen hrole hsnap hpos hfit hput ((State.dropRewrite_kept ..).modVault rfl ..)
  refine ⟨s.narrowWritten v (addr / 64) (addr % 64) bs, ⟨addr / 64, mergeBytes (addr % 64) bs, false, false⟩, hexec, ?_, rfl, rfl,
    fun k hk => mergeBytes_getD hk, ?_, ?_, State.narrowWritten_vaults _, State.narrowWritten_kept _⟩ <;>
    rw [State.narrowWritten_vault] <;> rfl

end Write

/-- A vault's merge entry has become a queued line (R185). -/
def State.lineEvicted (s : State) (v ln : Nat) (x : List Byte) : State :=
  ((s.mergeRead v).dropRewrite v ln).modVault v (fun y => y.queued ln x)

theorem State.lineEvicted_vault (x : List Byte) : (s.lineEvicted v ln x).vault v = ((s.vault v).rewriteDropped ln).queued ln x := by
  rw [State.lineEvicted, State.vault_modVault_same, State.dropRewrite_vault, State.vault_congr (t := s.mergeRead v) (s := s) rfl]

theorem State.lineEvicted_kept (x : List Byte) : Kept { regs := true, vaults := true } s (s.lineEvicted v ln x) := by
  have hread : Kept { regs := true, vaults := true } s (s.mergeRead v) := ((Kept.refl ..).bump rfl ..).bump rfl ..
  exact (hread.trans (State.dropRewrite_kept v ln)).modVault rfl ..

theorem State.lineEvicted_vaults (x : List Byte) : VaultsKept s (s.lineEvicted v ln x) [v] := by
  have hread : VaultsKept s (s.mergeRead v) [v] := .of_vaults_eq rfl
  have hdrop : VaultsKept s ((s.mergeRead v).dropRewrite v ln) [v] := fun p hp => (State.dropRewrite_vaults v ln p hp).trans (hread p hp)
  exact hdrop.modVault (List.mem_singleton.mpr rfl) _

theorem State.reg_mergeRead {off : Nat} (hread : off % 4096 ≠ rVltRdLines) (hrmw : off % 4096 ≠ rVltRmw) :
    (s.mergeRead v).reg pgVlt v 0 off = s.reg pgVlt v 0 off :=
  (State.reg_bump_other hrmw).trans (State.reg_bump_other hread)

theorem State.lineEvicted_rmw (x : List Byte) : (s.lineEvicted v ln x).reg pgVlt v 0 rVltRmw = s.reg pgVlt v 0 rVltRmw + 1 := by
  have hdrop : ((s.mergeRead v).dropRewrite v ln).reg pgVlt v 0 rVltRmw = (s.mergeRead v).reg pgVlt v 0 rVltRmw := by
    rw [State.dropRewrite_eq]
    split
    · exact State.reg_bump_other (by decide)
    · rfl
  exact hdrop.trans ((State.reg_bump_same ..).trans (congrArg (· + 1) (State.reg_bump_other (by decide))))

section Evict

variable {e : MergeEnt} (he : (s.vault v).mb.find? (fun x => x.line = ln) = some e)

include he

theorem State.evict_below (hfresh : e.fresh = false) (hwq : (s.vault v).wq.find? (fun y => y.1 = ln) = none)
    (hread : s.arrayRead v ln noise = (s.bump pgVlt v 0 rVltRdLines 1, some d))
    (hroom : (s.vault v).wq.length + 1 < s.fld pgVlt v 0 rVltCfg 6 0) : s.evict v ln noise = s.lineEvicted v ln (overlay e.data d) := by
  have hvault : (s.mergeRead v).vault v = s.vault v := State.vault_congr rfl v
  have hcfg : (s.mergeRead v).fld pgVlt v 0 rVltCfg 6 0 = s.fld pgVlt v 0 rVltCfg 6 0 := by
    unfold State.fld
    rw [State.reg_mergeRead (by decide) (by decide)]
  rw [State.evict_clean he hfresh hwq hread]
  exact State.acceptLine_below (by rw [hvault, hcfg]; exact hroom)

theorem exec_mergeEvict {x : List Byte} (hmode : (s.vault v).mode = .memory) (hheld : e.held = false) (hlost : NoTableLost s v)
    (hevict : s.evict v ln noise = s.lineEvicted v ln x) : exec (.mergeEvict v ln noise 0) s = .next (s.lineEvicted v ln x) := by
  have hany : (s.vault v).mb.any (fun e => e.line = ln && !e.held) = true :=
    List.any_eq_true.mpr ⟨e, List.mem_of_find?_eq_some he, by simpa [hheld] using List.find?_some he⟩
  have hlost' : NoTableLost (s.lineEvicted v ln x) v := by
    unfold NoTableLost
    rw [State.lineEvicted_vault]
    exact fun y hy => hlost y (List.mem_of_mem_filter hy)
  have herr : s.shellErr v ln 0 = s := rfl
  show execMergeEvict v ln noise 0 s = _
  unfold execMergeEvict
  rw [hmode, hany, if_pos (by decide), herr, hevict, State.tablesResolve_of_noTableLost hlost', ((State.lineEvicted_kept x).mono rfl).take_eq]

/-- An evicted merge entry becomes a queued line of its bytes over the stored ones (R185). -/
theorem mergeEvict_clean (hmode : (s.vault v).mode = .memory) (hheld : e.held = false) (hfresh : e.fresh = false)
    (hvalid : (s.vault v).isValid (ln / 64) = true) (hlost : NoTableLost s v) (hwq : (s.vault v).wq.find? (fun y => y.1 = ln) = none)
    (hflag : (s.vault v).flags.contains ln = false) (hclean : lineDecode (noisy ((s.vault v).stored ln) noise) = .clean d)
    (hroom : (s.vault v).wq.length + 1 < s.fld pgVlt v 0 rVltCfg 6 0) :
    ∃ t, exec (.mergeEvict v ln noise 0) s = .next t ∧ (t.vault v).mb = (s.vault v).mb.filter (fun x => x.line != ln)
      ∧ (∃ x, (t.vault v).wq = (s.vault v).wq.filter (fun y => y.1 != ln) ++ [(ln, x)]
          ∧ ∀ k < 64, x.getD k 0 = match e.data.getD k none with | some b => b | none => d.getD k 0)
      ∧ t.reg pgVlt v 0 rVltRmw = s.reg pgVlt v 0 rVltRmw + 1 ∧ VaultsKept s t [v] ∧ Kept { regs := true, vaults := true } s t := by
  have hevict := State.evict_below he hfresh hwq (State.arrayRead_clean hvalid hflag hclean) hroom
  refine ⟨_, exec_mergeEvict he hmode hheld hlost hevict, ?_, ⟨overlay e.data d, ?_, fun k hk => ?_⟩,
    State.lineEvicted_rmw _, State.lineEvicted_vaults _, State.lineEvicted_kept _⟩
  · rw [State.lineEvicted_vault]
    rfl
  · rw [State.lineEvicted_vault]
    rfl
  · rw [overlay_getD hk]
    cases e.data.getD k none <;> rfl

end Evict

/-- A vault after a granule has been filled with encoded zeros (R189). -/
def Vault.materialised (x : Vault) (g : Nat) : Vault := { x.storeAll (fun i => g * 64 + i) (fun _ => List.replicate 72 0) (List.range 64) with
  valid := insNat x.valid g
  flags := x.flags.filter (fun l => l / 64 != g) }

theorem Vault.stored_materialised (x : Vault) (g l : Nat) : (x.materialised g).stored l
    = (x.storeAll (fun i => g * 64 + i) (fun _ => List.replicate 72 0) (List.range 64)).stored l := by
  unfold Vault.materialised
  exact Vault.stored_marked ..

/-- The materialisation of one granule, all of whose lines it writes. -/
def State.filled (s : State) (v g : Nat) : State :=
  ((s.setVault v ((s.vault v).materialised g)).bump pgVlt v 0 rVltZeroFill 1).bump pgVlt v 0 rVltWrLines 64

theorem State.materialise_unwritten {g : Nat} (h : (s.vault v).isValid g = false) : s.materialise v g 64 = s.filled v g := by
  obtain ⟨m, hm⟩ := (s.vault v).storeAll_eq (fun i => g * 64 + i) (fun _ => List.replicate 72 0) (List.range 64)
  have hfold := (Vault.foldN_store (s.vault v) 64 (fun i => g * 64 + i) (fun _ => List.replicate 72 0)).trans hm
  unfold State.materialise State.filled Vault.materialised
  dsimp only
  rw [h, if_neg Bool.false_ne_true, hfold, hm]

theorem State.filled_vault (g : Nat) : (s.filled v g).vault v = (s.vault v).materialised g :=
  (State.vault_congr (s := s.setVault v ((s.vault v).materialised g)) rfl v).trans (State.vault_setVault_same ..)

theorem granuleMaterialise_unwritten (hmode : (s.vault v).mode = .memory) {g : Nat} (hg : g < 262144) (hvalid : (s.vault v).isValid g = false) :
    ∃ t, exec (.granuleMaterialise v g) s = .next t
      ∧ (t.vault v).isValid g = true ∧ (t.vault v).filling = (s.vault v).filling
      ∧ ((s.vault v).remap = [] → ∀ l, l / 64 = g → (t.vault v).stored l = List.replicate 72 0)
      ∧ (∀ x, x ≠ g → (t.vault v).isValid x = (s.vault v).isValid x)
      ∧ t.reg pgVlt v 0 rVltZeroFill = s.reg pgVlt v 0 rVltZeroFill + 1 ∧ VaultsKept s t [v] ∧ Kept { regs := true, vaults := true } s t := by
  have hkept : Kept { regs := true, vaults := true } s (s.filled v g) := (((Kept.refl ..).setVault rfl ..).bump rfl ..).bump rfl ..
  have hexec : exec (.granuleMaterialise v g) s = .next (s.filled v g) := by
    show execGranuleMaterialise v g s = _
    unfold execGranuleMaterialise
    rw [hmode, if_neg (by decide), Nat.mod_eq_of_lt hg, State.materialise_unwritten hvalid, (hkept.mono rfl).take_eq]
  refine ⟨_, hexec, ?_, ?_, fun hremap l hl => ?_, fun x hx => ?_, ?_, ?_, hkept⟩
  · rw [State.filled_vault]
    exact List.contains_iff_mem.mpr (mem_insNat ..)
  · obtain ⟨m, hm⟩ := (s.vault v).storeAll_eq (fun i => g * 64 + i) (fun _ => List.replicate 72 0) (List.range 64)
    rw [State.filled_vault, Vault.materialised, hm]
  · have hline : l = g * 64 + l % 64 := by omega
    rw [State.filled_vault, hline]
    exact (Vault.stored_materialised ..).trans
      (Vault.stored_granule (cw := fun _ => List.replicate 72 0) hremap (fun _ _ => by simp) g (Nat.mod_lt l (by decide)))
  · rw [State.filled_vault, Bool.eq_iff_iff]
    exact List.contains_iff_mem.trans ((mem_insNat_of_ne hx _).trans List.contains_iff_mem.symm)
  · exact (State.reg_bump_other (by decide)).trans (State.reg_bump_same ..)
  · exact (VaultsKept.modified s v (fun x => x.materialised g)).trans_of_vaults_eq rfl

end Sys2Proof.Machine

namespace Sys2Proof.Proofs

open Sys2Proof Sys2Proof.Machine Sys2Proof.Safety Sys2Proof.Claims

/-- Settles O28: the read of an unwritten granule never reaches the cells. -/
theorem unwrittenGranulesReadZero : Obligations.UnwrittenGranulesReadZero := by
  unfold Obligations.UnwrittenGranulesReadZero
  exact fun s v addr noise => vaultRead_unwritten

/-- Settles O29: a clause each for the queue's read, the two writes, the drain, the eviction and the materialisation. -/
theorem vaultWritesReachTheArray : Obligations.VaultWritesReachTheArray := by
  unfold Obligations.VaultWritesReachTheArray
  refine ⟨⟨fun s v addr d noise => vaultRead_queued, fun s v addr bs hopen hrole hserves hmigs hsnap hvalid hroom => ⟨?_, ?_⟩⟩,
    fun s v hmode => ⟨?_, ?_, ?_⟩⟩
  · exact vaultWrite_whole hopen hrole hserves hmigs hsnap hvalid hroom
  · exact vaultWrite_narrow hopen hrole hserves hmigs hsnap hvalid
  · exact fun l d hwq hd hfilling hrewrites => writeDrain_one hmode hwq hd hfilling hrewrites
  · exact fun l noise e d he => mergeEvict_clean he hmode
  · exact fun g => granuleMaterialise_unwritten hmode

end Sys2Proof.Proofs
end

section
/-! PROOFS. Registers through the log, and the maintenance that changes one vault: refresh, recentring, the bucket and the remap table
(R193, R196, R320, R325). -/

namespace Sys2Proof.Machine

open Sys2Proof.Safety Sys2Proof.Claims

variable {s s1 w : State} {v l c : Nat} {d : List Byte} {noise : BitVec 576}

/-! ### Registers through the log -/

/-- A log entry writes no register but the count of lost entries and the host link's counts (R335). -/
theorem State.log_regs_other (ev : Nat) (i : LogInfo) {k : Nat} (hlost : k ≠ regKey pgStw 0 0 rStwElogLost)
    (htx : k ≠ regKey pgHost 0 0 rHostTxBytes) (hdiscard : k ≠ regKey pgHost 0 0 rHostDmaDiscard) :
    smFind (s.log ev i).regs k = smFind s.regs k := by
  unfold State.log
  extract_lets n en tail phase e _ logged head used a written _ moved
  split
  · split
    · exact State.setReg_regs_other _ _ hlost
    · exact State.hostWrite_regs_other _ _ htx hdiscard
  · exact State.setReg_regs_other _ _ hlost

/-- An offset of no register that a log entry can write. -/
def NoLogCount (off : Nat) : Prop := off % 4096 ≠ rStwElogLost ∧ off % 4096 ≠ rHostTxBytes ∧ off % 4096 ≠ rHostDmaDiscard

theorem State.reg_log (ev : Nat) (i : LogInfo) {code inst bank off : Nat} (h : NoLogCount off) :
    (s.log ev i).reg code inst bank off = s.reg code inst bank off := by
  obtain ⟨hlost, htx, hdiscard⟩ := h
  unfold State.reg smGet
  rw [State.log_regs_other ev i (regKey_ne_of_off hlost) (regKey_ne_of_off htx) (regKey_ne_of_off hdiscard)]

/-! ### One change of one vault -/

/-- A command that changes one vault alone. -/
theorem exec_of_modVault {i : Instr} {g : Vault → Vault} (h : exec i s = .next (reachVault.take s (s.modVault v g))) :
    ∃ t, exec i s = .next t ∧ t.vault v = g (s.vault v) ∧ VaultsKept s t [v] ∧ Kept { vaults := true } s t := by
  have hkept : Kept { vaults := true } s (s.modVault v g) := (Kept.refl ..).modVault rfl ..
  rw [(hkept.mono rfl).take_eq] at h
  exact ⟨_, h, State.vault_modVault_same .., VaultsKept.modified s v g, hkept⟩

/-! ### Refresh (R193) -/

/-- A program uses a bank of a vault, or a request waits for it. -/
def State.bankBusy (s : State) (v b : Nat) : Bool :=
  (s.vault v).run.any (fun r => r.units.any (fun u => u.bank = b))
    || ((s.vault v).guests ++ (s.vault v).held).any (fun q => s.reqBank (s.vault v).logical b q)

theorem exec_refreshCommand (b : Nat) (hmode : (s.vault v).mode ≠ .retention) : exec (.refreshCommand v b) s = .next (reachVault.take s (
    if !s.bankBusy v b then s.modVault v (fun x => { x with debt := smSet 0 x.debt b (smGet 0 (s.vault v).debt b - 1) })
    else if smGet 0 (s.vault v).debt b ≥ 8 then s.bump pgVlt v 0 rVltRefForced 1
    else s.modVault v (fun x => { x with debt := smSet 0 x.debt b (smGet 0 (s.vault v).debt b + 1) }))) := by
  show execRefreshCommand v b s = _
  unfold execRefreshCommand State.bankBusy
  dsimp only
  rw [if_neg hmode]
  cases (s.vault v).run <;> rfl

theorem State.bankBusy_idle {b : Nat} (hrun : ∀ r, (s.vault v).run = some r → ∀ u ∈ r.units, u.bank ≠ b) (hguests : (s.vault v).guests = [])
    (hheld : (s.vault v).held = []) : s.bankBusy v b = false := by
  unfold State.bankBusy
  rw [hguests, hheld]
  cases hr : (s.vault v).run with
  | none => rfl
  | some r => simpa using hrun r hr

theorem State.bankBusy_run {b : Nat} {r : BankRun} {u : BankUnit} (hrun : (s.vault v).run = some r) (hu : u ∈ r.units) (hbank : u.bank = b) :
    s.bankBusy v b = true := by
  have hany : r.units.any (fun u => u.bank = b) = true := List.any_eq_true.mpr ⟨u, hu, by simpa using hbank⟩
  unfold State.bankBusy
  rw [hrun, Option.any_some, hany, Bool.true_or]

/-- A read of a line waits for the line's bank (R172, R193). -/
theorem State.reqBank_line (l : Nat) {addr b : Nat} (h : addr / 2048 % 128 = b) : s.reqBank l b (.line addr) = true := by
  have hcnt : (addr + 1 - 1) / 2048 - addr / 2048 + 1 = 1 := by omega
  show touchesBank addr 1 b = true
  unfold touchesBank
  rw [hcnt]
  simp [h]

theorem State.bankBusy_line {addr b : Nat} (hbank : addr / 2048 % 128 = b) (hq : .line addr ∈ (s.vault v).guests ++ (s.vault v).held) :
    s.bankBusy v b = true := by
  have hany : ((s.vault v).guests ++ (s.vault v).held).any (fun q => s.reqBank (s.vault v).logical b q) = true :=
    List.any_eq_true.mpr ⟨_, hq, State.reqBank_line _ hbank⟩
  unfold State.bankBusy
  rw [hany, Bool.or_true]

theorem refreshCommand_idle {b : Nat} (hmode : (s.vault v).mode ≠ .retention) (hbusy : s.bankBusy v b = false) :
    ∃ t, exec (.refreshCommand v b) s = .next t ∧ smGet 0 (t.vault v).debt b = smGet 0 (s.vault v).debt b - 1 ∧ VaultsKept s t [v]
      ∧ Kept { vaults := true } s t := by
  have hexec := exec_refreshCommand b hmode
  rw [hbusy, Bool.not_false, if_pos rfl] at hexec
  obtain ⟨t, ht, hvault, hothers, hkept⟩ := exec_of_modVault hexec
  exact ⟨t, ht, by rw [hvault]; exact smGet_smSet_same .., hothers, hkept⟩

theorem refreshCommand_postponed {b : Nat} (hmode : (s.vault v).mode ≠ .retention) (hbusy : s.bankBusy v b = true)
    (hdebt : smGet 0 (s.vault v).debt b < 8) :
    ∃ t, exec (.refreshCommand v b) s = .next t ∧ smGet 0 (t.vault v).debt b = smGet 0 (s.vault v).debt b + 1 ∧ VaultsKept s t [v]
      ∧ Kept { vaults := true } s t := by
  have hexec := exec_refreshCommand b hmode
  rw [hbusy, Bool.not_true, if_neg Bool.false_ne_true, if_neg (by omega)] at hexec
  obtain ⟨t, ht, hvault, hothers, hkept⟩ := exec_of_modVault hexec
  exact ⟨t, ht, by rw [hvault]; exact smGet_smSet_same .., hothers, hkept⟩

theorem refreshCommand_forced {b : Nat} (hmode : (s.vault v).mode ≠ .retention) (hbusy : s.bankBusy v b = true)
    (hdebt : 8 ≤ smGet 0 (s.vault v).debt b) : exec (.refreshCommand v b) s = .next (s.bump pgVlt v 0 rVltRefForced 1) := by
  have hkept : Kept { regs := true } s (s.bump pgVlt v 0 rVltRefForced 1) := (Kept.refl ..).bump rfl ..
  rw [exec_refreshCommand b hmode, hbusy, Bool.not_true, if_neg Bool.false_ne_true, if_pos hdebt, (hkept.mono rfl).take_eq]

/-- A bank that a program uses has its command postponed, and forced at a debt of 8. -/
theorem refreshCommand_busy {b : Nat} (hmode : (s.vault v).mode ≠ .retention) (hbusy : s.bankBusy v b = true) :
    ∃ t, exec (.refreshCommand v b) s = .next t
      ∧ smGet 0 (t.vault v).debt b = (if smGet 0 (s.vault v).debt b ≥ 8 then smGet 0 (s.vault v).debt b else smGet 0 (s.vault v).debt b + 1)
      ∧ t.reg pgVlt v 0 rVltRefForced = s.reg pgVlt v 0 rVltRefForced + (if smGet 0 (s.vault v).debt b ≥ 8 then 1 else 0)
      ∧ VaultsKept s t [v] ∧ Kept { regs := true, vaults := true } s t := by
  by_cases hdebt : 8 ≤ smGet 0 (s.vault v).debt b
  · refine ⟨_, refreshCommand_forced hmode hbusy hdebt, ?_, ?_, .of_vaults_eq rfl, (Kept.refl ..).bump rfl ..⟩
    · rw [if_pos hdebt, State.vault_congr (t := s.bump pgVlt v 0 rVltRefForced 1) (s := s) rfl]
    · rw [if_pos hdebt]
      exact State.reg_bump_same ..
  · obtain ⟨t, ht, hpaid, hothers, hkept⟩ := refreshCommand_postponed hmode hbusy (Nat.lt_of_not_le hdebt)
    refine ⟨t, ht, by rw [hpaid, if_neg hdebt], ?_, hothers, hkept.mono rfl⟩
    rw [if_neg hdebt, State.reg_congr (hkept.regs rfl).1]
    exact (BitVec.add_zero _).symm

/-! ### Recentring, the bucket and the remap table (R196, R320, R325) -/

theorem interfaceRecentre_keeps :
    ∃ t, exec (.interfaceRecentre v) s = .next t ∧ (∀ p, t.vault p = s.vault p) ∧ Kept { vaults := true } s t := by
  obtain ⟨t, ht, hvault, hothers, hkept⟩ := exec_of_modVault (i := .interfaceRecentre v) (v := v) (g := id) (s := s) rfl
  refine ⟨t, ht, fun p => ?_, hkept⟩
  by_cases hp : p = v
  · rw [hp, hvault, id]
  · exact hothers p (by simpa using hp)

theorem bucketLeak_leaks : ∃ t, exec (.bucketLeak v) s = .next t ∧ t.vault v = { (s.vault v) with bucket := (s.vault v).bucket - 1 }
    ∧ VaultsKept s t [v] ∧ Kept { vaults := true } s t := exec_of_modVault (g := fun x => { x with bucket := x.bucket - 1 }) rfl

theorem remapReload_marks (x : Nat) (xs : List Nat) : ∃ t, exec (.remapReload v (x :: xs)) s = .next t
    ∧ t.vault v = { (s.vault v) with remapBad := (x :: xs).foldl insNat (s.vault v).remapBad } ∧ VaultsKept s t [v]
    ∧ Kept { vaults := true } s t := exec_of_modVault (g := fun y => { y with remapBad := (x :: xs).foldl insNat y.remapBad }) rfl

/-- A remap table after the reload of its marked words (R325). -/
def Vault.reloaded (x : Vault) : Vault := { x with
  remapBad := []
  remap := x.remapBad.foldl (fun m w => match smFind x.remapCopy w with
    | some y => smPut m w y
    | none => smErase m w) x.remap }

/-- A vault that holds no request. -/
def Vault.unheld (x : Vault) : Vault := { x with held := [] }

/-- A release of no request clears none. -/
theorem State.releaseHeld_none (h : (s.vault v).held = []) : s.releaseHeld v = s.modVault v Vault.unheld := by
  unfold State.releaseHeld
  rw [h]
  rfl

theorem exec_remapReload_loads (hheld : (s.vault v).held = []) : exec (.remapReload v []) s
    = .next ((s.modVault v Vault.reloaded).modVault v Vault.unheld) := by
  have hheld' : ((s.modVault v Vault.reloaded).vault v).held = [] := by
    rw [State.vault_modVault_same]
    exact hheld
  have hkept : Kept { vaults := true } s ((s.modVault v Vault.reloaded).modVault v Vault.unheld) :=
    ((Kept.refl ..).modVault rfl ..).modVault rfl ..
  rw [← (hkept.mono (g := reachVault) rfl).take_eq, ← State.releaseHeld_none hheld']
  rfl

theorem remapReload_loads (hheld : (s.vault v).held = []) : ∃ t, exec (.remapReload v []) s = .next t ∧ t.vault v = (s.vault v).reloaded
    ∧ VaultsKept s t [v] ∧ Kept { vaults := true } s t := by
  refine ⟨_, exec_remapReload_loads hheld, ?_, (VaultsKept.modified s v Vault.reloaded).modVault (List.mem_singleton.mpr rfl) _,
    ((Kept.refl ..).modVault rfl ..).modVault rfl ..⟩
  have hkeeps : (s.vault v).reloaded.unheld = { (s.vault v).reloaded with held := (s.vault v).held } := by
    rw [hheld]
    rfl
  rw [State.vault_modVault_same, State.vault_modVault_same]
  exact hkeeps

end Sys2Proof.Machine
end

section
/-! PROOFS. The patrol scrub, rewrites of corrected lines and the stockroom scrub (R318, R319, R321, R332, R333). -/

namespace Sys2Proof.Machine

open Sys2Proof.Safety Sys2Proof.Claims

variable {s s1 w : State} {v l c : Nat} {d : List Byte} {noise : BitVec 576}

/-! ### The patrol scrub (R321) -/

/-- A clean patrol step: two lines read, and the pointer moved on. -/
def State.patrolled (s : State) (v : Nat) : State :=
  (((s.bump pgVlt v 0 rVltRdLines 1).bump pgVlt v 0 rVltRdLines 1).bump pgVlt v 0 rVltScrubPairs 1).modVault v
    (fun x => { x with scrub := (s.vault v).scrub + 1 })

theorem State.patrolled_kept : Kept { regs := true, vaults := true } s (s.patrolled v) :=
  ((((Kept.refl ..).bump rfl ..).bump rfl ..).bump rfl ..).modVault rfl ..

/-- Where the pointer's granule has data, the next pair is the pointer's. -/
theorem Vault.nextPair_valid {x : Vault} (h : x.isValid (x.scrub / 32) = true) : x.nextPair = some (x.scrub, false) := by
  unfold Vault.nextPair
  exact if_pos h

theorem exec_patrolScrub_clean {n0 n1 : BitVec 576} {d0 d1 : List Byte} (hmode : (s.vault v).mode = .memory) (hrole : (s.vault v).role = .logical)
    (hon : s.fld pgVlt v 0 rVltScrubCfg 31 31 = 1) (hend : (s.vault v).scrub < 8388607)
    (hvalid : (s.vault v).isValid ((s.vault v).scrub / 32) = true) (hflags : (s.vault v).flags = []) (hbad : (s.vault v).remapBad = [])
    (hlost : NoTableLost s v) (h0 : lineDecode (noisy ((s.vault v).stored (2 * (s.vault v).scrub)) n0) = .clean d0)
    (h1 : lineDecode (noisy ((s.vault v).stored (2 * (s.vault v).scrub + 1)) n1) = .clean d1) :
    exec (.patrolScrub v n0 n1) s = .next (s.patrolled v) := by
  have hnext := Vault.nextPair_valid hvalid
  have hload : (s.vault v).reloading ((s.vault v).scrub / 32) = false := by simp [Vault.reloading, hbad]
  have hflag : ∀ ln, (s.vault v).flags.contains ln = false := fun ln => by rw [hflags]; rfl
  have hgran0 : 2 * (s.vault v).scrub / 64 = (s.vault v).scrub / 32 := by omega
  have hgran1 : (2 * (s.vault v).scrub + 1) / 64 = (s.vault v).scrub / 32 := by omega
  have hread0 := State.arrayRead_clean (hgran0 ▸ hvalid) (hflag _) h0
  have hread1 : (s.bump pgVlt v 0 rVltRdLines 1).arrayRead v (2 * (s.vault v).scrub + 1) n1
      = ((s.bump pgVlt v 0 rVltRdLines 1).bump pgVlt v 0 rVltRdLines 1, some d1) :=
    State.arrayRead_clean (s := s.bump pgVlt v 0 rVltRdLines 1) (hgran1 ▸ hvalid) (hflag _) h1
  have hresolve : ((s.bump pgVlt v 0 rVltRdLines 1).bump pgVlt v 0 rVltRdLines 1).tablesResolve v
      = (s.bump pgVlt v 0 rVltRdLines 1).bump pgVlt v 0 rVltRdLines 1 := State.tablesResolve_of_noTableLost hlost
  have hmod : ((s.vault v).scrub + 1) % 8388608 = (s.vault v).scrub + 1 := Nat.mod_eq_of_lt (by omega)
  show execPatrolScrub v n0 n1 s = _
  unfold execPatrolScrub
  dsimp only
  rw [hmode, hrole, hon, if_neg (by decide), hnext]
  dsimp only
  rw [hload, if_neg Bool.false_ne_true, if_neg Bool.false_ne_true, hread0]
  dsimp only
  rw [hread1]
  dsimp only
  rw [hresolve, hmod, if_neg (by simp), if_neg (by omega)]
  exact congrArg _ (State.patrolled_kept.mono rfl).take_eq

theorem patrolScrub_clean {n0 n1 : BitVec 576} {d0 d1 : List Byte} (hmode : (s.vault v).mode = .memory) (hrole : (s.vault v).role = .logical)
    (hon : s.fld pgVlt v 0 rVltScrubCfg 31 31 = 1) (hend : (s.vault v).scrub < 8388607)
    (hvalid : (s.vault v).isValid ((s.vault v).scrub / 32) = true) (hflags : (s.vault v).flags = []) (hbad : (s.vault v).remapBad = [])
    (hlost : NoTableLost s v) (h0 : lineDecode (noisy ((s.vault v).stored (2 * (s.vault v).scrub)) n0) = .clean d0)
    (h1 : lineDecode (noisy ((s.vault v).stored (2 * (s.vault v).scrub + 1)) n1) = .clean d1) :
    ∃ t, exec (.patrolScrub v n0 n1) s = .next t ∧ t.vault v = { (s.vault v) with scrub := (s.vault v).scrub + 1 }
      ∧ t.reg pgVlt v 0 rVltScrubPairs = s.reg pgVlt v 0 rVltScrubPairs + 1
      ∧ t.reg pgVlt v 0 rVltRdLines = s.reg pgVlt v 0 rVltRdLines + 2
      ∧ VaultsKept s t [v] ∧ Kept { regs := true, vaults := true } s t := by
  refine ⟨_, exec_patrolScrub_clean hmode hrole hon hend hvalid hflags hbad hlost h0 h1, State.vault_modVault_same .., ?_, ?_,
    (VaultsKept.of_vaults_eq rfl).modVault (List.mem_singleton.mpr rfl) _, State.patrolled_kept⟩
  · exact (State.reg_bump_same ..).trans
      (congrArg (· + 1) ((State.reg_bump_other (by decide)).trans (State.reg_bump_other (by decide))))
  · calc (s.patrolled v).reg pgVlt v 0 rVltRdLines
        = (s.bump pgVlt v 0 rVltRdLines 1).reg pgVlt v 0 rVltRdLines + 1 := (State.reg_bump_other (by decide)).trans (State.reg_bump_same ..)
      _ = s.reg pgVlt v 0 rVltRdLines + 1 + 1 := congrArg (· + 1) (State.reg_bump_same ..)
      _ = s.reg pgVlt v 0 rVltRdLines + 2 := BitVec.add_assoc ..

/-! ### The rewrite of a corrected line (R318, R319) -/

/-- A vault after a rewrite of a line. -/
def Vault.rewritten (x : Vault) (l : Nat) (d : List Byte) : Vault :=
  { x.store l (lineEncode d) with rewrites := x.rewrites.filter (fun e => e.1 != l) }

def State.lineRewritten (s : State) (v l : Nat) (d : List Byte) : State :=
  (((s.setVault v ((s.vault v).rewritten l d)).bump pgVlt v 0 rVltRewrites 1).bump pgVlt v 0 rVltWrLines 1).bump pgVlt v 0 rVltRdLines 1

theorem State.lineRewritten_vault : (s.lineRewritten v l d).vault v = (s.vault v).rewritten l d :=
  (State.vault_congr (s := s.setVault v ((s.vault v).rewritten l d)) rfl v).trans (State.vault_setVault_same ..)

theorem State.lineRewritten_kept : Kept { regs := true, vaults := true } s (s.lineRewritten v l d) :=
  ((((Kept.refl ..).setVault rfl ..).bump rfl ..).bump rfl ..).bump rfl ..

theorem State.lineRewritten_stored (hd : d.length = 64) : ((s.lineRewritten v l d).vault v).stored l = (lineEncode d).take 72 := by
  rw [State.lineRewritten_vault]
  exact Vault.stored_store_same _ _ (by rw [lineEncode_length, hd])

/-- A rewrite whose line then reads clean is done (R319). -/
theorem rewriteVerify_clean {d' : List Byte} (hmode : (s.vault v).mode = .memory)
    (hwaits : (s.vault v).rewrites.find? (fun e => e.1 = l) = some (l, d))
    (hclean : lineDecode (noisy ((lineEncode d).take 72) noise) = .clean d') (hd : d.length = 64) :
    ∃ t, exec (.rewriteVerify v l noise) s = .next t ∧ (t.vault v).stored l = (lineEncode d).take 72
      ∧ (t.vault v).rewrites = (s.vault v).rewrites.filter (fun e => e.1 != l)
      ∧ t.reg pgVlt v 0 rVltRewrites = s.reg pgVlt v 0 rVltRewrites + 1 ∧ VaultsKept s t [v] ∧ Kept { regs := true, vaults := true } s t := by
  have hread : lineDecode (noisy (((s.lineRewritten v l d).vault v).stored l) noise) = .clean d' := by
    rw [State.lineRewritten_stored hd, hclean]
  have hexec : exec (.rewriteVerify v l noise) s = .next (s.lineRewritten v l d) := by
    show execRewriteVerify v l noise s = _
    unfold execRewriteVerify
    dsimp only
    rw [hwaits]
    dsimp only
    rw [hmode, if_neg (by decide)]
    unfold State.lineRewritten Vault.rewritten at hread
    rw [hread]
    exact congrArg _ (State.lineRewritten_kept.mono rfl).take_eq
  refine ⟨_, hexec, State.lineRewritten_stored hd, by rw [State.lineRewritten_vault]; rfl, ?_, ?_, State.lineRewritten_kept⟩
  · exact (State.reg_bump_other (by decide)).trans ((State.reg_bump_other (by decide)).trans (State.reg_bump_same ..))
  · exact (VaultsKept.modified s v (fun x => x.rewritten l d)).trans_of_vaults_eq rfl

/-! ### Stockroom scrub (R332, R333) -/

/-- What the scrub of a stockroom's line does at one of its bad words. -/
def State.scrubError (c l : Nat) (s : State) (e : Nat × Nat) : State :=
  if (s.core c).stockBad.contains (l * 8 + e.1 % 8) then s.sramUe c (8 * (l * 8 + e.1 % 8))
  else if e.2 = 1 then (s.bump pgStw 0 0 rStwSramCe 1).tileError c
  else if e.2 = 2 then (s.modCore c (fun x => { x with stockBad := insNat x.stockBad (l * 8 + e.1 % 8) })).sramUe c (8 * (l * 8 + e.1 % 8))
  else s

/-- The scrubber meets the errors of its line and moves on. -/
def State.scrubLine (s : State) (c : Nat) (errs : List (Nat × Nat)) : State :=
  (errs.foldl (State.scrubError c (s.core c).stockPtr) s).modCore c (fun x => { x with stockPtr := ((s.core c).stockPtr + 1) % 32768 })

theorem exec_stockroomScrub (errs : List (Nat × Nat)) : exec (.stockroomScrub c errs) s = .next (reachOrder.take s (s.scrubLine c errs)) := rfl

/-- The scrubber's move leaves the registers and the other cores as the errors do. -/
theorem stockroomScrub_of {errs : List (Nat × Nat)} {u : State} (herrs : errs.foldl (State.scrubError c (s.core c).stockPtr) s = u)
    (hcores : CoresKept s u [c]) : ∃ t, exec (.stockroomScrub c errs) s = .next t
      ∧ t.core c = { (u.core c) with stockPtr := ((s.core c).stockPtr + 1) % 32768 } ∧ t.regs = u.regs ∧ CoresKept s t [c] := by
  subst herrs
  have hcore : (reachOrder.take s (s.scrubLine c errs)).core c = (s.scrubLine c errs).core c := State.core_congr rfl c
  exact ⟨_, exec_stockroomScrub errs, hcore.trans (State.core_modCore_same ..), rfl, (hcores.modCore (List.mem_singleton.mpr rfl) _).takeOrder⟩

theorem stockroomScrub_clean : ∃ t, exec (.stockroomScrub c []) s = .next t
    ∧ t.core c = { (s.core c) with stockPtr := ((s.core c).stockPtr + 1) % 32768 } ∧ CoresKept s t [c] ∧ Kept { cores := true } s t := by
  have hkept : Kept { cores := true } s (s.scrubLine c []) := (Kept.refl ..).modCore rfl ..
  refine ⟨s.scrubLine c [], ?_, s.core_modCore_same .., CoresKept.refl.modCore (List.mem_singleton.mpr rfl) _, hkept⟩
  rw [exec_stockroomScrub, (hkept.mono rfl).take_eq]

theorem State.scrubError_corrected (x : Nat) (hbad : (s.core c).stockBad = []) :
    s.scrubError c l (x, 1) = (s.bump pgStw 0 0 rStwSramCe 1).tileError c := by
  simp [State.scrubError, hbad]

theorem State.scrubError_lost {x : Nat} (hx : x < 8) (hbad : (s.core c).stockBad = []) :
    s.scrubError c l (x, 2) = (s.modCore c (fun y => { y with stockBad := [l * 8 + x] })).sramUe c (8 * (l * 8 + x)) := by
  have hword : l * 8 + x % 8 = l * 8 + x := by omega
  have hmark : insNat (s.core c).stockBad (l * 8 + x) = [l * 8 + x] := by
    rw [hbad]
    rfl
  have hmarked : s.modCore c (fun y => { y with stockBad := insNat y.stockBad (l * 8 + x) })
      = s.modCore c (fun y => { y with stockBad := [l * 8 + x] }) :=
    congrArg (fun b => s.setCore c { (s.core c) with stockBad := b }) hmark
  unfold State.scrubError
  dsimp only
  rw [hbad, hword, hmarked]
  rfl

/-- A corrected word counts (R332). -/
theorem stockroomScrub_corrected (x : Nat) (hbad : (s.core c).stockBad = []) : ∃ t, exec (.stockroomScrub c [(x, 1)]) s = .next t
    ∧ t.core c = { (s.core c) with stockPtr := ((s.core c).stockPtr + 1) % 32768 }
    ∧ t.reg pgStw 0 0 rStwSramCe = s.reg pgStw 0 0 rStwSramCe + 1 ∧ CoresKept s t [c] := by
  have hcores : ((s.bump pgStw 0 0 rStwSramCe 1).tileError c).cores = s.cores := (State.tileError_kept c).cores rfl
  obtain ⟨t, hexec, hcore, hregs, hothers⟩ := stockroomScrub_of (errs := [(x, 1)]) (State.scrubError_corrected x hbad) (CoresKept.of_cores_eq hcores)
  refine ⟨t, hexec, ?_, ?_, hothers⟩
  · rw [hcore, State.core_congr hcores]
  · rw [State.reg_congr hregs, State.reg_tileError]
    exact State.reg_bump_same ..

/-- A double-bit word is marked, and counts (R332). -/
theorem stockroomScrub_lost {x : Nat} (hx : x < 8) (hbad : (s.core c).stockBad = []) : ∃ t, exec (.stockroomScrub c [(x, 2)]) s = .next t
    ∧ t.core c = { (s.core c) with stockPtr := ((s.core c).stockPtr + 1) % 32768, stockBad := [(s.core c).stockPtr * 8 + x] }
    ∧ t.reg pgStw 0 0 rStwSramUe = s.reg pgStw 0 0 rStwSramUe + 1 ∧ CoresKept s t [c] := by
  let u := s.modCore c (fun y => { y with stockBad := [(s.core c).stockPtr * 8 + x] })
  have hmarked : CoresKept s u [c] := CoresKept.refl.modCore (List.mem_singleton.mpr rfl) _
  have hue (a : Nat) : (u.sramUe c a).cores = u.cores := State.sramUe_cores c a
  obtain ⟨t, hexec, hcore, hregs, hothers⟩ := stockroomScrub_of (errs := [(x, 2)]) (State.scrubError_lost hx hbad) (hmarked.trans_of_cores_eq (hue _))
  refine ⟨t, hexec, ?_, ?_, hothers⟩
  · rw [hcore, State.core_congr (hue _), State.core_modCore_same]
  · rw [State.reg_congr hregs, State.sramUe, State.reg_congr ((State.castTrigger_kept _).regs rfl).1, State.reg_log _ _ (by unfold NoLogCount; decide)]
    exact State.reg_bump_same ..

end Sys2Proof.Machine
end

section
/-! PROOFS. Row sparing: a segment whose lines are clean is spared whole (R323). -/

namespace Sys2Proof.Machine

open Sys2Proof.Safety Sys2Proof.Claims

variable {s s1 w : State} {v l c seg i : Nat} {rest : List Nat} {d : Nat → List Byte}

/-! ### Row sparing (R323) -/

/-- A segment waits for its spare row no more, and is no suspect (R322). -/
def Vault.unsuspected (x : Vault) (seg : Nat) (rest : List Nat) : Vault :=
  { x with toSpare := rest, suspects := x.suspects.filter (fun e => e.seg != seg) }

/-- A segment stands in spare row i of its bank. -/
def Vault.remapped (x : Vault) (seg i : Nat) : Vault :=
  { x with remap := smPut x.remap seg (32 * (seg % 128) + i), remapBad := x.remapBad.filter (· != seg) }

/-- A segment stands in its spare row with its lines: those given, and what each of them stores. -/
def Vault.spared (x : Vault) (seg i : Nat) (ls : List (Nat × List Byte × Bool × Nat)) : Vault :=
  (x.remapped seg i).storeAll (·.1) (·.2.1) ls

/-- What the spare row gets of a line, whether the line is whole, and its corrected symbols. -/
def Vault.lineCopy (x : Vault) (l : Nat) : List Byte × Bool × Nat :=
  if x.flags.contains l then (x.stored l, true, 0)
  else match lineDecode (x.stored l) with
    | .clean d => (lineEncode d, true, 0)
    | .fixed d k => (lineEncode d, true, k)
    | .lost => (x.stored l, false, 0)

/-- A line that is lost, or corrected, on its way to the spare row. -/
def State.copyNoted (v seg : Nat) (s : State) (e : Nat × List Byte × Bool × Nat) : State :=
  if !e.2.2.1 then
    ((((s.setErr pgVlt v 14).log 0x06 { vault := v, addr := e.1 * 64, bank := seg % 128 }).lineUe v e.1).tableLine v e.1).1.tablesResolve v
  else if e.2.2.2 > 0 then s.countCorrected v e.2.2.2
  else s

/-- The lines of a segment are in its spare row. -/
def State.rowStored (s : State) (v seg i : Nat) (rest : List Nat) (ls : List (Nat × List Byte × Bool × Nat)) : State :=
  (s.modVault v (·.unsuspected seg rest)).modVault v (·.spared seg i ls)

/-- A row has been spared: it counts, and is logged. -/
def State.rowTold (s : State) (v seg i : Nat) : State :=
  ((s.bump pgVlt v 0 rVltRowsSpared 1).setErr pgVlt v 10).log 0x04 { vault := v, addr := seg * 2048, count := i, bank := seg % 128 }

/-- What row sparing can reach. -/
def reachSpare : Reach := { reachVault with sec := true }

/-- A row is spared with the copies of its segment's lines. -/
theorem exec_rowSpare (hmode : (s.vault v).mode = .memory) (hwaits : (s.vault v).toSpare = seg :: rest)
    (hfree : (s.vault v).freeSpare (seg % 128) = some i) : exec (.rowSpare v) s = .next (reachSpare.take s ((
      (((segLines seg).zip ((segLines seg).map (s.vault v).lineCopy)).foldl (State.copyNoted v seg)
        (s.rowStored v seg i rest ((segLines seg).zip ((segLines seg).map (s.vault v).lineCopy)))).rowTold v seg i).saveRemap v)) := by
  show execRowSpare v s = _
  unfold execRowSpare
  dsimp only
  rw [hwaits]
  dsimp only
  rw [hmode, if_neg (by decide), hfree]
  rfl

/-- The copies of a segment whose lines are all clean. -/
def cleanCopies (seg : Nat) (d : Nat → List Byte) : List (Nat × List Byte × Bool × Nat) :=
  (segLines seg).map (fun l => (l, lineEncode (d l), true, 0))

theorem lineCopies_clean {x : Vault} (hflags : x.flags = []) (hclean : ∀ l ∈ segLines seg, lineDecode (x.stored l) = .clean (d l)) :
    (segLines seg).zip ((segLines seg).map x.lineCopy) = cleanCopies seg d := by
  have hcopy : ∀ l ∈ segLines seg, x.lineCopy l = (lineEncode (d l), true, 0) := fun l hl => by
    unfold Vault.lineCopy
    rw [hflags, hclean l hl]
    rfl
  rw [List.map_congr_left hcopy, List.zip_map_right, cleanCopies]
  exact List.ext_getElem (by simp) (fun n h1 h2 => by simp)

/-- Clean copies are passed over. -/
theorem foldl_copyNoted_clean : (cleanCopies seg d).foldl (State.copyNoted v seg) s = s := by
  rw [cleanCopies, List.foldl_map]
  exact List.foldl_fixed' (fun l => rfl) (segLines seg)

theorem exec_rowSpare_clean (hmode : (s.vault v).mode = .memory) (hwaits : (s.vault v).toSpare = seg :: rest)
    (hfree : (s.vault v).freeSpare (seg % 128) = some i) (hflags : (s.vault v).flags = [])
    (hclean : ∀ l ∈ segLines seg, lineDecode ((s.vault v).stored l) = .clean (d l)) :
    exec (.rowSpare v) s = .next (reachSpare.take s (((s.rowStored v seg i rest (cleanCopies seg d)).rowTold v seg i).saveRemap v)) := by
  rw [exec_rowSpare hmode hwaits hfree, lineCopies_clean hflags hclean, foldl_copyNoted_clean]

theorem mem_segLines {l : Nat} : l ∈ segLines seg ↔ l / 32 = seg := by
  simp only [segLines, List.mem_map, List.mem_range]
  constructor
  · rintro ⟨i, hi, rfl⟩
    omega
  · exact fun h => ⟨l % 32, Nat.mod_lt _ (by decide), by omega⟩

/-- A spared segment's lines stand in its spare row. -/
theorem Vault.physLine_remapped (x : Vault) (i : Nat) {l : Nat} (hl : l / 32 = seg) :
    (x.remapped seg i).physLine l = (524288 + (32 * (seg % 128) + i)) * 32 + l % 32 := by
  have hfind : smFind (x.remapped seg i).remap (l / 32) = some (32 * (seg % 128) + i) := by
    rw [hl]
    exact smFind_smPut_same ..
  unfold Vault.physLine
  rw [hfind]

/-- A clean copy is that of its line. -/
theorem of_mem_cleanCopies {e : Nat × List Byte × Bool × Nat} (he : e ∈ cleanCopies seg d) :
    e.1 ∈ segLines seg ∧ e = (e.1, lineEncode (d e.1), true, 0) := by
  obtain ⟨l, hl, rfl⟩ := List.mem_map.mp he
  exact ⟨hl, rfl⟩

/-- The lines of a spared segment lie apart. -/
theorem Vault.cleanCopies_apart (x : Vault) (i : Nat) : ∀ a ∈ cleanCopies seg d, ∀ b ∈ cleanCopies seg d,
    (x.remapped seg i).physLine a.1 = (x.remapped seg i).physLine b.1 → a = b := by
  intro a ha b hb hab
  obtain ⟨hina, heqa⟩ := of_mem_cleanCopies ha
  obtain ⟨hinb, heqb⟩ := of_mem_cleanCopies hb
  have hsega := mem_segLines.mp hina
  have hsegb := mem_segLines.mp hinb
  rw [Vault.physLine_remapped x i hsega, Vault.physLine_remapped x i hsegb] at hab
  have hline : a.1 = b.1 := by omega
  rw [heqa, heqb, hline]

/-- Each line of a spared segment reads as its data. -/
theorem Vault.stored_spared (x : Vault) (i : Nat) (hd : ∀ l ∈ segLines seg, (d l).length = 64) {l : Nat} (hl : l ∈ segLines seg) :
    (x.spared seg i (cleanCopies seg d)).stored l = (lineEncode (d l)).take 72 := by
  have hcw : ∀ e ∈ cleanCopies seg d, 72 ≤ e.2.1.length := by
    intro e he
    obtain ⟨hin, heq⟩ := of_mem_cleanCopies he
    rw [heq, lineEncode_length, hd _ hin]
  have hmem : (l, lineEncode (d l), true, 0) ∈ cleanCopies seg d := List.mem_map.mpr ⟨l, hl, rfl⟩
  have hread := Vault.stored_storeAll (v := x.remapped seg i) (line := fun e => e.1) (cw := fun e => e.2.1) hcw (x.cleanCopies_apart i) hmem
  exact hread

theorem State.rowStored_vault (ls : List (Nat × List Byte × Bool × Nat)) :
    (s.rowStored v seg i rest ls).vault v = ((s.vault v).unsuspected seg rest).spared seg i ls := by
  rw [State.rowStored, State.vault_modVault_same, State.vault_modVault_same]

theorem State.rowTold_vaults : (s.rowTold v seg i).vaults = s.vaults := State.log_vaults ..

theorem State.rowTold_reg : (s.rowTold v seg i).reg pgVlt v 0 rVltRowsSpared = s.reg pgVlt v 0 rVltRowsSpared + 1 := by
  have herr : ((s.bump pgVlt v 0 rVltRowsSpared 1).setErr pgVlt v 10).reg pgVlt v 0 rVltRowsSpared
      = (s.bump pgVlt v 0 rVltRowsSpared 1).reg pgVlt v 0 rVltRowsSpared := State.reg_setReg_other _ _ (regKey_ne_of_off (by decide))
  rw [State.rowTold, State.reg_log _ _ (by unfold NoLogCount; decide), herr]
  exact State.reg_bump_same ..

theorem State.saveRemap_vault : (s.saveRemap v).vault v = { (s.vault v) with remapCopy := (s.vault v).remap } := State.vault_modVault_same ..

theorem State.vault_saveRemap_other {q : Nat} (h : q ≠ v) : (s.saveRemap v).vault q = s.vault q :=
  (State.vault_modVault_other _ _ h).trans (State.vault_congr rfl q)

theorem Vault.spared_eq (x : Vault) (seg i : Nat) (ls : List (Nat × List Byte × Bool × Nat)) :
    ∃ m, x.spared seg i ls = { x.remapped seg i with arr := m } := Vault.storeAll_eq ..

/-- Sparing a row changes its vault alone. -/
theorem State.rowSpared_vaults (ls : List (Nat × List Byte × Bool × Nat)) :
    VaultsKept s (((s.rowStored v seg i rest ls).rowTold v seg i).saveRemap v) [v] := by
  have hstored : VaultsKept s (s.rowStored v seg i rest ls) [v] := (VaultsKept.modified s v _).modVault (List.mem_singleton.mpr rfl) _
  have htold := hstored.trans_of_vaults_eq (State.rowTold_vaults (v := v) (seg := seg) (i := i))
  exact fun p hp => (State.vault_saveRemap_other (by simpa using hp)).trans (htold p hp)

/-- A vault after a segment has been spared, its remap table saved (R323, R325). -/
def Vault.sparedSaved (x : Vault) (seg i : Nat) (rest : List Nat) (d : Nat → List Byte) : Vault :=
  let y := (x.unsuspected seg rest).spared seg i (cleanCopies seg d)
  { y with remapCopy := y.remap }

theorem State.rowSpared_vault : ((((s.rowStored v seg i rest (cleanCopies seg d)).rowTold v seg i).saveRemap v).vault v)
    = (s.vault v).sparedSaved seg i rest d := by
  have hvault : ((s.rowStored v seg i rest (cleanCopies seg d)).rowTold v seg i).vault v
      = ((s.vault v).unsuspected seg rest).spared seg i (cleanCopies seg d) :=
    (State.vault_congr State.rowTold_vaults v).trans (State.rowStored_vault _)
  rw [State.saveRemap_vault, hvault]
  rfl

theorem Vault.sparedSaved_row (x : Vault) : smFind (x.sparedSaved seg i rest d).remap seg = some (32 * (seg % 128) + i)
    ∧ (x.sparedSaved seg i rest d).toSpare = rest ∧ ∀ e ∈ (x.sparedSaved seg i rest d).suspects, e.seg ≠ seg := by
  obtain ⟨m, hm⟩ := (x.unsuspected seg rest).spared_eq seg i (cleanCopies seg d)
  unfold Vault.sparedSaved
  rw [hm]
  exact ⟨smFind_smPut_same .., rfl, fun e he => by simpa using List.of_mem_filter he⟩

/-- A segment whose lines are clean is spared whole. -/
theorem rowSpare_clean (hmode : (s.vault v).mode = .memory) (hwaits : (s.vault v).toSpare = seg :: rest)
    (hfree : (s.vault v).freeSpare (seg % 128) = some i) (hflags : (s.vault v).flags = [])
    (hclean : ∀ l ∈ segLines seg, lineDecode ((s.vault v).stored l) = .clean (d l)) :
    ∃ t, exec (.rowSpare v) s = .next t ∧ smFind (t.vault v).remap seg = some (32 * (seg % 128) + i) ∧ (t.vault v).toSpare = rest
      ∧ (∀ l ∈ segLines seg, (t.vault v).stored l = (lineEncode (d l)).take 72)
      ∧ (∀ e ∈ (t.vault v).suspects, e.seg ≠ seg)
      ∧ t.reg pgVlt v 0 rVltRowsSpared = s.reg pgVlt v 0 rVltRowsSpared + 1
      ∧ t.sec.norA.cfg.epoch = s.sec.norA.cfg.epoch + 1 ∧ t.sec.norB.cfg.epoch = s.sec.norB.cfg.epoch + 1 ∧ VaultsKept s t [v] := by
  have hd : ∀ l ∈ segLines seg, (d l).length = 64 := fun l hl => lineDecode_clean_length (hclean l hl) (Vault.stored_length ..)
  let u := (s.rowStored v seg i rest (cleanCopies seg d)).rowTold v seg i
  have htaken (p : Nat) : (reachSpare.take s (u.saveRemap v)).vault p = (u.saveRemap v).vault p := State.vault_congr rfl p
  have hvault : (reachSpare.take s (u.saveRemap v)).vault v = (s.vault v).sparedSaved seg i rest d := (htaken v).trans State.rowSpared_vault
  have hsec : u.sec = s.sec := State.log_sec ..
  obtain ⟨hrow, hrest, hsuspects⟩ := (s.vault v).sparedSaved_row (seg := seg) (i := i) (rest := rest) (d := d)
  refine ⟨_, exec_rowSpare_clean hmode hwaits hfree hflags hclean, ?_, ?_, fun l hl => ?_, ?_, ?_, ?_, ?_, fun p hp => ?_⟩
  · rw [hvault, hrow]
  · rw [hvault, hrest]
  · rw [hvault]
    exact (Vault.stored_congr rfl rfl l).trans (Vault.stored_spared _ i hd hl)
  · rw [hvault]
    exact hsuspects
  · exact State.rowTold_reg
  · show u.sec.norA.cfg.epoch + 1 = _
    rw [hsec]
  · show u.sec.norB.cfg.epoch + 1 = _
    rw [hsec]
  · exact (htaken p).trans (State.rowSpared_vaults _ p hp)

end Sys2Proof.Machine
end

section
/-! PROOFS. The restore of a lost granule from its golden copy (R329). O30 is settled at the end. -/

namespace Sys2Proof.Machine

open Sys2Proof.Safety Sys2Proof.Claims

variable {s s1 : State} {v g : Nat} {r : Region} {bs : List Byte}

/-! ### The restore of a lost granule (R329) -/

/-- A vault with a granule rewritten from golden data. -/
def Vault.goldenFilled (x : Vault) (g : Nat) (data : List Byte) : Vault :=
  { x.storeAll (fun i => g * 64 + i) (fun i => lineEncode ((data.drop (64 * i)).take 64)) (List.range 64) with
    flags := x.flags.filter (fun l => l / 64 != g)
    valid := insNat x.valid g }

/-- A granule's rewrite is over: its restore counts, and is logged. -/
def State.restoreTold (s : State) (v g : Nat) : State :=
  ((s.bump pgVlt v 0 rVltRestored 1).setErr pgVlt v 12).log 0x07 { cls := 2, vault := v, addr := g * 4096 }

/-- A granule is restored from golden data. -/
def State.granuleRestored (s : State) (v g : Nat) (data : List Byte) : State :=
  ((s.modVault v (·.goldenFilled g data)).restoreOver v g).restoreTold v g

theorem State.freeBytes_zero : s.freeBytes 0 = (s, []) := rfl

/-- The bytes of a page that lie in one granule, from byte o. -/
def granuleBytes (bs : List Byte) (o : Nat) : List Byte := (bs.drop o).take 4096

theorem granuleBytes_length {o : Nat} (h : o + 4096 ≤ bs.length) : (granuleBytes bs o).length = 4096 := by
  simp [granuleBytes]
  omega

/-- A line of a granule is a line of its page. -/
theorem granuleBytes_line (bs : List Byte) (o : Nat) {i : Nat} (hi : i < 64) :
    ((granuleBytes bs o).drop (64 * i)).take 64 = (bs.drop (o + 64 * i)).take 64 := by
  rw [granuleBytes, List.drop_take, List.take_take, List.drop_drop, Nat.min_eq_left (by omega)]

/-- A rewrite from golden data changes the array, the granule's change flags and its valid bit alone. -/
theorem Vault.goldenFilled_eq (x : Vault) (g : Nat) (data : List Byte) : ∃ m, x.goldenFilled g data
    = { x with arr := m, flags := x.flags.filter (fun l => l / 64 != g), valid := insNat x.valid g } := by
  obtain ⟨m, hm⟩ := x.storeAll_eq (fun i => g * 64 + i) (fun i => lineEncode ((data.drop (64 * i)).take 64)) (List.range 64)
  refine ⟨m, ?_⟩
  rw [Vault.goldenFilled, hm]

theorem Vault.foldN_goldenFilled (x : Vault) (g : Nat) (data : List Byte) :
    (let v1 := foldN 64 (fun i v => v.store (g * 64 + i) (lineEncode ((data.drop (64 * i)).take 64))) x
     { v1 with flags := v1.flags.filter (fun l => l / 64 != g), valid := insNat v1.valid g }) = x.goldenFilled g data := by
  rw [Vault.foldN_store]
  obtain ⟨m, hm⟩ := x.storeAll_eq (fun i => g * 64 + i) (fun i => lineEncode ((data.drop (64 * i)).take 64)) (List.range 64)
  rw [Vault.goldenFilled, hm]

theorem State.patternRestore_golden (hregion : s.regionAt (s.vault v).logical (g * 4096) = some r)
    (hpage : s.goldenPage r.core r ((g * 4096 - r.off) / 65536) = (s1, some bs)) (hmb : (s1.vault v).mb = [])
    (hlen : (g * 4096 - r.off) % 65536 + 4096 ≤ bs.length) :
    s.patternRestore v g = (s1.granuleRestored v g (granuleBytes bs ((g * 4096 - r.off) % 65536)), true) := by
  have htail : 4096 - ((bs.drop ((g * 4096 - r.off) % 65536)).take 4096).length = 0 := by
    have := granuleBytes_length hlen
    unfold granuleBytes at this
    omega
  have hmb' (data : List Byte) : ((s1.modVault v (·.goldenFilled g data)).vault v).mb = [] := by
    obtain ⟨m, hm⟩ := (s1.vault v).goldenFilled_eq g data
    rw [State.vault_modVault_same, hm]
    exact hmb
  unfold State.patternRestore
  dsimp only
  rw [hregion]
  dsimp only
  rw [hpage]
  dsimp only
  rw [htail, State.freeBytes_zero]
  dsimp only
  rw [List.append_nil]
  simp only [Vault.foldN_goldenFilled]
  rw [hmb']
  rfl

/-- A vault in which a granule waits for no restore any more. -/
def Vault.restoreEnded (x : Vault) (g : Nat) : Vault := { x with
  lostLines := x.lostLines.filter (fun e => e.1 / 64 != g)
  filling := x.filling.filter (· != g)
  mb := x.mb.map (fun e => if e.line / 64 = g then { e with held := false } else e) }

theorem Vault.stored_restoreEnded (x : Vault) (g l : Nat) : (x.restoreEnded g).stored l = x.stored l := rfl

theorem Vault.restoreEnded_held (x : Vault) (g : Nat) : (x.restoreEnded g).held = x.held := rfl

theorem Vault.stored_unheld (x : Vault) (l : Nat) : x.unheld.stored l = x.stored l := rfl

theorem Vault.restoreEnded_lostLines (x : Vault) (g : Nat) : ∀ e ∈ (x.restoreEnded g).unheld.lostLines, e.1 / 64 ≠ g :=
  fun e he => by simpa using List.of_mem_filter (l := x.lostLines) he

theorem State.restoreOver_vault : (s.restoreOver v g).vault v = (s.vault v).restoreEnded g := State.vault_modVault_same ..

theorem State.granuleRestored_vault (data : List Byte) :
    (s.granuleRestored v g data).vault v = ((s.vault v).goldenFilled g data).restoreEnded g := by
  have htold : (s.granuleRestored v g data).vault v = ((s.modVault v (·.goldenFilled g data)).restoreOver v g).vault v :=
    State.vault_congr (State.log_vaults ..) v
  rw [htold, State.restoreOver_vault, State.vault_modVault_same]

theorem Vault.goldenFilled_held (x : Vault) (g : Nat) (data : List Byte) : (x.goldenFilled g data).held = x.held := by
  obtain ⟨m, hm⟩ := x.goldenFilled_eq g data
  rw [hm]

theorem State.granuleRestored_reg (data : List Byte) :
    (s.granuleRestored v g data).reg pgVlt v 0 rVltRestored = s.reg pgVlt v 0 rVltRestored + 1 := by
  rw [State.granuleRestored, State.restoreTold, State.reg_log _ _ (by unfold NoLogCount; decide)]
  exact (State.reg_setReg_other _ _ (regKey_ne_of_off (by decide))).trans (State.reg_bump_same ..)

/-- Without spared rows a restored granule's lines read as the golden copy's. -/
theorem Vault.stored_goldenFilled {x : Vault} (hremap : x.remap = []) {data : List Byte} (hdata : data.length = 4096) {i : Nat} (hi : i < 64) :
    (x.goldenFilled g data).stored (g * 64 + i) = (lineEncode ((data.drop (64 * i)).take 64)).take 72 := by
  have hcw : ∀ i < 64, 72 ≤ (lineEncode ((data.drop (64 * i)).take 64)).length := fun i hi => by
    rw [lineEncode_length, List.length_take, List.length_drop]
    omega
  unfold Vault.goldenFilled
  exact (Vault.stored_marked ..).trans (Vault.stored_granule hremap hcw g hi)

theorem exec_patternRestore_golden (hmode : (s.vault v).mode = .memory) (hg : g < 262144)
    (hlost : ∃ e ∈ (s.vault v).lostLines, e.1 / 64 = g ∧ e.2 = 2) {u : State} (hrestore : s.patternRestore v g = (u, true))
    (hheld : (u.vault v).held = []) :
    exec (.patternRestore v g) s = .next (reachVault.take s (u.modVault v Vault.unheld)) := by
  obtain ⟨e, he, hgran, hclass⟩ := hlost
  have hany : (s.vault v).lostLines.any (fun e => e.1 / 64 = g && e.2 = 2) = true :=
    List.any_eq_true.mpr ⟨e, he, by simp [hgran, hclass]⟩
  show execPatternRestore v g s = _
  unfold execPatternRestore
  dsimp only
  rw [Nat.mod_eq_of_lt hg, hmode, hany, if_pos (by decide), hrestore]
  dsimp only
  rw [if_pos rfl, State.releaseHeld_none hheld]

/-- A granule is restored, and nothing is held for it. -/
def State.restoreDone (s : State) (v g : Nat) (data : List Byte) : State := (s.granuleRestored v g data).modVault v Vault.unheld

theorem State.restoreDone_vault (data : List Byte) :
    (s.restoreDone v g data).vault v = (((s.vault v).goldenFilled g data).restoreEnded g).unheld := by
  rw [State.restoreDone, State.vault_modVault_same, State.granuleRestored_vault]

theorem State.restoreDone_reg (data : List Byte) :
    (s.restoreDone v g data).reg pgVlt v 0 rVltRestored = s.reg pgVlt v 0 rVltRestored + 1 := State.granuleRestored_reg data

/-- What a vault's command leaves of a vault and its registers is what it made of them. -/
theorem taken_vault (s w : State) (v : Nat) : (reachVault.take s w).vault v = w.vault v := State.vault_congr rfl v

theorem taken_reg (s w : State) (code inst bank off : Nat) : (reachVault.take s w).reg code inst bank off = w.reg code inst bank off :=
  State.reg_congr rfl ..

/-- A golden copy restores the lost lines of its granule. -/
theorem patternRestore_golden (hmode : (s.vault v).mode = .memory) (hg : g < 262144)
    (hlost : ∃ e ∈ (s.vault v).lostLines, e.1 / 64 = g ∧ e.2 = 2) (hregion : s.regionAt (s.vault v).logical (g * 4096) = some r)
    (hpage : s.goldenPage r.core r ((g * 4096 - r.off) / 65536) = (s1, some bs)) (hsame : s1.vault v = s.vault v)
    (hmb : (s.vault v).mb = []) (hheld : (s.vault v).held = []) (hremap : (s.vault v).remap = [])
    (hlen : (g * 4096 - r.off) % 65536 + 4096 ≤ bs.length) :
    ∃ t, exec (.patternRestore v g) s = .next t ∧ (∀ e ∈ (t.vault v).lostLines, e.1 / 64 ≠ g)
      ∧ (∀ i < 64, (t.vault v).stored (g * 64 + i) =
          (lineEncode ((bs.drop ((g * 4096 - r.off) % 65536 + 64 * i)).take 64)).take 72)
      ∧ t.reg pgVlt v 0 rVltRestored = s1.reg pgVlt v 0 rVltRestored + 1 := by
  have hrestore := State.patternRestore_golden hregion hpage (hsame ▸ hmb) hlen
  generalize hdata : granuleBytes bs ((g * 4096 - r.off) % 65536) = data at hrestore
  have hsize : data.length = 4096 := hdata ▸ granuleBytes_length hlen
  have hdone := State.restoreDone_vault (s := s1) (v := v) (g := g) data
  rw [hsame] at hdone
  have hheld' : ((s1.granuleRestored v g data).vault v).held = [] := by
    rw [State.granuleRestored_vault, hsame, Vault.restoreEnded_held, Vault.goldenFilled_held, hheld]
  refine ⟨reachVault.take s (s1.restoreDone v g data), exec_patternRestore_golden hmode hg hlost hrestore hheld', ?_, fun i hi => ?_, ?_⟩
  · rw [taken_vault, hdone]
    exact Vault.restoreEnded_lostLines ((s.vault v).goldenFilled g data) g
  · rw [taken_vault, hdone, Vault.stored_unheld, Vault.stored_restoreEnded, Vault.stored_goldenFilled hremap hsize hi, ← hdata,
      granuleBytes_line bs _ hi]
  · rw [taken_reg]
    exact State.restoreDone_reg data

end Sys2Proof.Machine

namespace Sys2Proof.Proofs

open Sys2Proof Sys2Proof.Machine Sys2Proof.Safety Sys2Proof.Claims

/-- Settles O30: a clause for each maintenance command, by the one change that it makes. -/
theorem vaultsAreMaintained : Obligations.VaultsAreMaintained := by
  unfold Obligations.VaultsAreMaintained
  refine ⟨fun s v => ⟨fun b hmode => ⟨?_, ?_, ?_⟩, interfaceRecentre_keeps, bucketLeak_leaks, fun w ws => remapReload_marks w ws,
    remapReload_loads, ?_⟩, ?_, ?_, ?_, fun s c w hw _ => ⟨stockroomScrub_clean, stockroomScrub_corrected w, stockroomScrub_lost hw⟩⟩
  · exact fun hrun hguests hheld => refreshCommand_idle hmode (State.bankBusy_idle hrun hguests hheld)
  · exact fun r u hrun hu hbank => refreshCommand_busy hmode (State.bankBusy_run hrun hu hbank)
  · exact fun addr hbank hq hdebt => refreshCommand_postponed hmode (State.bankBusy_line hbank hq) hdebt
  · exact fun n0 n1 d0 d1 hmode hrole hon => patrolScrub_clean hmode hrole hon
  · exact fun s v l noise d d' => rewriteVerify_clean
  · exact fun s v seg i rest d hmode hwaits hfree hflags _ => rowSpare_clean hmode hwaits hfree hflags
  · exact fun s s1 v g r bs => patternRestore_golden

end Sys2Proof.Proofs
end

section
/-! PROOFS. A held reset after an adjournment of the same round (R419, R428). O39 is refuted. -/

namespace Sys2Proof.Proofs

open Sys2Proof Sys2Proof.Machine Sys2Proof.Safety Sys2Proof.Claims

/-- A round in which every sensor reads 1 °C. -/
def oneDegree : List Int := List.replicate 352 16

/-- A READY device at 0 °C for 32 rounds, whose requested reset is held. The host takes its error log, and vault 0 has a merge entry for
line 0, whose stored word is lost. -/
def heldRising : State := {
  regs := [(regKey pgStw 0 0 rStwElogCfg, 0x80000000)]
  vaults := [(0, { role := .logical, valid := [0], arr := [(0, 0xFF), (1, 0xFF), (2, 0xFF), (3, 0xFF), (4, 0xFF)]
                   mb := [⟨0, [some 0], false, false⟩] })]
  host := { width := 16 }
  thm := { hist := List.replicate 32 [], resetHeld := true, heldAs := .plain }
  boot := { state := .ready } }

/-- The state after a housekeeping round of 1 °C at every sensor. -/
def roundOf (s : State) : State := match execHousekeepingRound oneDegree 0 s with
  | .next t => t
  | _ => s

theorem heldRising_round : (roundOf heldRising).thm.resetHeld = false ∧ (roundOf heldRising).host.mem ≠ [] := by decide +kernel

/-- Refutes O39: its clause on a held reset leaves host memory as it was before the round, but the round comes first. In `heldRising` all
stack columns rise by 1 °C within 32 rounds, a sudden stop at the reset values of THM_CFG (R419), so the device adjourns and vault 0
evicts its merge entry (R421); line 0 is lost, and the error log shows the loss in host memory (R326, R335). Then the device is cool
enough, and the held reset begins (R428): it keeps that host memory. -/
theorem not_heatAdjournsAndResumes : ¬ Obligations.HeatAdjournsAndResumes := by
  unfold Obligations.HeatAdjournsAndResumes
  rintro ⟨-, -, -, hround, -⟩
  obtain ⟨t, hexec, hleaves⟩ := (hround heldRising oneDegree 0).2 rfl
  obtain ⟨hreleased, hmem⟩ := heldRising_round
  have ht : roundOf heldRising = t := by
    unfold roundOf
    rw [show execHousekeepingRound oneDegree 0 heldRising = .next t from hexec]
  rw [ht] at hreleased hmem
  rcases hleaves with ⟨hheld, -⟩ | ⟨-, hreset⟩
  · exact absurd (hreleased.symm.trans hheld) (by decide)
  · exact hmem hreset.outside.1

end Sys2Proof.Proofs
end

section
/-! PROOFS. A snapshot that a freed page goes into first (R373). O52 is refuted. -/

namespace Sys2Proof.Proofs

open Sys2Proof Sys2Proof.Machine Sys2Proof.Safety Sys2Proof.Claims

/-- The ledger of `imaging`: a held page of vault 0 that nothing refers to, and a page of vault 1. -/
def twoPages : SMap LEntry := [(0, { st := .near, held := true }), (1, { st := .near, vault := 1 })]

/-- A snapshot to 1 MiB in the memory of core 1 has yet to copy granule 0 of vault 0, whose lines wait in the write queue. In vault 1 all
64 merge entries are in use, for the lines of granule 0; the stored word of its line 0 is lost. -/
def imaging : State := {
  regs := [(regKey pgVlt 1 0 rVltCfg, 127)]
  vaults := [(0, { role := .logical, valid := [0], wq := (List.range 64).map (fun l => (l, List.replicate 64 0)) }),
             (1, { role := .logical, logical := 1, valid := [0, 256, 257], arr := [(0, 0xFF), (1, 0xFF), (2, 0xFF), (3, 0xFF), (4, 0xFF)]
                   mb := (List.range 64).map (fun l => ⟨l, [some 0], false, false⟩) })]
  ledgA := twoPages
  ledgB := twoPages
  snap := some ⟨0, 0, 3 <<< 60 + 1 <<< 30 + 1048576, [0], [], 0, []⟩ }

theorem imaging_pageFree : ((reachServe.take imaging (imaging.pageFree 0)).ledg 1).st = .recompute := by decide +kernel

/-- Refutes O52: its last clause leaves every other entry as it was when a held page becomes FREE, but the page's granules go into a
running snapshot before they are cleared (R373). In `imaging` the image ends in a part of a line, for which vault 1 evicts its oldest
merge entry (R185); the line beneath is lost, and the entry of its page becomes RECOMPUTE (R327). Without a snapshot no line is read, and this does not
arise. -/
theorem not_streamsAndPagesMove : ¬ Obligations.StreamsAndPagesMove := by
  unfold Obligations.StreamsAndPagesMove
  intro h
  obtain ⟨-, -, -, -, hfree⟩ := (h imaging rfl).2 0
  obtain ⟨t, hexec, -, hothers⟩ := hfree rfl rfl rfl rfl
  have ht : reachServe.take imaging (imaging.pageFree 0) = t := Host.Outcome.next.inj hexec
  have hst : (t.ledg 1).st = (imaging.ledg 1).st := congrArg LEntry.st (hothers 1 (by decide))
  rw [← ht, imaging_pageFree] at hst
  exact absurd hst (by decide)

end Sys2Proof.Proofs
end
